-- ==== Sys2Proof/Word.lean ====
section
/-! DEFINITION. The word types of the part and their plainest arithmetic. A register is 32 bits (R7); packets,
media and memories are strings of bytes. -/
namespace Sys2Proof

/-- One register's value (R7). -/
abbrev Word := BitVec 32

/-- One byte. -/
abbrev Byte := BitVec 8

/-- A string of bytes, the first byte first. -/
abbrev Bytes := List Byte

/-- The larger of two counts minus the smaller (a distance). -/
def absDiff (a b : Nat) : Nat := if a ≤ b then b - a else a - b

end Sys2Proof
end

