-- ==== Sys2Proof/Syntax.lean ====
section
/-! DEFINITION. The commands of the block: one constructor of `Instr` per row of spec/opcode_table.json, with the
operands that the row's rule names. A row that is a received packet carries the datagram, a row that is a register
access carries the requester and the written value, a row that is an event carries where it happens and what was
measured. -/
namespace Sys2Proof

/-- A controller die's number (R1: 0 to 7). -/
abbrev DieId := Fin 8
/-- A flash channel of a die (R179). -/
abbrev ChanId := Fin 8
/-- A worker core of a die (R459). -/
abbrev CoreId := Fin 8
/-- An R/B line: each channel has one for each of its 4 CEs (R260). -/
structure RbLine where
  chan : ChanId
  ce   : Fin 4
deriving DecidableEq, Repr
/-- An Ethernet port of a die. -/
abbrev PortId := Fin 2
/-- A Swarm port of a die (R17). -/
abbrev SwmId := Fin 3
/-- A slot of HCE (R305). -/
abbrev SlotId := Fin 4

/-- The requesters of register accesses (R40): the worker cores of a die, the guard core, the Waggle port, and the
admin register-access commands of tenant 0. -/
inductive Requester where
  | cores (d : DieId)
  | guard
  | waggle
  | admin
deriving DecidableEq, Repr

/-- What starts a warm reset, numbered as event 0x05 (R399): 1 RESET_N, 2 RESET_DEVICE, 3 die 0 fault, 4 alarm,
5 power-loss restart. -/
inductive WarmCause where
  | resetN
  | resetDevice
  | die0Fault
  | alarm
  | lossRestart
deriving DecidableEq, Repr

/-- A UDP datagram as it reaches KTP (R56, R57, R66): where it came in and from whom, what the IP layer found, and the
UDP payload, which is the Kocel packet (R60). -/
structure Datagram where
  v6       : Bool            -- carried over IPv6
  srcIp    : Nat             -- the 32-bit or 128-bit source address
  srcUdp   : Nat
  dstIp    : Nat             -- the address that it is sent to (R56)
  dstUdp   : Nat
  srcMac   : Nat
  vlan     : Option Nat
  pcp      : Nat
  dscp     : Nat
  fragment : Bool            -- a fragment (R57)
  options  : Bool            -- IPv4 options or IPv6 extension headers (R57)
  csumOk   : Bool            -- UDP checksum good, or zero over IPv4 (R57)
  payload  : Bytes
deriving DecidableEq, Repr

/-- An Ethernet frame as it reaches a port: its bytes without the FCS, whether the FCS is good, whether the frame holds
an uncorrectable FEC codeword (R411). -/
structure Frame where
  bytes : Bytes
  fcsOk : Bool
  fecOk : Bool
deriving DecidableEq, Repr

/-- A sample place of THM: a controller die or the guard die (R510). -/
inductive Site where
  | die (d : DieId)
  | guard
deriving DecidableEq, Repr

/-- How the read of one page ended for LDC (R278): the stage that yielded its codewords, a channel check mismatch
(R289), or no stage. -/
inductive ReadOutcome where
  | hard                     -- stage 1
  | retry (entry : Fin 32)   -- stage 2, with the retry entry that succeeded
  | soft                     -- stage 3
  | rebuilt (joint : Bool)   -- stage 4, by a joint decode of two failed members or not (R277)
  | failed                   -- stage 5: unrecoverable
  | checkFault               -- R289: the channel check mismatched
deriving DecidableEq, Repr

/-- What the clock monitor has seen (R26): the PLL has lost its lock, or its outputs deviate, in 1/1000. -/
inductive ClockSeen where
  | lockLost
  | deviation (permille : Nat)
deriving DecidableEq, Repr

/-- The sources of an alarm (R360), coded as CRY_ALARM_LAST[2:0]. A tamper alarm names its input. -/
inductive AlarmSource where
  | glitch
  | clock (seen : ClockSeen)
  | temperature
  | tamper (input : Fin 2)
  | waggle
deriving DecidableEq, Repr

/-- What wakes a die or the package (R497), in the order of the rule's rows. -/
inductive WakeSource where
  | frame (d : DieId)
  | sigdet (d : DieId) (p : PortId)
  | access (d : DieId)
  | icu (d : DieId)
  | work (d : DieId)
  | smbus (i : Fin 2)
  | wakeN
  | rtc
  | alarm
deriving DecidableEq, Repr

/-- How a die fault was found (R463). -/
inductive DieFaultCause where
  | dram            -- R429
  | pool            -- R439
  | cores           -- R462
  | unresponsive    -- R477
  | rail            -- the core rail failed
  | image           -- a rejected image (R534)
deriving DecidableEq, Repr

/-- What a poll of a PMBus output found (R556): STATUS_WORD and the four measured values, or no answer. -/
inductive PmbAnswer where
  | none
  | word (status : BitVec 16) (vin vout iout temp : Nat)
deriving DecidableEq, Repr

/-- What DMC found in one burst (R428). -/
inductive BurstState where
  | good
  | single
  | uncorrectable
deriving DecidableEq, Repr

/-- A flit of a Swarm link (R473, R474, R476): its class (true for responses), sequence number, whether its CRC is
good, and the message it carries: source, destination and end-to-end number. -/
structure Flit where
  response : Bool
  seq      : Nat
  crcOk    : Bool
  src      : DieId
  dst      : DieId
  e2e      : BitVec 16
deriving DecidableEq, Repr

/-- The commands. Each constructor is a row of spec/opcode_table.json. -/
inductive Instr where
  -- resets and registers
  | coldReset
  | warmReset (cause : WarmCause) (lowNs : Nat)
  | softReset (r : Requester) (base : Word) (en : Bool)
  | softResetDone (base : Word)
  | pageLock (r : Requester) (base : Word) (en : Bool)
  | registerWrite (r : Requester) (addr : Word) (width : Nat) (v : Word)
  | intStatClear (r : Requester) (base bits events : Word)
  | intTest (r : Requester) (base bits : Word)
  | errCodeRead (r : Requester) (base : Word)
  | pairLoRead (r : Requester) (addr : Word)
  | pairHiRead (r : Requester) (addr : Word)
  | pairLoWrite (r : Requester) (addr v : Word)
  | pairHiWrite (r : Requester) (addr v : Word)
  -- Kocel transport
  | openPkt (d : DieId) (p : PortId) (g : Datagram)
  | openRefuseWindow (d : DieId) (p : PortId)
  | openRcvdTimeout (d : DieId) (slot : Nat)
  | cmdSegment (d : DieId) (p : PortId) (g : Datagram)
  | dataOut (d : DieId) (p : PortId) (g : Datagram)
  | ack (d : DieId) (p : PortId) (g : Datagram)
  | close (d : DieId) (p : PortId) (g : Datagram)
  | closingTimeout (d : DieId) (slot : Nat)
  | terminate (d : DieId) (p : PortId) (g : Datagram)
  | terminateBarrier (d : DieId)
  | ackDelayExpiry (d : DieId) (slot : Nat)
  | rtoExpiry (d : DieId) (slot : Nat)
  | idleTimeout (d : DieId) (slot : Nat)
  | grantIssue (d : DieId) (cid : Nat)
  | grantTimeout (d : DieId) (cid : Nat)
  | rateAdmit (d : DieId) (slot : Nat)
  | tokenRefill (d : DieId) (tenant : Nat)
  -- scheduling
  | cmdIntake (d : DieId)
  | csqDispatch (d : DieId)
  | urgentRefill (d : DieId)
  -- commands on the die that executes them, by command identity
  | get (d : DieId) (cid : Nat)
  | put (d : DieId) (cid : Nat)
  | delete (d : DieId) (cid : Nat)
  | stat (d : DieId) (cid : Nat)
  | read (d : DieId) (cid : Nat)
  | write (d : DieId) (cid : Nat)
  | trim (d : DieId) (cid : Nat)
  | flush (d : DieId) (cid : Nat)
  | flushBarrier (d : DieId)
  | flushConfirm (d : DieId) (cid : Nat)
  | abort (d : DieId) (cid : Nat)
  | nop (d : DieId) (cid : Nat)
  | identifyTenant (d : DieId) (cid : Nat)
  | resetSession (d : DieId) (cid : Nat)
  | resetSessionBarrier (d : DieId)
  | meterRead (d : DieId) (cid : Nat)
  | regRead (d : DieId) (cid : Nat)
  | regWrite (d : DieId) (cid : Nat)
  | resetDevice (d : DieId) (cid : Nat)
  | tenantSet (d : DieId) (cid : Nat)
  | nsCreate (d : DieId) (cid : Nat)
  | nsDelete (d : DieId) (cid : Nat)
  | keyInstall (d : DieId) (cid : Nat)
  | fwDownload (d : DieId) (cid : Nat) (readBackOk : Bool)
  | fwActivate (d : DieId) (cid : Nat)
  | actDrainDone
  | actDrainTimeout
  | format (d : DieId) (cid : Nat)
  | logRead (d : DieId) (cid : Nat)
  | clockSet (d : DieId) (cid : Nat)
  -- map and Nectar buffer
  | bucketLookupDone (d : DieId) (cid : Nat) (pageOk : Bool)
  | nectarAdmit (d : DieId)
  | packerStripe (d : DieId)
  | checkpoint (d : DieId)
  | mapCkptNow (r : Requester) (d : DieId)
  | slcTargetRecompute (d : DieId)
  | mapLockTimeout (d : DieId) (core : CoreId) (tenant nsid index : Nat) (heldMs : Nat)
  -- Forager
  | fgrScore (d : DieId)
  | fgrReclaim (d : DieId)
  | cmbDrainFence (d : DieId)
  | fgrEraseStart (d : DieId)
  | fgrRecount (r : Requester) (d : DieId)
  | fgrRecountDone (d : DieId)
  | readOnlyEnter (d : DieId)
  -- flash channels and power tokens
  | flashOpIssue (d : DieId) (op : Nat)
  | flashReadComplete (d : DieId) (op : Nat) (o : ReadOutcome)
  | flashProgramComplete (d : DieId) (op : Nat) (pass : Bool)
  | flashEraseComplete (d : DieId) (op : Nat) (pass check1 check2 : Bool)
  | lunTimeout (d : DieId) (op : Nat)
  | rbStuck (d : DieId) (l : RbLine)
  | channelRetrainDone (d : DieId) (c : ChanId) (ok : Bool) (bad : List Nat)  -- bad: the LUNs that fail identification, CE × 16 + LUN
  | degradedReadTimeout (d : DieId) (op : Nat)
  | tokenPeriod (d : DieId)
  | tokenAllocate
  -- Comb registers
  | cmbInvalidate (r : Requester) (d : DieId) (v : Word)
  | cmbWrite (r : Requester) (d : DieId) (v : Word)
  | cmbValidate (r : Requester) (d : DieId) (v : Word)
  | cmbResult (r : Requester) (d : DieId) (v : Word)
  | cmbInvMasked (r : Requester) (d : DieId) (v : Word)
  | cmbUpdateDone (d : DieId)
  | cmbSlotReclaimDone (d : DieId)
  | cmbSearch (r : Requester) (d : DieId) (v : Word)
  | cmbSearchResult (d : DieId)
  | cmbShift (r : Requester) (d : DieId) (v : Word)
  | cmbShiftDone (d : DieId)
  -- hold-up control and supervision
  | hceOuterSample (n : SlotId) (meas : Int)
  | hceInnerSample (n : SlotId) (meas : Int)
  | hceClampTimeout (n : SlotId)
  | fanFault (n : SlotId)
  | hceTraceArm (r : Requester) (n : SlotId) (v : Word)
  | hceTraceFire (r : Requester) (n : SlotId) (v : Word)
  | traceStop (n : SlotId)
  | hceTrDataRead (r : Requester)
  | bankOv (vbank : Nat)
  | chargerRestart
  | bankTestStart
  | bankTestDue
  | psuTestNow (r : Requester)
  | bankTestDischarge (vStep iStep : Nat)
  | bankTestLowReached
  | bankTestDone (charge : Nat)
  | bankTestTimeout
  | dirtyLimitUpdate (vin vbank vhold vLow : Nat)
  | powerLoss
  | dieFlushDone (d : DieId)
  | flushShort
  | lossRestart
  | psuLossInfoRead (r : Requester)
  -- die faults and worker cores
  | dieFault (d : DieId) (cause : DieFaultCause)
  | dieResetDone (d : DieId)
  | die0Fault
  | coreWdtExpiry (d : DieId) (core : CoreId)
  | wrkKick (r : Requester) (d : DieId) (v : Word)
  -- power states
  | idleEntry (d : DieId)
  | sleepEntry (d : DieId)
  | deepRequest (d : DieId)
  | deepEntry
  | wake (w : WakeSource)
  | pllLock (d : DieId)
  | clockDomainRegate (d : DieId) (page : Nat)
  | pkgOff (r : Requester)
  | pkgWake (r : Requester)
  | rtcAlarm
  | wakeNLow (us : Nat)
  -- management sideband
  | mgtHealth (i : Fin 2)
  | mgtState (i : Fin 2)
  | mgtTemp (i : Fin 2)
  | mgtVin (i : Fin 2)
  | mgtVbank (i : Fin 2)
  | mgtBank (i : Fin 2)
  | mgtDies (i : Fin 2)
  | mgtWake (i : Fin 2) (v : Byte) (pec : Option Byte)
  | mgtUnknownCode (i : Fin 2) (code : Byte)
  | mgtBusTimeout (i : Fin 2)
  -- thermal management
  | thmSample (at_ : Site) (readings : List Int)
  | thmStateExit (at_ : Site)
  | sensorRecover (at_ : Site) (n : Fin 12)
  | thmStage2 (d : DieId)
  | thermalRestart (at_ : Site)
  | thmTrimUpdate (at_ : Site)
  | thmLoaded (r : Requester) (at_ : Site) (v : Word)
  -- alarms and randomness
  | alarm (src : AlarmSource) (at_ : Site)
  | alarmRecover
  | entropyHealthFail (d : DieId)
  | drbgReseed (d : DieId)
  | ctrBoundRequest (d : DieId) (slot : Nat)
  -- metering, monitors and events
  | minuteBoundary
  | meterPartial (d : DieId)
  | meterSeal
  | meterDieTimeout (d : DieId)
  | capSample (d : DieId)
  | devtimeSync (d : DieId) (guardNow : Nat)
  | wallMark
  | levelSample (d : DieId)
  | latSel (r : Requester) (d : DieId) (v : Word)
  | eventRecord (d : DieId) (code : Byte) (value : Nat)
  | evrRefill (d : DieId)
  | evrSel (r : Requester) (d : DieId) (v : Word)
  | evrClearAll (r : Requester) (d : DieId)
  -- Ethernet ports
  | rxFrame (d : DieId) (p : PortId) (f : Frame)
  | pfcPauseExpire (d : DieId) (p : PortId) (prio : Fin 8)
  | pfcResend (d : DieId) (p : PortId)
  | pfcWatchdog (d : DieId) (p : PortId) (prio : Fin 8)
  | txFrame (d : DieId) (p : PortId) (underrun : Bool)
  | linkUp (d : DieId) (p : PortId)
  | linkDown (d : DieId) (p : PortId)
  | linkTrainFail (d : DieId) (p : PortId)
  | ethSnap (r : Requester) (d : DieId) (p : PortId) (v : Word)
  | ethFltAct (r : Requester) (d : DieId) (p : PortId) (v : Word)
  | ethAddrCfg (r : Requester) (d : DieId) (p : PortId) (v : Word)
  -- DRAM, buffer pools and the mover
  | dmcRefresh (d : DieId) (hot : Bool)
  | neighbourRefresh (d : DieId) (sub : Fin 2) (bank row : Nat)
  | dmcLfsrReseed (d : DieId)
  | dmcScrub (d : DieId) (addr : Nat) (b : BurstState)
  | dmcTrainOp (r : Requester) (d : DieId) (v : Word)
  | dmcTrainDone (d : DieId) (errors : List Nat) (failLane : Option Nat)
  | bpmPoolEnable (r : Requester) (d : DieId) (v : Word)
  | bpmAlloc (d : DieId) (pool : Fin 16) (owner : Nat)
  | bpmAdd (d : DieId) (addr actor owner : Nat)
  | bpmMove (d : DieId) (addr src dst : Nat)
  | bpmDrop (d : DieId) (addr owner : Nat)
  | bpmFree (d : DieId) (pool : Fin 16) (addr : Nat)
  | bpmSweep (r : Requester) (d : DieId) (v : Word)
  | bpmSweepDone (d : DieId)
  | bpmUnfence (r : Requester) (d : DieId) (v : Word)
  | bpmMinFreeRead (r : Requester) (d : DieId)
  | movDoorbell (r : Requester) (d : DieId) (v : Word)
  | gather (d : DieId)
  | scatter (d : DieId)
  | copy (d : DieId)
  | movPulse (d : DieId)
  -- interrupts, Swarm links and Waggle
  | icuEvent (d : DieId) (src : Nat)
  | icuClaim (d : DieId) (core : CoreId)
  | icuComplete (r : Requester) (d : DieId) (v : Word)
  | icuSwset (r : Requester) (d : DieId) (v : Word)
  | icuHoldoffExpiry (d : DieId) (g : Fin 16)
  | swmFlitRx (d : DieId) (k : SwmId) (f : Flit)
  | swmReplayTimeout (d : DieId) (k : SwmId)
  | swmRetrainDone (d : DieId) (k : SwmId) (ok : Bool)
  | swmRetire (r : Requester) (d : DieId) (k : SwmId) (v : Word)
  | swmRouteSwitch (d : DieId) (k : SwmId)
  | swmCreditTimeout (d : DieId) (k : SwmId)
  | wglLineSync
  | readStatus (hdr : BitVec 16)
  | writeCtrl (hdr : BitVec 16) (data : Word) (crc : Byte)
  | writeAddr (hdr : BitVec 16) (data : Word) (crc : Byte)
  | readData (hdr : BitVec 16)
  | writeData (hdr : BitVec 16) (data : Word) (crc : Byte)
  | readChal (hdr : BitVec 16)
  | writeResp (hdr : BitVec 16) (data : Word) (crc : Byte)
  | readId (hdr : BitVec 16)
  | wglResponseVerify
  | wglGrant
  | wglHaltReq (r : Requester) (d : DieId) (v : Word)
  | wglResume (r : Requester) (d : DieId) (v : Word)
  | wglStep (r : Requester) (d : DieId) (v : Word)
  | coreHalt (d : DieId) (core : CoreId) (pc : Word)
  | wglBreakpoint (d : DieId) (core : CoreId) (pc : Word)
  | wglMemAccess (r : Requester) (d : DieId) (wr : Option Word)
  | wglCregAccess (r : Requester) (d : DieId) (wr : Option Word)
  -- boot NOR, firmware, watchdog and PMBus
  | norProgram (r : Requester) (v : Word)
  | norErase (r : Requester) (v : Word)
  | norUnlockPe (r : Requester)
  | norUnlockOptWe (r : Requester)
  | psuWdtKick (r : Requester)
  | pmbPoll (rail : Fin 16) (a : PmbAnswer)
  | pmbFaultRecheck (rail : Fin 16) (a : PmbAnswer)
  | pmbMargin (r : Requester) (v : Word)
  | pmbClear (r : Requester) (v : Word)
  | entropyStartupPass (d : DieId)
  -- those of them without operands, last of all, so that every constructor compiles
  | norOpDone
  | journalCompact
  | fwConfirm
  | svnCommit
  | packageWdtExpiry
  | pmbAlert
  | resetNRelease
  | bankExhausted
deriving DecidableEq, Repr

end Sys2Proof
end

