-- ==== Sys2Proof/Decode.lean ====
section
/-! DEFINITION. The reading of a table word. The rows of spec/opcode_table.json are commands, events and register
accesses of a block; none of them gives bits, so no word spells one. -/
namespace Sys2Proof

/-- The command that a word of the table's bits spells: none, as no row gives bits. -/
def decodeTableWord (_nbits _w : Nat) : Option Instr := none

end Sys2Proof
end

