-- ==== Sys2Proof/Config.lean ====
section
/-! DEFINITION. What the spec leaves open: FREE VALUES. Each is an opaque constant without a body, applied to a
draw number (a counter in State, `State.draws`) or to the operands it depends on, so that nothing can be proved of
its value. -/
namespace Sys2Proof.Config

/-- Output bytes of the CTR_DRBG (R358): the n-th byte drawn. The spec fixes no value (log 4). -/
opaque drbgByte : Nat → Byte

/-- The mask bytes of a pipeline's generator (R357), whose algorithm is not given (log 174). Arguments: the draw that seeded it, the
block since then, the byte. -/
opaque maskByte : Nat → Nat → Nat → Byte

/-- A choice that the spec leaves to the device (the slot of a new session R68, and the like) (log 5). -/
opaque choice : Nat → Nat

/-- The signing of a metering seal inside CRY of die 0 (R387): the key derivation from PKG_SECRET is not given, and
the per-signature secret comes from the CTR_DRBG; 96 bytes, r then s (log 6). Arguments: draw number, digest. -/
opaque sealSign : Nat → Bytes → Bytes

/-- The public key that goes with `sealSign`, a 97-byte SEC1 point (R401) (log 6). -/
opaque sealPublicKey : Bytes → Bytes

/-- The key-store key derived inside CRY from the package secret fuses (R344); the derivation is not given (log 6). -/
opaque keyStoreKey : Bytes → Bytes

/-- The 16-byte block "holding the slot's bank, slot number and block index" of R343, whose layout is not given
(log 7). Arguments: bank, slot, block index. -/
opaque maskBlock : Nat → Nat → Nat → Bytes

/-- What a worker core's register of the debug map holds (R492, WGL_CREG_DATA): firmware's, not the spec's (log 8). -/
opaque coreRegister : Nat → Word

/-- The joint decode of two failed stripe members (R277): whether it succeeds is the device's own (log 9). -/
opaque jointDecode : Nat → Bool

/-- Entries of the firmware's event catalogue (R401 selector 0x04): defined by the firmware (log 8). -/
opaque catalogueEntry : Nat → Option Bytes

/-- What a burst of DRAM holds (R429): 0 a part of the Nectar ring, 1 a page of the map-page cache, anything else another
region. Firmware lays DRAM out; the spec gives no addresses (log 70). Arguments: die, die-local address. -/
opaque dramRegion : Nat → Nat → Nat

/-- The bank (subchannel, rank, bank group and bank as one number) and the row of a DRAM burst (R432): the spec gives no mapping
(log 133). Arguments: die, die-local address. -/
opaque dramPlace : Nat → Nat → Nat × Nat

/-- Which write of the ring, or which cached page, a burst of DRAM holds a part of (log 70). -/
opaque dramItem : Nat → Nat → Nat

/-- What a read-only register shows where the spec states no value: the age of a test or a scrub pass before the first
one, the hottest sensor when none is good, the oldest minute of an empty log, the resolved speed of a link that is down
(log 78). Argument: register address. -/
opaque unstatedRead : Nat → Word

/-- Whether the NAND manufacturer has marked a block bad (R246): a property of the flash, not of the device's rules
(log 88). Arguments: die, block group, channel. -/
opaque badBlock : Nat → Nat → Nat → Bool

/-- Whether REFCLK is absent or the PLLs of die 0 fail to lock at a start: no row reports it (R25, log 157). -/
opaque clockFails : Nat → Bool

/-- Whether a LUN's parameter page advertises an optional command (R262): Reset LUN (0), ODT Configure (1), ZQ calibration (2).
A property of the flash (log 171). Arguments: die, channel, CE × 16 + LUN, command. -/
opaque advertises : Nat → Nat → Nat → Nat → Bool

/-- Whether the first or the last wordline of a block is erased after a mount has redone its erase (R219, R285): a property of the
flash (log 54). -/
opaque wordlineErased : Nat → Bool

end Sys2Proof.Config
end

