-- ==== Sys2Proof/Machine/Bits.lean ====
section
/-! DEFINITION. Bit fields, byte order, signed fields and small list helpers that the meanings share. -/
namespace Sys2Proof.Machine
open Sys2Proof

/-- Bits [hi:lo] of a number (R5). -/
def bitsOf (n hi lo : Nat) : Nat := (n >>> lo) % 2 ^ (hi + 1 - lo)

/-- The field [hi:lo] of a register value (R5). -/
def fld (v : Word) (hi lo : Nat) : Nat := bitsOf v.toNat hi lo

/-- Bit n of a register value. -/
def bitAt (v : Word) (n : Nat) : Bool := v.getLsbD n

/-- The ones of the field [hi:lo]. -/
def fieldMask (hi lo : Nat) : Word := BitVec.ofNat 32 ((2 ^ (hi + 1 - lo) - 1) <<< lo)

/-- A register value with the field [hi:lo] replaced. -/
def setFld (v : Word) (hi lo x : Nat) : Word :=
  (v &&& ~~~ fieldMask hi lo) ||| (BitVec.ofNat 32 (x <<< lo) &&& fieldMask hi lo)

/-- A number read as a two's complement number of the given width. -/
def signed (w n : Nat) : Int := if n % 2 ^ w < 2 ^ (w - 1) then ((n % 2 ^ w : Nat) : Int) else ((n % 2 ^ w : Nat) : Int) - (2 ^ w : Nat)

/-- An integer as a register value in two's complement. -/
def wordOfInt (i : Int) : Word := BitVec.ofInt 32 i

/-- A count held in a saturating 32-bit counter. -/
def satWord (n : Nat) : Word := BitVec.ofNat 32 (min n 0xFFFFFFFF)

/-- Little-endian value of a byte string (R7). -/
def leNat : Bytes → Nat
  | [] => 0
  | b :: bs => b.toNat + 256 * leNat bs

/-- Big-endian value of a byte string (R59). -/
def beNat (b : Bytes) : Nat := leNat b.reverse

/-- The n low bytes of a number, little-endian. -/
def leBytes : Nat → Nat → Bytes
  | 0, _ => []
  | n + 1, x => BitVec.ofNat 8 x :: leBytes n (x / 256)

/-- The n low bytes of a number, big-endian. -/
def beBytes (n x : Nat) : Bytes := (leBytes n x).reverse

/-- len bytes of a byte string from an offset. -/
def slice (b : Bytes) (off len : Nat) : Bytes := (b.drop off).take len

/-- The byte at an offset, 0 past the end. -/
def byteAt (b : Bytes) (i : Nat) : Nat := (b.getD i 0).toNat

/-- n zero bytes. -/
def zeros (n : Nat) : Bytes := List.replicate n 0

/-- A byte string padded with zeros to n bytes. -/
def padTo (n : Nat) (b : Bytes) : Bytes := b ++ zeros (n - b.length)

/-- Bytewise exclusive or, as long as the shorter. -/
def xorBytes : Bytes → Bytes → Bytes
  | a :: as, b :: bs => (a ^^^ b) :: xorBytes as bs
  | _, _ => []

/-- A string in quotation marks stands for its ASCII bytes (R72). -/
def asciiBytes (s : String) : Bytes := s.toList.map (fun c => BitVec.ofNat 8 c.toNat)

/-- Cuts a byte string into pieces of n bytes, with fuel. -/
def chunksAux (n : Nat) : Nat → Bytes → List Bytes
  | 0, _ => []
  | fuel + 1, b => match b with
    | [] => []
    | _ => b.take n :: chunksAux n fuel (b.drop n)

/-- Cuts a byte string into pieces of n bytes, the last one shorter when it does not come out even. -/
def chunks (n : Nat) (b : Bytes) : List Bytes := chunksAux n (b.length + 1) b

/-- Replaces the entry of an association list, or adds it. -/
def assocSet {α : Type} {β : Type} [DecidableEq α] (k : α) (v : β) : List (α × β) → List (α × β)
  | [] => [(k, v)]
  | (a, b) :: r => if a = k then (k, v) :: r else (a, b) :: assocSet k v r

/-- Looks a key up in an association list. -/
def assocGet {α : Type} {β : Type} [DecidableEq α] (k : α) : List (α × β) → Option β
  | [] => none
  | (a, b) :: r => if a = k then some b else assocGet k r

/-- Removes a key from an association list. -/
def assocDel {α : Type} {β : Type} [DecidableEq α] (k : α) (l : List (α × β)) : List (α × β) :=
  l.filter (fun p => p.1 ≠ k)

/-- Changes the elements of a list that a test picks. -/
def updWhere {α : Type} (p : α → Bool) (f : α → α) (l : List α) : List α :=
  l.map (fun a => if p a then f a else a)

/-- The element with the least measure, the first of equals. -/
def argMin {α : Type} (m : α → Nat) : List α → Option α
  | [] => none
  | a :: r => match argMin m r with
    | none => some a
    | some b => if m b < m a then some b else some a

/-- The element with the greatest measure, the first of equals. -/
def argMax {α : Type} (m : α → Nat) : List α → Option α
  | [] => none
  | a :: r => match argMax m r with
    | none => some a
    | some b => if m a < m b then some b else some a

/-- The sum of a measure over a list. -/
def sumBy {α : Type} (m : α → Nat) (l : List α) : Nat := l.foldr (fun a n => m a + n) 0

/-- Sets position n of a list. -/
def setAt {α : Type} (n : Nat) (v : α) (l : List α) : List α := l.set n v

/-- Adds k at position n of a list of counters, saturating at 32 bits. -/
def bumpAt (n k : Nat) (l : List Nat) : List Nat := l.set n (min ((l.getD n 0) + k) 0xFFFFFFFF)

/-- Ceiling division. -/
def ceilDiv (a b : Nat) : Nat := (a + (b - 1)) / b

/-- An integer clamped to a range (R306). -/
def clampI (lo hi x : Int) : Int := max lo (min hi x)

/-- Serial number order of PSNs (R77): a precedes b. -/
def psnBefore (a b : Word) : Bool := let d := (b - a).toNat; 1 ≤ d && d ≤ 2 ^ 31 - 1

/-! ### Owners of buffers (R441) -/

/-- Who may own a reference to a buffer. -/
inductive Owner where
  | core (n : Fin 8)
  | swarm (k : Fin 3)      -- for references held on behalf of the die beyond that port
  | ktp
  | eth
  | cry
  | ldc
  | mov
  | fch
  | map
  | fgr
deriving DecidableEq, Repr

/-- The owner IDs. -/
def Owner.id : Owner → Nat
  | .core n => n.val
  | .swarm k => 0x10 + k.val
  | .ktp => 0x20
  | .eth => 0x21
  | .cry => 0x22
  | .ldc => 0x23
  | .mov => 0x24
  | .fch => 0x25
  | .map => 0x26
  | .fgr => 0x27

/-- Every owner. -/
def allOwners : List Owner :=
  [.core 0, .core 1, .core 2, .core 3, .core 4, .core 5, .core 6, .core 7, .swarm 0, .swarm 1, .swarm 2, .ktp, .eth, .cry, .ldc,
   .mov, .fch, .map, .fgr]

/-- The IDs that the table lists; the others are reserved. -/
def ownerIds : List Nat := allOwners.map Owner.id

end Sys2Proof.Machine
end

