-- ==== Sys2Proof/Machine/RegTable.lean ====
section
/-! DEFINITION. The register tables of the chapters: for each block its programmable registers, with each field's
bits, access code (R10), reset value and stated range (R566). Header registers (R44) and read-only registers are not
listed here; a read-only register whose reset value is not 0 is in `roReset`. -/
namespace Sys2Proof.Machine
open Sys2Proof

/-- The access codes of R10 that a programmable register's fields carry. -/
inductive Acc where
  | rw
  | rwl
  | rws
  | ro
  | wo
  | w1s
deriving DecidableEq, Repr

/-- The values a field defines (R566). -/
inductive Rng where
  | any
  | between (lo hi : Nat)
  | sbetween (lo hi : Int)
  | oneOf (l : List Nat)
deriving DecidableEq, Repr

/-- A field of a register table: [hi:lo], access, reset value, values. -/
structure FieldSpec where
  hi    : Nat
  lo    : Nat
  acc   : Acc
  reset : Nat
  rng   : Rng
deriving DecidableEq, Repr

/-- A register (or a run of `count` registers, 4 bytes apart) of a register table. -/
structure RegSpec where
  off    : Nat
  count  : Nat
  fields : List FieldSpec
deriving DecidableEq, Repr

/-- The blocks of R37, and the package sequencer, which is PWR on the guard die. -/
inductive Block where
  | eth | ktp | csq | cmb | map | fgr | fch | ldc | mov | cry | dmc | bpm | icu | wrk | swm | evr | mtr | lat
  | pwr | pkgPwr | thm | hce | psu | nor | fwu | wgl | mgt
deriving DecidableEq, Repr

/-- KTP (R108). -/
def ktpRegs : List RegSpec :=
  [⟨0x40, 1, [⟨15, 0, .rwl, 0xBA04, .any⟩]⟩,
   ⟨0x44, 1, [⟨31, 16, .rwl, 0x4E20, .any⟩, ⟨15, 0, .rwl, 0x14, .any⟩]⟩,
   ⟨0x48, 1, [⟨23, 16, .rwl, 0x7, .between 1 255⟩, ⟨15, 8, .rwl, 0x4, .between 1 32⟩, ⟨7, 0, .rwl, 0x8, .between 1 255⟩]⟩,
   ⟨0x4C, 1, [⟨15, 8, .rwl, 0x8, .between 1 255⟩, ⟨7, 0, .rwl, 0x40, .between 4 255⟩]⟩,
   ⟨0x50, 1, [⟨15, 0, .rwl, 0x1E, .any⟩]⟩,
   ⟨0x54, 1, [⟨23, 16, .rwl, 0x32, .between 1 255⟩, ⟨15, 8, .rwl, 0x2, .between 1 8⟩, ⟨7, 0, .rwl, 0x10, .between 1 255⟩]⟩]

/-- CSQ (R139). -/
def csqRegs : List RegSpec :=
  [⟨0x40, 1, [⟨31, 24, .rw, 0x6, .between 1 255⟩, ⟨23, 16, .rw, 0x8, .between 1 255⟩, ⟨15, 8, .rw, 0xC, .between 1 255⟩, ⟨7, 0, .rw, 0x10, .between 1 255⟩]⟩,
   ⟨0x44, 1, [⟨23, 16, .rw, 0x1, .between 1 255⟩, ⟨15, 8, .rw, 0x2, .between 1 255⟩, ⟨7, 0, .rw, 0x4, .between 1 255⟩]⟩,
   ⟨0x48, 1, [⟨31, 16, .rw, 0x14, .between 1 65535⟩, ⟨15, 0, .rw, 0x64, .between 0 1000⟩]⟩,
   ⟨0x4C, 1, [⟨15, 0, .rw, 0x100, .between 64 16384⟩]⟩,
   ⟨0x50, 1, [⟨31, 16, .rw, 0x75, .any⟩, ⟨15, 0, .rw, 0x32, .any⟩]⟩,
   ⟨0x54, 1, [⟨31, 16, .rw, 0x195, .any⟩, ⟨15, 0, .rw, 0x32, .any⟩]⟩,
   ⟨0x58, 1, [⟨31, 24, .rwl, 0x40, .between 1 255⟩, ⟨23, 16, .rwl, 0x40, .between 1 255⟩, ⟨15, 8, .rwl, 0x40, .between 1 255⟩, ⟨7, 0, .rwl, 0x40, .between 1 255⟩]⟩,
   ⟨0x5C, 1, [⟨31, 24, .rwl, 0x40, .between 1 255⟩, ⟨23, 16, .rwl, 0x40, .between 1 255⟩, ⟨15, 8, .rwl, 0x40, .between 1 255⟩, ⟨7, 0, .rwl, 0x40, .between 1 255⟩]⟩,
   ⟨0x60, 1, [⟨10, 0, .rwl, 0x200, .between 16 1024⟩]⟩,
   ⟨0x64, 1, [⟨31, 16, .rw, 0xA, .between 1 65535⟩, ⟨15, 0, .rw, 0x32, .between 1 65535⟩]⟩,
   ⟨0x68, 1, [⟨31, 16, .rw, 0x12C, .between 1 65535⟩, ⟨1, 0, .rw, 0x2, .any⟩]⟩,
   ⟨0x6C, 1, [⟨7, 0, .rwl, 0x32, .between 1 100⟩]⟩]

/-- CMB (R176). -/
def cmbRegs : List RegSpec :=
  [⟨0x40, 1, [⟨3, 3, .rw, 0x0, .any⟩, ⟨2, 2, .rw, 0x1, .any⟩, ⟨1, 1, .rw, 0x1, .any⟩, ⟨0, 0, .rw, 0x1, .any⟩]⟩,
   ⟨0x44, 1, [⟨15, 8, .rwl, 0x10, .any⟩, ⟨7, 0, .rwl, 0xFF, .any⟩]⟩,
   ⟨0x48, 1, [⟨12, 0, .rw, 0x200, .between 0 4096⟩]⟩,
   ⟨0x50, 6, [⟨31, 0, .rw, 0xFFFFFFFF, .any⟩]⟩,
   ⟨0x68, 6, [⟨31, 0, .rw, 0xFFFFFFFF, .any⟩]⟩,
   ⟨0x80, 1, [⟨31, 24, .rw, 0x0, .any⟩, ⟨23, 23, .ro, 0x0, .any⟩, ⟨22, 22, .ro, 0x0, .any⟩, ⟨20, 20, .rw, 0x0, .any⟩, ⟨19, 16, .rw, 0x0, .between 1 5⟩, ⟨15, 0, .rw, 0x0, .any⟩]⟩,
   ⟨0x88, 6, [⟨31, 0, .rw, 0x0, .any⟩]⟩,
   ⟨0xA0, 6, [⟨31, 0, .rw, 0x0, .any⟩]⟩,
   ⟨0xB8, 4, [⟨31, 0, .rw, 0x0, .any⟩]⟩,
   ⟨0xC8, 1, [⟨31, 31, .w1s, 0x0, .any⟩, ⟨1, 1, .rw, 0x0, .any⟩, ⟨0, 0, .rw, 0x1, .any⟩]⟩,
   ⟨0xCC, 6, [⟨31, 0, .rw, 0x0, .any⟩]⟩,
   ⟨0xF8, 1, [⟨31, 16, .rw, 0x0, .any⟩, ⟨15, 0, .rw, 0x0, .any⟩]⟩,
   ⟨0xFC, 1, [⟨2, 2, .ro, 0x0, .any⟩, ⟨1, 1, .rw, 0x0, .any⟩, ⟨0, 0, .w1s, 0x0, .any⟩]⟩]

/-- MAP (R222). -/
def mapRegs : List RegSpec :=
  [⟨0x40, 1, [⟨19, 0, .rwl, 0x2000, .any⟩]⟩,
   ⟨0x44, 1, [⟨31, 16, .rw, 0x400, .between 64 65535⟩, ⟨15, 0, .rwl, 0x800, .between 256 16384⟩]⟩,
   ⟨0x48, 1, [⟨31, 16, .rw, 0x3C, .between 1 3600⟩, ⟨10, 0, .rw, 0x200, .between 16 1024⟩]⟩,
   ⟨0x4C, 1, [⟨31, 16, .rw, 0x100, .any⟩, ⟨15, 8, .rw, 0x10, .between 1 255⟩, ⟨7, 0, .rw, 0x40, .between 0 128⟩]⟩,
   ⟨0x50, 1, [⟨7, 0, .rw, 0xA, .between 1 255⟩]⟩,
   ⟨0x54, 1, [⟨0, 0, .w1s, 0x0, .any⟩]⟩]

/-- FGR (R258). -/
def fgrRegs : List RegSpec :=
  [⟨0x40, 1, [⟨7, 0, .rw, 0x8, .any⟩]⟩,
   ⟨0x44, 1, [⟨31, 16, .rw, 0xE10, .between 1 65535⟩, ⟨7, 0, .rw, 0x2, .any⟩]⟩,
   ⟨0x48, 1, [⟨31, 16, .rw, 0x640, .between 16 65535⟩, ⟨7, 0, .rw, 0x2, .any⟩]⟩,
   ⟨0x4C, 1, [⟨31, 16, .rw, 0x400, .any⟩, ⟨15, 0, .rw, 0x200, .any⟩]⟩,
   ⟨0x50, 1, [⟨15, 8, .rw, 0x80, .any⟩, ⟨7, 0, .rw, 0x10, .between 2 255⟩]⟩,
   ⟨0x54, 1, [⟨16, 16, .rw, 0x1, .any⟩, ⟨15, 8, .rw, 0xF, .between 1 255⟩, ⟨7, 0, .rw, 0x20, .between 1 255⟩]⟩,
   ⟨0x58, 1, [⟨31, 8, .rw, 0xBB80, .between 16 16777215⟩, ⟨7, 0, .rwl, 0x10, .between 1 64⟩]⟩,
   ⟨0x5C, 1, [⟨7, 0, .rwl, 0x3, .between 1 6⟩]⟩,
   ⟨0x60, 1, [⟨0, 0, .w1s, 0x0, .any⟩]⟩]

/-- FCH (R295). -/
def fchRegs : List RegSpec :=
  [⟨0x40, 1, [⟨19, 16, .rwl, 0x0, .between 0 3⟩, ⟨15, 0, .rwl, 0xA, .any⟩]⟩,
   ⟨0x44, 1, [⟨31, 28, .rwl, 0x1, .any⟩, ⟨27, 24, .rwl, 0x0, .any⟩, ⟨20, 18, .rwl, 0x2, .between 1 3⟩, ⟨17, 16, .rwl, 0x3, .between 2 3⟩, ⟨12, 0, .rwl, 0x1000, .between 64 4096⟩]⟩,
   ⟨0x48, 1, [⟨15, 0, .rwl, 0x48A0, .any⟩]⟩,
   ⟨0x4C, 1, [⟨31, 16, .rw, 0x1388, .between 100 65535⟩, ⟨15, 0, .rw, 0xC8, .between 20 65535⟩]⟩,
   ⟨0x50, 1, [⟨31, 16, .rw, 0x32, .between 10 65535⟩, ⟨15, 8, .rw, 0xA, .between 1 255⟩, ⟨7, 0, .rw, 0x19, .between 2 255⟩]⟩,
   ⟨0x54, 1, [⟨31, 24, .rw, 0x2, .any⟩, ⟨23, 16, .rw, 0x8, .any⟩, ⟨15, 0, .rw, 0xC8, .between 10 65535⟩]⟩,
   ⟨0x58, 1, [⟨31, 24, .rwl, 0x0, .any⟩, ⟨23, 16, .rwl, 0x0, .any⟩, ⟨15, 8, .rwl, 0x0, .any⟩, ⟨0, 0, .rwl, 0x0, .any⟩]⟩,
   ⟨0xA0, 1, [⟨31, 0, .rw, 0x0, .any⟩]⟩,
   ⟨0xA4, 1, [⟨31, 0, .rw, 0x0, .any⟩]⟩,
   ⟨0xA8, 1, [⟨31, 0, .rw, 0x0, .any⟩]⟩,
   ⟨0xAC, 1, [⟨31, 0, .rw, 0x0, .any⟩]⟩]

/-- LDC (R297). -/
def ldcRegs : List RegSpec :=
  [⟨0x40, 1, [⟨5, 4, .rwl, 0x0, .any⟩, ⟨1, 0, .rwl, 0x2, .any⟩]⟩,
   ⟨0x44, 1, [⟨23, 16, .rw, 0x4, .between 1 32⟩, ⟨11, 8, .rw, 0x7, .oneOf [3, 5, 7]⟩, ⟨5, 0, .rw, 0x10, .between 0 31⟩]⟩,
   ⟨0x48, 1, [⟨8, 8, .rw, 0x0, .any⟩, ⟨7, 3, .rw, 0x0, .any⟩, ⟨2, 0, .rw, 0x0, .between 0 3⟩]⟩,
   ⟨0x4C, 1, [⟨31, 0, .rw, 0x0, .any⟩]⟩,
   ⟨0x50, 1, [⟨15, 0, .rw, 0x40, .between 0 1024⟩]⟩]

/-- HCE (R328). -/
def hceRegs : List RegSpec :=
  [⟨0x140, 1, [⟨17, 16, .rw, 0x0, .any⟩, ⟨15, 3, .rw, 0x0, .between 0 4095⟩, ⟨2, 0, .rw, 0x0, .any⟩]⟩,
   ⟨0x144, 1, [⟨15, 0, .ro, 0x0, .any⟩]⟩]

/-- PSU (R330). -/
def psuRegs : List RegSpec :=
  [⟨0x40, 1, [⟨31, 16, .rwl, 0x258, .between 0 4000⟩, ⟨15, 0, .rwl, 0x226, .between 500 65535⟩]⟩,
   ⟨0x44, 1, [⟨31, 16, .rwl, 0x64, .between 10 65535⟩, ⟨8, 8, .rwl, 0x1, .any⟩, ⟨7, 0, .rwl, 0x5, .between 1 10⟩]⟩,
   ⟨0x48, 1, [⟨31, 16, .rwl, 0x578, .any⟩, ⟨15, 0, .rwl, 0xED8, .between 2000 3800⟩]⟩,
   ⟨0x4C, 1, [⟨31, 16, .rwl, 0x3E8, .between 1000 65535⟩, ⟨15, 0, .rwl, 0x7D0, .between 1000 4000⟩]⟩,
   ⟨0x50, 1, [⟨31, 16, .rwl, 0x7D0, .between 100 65535⟩, ⟨15, 8, .rwl, 0x4D, .between 13 192⟩, ⟨7, 0, .rwl, 0xE6, .between 128 250⟩]⟩,
   ⟨0x54, 1, [⟨15, 0, .rwl, 0x186A, .between 500 65535⟩]⟩,
   ⟨0x58, 1, [⟨31, 24, .rw, 0x32, .between 10 200⟩, ⟨23, 16, .rw, 0x14, .between 5 50⟩, ⟨15, 0, .rw, 0x18, .between 1 8760⟩]⟩,
   ⟨0x5C, 1, [⟨15, 0, .rw, 0x1F4, .between 10 65535⟩]⟩,
   ⟨0x60, 1, [⟨0, 0, .w1s, 0x0, .any⟩]⟩,
   ⟨0x100, 1, [⟨31, 16, .rwl, 0xA, .between 1 1000⟩, ⟨12, 8, .rwl, 0x14, .any⟩, ⟨7, 7, .rwl, 0x1, .any⟩, ⟨1, 0, .rwl, 0x1, .between 0 2⟩]⟩,
   ⟨0x104, 1, [⟨15, 0, .rwl, 0x226, .between 500 700⟩]⟩,
   ⟨0x108, 1, [⟨3, 0, .rw, 0x0, .oneOf [0, 1, 2, 3, 4, 8, 9, 10, 11, 12, 13, 14, 15]⟩]⟩,
   ⟨0x10C, 1, [⟨23, 16, .rw, 0x5, .between 1 10⟩, ⟨9, 8, .rw, 0x0, .between 0 2⟩, ⟨0, 0, .w1s, 0x0, .any⟩]⟩,
   ⟨0x180, 1, [⟨31, 24, .rwl, 0x3, .between 1 255⟩, ⟨23, 16, .rwl, 0xA, .between 1 255⟩, ⟨7, 6, .rwl, 0x0, .between 0 2⟩, ⟨5, 5, .rwl, 0x0, .any⟩, ⟨3, 2, .rwl, 0x0, .between 0 2⟩, ⟨1, 1, .rwl, 0x0, .any⟩]⟩,
   ⟨0x1C0, 1, [⟨31, 16, .rwl, 0x1E, .between 5 600⟩, ⟨15, 0, .rwl, 0x7D0, .between 100 60000⟩]⟩,
   ⟨0x1C4, 1, [⟨0, 0, .w1s, 0x0, .any⟩]⟩]

/-- CRY (R370). -/
def cryRegs : List RegSpec :=
  [⟨0x40, 1, [⟨2, 2, .rwl, 0x1, .any⟩, ⟨1, 1, .rwl, 0x1, .any⟩, ⟨0, 0, .rwl, 0x1, .any⟩]⟩,
   ⟨0x44, 1, [⟨15, 8, .rwl, 0x78, .between 111 125⟩, ⟨7, 0, .rwl, 0xE2, .sbetween (-40) 0⟩]⟩,
   ⟨0x48, 1, [⟨31, 16, .rwl, 0x3E8, .between 1 60000⟩, ⟨15, 0, .rwl, 0x400, .between 1 65535⟩]⟩,
   ⟨0x4C, 1, [⟨7, 0, .rwl, 0x20, .between 24 40⟩]⟩,
   ⟨0x50, 1, [⟨15, 14, .rw, 0x0, .between 0 2⟩, ⟨13, 0, .rw, 0x0, .any⟩]⟩]

/-- MTR (R402). -/
def mtrRegs : List RegSpec :=
  [⟨0x40, 1, [⟨31, 16, .rw, 0xC8, .any⟩, ⟨15, 0, .rw, 0x5DC, .any⟩]⟩,
   ⟨0x44, 1, [⟨31, 16, .rw, 0x6400, .any⟩, ⟨15, 0, .rw, 0x28, .any⟩]⟩,
   ⟨0x48, 1, [⟨15, 0, .rwl, 0x40, .between 8 4096⟩]⟩]

/-- LAT (R404). -/
def latRegs : List RegSpec :=
  [⟨0x40, 4, [⟨31, 16, .rw, 0x0, .any⟩, ⟨15, 0, .rw, 0x0, .any⟩]⟩,
   ⟨0x50, 1, [⟨29, 28, .rw, 0x0, .between 0 2⟩, ⟨16, 16, .rw, 0x0, .any⟩, ⟨11, 0, .rw, 0x0, .any⟩]⟩]

/-- EVR (R405). -/
def evrRegs : List RegSpec :=
  [⟨0x40, 1, [⟨8, 8, .rw, 0x0, .any⟩, ⟨7, 0, .rw, 0x0, .any⟩]⟩,
   ⟨0x44, 1, [⟨31, 16, .rws, 0x64, .between 1 65535⟩, ⟨15, 0, .rws, 0x64, .any⟩]⟩,
   ⟨0x48, 1, [⟨0, 0, .w1s, 0x0, .any⟩]⟩]

/-- ETH (R424). -/
def ethRegs : List RegSpec :=
  [⟨0x40, 1, [⟨15, 15, .rw, 0x1, .any⟩, ⟨9, 8, .rw, 0x0, .between 0 1⟩, ⟨6, 6, .rw, 0x0, .any⟩, ⟨2, 0, .rw, 0x0, .between 0 4⟩]⟩,
   ⟨0x44, 1, [⟨31, 0, .rwl, 0x0, .any⟩]⟩,
   ⟨0x48, 1, [⟨15, 0, .rwl, 0x0, .any⟩]⟩,
   ⟨0x4C, 1, [⟨13, 0, .rw, 0x5DC, .between 1500 9216⟩]⟩,
   ⟨0x50, 1, [⟨31, 16, .rw, 0xFFFF, .between 1 65535⟩, ⟨15, 8, .rw, 0xFF, .any⟩, ⟨7, 0, .rw, 0xFF, .any⟩]⟩,
   ⟨0x54, 1, [⟨15, 0, .rw, 0x64, .any⟩]⟩,
   ⟨0x58, 1, [⟨2, 0, .rw, 0x0, .between 0 4⟩]⟩,
   ⟨0x5C, 1, [⟨1, 1, .rw, 0x0, .any⟩, ⟨0, 0, .w1s, 0x0, .any⟩]⟩,
   ⟨0x60, 1, [⟨2, 0, .rw, 0x0, .any⟩]⟩,
   ⟨0x64, 1, [⟨31, 31, .rw, 0x0, .any⟩, ⟨30, 30, .rw, 0x0, .any⟩, ⟨29, 29, .rw, 0x0, .any⟩, ⟨11, 0, .rw, 0x0, .any⟩]⟩,
   ⟨0x68, 4, [⟨31, 0, .rw, 0x0, .any⟩]⟩,
   ⟨0x78, 1, [⟨4, 0, .rw, 0x0, .any⟩]⟩,
   ⟨0x7C, 1, [⟨31, 16, .rw, 0x0, .any⟩, ⟨15, 4, .rw, 0x0, .any⟩, ⟨3, 1, .rw, 0x0, .any⟩, ⟨0, 0, .rw, 0x0, .any⟩]⟩,
   ⟨0x80, 1, [⟨31, 16, .rw, 0x0, .any⟩, ⟨15, 8, .rw, 0x0, .any⟩]⟩,
   ⟨0x84, 1, [⟨31, 31, .rw, 0x0, .any⟩, ⟨30, 25, .rw, 0x0, .any⟩, ⟨5, 0, .rw, 0x0, .any⟩]⟩,
   ⟨0x100, 64, [⟨7, 7, .rw, 0x0, .any⟩, ⟨3, 0, .rw, 0x0, .any⟩]⟩]

/-- DMC (R451). -/
def dmcRegs : List RegSpec :=
  [⟨0x40, 1, [⟨29, 28, .rwl, 0x0, .between 0 2⟩, ⟨27, 27, .rwl, 0x0, .any⟩, ⟨15, 0, .rwl, 0x0, .oneOf [0, 4800, 5600, 6400, 7200]⟩]⟩,
   ⟨0x44, 1, [⟨9, 8, .rw, 0x1, .between 1 2⟩, ⟨4, 0, .rw, 0xC, .between 8 16⟩]⟩,
   ⟨0x48, 1, [⟨7, 0, .rw, 0x18, .any⟩]⟩,
   ⟨0x4C, 1, [⟨31, 31, .w1s, 0x0, .any⟩, ⟨27, 26, .rw, 0x0, .any⟩, ⟨25, 25, .rw, 0x0, .any⟩, ⟨24, 24, .rw, 0x0, .any⟩, ⟨19, 16, .rw, 0x0, .between 0 2⟩, ⟨15, 0, .rw, 0x1, .between 1 65535⟩]⟩,
   ⟨0x50, 1, [⟨31, 0, .rw, 0x0, .any⟩]⟩,
   ⟨0x54, 11, [⟨31, 0, .rw, 0x0, .any⟩]⟩]

/-- BPM (R453). -/
def bpmRegs : List RegSpec :=
  [⟨0x40, 1, [⟨3, 0, .rw, 0x0, .any⟩]⟩,
   ⟨0x44, 1, [⟨31, 31, .rw, 0x0, .any⟩, ⟨30, 30, .rw, 0x0, .any⟩, ⟨24, 20, .rwl, 0xB, .between 8 16⟩, ⟨19, 0, .rwl, 0x0, .between 1 1048575⟩]⟩,
   ⟨0x48, 1, [⟨31, 0, .rwl, 0x0, .any⟩]⟩,
   ⟨0x4C, 1, [⟨7, 0, .rwl, 0x0, .any⟩]⟩,
   ⟨0x50, 1, [⟨31, 16, .rw, 0x0, .any⟩, ⟨15, 0, .rw, 0x0, .any⟩]⟩,
   ⟨0x54, 1, [⟨15, 0, .rw, 0x0, .any⟩]⟩,
   ⟨0x58, 1, [⟨31, 31, .w1s, 0x0, .any⟩, ⟨30, 30, .w1s, 0x0, .any⟩, ⟨7, 0, .rw, 0x0, .oneOf ownerIds⟩]⟩]

/-- MOV (R455). -/
def movRegs : List RegSpec :=
  [⟨0x40, 1, [⟨31, 0, .rwl, 0x0, .any⟩]⟩,
   ⟨0x44, 1, [⟨7, 0, .rwl, 0x0, .any⟩]⟩,
   ⟨0x48, 1, [⟨3, 0, .rwl, 0x8, .between 4 8⟩]⟩,
   ⟨0x4C, 1, [⟨7, 0, .rw, 0x0, .any⟩]⟩]

/-- WRK (R489). -/
def wrkRegs : List RegSpec :=
  [⟨0x40, 1, [⟨7, 0, .rwl, 0xFF, .any⟩]⟩,
   ⟨0x44, 1, [⟨15, 0, .rwl, 0x64, .between 10 10000⟩]⟩,
   ⟨0x48, 1, [⟨7, 0, .wo, 0x0, .any⟩]⟩]

/-- ICU (R490). -/
def icuRegs : List RegSpec :=
  [⟨0x40, 1, [⟨8, 0, .rw, 0x0, .any⟩]⟩,
   ⟨0x44, 1, [⟨31, 31, .rw, 0x0, .any⟩, ⟨27, 24, .rw, 0x0, .any⟩, ⟨23, 20, .rw, 0x0, .any⟩, ⟨2, 0, .rw, 0x0, .any⟩]⟩,
   ⟨0x50, 16, [⟨31, 16, .rw, 0x0, .any⟩, ⟨2, 0, .rw, 0x0, .any⟩]⟩,
   ⟨0x90, 8, [⟨31, 31, .ro, 0x0, .any⟩, ⟨23, 16, .ro, 0x0, .any⟩, ⟨8, 0, .ro, 0x0, .any⟩]⟩,
   ⟨0xB0, 1, [⟨8, 0, .wo, 0x0, .any⟩]⟩,
   ⟨0xB4, 1, [⟨8, 0, .wo, 0x0, .between 256 383⟩]⟩]

/-- SWM (R491). -/
def swmRegs : List RegSpec :=
  [⟨0x40, 1, [⟨11, 8, .rwl, 0x3, .between 1 15⟩, ⟨0, 0, .w1s, 0x0, .any⟩]⟩,
   ⟨0x44, 1, [⟨31, 16, .rwl, 0x64, .between 10 10000⟩, ⟨15, 0, .rwl, 0x3E8, .between 100 65535⟩]⟩]

/-- WGL (R492). -/
def wglRegs : List RegSpec :=
  [⟨0x40, 1, [⟨15, 8, .w1s, 0x0, .any⟩, ⟨7, 0, .w1s, 0x0, .any⟩]⟩,
   ⟨0x44, 1, [⟨31, 31, .w1s, 0x0, .any⟩, ⟨8, 8, .rw, 0x0, .any⟩, ⟨2, 0, .rw, 0x0, .any⟩]⟩,
   ⟨0x48, 1, [⟨5, 3, .rw, 0x0, .any⟩, ⟨2, 0, .rw, 0x0, .any⟩]⟩,
   ⟨0x4C, 1, [⟨31, 2, .rw, 0x0, .any⟩, ⟨0, 0, .rw, 0x0, .any⟩]⟩,
   ⟨0x50, 1, [⟨31, 0, .rw, 0x0, .any⟩]⟩,
   ⟨0x54, 1, [⟨7, 0, .rw, 0x0, .any⟩]⟩,
   ⟨0x58, 1, [⟨31, 0, .rw, 0x0, .any⟩]⟩,
   ⟨0x5C, 1, [⟨12, 10, .rw, 0x0, .any⟩, ⟨9, 0, .rw, 0x0, .any⟩]⟩,
   ⟨0x60, 1, [⟨31, 0, .rw, 0x0, .any⟩]⟩]

/-- PWR (R516). -/
def pwrRegs : List RegSpec :=
  [⟨0x40, 1, [⟨31, 16, .rw, 0x14, .between 1 65535⟩, ⟨15, 0, .rw, 0x4, .between 1 65535⟩]⟩,
   ⟨0x44, 1, [⟨31, 16, .rw, 0x3E8, .between 1 65535⟩, ⟨15, 0, .rw, 0xC8, .between 1 65535⟩]⟩,
   ⟨0x48, 1, [⟨31, 16, .rw, 0x12C, .between 1 65535⟩, ⟨15, 8, .rw, 0x40, .any⟩]⟩,
   ⟨0x4C, 1, [⟨31, 16, .rw, 0x64, .between 1 65535⟩, ⟨15, 8, .rw, 0x10, .between 1 64⟩, ⟨7, 0, .rw, 0x40, .between 16 255⟩]⟩]

/-- PKG (R516). -/
def pkgPwrRegs : List RegSpec :=
  [⟨0x40, 1, [⟨1, 1, .w1s, 0x0, .any⟩, ⟨0, 0, .w1s, 0x0, .any⟩]⟩,
   ⟨0x44, 1, [⟨31, 16, .rw, 0x0, .any⟩, ⟨1, 1, .rw, 0x1, .any⟩, ⟨0, 0, .rw, 0x1, .any⟩]⟩,
   ⟨0x48, 1, [⟨31, 0, .rw, 0x0, .any⟩]⟩]

/-- THM (R516). -/
def thmRegs : List RegSpec :=
  [⟨0x40, 1, [⟨31, 24, .rwl, 0x4, .between 2 10⟩, ⟨23, 16, .rwl, 0x6E, .between 100 110⟩, ⟨15, 8, .rwl, 0x64, .between 80 255⟩, ⟨7, 0, .rwl, 0x5F, .between 60 255⟩]⟩,
   ⟨0x44, 1, [⟨4, 4, .rw, 0x0, .any⟩, ⟨3, 0, .rw, 0x0, .any⟩]⟩,
   ⟨0x48, 1, [⟨31, 31, .w1s, 0x0, .any⟩, ⟨15, 0, .rwl, 0x0, .any⟩]⟩]

/-- MGT (R516). -/
def mgtRegs : List RegSpec :=
  [⟨0x40, 1, [⟨10, 10, .rwl, 0x1, .any⟩, ⟨9, 9, .rwl, 0x0, .any⟩, ⟨8, 8, .rwl, 0x0, .any⟩, ⟨6, 0, .rwl, 0x50, .between 8 119⟩]⟩]

/-- NOR (R546). -/
def norRegs : List RegSpec :=
  [⟨0x40, 1, [⟨31, 31, .w1s, 0x0, .any⟩, ⟨30, 29, .rw, 0x0, .any⟩, ⟨8, 0, .rw, 0x0, .any⟩]⟩,
   ⟨0x44, 1, [⟨26, 0, .rw, 0x0, .any⟩]⟩,
   ⟨0x48, 1, [⟨1, 1, .w1s, 0x0, .any⟩, ⟨0, 0, .w1s, 0x0, .any⟩]⟩,
   ⟨0x100, 128, [⟨31, 0, .rw, 0x0, .any⟩]⟩]

/-- FWU (R546). -/
def fwuRegs : List RegSpec :=
  []

/-- The registers of HCE slot n (R328), at 0x40 + 0x40 × n. -/
def hceSlotRegs (n : Nat) : List RegSpec :=
  let b := 0x40 + 0x40 * n
  [⟨b, 1, [⟨31, 16, .rwl, 0x4B0, .any⟩, ⟨15, 12, .rw, 0, .between 0 3⟩, ⟨11, 8, .rw, 0, .between 0 8⟩,
     ⟨7, 4, .rw, 0, .any⟩, ⟨1, 1, .rwl, 1, .any⟩, ⟨0, 0, .rw, if n < 2 then 1 else 0, .any⟩]⟩,
   ⟨b + 4, 1, [⟨31, 16, if n = 1 then .rwl else .ro, if n = 1 then 0x4B0 else 0, .any⟩,
     ⟨15, 0, if n = 0 then .ro else .rw, if n = 0 then 0 else if n = 1 then 0x474 else 0x4B0, .any⟩]⟩,
   ⟨b + 8, 1, [⟨31, 16, .rwl, 0x400, .any⟩, ⟨15, 0, .rwl, 0x800, .any⟩]⟩,
   ⟨b + 0xC, 1, [⟨31, 16, .rwl, 0x10, .any⟩, ⟨15, 0, .rwl, 0x40, .any⟩]⟩,
   ⟨b + 0x10, 1, [⟨31, 16, .rwl, if n = 0 then 0xC8 else if n = 1 then 0x1388 else 0x2EE0, .any⟩, ⟨15, 0, .rwl, 0, .any⟩]⟩,
   ⟨b + 0x14, 1, [⟨31, 16, .rwl, 0x799A, .any⟩, ⟨15, 0, .rwl, 0, .any⟩]⟩,
   ⟨b + 0x18, 1, [⟨31, 28, .rw, 9, .between 0 11⟩, ⟨27, 24, .rw, 8, .between 0 11⟩, ⟨23, 20, .rw, 7, .between 0 11⟩,
     ⟨19, 16, .rw, 6, .between 0 11⟩, ⟨15, 12, .rw, 4, .between 0 11⟩, ⟨11, 8, .rw, 3, .between 0 11⟩,
     ⟨7, 4, .rw, 1, .between 0 11⟩, ⟨3, 0, .rw, 0, .between 0 11⟩]⟩,
   ⟨b + 0x1C, 1, [⟨31, 31, .w1s, 0, .any⟩, ⟨30, 30, .ro, 0, .any⟩, ⟨29, 28, .rw, 1, .between 0 2⟩, ⟨27, 27, .w1s, 0, .any⟩,
     ⟨23, 12, .rw, 0x400, .any⟩, ⟨11, 0, .rw, 0, .any⟩]⟩]

/-- The programmable registers of a block. -/
def blockRegs : Block → List RegSpec
  | .hce => hceSlotRegs 0 ++ hceSlotRegs 1 ++ hceSlotRegs 2 ++ hceSlotRegs 3 ++ hceRegs
  | .eth => ethRegs
  | .ktp => ktpRegs
  | .csq => csqRegs
  | .cmb => cmbRegs
  | .map => mapRegs
  | .fgr => fgrRegs
  | .fch => fchRegs
  | .ldc => ldcRegs
  | .mov => movRegs
  | .cry => cryRegs
  | .dmc => dmcRegs
  | .bpm => bpmRegs
  | .icu => icuRegs
  | .wrk => wrkRegs
  | .swm => swmRegs
  | .evr => evrRegs
  | .mtr => mtrRegs
  | .lat => latRegs
  | .pwr => pwrRegs
  | .pkgPwr => pkgPwrRegs
  | .thm => thmRegs
  | .psu => psuRegs
  | .nor => norRegs
  | .fwu => fwuRegs
  | .wgl => wglRegs
  | .mgt => mgtRegs

/-- Reset values of read-only registers that are not 0: the exit latencies of CSQ (R139). -/
def roReset : Block → Nat → Nat
  | .csq, 0xB8 => 2
  | .csq, 0xBC => 60
  | .csq, 0xC0 => 18000
  | _, _ => 0

/-- A register table's row at a page offset. -/
def findSpec (off : Nat) : List RegSpec → Option RegSpec
  | [] => none
  | r :: rest => if r.off ≤ off ∧ off < r.off + 4 * r.count then some r else findSpec off rest

/-- The row of a block's register table at a page offset. -/
def regSpec (b : Block) (off : Nat) : Option RegSpec := findSpec off (blockRegs b)

/-- The reset value of a register: its fields' reset values. -/
def specReset (r : RegSpec) : Word := r.fields.foldr (fun f w => setFld w f.hi f.lo f.reset) 0

/-- The block that a controller die's page holds (R37). -/
def diePage (die page : Nat) : Option Block :=
  match page with
  | 0x000 => some .pwr | 0x001 => some .thm | 0x002 => some .icu | 0x003 => some .evr | 0x004 => some .lat
  | 0x005 => some .mtr | 0x010 => some .eth | 0x011 => some .eth | 0x018 => some .ktp | 0x020 => some .csq
  | 0x028 => some .cmb | 0x030 => some .map | 0x038 => some .fgr
  | 0x040 => some .fch | 0x041 => some .fch | 0x042 => some .fch | 0x043 => some .fch
  | 0x044 => some .fch | 0x045 => some .fch | 0x046 => some .fch | 0x047 => some .fch
  | 0x050 => some .ldc | 0x058 => some .mov | 0x060 => some .cry | 0x068 => some .dmc | 0x070 => some .bpm
  | 0x078 => some .wrk | 0x080 => some .swm | 0x081 => some .swm | 0x082 => some .swm
  | 0x090 => if die = 0 then some .fwu else none
  | 0x098 => some .wgl
  | _ => none

/-- The block that a page of the guard die's window holds (R37, R38). -/
def guardPage (page : Nat) : Option Block :=
  match page with
  | 0 => some .psu | 1 => some .hce | 3 => some .thm | 4 => some .pkgPwr | 6 => some .mgt | 7 => some .mgt | _ => none

/-- The window, the page and the offset of a register address (R34). -/
def winOf (a : Nat) : Nat := a / 0x10000000
/-- Bits [27:16] of a register address (R34). -/
def pageOf (a : Nat) : Nat := a / 0x10000 % 0x1000
/-- Bits [15:0] of a register address (R34). -/
def offOf (a : Nat) : Nat := a % 0x10000

/-- The block that lies at an address (R35, R37), whatever dies are present. -/
def blockAt (a : Nat) : Option Block :=
  if winOf a < 8 then diePage (winOf a) (pageOf a)
  else if winOf a = 0xE ∧ pageOf a = 0 then some .nor
  else if winOf a = 0xF then guardPage (pageOf a)
  else none

/-- The instance number in ID (R37). -/
def blockInst (a : Nat) : Nat :=
  match blockAt a with
  | some .eth => pageOf a - 0x10
  | some .fch => pageOf a - 0x40
  | some .swm => pageOf a - 0x80
  | some .mgt => pageOf a - 6
  | _ => 0

/-- The type code in ID (R37). -/
def blockType : Block → Nat
  | .eth => 1 | .ktp => 2 | .csq => 3 | .cmb => 4 | .map => 5 | .fgr => 6 | .fch => 7 | .ldc => 8 | .mov => 9
  | .cry => 0xA | .dmc => 0xB | .bpm => 0xC | .icu => 0xD | .wrk => 0xE | .swm => 0xF | .evr => 0x10 | .mtr => 0x11
  | .lat => 0x12 | .pwr => 0x13 | .pkgPwr => 0x13 | .thm => 0x14 | .hce => 0x15 | .psu => 0x16 | .nor => 0x17
  | .fwu => 0x18 | .wgl => 0x19 | .mgt => 0x1A

/-- The reset value of the register at an address: 0 for header registers (R45 to R55; ID and VERSION are computed)
and for every address without a register. -/
def resetOf (a : Nat) : Word :=
  match blockAt a with
  | none => 0
  | some b =>
    if offOf a < 0x40 then 0
    else if b = .mgt ∧ offOf a = 0x40 then BitVec.ofNat 32 (0x450 + blockInst a)
    else match regSpec b (offOf a) with
      | some r => specReset r
      | none => BitVec.ofNat 32 (roReset b (offOf a))

end Sys2Proof.Machine
end

