-- ==== Sys2Proof/Machine/State.lean ====
section
/-! DEFINITION. The state of the package as plain data, the stops, and the state after reset. The state is one
structure per block of the spec, one copy per controller die, and the package-wide parts beside them. Registers are
held in `State.regs`, by address, in canonical form (log 1); what a register reads live is computed in
Machine/Registers.lean. -/
namespace Sys2Proof.Machine
open Sys2Proof

/-! ### Stops -/

/-- Ways the block stops with a fault. No rule of the spec stops the package for good, so none is raised by a meaning;
the one constructor is kept for an access outside the die-local memory of R426 made by the model itself. -/
inductive Fault where
  /-- An access to a die-local address that R426 calls invalid, made where no rule says what the block does then.
  Raised by nobody at present: each block that can name such an address refuses it by its own rule. Safe. -/
  | badAddress
deriving DecidableEq, Repr

/-- Ways a command has no meaning. -/
inductive Refusal where
  /-- The command's row has not been given a meaning. Raised only by Machine/Dispatch.lean. Safe. -/
  | notModelled (mnemonic : String)
deriving DecidableEq, Repr

/-! ### The part -/

/-- The three parts of R1. -/
inductive Part where
  | stz8820
  | stz8840
  | stz8880
deriving DecidableEq, Repr

/-! ### Kocel transport (KTP) -/

/-- The states of a session (R74); CLOSED is the absence of a session in its slot. -/
inductive SessState where
  | openRcvd
  | established
  | closing
deriving DecidableEq, Repr

/-- A sequenced packet sent and not yet acknowledged (R82 to R85). -/
structure SentPkt where
  psn    : Word
  ptype  : Nat
  body   : Bytes          -- the body in clear, segment header included
  retx   : Nat            -- times retransmitted
  fast   : Bool           -- already retransmitted once under R84
  sacked : Bool           -- marked in a SACK
  sentAt : Nat            -- device time of its last sending
deriving DecidableEq, Repr

/-- A command message under assembly (R64). -/
structure Assembly where
  tag     : Byte
  segs    : List (Nat × Bytes)
  lastEnd : Option Nat    -- end of the segment with LAST
  lastPsn : Word          -- PSN of the segment with LAST (R80)
  isClose : Bool          -- stands for a CLOSE in the order of delivery
  clash   : Bool := false -- its tag was in use when its first segment came (R95)
deriving DecidableEq, Repr

/-- The command header of R93. -/
structure CmdHdr where
  opcode   : Nat
  cls      : Nat
  mflags   : Nat
  nsid     : Nat
  keyLen   : Nat
  valueLen : Nat
  version  : Nat
  arg      : Nat
deriving DecidableEq, Repr

/-- A message delivered in order, with what the reply needs (R80). -/
structure Msg where
  tag     : Byte
  body    : Bytes
  arrived : Nat           -- device time of its LAST segment (R380)
  clash   : Bool := false -- came with a tag in use (R95)
  late    : Bool := false -- delivered after the CLOSE (R74)
deriving DecidableEq, Repr

/-- One grant of R104. -/
structure Grant where
  off : Nat
  len : Nat
  got : Nat               -- bytes received in it
deriving DecidableEq, Repr

/-- A session held on a die (R27, R74 and the sections after it). -/
structure Session where
  slot      : Nat
  gen       : Nat
  tenant    : Nat
  enc       : Bool
  st        : SessState
  v6        : Bool
  peerIp    : Nat
  peerUdp   : Nat
  peerMac   : Nat
  vlan      : Option Nat
  pcp       : Nat
  dscp      : Nat
  port      : PortId
  hostNonce : Bytes
  openReply : Bytes       -- the first OPEN_REPLY packet, for a repeat (R73)
  maxSeg    : Nat         -- the host's MAX_SEG
  devSeg    : Nat := 1400 -- the MAX_SEG that the device declared at OPEN (R65)
  localIp   : Nat := 0    -- the device's address that the host last sent to (R56)
  -- receiving
  rcvNext   : Word        -- ACK_PSN
  rcvSeen   : List Word   -- PSNs received above rcvNext
  edge      : Word        -- the upper window edge advertised (R79)
  asm       : List Assembly
  ackCount  : Nat         -- sequenced packets not yet acknowledged (R81)
  replayTop : Option Nat  -- h of R91
  replaySet : List Nat    -- counters accepted within the window
  -- sending
  sndNext   : Word
  sndEdge   : Word        -- the host's window edge
  unacked   : List SentPkt
  backlog   : List (Nat × Bytes)   -- sequenced packets waiting for the host's window
  srtt      : Option Nat
  rttvar    : Nat
  rto       : Nat         -- ns
  backoff   : Nat         -- RTO in force after doublings (R83)
  doubled   : Bool := false  -- RTO has been doubled since ACK_PSN last advanced (R83)
  txCtr     : Nat         -- NONCE_CTR of the next packet sent (R354)
  -- commands
  tags      : List Byte   -- tags in use (R95)
  held      : List Msg    -- messages held by the rate limit, a pause or a RESET_SESSION
  rateHold  : Bool        -- the head of held waits for the tenant's buckets (R338)
  resetting : Option Nat  -- the RESET_SESSION command in progress (R106)
  heldOld   : Nat := 0    -- how many messages of held came before it
  closeAt   : Bool        -- CLOSE has been delivered
  closeSent : Bool        -- CLOSE_REPLY has been sent
deriving DecidableEq, Repr

/-- KTP of a die. -/
structure Ktp where
  sessions : List Session := []
  gens     : List (Nat × Nat) := []     -- generation of each local slot that has been drawn (R69)
  refused  : List (PortId × Nat) := []  -- refusing OPEN_REPLYs of this second, per port (R71)
  waiting  : List (PortId × Datagram) := []  -- OPENs that wait for fresh randomness (R359)
  ending   : List (Nat × Nat × List DieId) := []  -- slot, generation and dies still to act on a termination barrier (R75)
deriving DecidableEq, Repr

/-! ### Commands (CSQ) -/

/-- Where a command stands. -/
inductive Phase where
  | queued
  | dispatched
  | granting       -- waits for granted data (R104)
  | admitting      -- waits for the Nectar buffer (R204)
  | through        -- written through (R205), waits for its journal record
  | lookup         -- waits for the bucket lookup (R170)
  | reading        -- waits for flash reads
  | barrier        -- waits for barriers it has sent (R128, R130)
  | activating     -- FW_ACTIVATE during the pause of R133
deriving DecidableEq, Repr

/-- What a reader has fixed (R122). -/
structure Fixed where
  version : Nat
  loc     : BitVec 56
  objLen  : Nat
deriving DecidableEq, Repr

/-- A run-ahead read (R170): the hint it follows and its flash operation. -/
structure RunAhead where
  version : Nat
  loc     : BitVec 56
  op      : Nat
  done    : Bool           -- its data lies in staging
  ok      : Bool           -- stage 1 of R278 yielded it
deriving DecidableEq, Repr

/-- A command from its delivery (R80) to its completion. -/
structure Cmd where
  cid     : Nat            -- the model's identity of the command
  home    : DieId          -- the arrival die
  slot    : Nat
  gen     : Nat
  tag     : Byte
  tenant  : Nat
  hdr     : CmdHdr
  key     : Bytes
  inline  : Bytes
  hash    : BitVec 128     -- H of R141, 0 for a command without a key
  cls     : Nat            -- the class in force after the rule search
  owner   : DieId          -- the die that executes it
  seq     : Nat            -- intake sequence number (R111)
  phase   : Phase
  core    : CoreId         -- the worker core that carries it (R461)
  arrived : Nat
  chgCls  : Nat            -- the class its cost falls on (R115, R124)
  funded  : Bool           -- a funded class-0 dispatch (R117, R118)
  noReply : Bool           -- its reply is discarded (R75, R106)
  grants  : List Grant
  nextOff : Nat            -- offset of the next grant
  gseq    : Nat            -- GRANT_SEQ of the next grant
  got     : List (Nat × Bytes)
  value   : Bytes          -- the whole data once it has arrived
  fixed   : Option Fixed
  ra      : Option RunAhead
  reads   : Nat            -- flash reads outstanding
  failed  : Bool           -- some read of it failed
  waits   : List DieId     -- dies whose confirmation it waits for
  released : Bool          -- its hazards are released (R122)
  offline  : Bool := false -- a die was fenced before it confirmed this FLUSH (R129)
  target   : Option Nat := none  -- the running command or control whose reply this ABORT waits for (R105)
  holds    : List (BitVec 56) := []  -- the locations that a READ has fixed (R123)
  tried    : Nat := 0                -- entries of the bucket chain with the key's HTAG tried so far (R194)
  missed   : Bool := false           -- its lookup has missed the map-page cache (R197)
deriving DecidableEq, Repr

/-- A message of the termination, flush or reset barriers (R75, R128, R130). -/
inductive Barrier where
  | terminate (home : DieId) (slot gen : Nat)
  | flush (home : DieId) (cid : Nat)
  | reset (home : DieId) (slot gen cid : Nat)
deriving DecidableEq, Repr

/-- A tenant's place in the round of a class (R119). -/
structure RoundEntry where
  tenant   : Nat
  deficit  : Int
  credited : Bool
deriving DecidableEq, Repr

/-- The power states (R493); off is the package's. -/
inductive PowerState where
  | run
  | idle
  | sleep
  | deep
deriving DecidableEq, Repr

/-- CSQ of a die. -/
structure Csq where
  stage     : Nat := 0                  -- steps done of an entry to IDLE or SLEEP in progress (R494, R496)
  idleFrom  : Nat := 0                  -- the idle timer: device time at which it last restarted (R136, R137, R496)
  inbox     : List Cmd := []            -- delivered, not yet taken at intake, in arrival order (R19)
  controls  : List Cmd := []            -- ABORT and RESET_SESSION, ahead of the queues (R105, R338)
  cmds      : List Cmd := []            -- queued and dispatched commands in intake order
  barriers  : List Barrier := []        -- barriers that have reached the die
  marks     : List (DieId × Nat × List Nat) := []  -- per flush barrier: home, command, marked writes (R128)
  nextSeq   : Nat := 0
  tokens    : Int := 20000              -- urgent token count (R116)
  cdef      : List Int := [0, 0, 0, 0, 0, 0, 0, 0]
  rounds    : List (List RoundEntry) := [[], [], [], [], [], [], [], []]
  debts     : List (Nat × Nat × Int) := []  -- class, tenant, deficit of a tenant that has left the round (R115, R119)
  cur       : Nat := 1                  -- the class whose turn it is
  inTurn    : Bool := false             -- its weight has been added in this turn
  intake    : Bool := true              -- false while intake is stopped
  dispatch  : Bool := true              -- false while dispatch is stopped
  ps        : PowerState := .run
  deepReq   : Bool := false             -- DEEP has been requested (R137)
  buckets   : List (Nat × Int × Int) := []  -- per tenant: command tokens, byte tokens, in units of the model (R337)
  tmoStop   : Bool := false             -- grant and idle timers stopped (R135)
deriving DecidableEq, Repr

/-! ### The Comb (CMB) -/

/-- An entry of the ternary array (R146). Unlisted entries are invalid and never written. -/
structure CombEntry where
  idx   : Nat
  val   : BitVec 192
  care  : BitVec 192
  prio  : Nat
  res   : BitVec 128
  valid : Bool
  refd  : Bool            -- the reference bit of R169
deriving DecidableEq, Repr

/-- A value cache slot (the section before R166). -/
structure CacheSlot where
  slot    : Nat
  tenant  : Nat
  loc     : BitVec 56     -- the value's FLASH location
  objLen  : Nat
  key     : Bytes
  nonce   : Bytes
  keygen  : Nat
  header  : Bytes         -- the additional data
  cipher  : Bytes
  gtag    : Bytes
  refd    : Bool := false -- the reference bit of R169
deriving DecidableEq, Repr

/-- An update operation in progress (R161). -/
structure CombOp where
  op   : Nat
  idx  : Nat
deriving DecidableEq, Repr

/-- A search in progress (R150, R157): word, mask, cascade. -/
structure CombSearch where
  word    : BitVec 192
  mask    : BitVec 192
  cascade : Bool
deriving DecidableEq, Repr

/-- A shift in progress (R163). -/
structure CombShift where
  first : Nat
  last  : Nat
  down  : Bool
deriving DecidableEq, Repr

/-- CMB of a die. -/
structure Comb where
  entries   : List CombEntry := []
  slots     : List CacheSlot := []
  busy      : Option CombOp := none
  search    : Option CombSearch := none
  shift     : Option CombShift := none
  reclaim   : List Nat := []             -- value cache slots to free, and
  reclaimIx : List Nat := []             -- indices not yet to be used again, after INV_MASKED (R162)
  reclaimOn : Bool := false
  placement : List Nat := []             -- the loaded placement entries, OFFLINE in bit 3
  epoch     : Nat := 0
  fence     : List Nat := []             -- run-ahead reads issued before the last INV_MASKED of the Forager (R174)
  clock     : Nat := 0                   -- the clock pointer of R169, over the entries
  slotClock : Nat := 0                   -- and over the value cache slots
  late      : Option CombEntry := none   -- a WRITE to an index that a reclaim still holds (R162)
  srchRes   : Word := 0
  srchData  : BitVec 128 := 0
deriving DecidableEq, Repr

/-! ### Media formats, the map and the Nectar buffer (MAP) -/

/-- A value record (R189, R190). -/
structure Rec where
  tenant   : Nat
  nsid     : Nat
  keyLen   : Nat
  valueLen : Nat
  version  : Nat
  nonce    : Bytes         -- 12 bytes in IV order
  keygen   : Nat
  cipher   : Bytes         -- ciphertext of key then value
  gtag     : Bytes
  table    : Bytes := []   -- the extent table: 12 bytes for each extent after the first (R190)
deriving DecidableEq, Repr

/-- Block data: one 4 KiB unit of a block namespace, as stored (XTS). -/
structure Blk where
  tenant : Nat
  nsid   : Nat
  unit   : Nat             -- local unit number (R187)
  data   : Bytes
deriving DecidableEq, Repr

/-- What a write stores. -/
inductive Payload where
  | record (r : Rec) (key : Bytes) (htag : BitVec 64) (bucket : Nat)
  | blocks (bs : List Blk)
  | erase (tenant nsid : Nat) (key : Bytes) (htag : BitVec 64) (bucket : Nat) (version : Nat) (old : BitVec 56)  -- a DELETE's journal record
  | trim (tenant nsid : Nat) (first count : Nat)
deriving DecidableEq, Repr

/-- An extent: a run of units in stripe order within one block group (R181, R189). -/
structure Extent where
  group : Nat
  first : Nat
  count : Nat
deriving DecidableEq, Repr

/-- A write in the Nectar ring, in admission order (R202, R204). -/
structure RingEntry where
  wid     : Nat            -- the write's identity
  addr    : Nat            -- Nectar address in 64-byte units
  payload : Payload
  dirty   : Nat            -- its dirty size (R202)
  placed  : List Extent    -- where its units have been placed so far, in order
  stripes : List Nat       -- stripes that hold a unit of it and are not all programmed
  through : Option Nat     -- the command, for a write written through (R205)
  poison  : Bool           -- holds a poisoned word (R429)
deriving DecidableEq, Repr

/-- What lies on flash at a location: a value record or a block unit. -/
structure Stored where
  loc     : BitVec 56
  extents : List Extent
  payload : Payload
  poison  : Bool           -- its CRC is inverted (R429)
  verOk   : Bool           -- false: copied byte for byte after a failed verification (R231)
deriving DecidableEq, Repr

/-- A bucket entry (R193) with its durable form in the side table (R206). -/
structure BEntry where
  tenant  : Nat
  nsid    : Nat
  bucket  : Nat
  key     : Bytes          -- the model's own: the key that the record holds (log 30)
  htag    : BitVec 64
  version : Nat
  loc     : BitVec 56      -- a location, or the Nectar address when nectar
  valid   : Bool
  nectar  : Bool
  stLen   : Nat            -- STORED_LEN
  keyLen  : Nat
  durable : Option (Nat × BitVec 56 × Nat)  -- version, location and stored length on flash
deriving DecidableEq, Repr

/-- A dense entry (R182, R195): the local unit, its location, the Nectar write that holds it, and its durable form. -/
structure DEntry where
  tenant  : Nat
  nsid    : Nat
  unit    : Nat
  entry   : BitVec 40
  nectar  : Option Nat     -- the write in the ring
  durable : BitVec 40
deriving DecidableEq, Repr

/-- A namespace as each die's namespace table holds it (R196). -/
structure NsEntry where
  slot       : Nat := 0    -- its slot of the table
  nsid       : Nat
  tenant     : Nat
  ntype      : Nat
  bucketBits : Nat
  chunkShift : Nat
  lbaSize    : Nat
  blocks     : Nat
deriving DecidableEq, Repr

/-- The states of a block group (R224). -/
inductive GroupState where
  | free
  | erasePending
  | opened
  | closed
  | retired
  | rescue
  | sys
  | anchor
deriving DecidableEq, Repr

/-- A block group (R224) with what the die knows of its use. -/
structure Group where
  num     : Nat
  st      : GroupState
  qlc     : Bool
  copy    : Bool
  good    : Nat            -- bit mask
  layout  : Nat            -- GOOD when the group was opened (R272)
  wear    : Nat
  valid   : Nat
  closedS : Nat
  used    : Nat            -- units assigned so far, in stripe order
  rebuild : Bool           -- a rebuild victim (R291)
  failed  : Bool           -- a program failed in it (R248)
  badCh   : List Nat       -- channels whose block is to be retired at the erase (R248)
  purpose : Nat := 0       -- PURPOSE of its BG_OPEN (R212): 0 data, 1 map, 2 journal, 3 rescue
deriving DecidableEq, Repr

/-- Journal records (R212, R256), with the fields the model needs. -/
inductive JBody where
  | mapPut (key : Bytes) (htag : BitVec 64) (version : Nat) (loc : BitVec 56) (stLen keyLen bucket : Nat)
  | mapDelete (htag : BitVec 64) (version : Nat) (loc : BitVec 56) (bucket : Nat)
  | mapMove (htag : BitVec 64) (version : Nat) (old new : BitVec 56) (bucket : Nat)
  | lbaMap (unit count : Nat) (first : BitVec 40)
  | lbaTrim (unit count : Nat)
  | lbaMove (unit count : Nat) (old new : BitVec 40)
  | eraseIntent (group mask : Nat)
  | eraseDone (group mask : Nat)
  | bgOpen (group mode purpose : Nat)
  | blockRetire (group chan : Nat)
  | wseqReserve (bound : Nat)
  | ckptBegin (jseq : Nat)
  | capShrink (gb : Nat)
  | readOnlyEnter (die : Nat)
  | groupRetire (group : Nat)
deriving DecidableEq, Repr

structure JRec where
  jseq   : Nat
  tenant : Nat
  nsid   : Nat
  body   : JBody
  torn   : Bool            -- of an acknowledged write, and missing or damaged on flash (R220, R325)
deriving DecidableEq, Repr

/-- A tree of map pages (R195, R196): a namespace's map, the namespace table or the block-group table. -/
inductive Tree where
  | ns (tenant nsid : Nat)
  | nstab
  | bgtab
deriving DecidableEq, Repr

/-- The place of a map page: its tree, its LEVEL and its INDEX (R192). -/
structure PageId where
  tree  : Tree
  level : Nat
  index : Nat
deriving DecidableEq, Repr

/-- An entry of the namespace table as a page holds it (R196). -/
structure NsRow where
  ns     : NsEntry
  top    : BitVec 56
  levels : Nat
deriving DecidableEq, Repr

/-- What a map page lists (R193, R195, R196, R225): bucket entries and the location of the next overflow page, the mapped
units of a dense page, a directory's entries by their place in it, table entries. -/
inductive MapBody where
  | bucket (es : List BEntry) (next : BitVec 56)
  | dense (es : List DEntry)
  | dir (es : List (Nat × BitVec 40))
  | nstab (rows : List NsRow)
  | bgtab (gs : List Group)
deriving DecidableEq, Repr

/-- A map page on flash (R192): one codeword at a location, with the JSEQ it reflects. -/
structure FlashPage where
  loc  : BitVec 56
  id   : PageId
  jseq : Nat
  body : MapBody
deriving DecidableEq, Repr

/-- What a die knows of a map page (R197, R198, R219): where it and its overflow pages lie on flash, in chain order, the
JSEQ that it reflects, and whether it differs from what lies there. -/
structure PageAt where
  id    : PageId
  locs  : List (BitVec 56)
  jseq  : Nat
  dirty : Bool
deriving DecidableEq, Repr

/-- A root record (R216). -/
structure Root where
  die        : Nat
  seq        : Nat
  ckptJseq   : Nat
  jhead      : BitVec 56
  wseqBound  : Nat
  formatId   : Nat
  mapMode    : Bool
  loss       : Bool
  readOnly   : Bool
  placement  : List Nat    -- OFFLINE in bit 7
  epoch      : Nat
  nstab      : BitVec 56
  opPct      : Nat
  policy     : Nat
  shrinkGb   : Nat
  bgtab      : BitVec 56
deriving DecidableEq, Repr

/-- A root page of the anchor region (R217): the anchor group and channel of its block, and its page there. -/
structure RootPage where
  group : Nat
  chan  : Nat
  page  : Nat
  root  : Root
deriving DecidableEq, Repr

/-- The unit tag of a programmed codeword (R229): group and codeword in stripe order, and its 16 bytes. -/
structure CwTag where
  group : Nat
  cw    : Nat
  tag   : Bytes
deriving DecidableEq, Repr

/-- MAP of a die: what is on its flash (journal, roots, stored data) and what it holds in memory. -/
structure MapEng where
  -- on flash
  roots     : List RootPage := []       -- in the order in which they were written (R217, R218)
  anchorWear : List (Nat × Nat) := []   -- erases of each anchor block, by group × 8 + channel (R217)
  pages     : List FlashPage := []      -- map pages (R192)
  journal   : List JRec := []           -- in the order of JSEQ, 63 to a page (R211)
  jgroups   : List (Nat × Nat) := []    -- the journal's groups, each with the number of its first journal page
  stored    : List Stored := []
  tags      : List CwTag := []          -- unit tags of programmed codewords (R229)
  ends      : List (Nat × Nat) := []    -- per group with programmed pages: its units up to the first erased page, as a mount finds them
  -- in memory
  mounted   : Bool := false
  root      : Option Root := none       -- the governing root (R218)
  rootAt    : Nat := 0                  -- device time at which it was written (R215)
  formatId  : Nat := 0
  places    : List PageAt := []         -- the map pages (R195 to R198)
  kv        : List BEntry := []
  dense     : List DEntry := []
  nstab     : List NsEntry := []
  jseq      : Nat := 0
  wseq      : Nat := 1                  -- the next version (R201)
  wbound    : Nat := 1
  ring      : List RingEntry := []
  ringTop   : Nat := 0                  -- next Nectar address, in 64-byte units
  nextWid   : Nat := 0
  limShare  : Nat := 0                  -- the die's share of the package dirty limit
  slcTarget : Nat := 0                  -- S of R210
  readOnly  : Bool := false
  spaceStop : Bool := false
  journalAt : Nat := 0                  -- journal bytes since the last root (R215)
  mountMs   : Nat := 0
  mapMode   : Bool := false             -- full-table mode (R199)
  opPct     : Nat := 10
  policy    : Nat := 0                  -- SPARE_POLICY (R251)
  ckpt      : Bool := false             -- MAP_CMD.CKPT_NOW: a checkpoint has been asked for
  waiting   : Bool := false             -- some write waits for admission (R223)
  waitFrom  : Nat := 0                  -- device time at which the head of the waiting writes began to wait
  l0        : List (Nat × Nat × Nat × Bool) := []    -- pages in L0: tenant, namespace, index, reference bit; the clock pointer at the head (R197)
  cache     : List (Nat × Nat × Nat × Bool) := []    -- pages in the DRAM map-page cache
deriving DecidableEq, Repr

/-! ### The Forager (FGR) and flash (FCH, LDC) -/

/-- The Forager's modes (R242). -/
inductive FgrMode where
  | rest
  | background
  | paced
  | stall
deriving DecidableEq, Repr

/-- Where the reclaim of a victim stands (R239). -/
inductive ReclaimStep where
  | chosen       -- step 1
  | reading      -- step 2
  | copying      -- steps 3 and 4
  | fencing      -- step 6
  | waiting      -- step 7
  | erasing      -- steps 8 to 10
deriving DecidableEq, Repr

/-- A copy of a live record or unit that the Forager has made (R239). -/
structure Move where
  old     : BitVec 56
  placed  : List Extent
  payload : Payload
  poison  : Bool
  verOk   : Bool
deriving DecidableEq, Repr

structure Fgr where
  mode     : FgrMode := .rest
  reclaim  : Bool := false              -- reclaim runs (R242)
  victim   : Option Nat := none
  forced   : Bool := false
  step     : ReclaimStep := .chosen
  lost     : List (BitVec 56) := []     -- pages of step 2 whose reads failed
  moves    : List Move := []            -- copies whose move records are not yet on flash
  slcTurn  : Bool := false              -- SLC and QLC victims alternate (R235)
  toQlc    : Bool := false              -- the victim's data goes to QLC groups (R235)
  counted  : List (BitVec 56) := []     -- its records counted in FGR_UNREADABLE so far (R231)
  recount  : Bool := false
  shrinkGb : Nat := 0
  roReport : Bool := false              -- READ_ONLY_ENTER has been appended and die 0 has not acted yet (R254)
  copied   : Nat := 0                   -- bytes programmed
  retired  : Nat := 0                   -- blocks retired
deriving DecidableEq, Repr

/-- The kinds of flash operation (R505). -/
inductive OpKind where
  | read
  | program
  | erase
deriving DecidableEq, Repr

/-- Who issued a flash operation (R286, R283). -/
inductive OpFrom where
  | host (cid : Nat)
  | runAhead (cid : Nat)
  | packer
  | forager
  | mapPage (cid : Nat) (page : PageId)   -- a map page that a command's lookup waits for (R197)
deriving DecidableEq, Repr

/-- How an operation ends once the rest of its reads and erases have been issued (R277, R278, R284). -/
inductive Ending where
  | stages (o : ReadOutcome)   -- a read, by the stage that yielded its codewords
  | rebuild                    -- a read served by rebuild
  | erase (ok : Bool)          -- an erase, checked
deriving DecidableEq, Repr

/-- What an operation has still to issue, each with its tokens, and how it ends then (R118, R284, R506). -/
structure Late where
  dues : List (OpKind × Nat)
  fin  : Ending
deriving DecidableEq, Repr

/-- A flash operation, queued or running on its LUN. -/
structure FlashOp where
  op      : Nat
  kind    : OpKind
  src     : OpFrom
  chan    : ChanId
  ce      : Nat
  lun     : Nat
  block   : Nat
  page    : Nat
  slc     : Bool
  urgent  : Bool           -- issued without tokens (R118)
  cost    : Nat            -- µJ
  running : Bool
  susp    : Nat            -- times suspended (R286)
  paused  : Bool           -- suspended now
  stripe  : Option Nat
  parity  : Bool
  cws     : Nat            -- codewords that it reads
  since   : Nat            -- device time at which it started or last resumed
  serve   : List Nat       -- reads to serve while it is suspended (R286)
  retries : Nat            -- retrainings of this episode (R289)
  drop    : Bool           -- its data is dropped on arrival (R172)
  late    : Option Late := none         -- further reads or an erase of it that wait for tokens
  fills   : List (Nat × Nat) := []      -- of a program: tenant and units of each codeword, by its unit tag (R232, R379)
deriving DecidableEq, Repr

/-- A stripe in flash staging SRAM until all its members are programmed (R274). -/
structure Stripe where
  sid     : Nat
  group   : Nat
  page    : Nat
  first   : Nat            -- first unit of the stripe in the group
  count   : Nat            -- units it holds
  writes  : List Nat       -- ring entries with a unit in it
  left    : Nat            -- members not yet programmed
  pulsed  : List Nat       -- parity channels to which MOV's pulse has come (R274, R447)
  forager : Bool
  qlc     : Bool
  tags    : List (Nat × Bytes) := []  -- unit tags of its codewords, by codeword of the group (R229)
deriving DecidableEq, Repr

/-- The states of a channel (FCH_STATE). -/
inductive ChanState where
  | inService
  | training
  | retired
deriving DecidableEq, Repr

/-- The commands that an FCH issues (R262), and the opcodes that it takes from FCH_OPC (R264, R286). -/
inductive NandCmd where
  | reset
  | resetLun
  | readId
  | readParam
  | statusEnhanced
  | status
  | read
  | column
  | program
  | erase
  | getFeatures
  | setFeatures
  | getFeaturesLun
  | setFeaturesLun
  | zqLong
  | zqShort
  | odt
  | readTraining
  | writeTrainingTx
  | writeTrainingRx
  | opc (code : Nat)
deriving DecidableEq, Repr

structure Chan where
  st        : ChanState := .inService
  mode      : Nat := 0                  -- interface mode in use: SDR until training ends (R260, R261)
  rate      : Nat := 10                 -- MT/s in use
  sent      : List NandCmd := []        -- the commands of the FCH's last action on the channel (R262)
  failed    : Nat := 0                  -- consecutive failed trainings
  heldOp    : Option Nat := none        -- operation to repeat (R289)
  retired   : List Nat := []            -- retired LUNs, CE × 16 + LUN
  timeouts  : List (Nat × Nat) := []    -- consecutive timeouts per LUN
  sticky    : List (Nat × Bool × Nat) := []  -- sticky entry per LUN and mode (R280)
deriving DecidableEq, Repr

structure Flash where
  chans   : Vector Chan 8 := Vector.replicate 8 {}
  ops     : List FlashOp := []          -- in order of receipt
  stripes : List Stripe := []
  nextOp  : Nat := 0
  nextSid : Nat := 0
  retry   : List (Nat × Word) := []     -- retry table words that are not 0, by LDC_RR_SEL (R279)
  balance : Int := 0                    -- power tokens, µJ (R505)
  alloc   : Nat := 0
  spent   : Nat := 0                    -- tokens spent in this period
  credit  : Int := 0                    -- program and erase tokens that the Forager may take, 1/16 µJ (R242)
  gotAlloc : Bool := false              -- an allocation came for this period
  lastRsv  : Nat := 0                   -- base × RSV / 256 of the last cap received (R509)
deriving DecidableEq, Repr

/-! ### Cipher engine (CRY) -/

inductive SlotState where
  | empty
  | current
  | decryptOnly
deriving DecidableEq, Repr

/-- A data slot (R342, R345): one share of a data key or of an XTS key pair. -/
structure DataSlot where
  num    : Nat
  st     : SlotState
  tenant : Nat
  gen    : Nat
  xts    : Option Nat      -- the namespace of an XTS key pair
  share  : Bytes           -- s1 of R343
  ctr    : Nat             -- its counter (R351, R353)
  bound  : Nat             -- its recorded bound (R352)
deriving DecidableEq, Repr

/-- The mask generator of a pipeline (R357). -/
structure Pipe where
  seed   : Nat := 0    -- the draw of the CTR_DRBG that seeded it last
  blocks : Nat := 0    -- blocks since then
deriving DecidableEq, Repr

structure Cry where
  data      : List DataSlot := []
  session   : List (Nat × Bytes) := []  -- shares by local session number
  auth      : List (Nat × Bytes) := []  -- shares by tenant
  kmask     : Bytes := []               -- K_MASK (R343)
  healthy   : Bool := true              -- the entropy source is in use
  fails     : Nat := 0                  -- consecutive health test failures (R359)
  borrow    : Option DieId := none      -- the die whose CTR_DRBG seeds this one
  reseeds   : Nat := 0
  pipes     : List Pipe := List.replicate 6 {}  -- the six pipelines (R355, R357)
deriving DecidableEq, Repr

/-! ### Tenants -/

/-- A tenant context (R332). -/
structure Tenant where
  id         : Nat
  enable     : Bool
  reqEnc     : Bool
  urgentOk   : Bool
  rules      : Bool
  reject     : Bool
  weight     : Nat
  share      : Nat
  sessMax    : Nat
  nsMax      : Nat
  opsRate    : Nat
  opsBurst   : Nat
  byteRate   : Nat
  byteBurst  : Nat
  refillUs   : Nat
  limitLog2  : Nat
  adminPorts : Nat
deriving DecidableEq, Repr

/-! ### Metering, monitors and events (MTR, LAT, EVR) -/

/-- The counters of one tenant in one minute (R379). -/
structure Meter where
  tenant   : Nat
  ops      : List Nat := List.replicate 8 0
  bytesIn  : Nat := 0
  bytesOut : Nat := 0
  progHost : Nat := 0
  progGc   : Nat := 0
  capBs    : Nat := 0
  qosViol  : Nat := 0
  hist     : List Nat := List.replicate 24 0
  refused  : Nat := 0
  delayed  : Nat := 0
  reads4k  : Nat := 0                  -- r4k of R381
deriving DecidableEq, Repr

/-- A latency record (R394). -/
structure LatRec where
  kind   : Nat
  index  : Nat
  count  : Nat := 0
  min    : Nat := 0
  max    : Nat := 0
  minDev : Nat := 0
  maxDev : Nat := 0
  hist   : List Nat := List.replicate 24 0
deriving DecidableEq, Repr

/-- An event record (R397) with its code's token bucket (R398). -/
structure EvtRec where
  code    : Nat
  seen    : Bool := false
  count   : Nat := 0
  limited : Nat := 0
  min     : Nat := 0
  max     : Nat := 0
  minDev  : Nat := 0
  minWall : Int := 0
  maxDev  : Nat := 0
  maxWall : Int := 0
  hist    : List Nat := List.replicate 16 0
deriving DecidableEq, Repr

/-- The rate setting and tokens of an event code (R398); unlisted codes have the reset setting and a full bucket. -/
structure EvtRate where
  code   : Nat
  burst  : Nat
  rate   : Nat
  tokens : Nat             -- in thousandths
deriving DecidableEq, Repr

structure Monitor where
  bank     : List Meter := []          -- counters of the open minute
  prev     : List Meter := []          -- counters of the minute that ended (R378)
  prevSent : Bool := true              -- its partial records have been sent
  spill    : List (Nat × List Meter) := []  -- partial records spilled to flash by minute (R389)
  lat      : List LatRec := []
  levels   : List EvtRec := []         -- by level channel (R395)
  latWin   : List Word := []
  events   : List EvtRec := []
  rates    : List EvtRate := []
  evrWin   : List Word := []
  devTime  : Nat := 0                  -- the die's copy of device time, ns (R373)
deriving DecidableEq, Repr

/-! ### Ethernet ports (ETH) -/

/-- An IP address slot (R409). -/
structure AddrSlot where
  slot   : Nat
  valid  : Bool
  v6     : Bool
  tagged : Bool
  vid    : Nat
  data   : BitVec 128
  next   : BitVec 128      -- written to ETH_ADDR_DATA0 to DATA3, not yet committed
deriving DecidableEq, Repr

/-- A filter entry (R413): the three words loaded into it. -/
structure Filter where
  idx    : Nat
  matchA : Word
  matchB : Word
  act    : Word
deriving DecidableEq, Repr

/-- What a frame to be sent carries: a Kocel packet, an answer or announcement of the responder (R415, R416), or a PFC
frame with the priorities that it names and its time in quanta (R418). -/
inductive TxKind where
  | kocel (payload : Bytes)
  | arpReply (ip : Nat)
  | neighbourAdv (ip : Nat)                -- with the S and O flags and the link-layer address option
  | gratuitousArp (ip : Nat)
  | unsolicitedNa (ip : Nat)
  | pfc (prios quanta : Nat)
deriving DecidableEq, Repr

/-- A frame queued for sending (R420) and where it goes. -/
structure TxPkt where
  pcp     : Nat
  dscp    : Nat
  vlan    : Option Nat
  dstMac  : Nat
  v6      : Bool
  dstIp   : Nat
  dstUdp  : Nat
  kind    : TxKind
  srcIp   : Nat := 0      -- the source address and port of a Kocel packet (R56)
  srcUdp  : Nat := 0
  csum    : BitVec 16 := 0  -- its UDP checksum (R57)
deriving DecidableEq, Repr

/-- A frame held in a receive queue (R412) with its buffers. -/
structure RxHeld where
  queue   : Nat
  bytes   : Bytes
  pool    : Nat
  bufs    : List Nat
deriving DecidableEq, Repr

structure EthPort where
  up       : Bool := false
  anDone   : Bool := false
  attempts : Nat := 0
  slots    : List AddrSlot := []
  filters  : List Filter := []
  paused   : List Nat := []            -- priorities paused by the partner (R417)
  discard  : List Nat := []            -- priorities whose frames are discarded (R419)
  sending  : Bool := false             -- the condition of R418 holds
  txq      : List TxPkt := []
  lastTx   : Option TxPkt := none      -- the last frame sent, and
  lastBad  : Bool := false             -- whether it ended with its FCS inverted (R420)
  live     : List (Nat × Nat) := []    -- counters by register offset, those not 0
  shadow   : List (Nat × Nat) := []
  arpSec   : Nat := 0                  -- the second of device time, and
  arpSent  : Nat := 0                  -- the responder's replies in it (R415)
deriving DecidableEq, Repr

/-! ### DRAM, pools and the mover (DMC, BPM, MOV) -/

structure Dmc where
  st       : Nat := 0                  -- DMC_STATE[1:0]
  pdown    : Bool := false
  refreshes : Nat := 0
  lfsr     : List Nat := [1, 1]        -- one per subchannel (R434)
  neighbours : List (Nat × Nat × Nat) := []  -- rows refreshed around (subchannel, bank, row), the last draw
  training : Bool := false
  scrubAt  : Option Nat := none        -- device time at which the last complete scrub pass ended
  poison   : List Nat := []            -- poisoned 64-byte bursts
  queue    : List (Bool × Nat) := []   -- accesses accepted and not yet issued, oldest first: a write or not, its burst (R432)
  openRows : List (Nat × Nat) := []    -- open row of each bank
  inorder  : List (Nat × Nat) := []    -- subchannels in in-order mode: accesses of theirs up to the write that ends it (R432)
deriving DecidableEq, Repr

/-- A buffer pool (R437, R443). -/
structure Pool where
  pen      : Bool := false
  bpKtp    : Bool := false
  sizeLog2 : Nat := 11
  count    : Nat := 0
  base     : Nat := 0
  low      : Nat := 0
  crit     : Nat := 0
  critOff  : Nat := 0
  head     : Nat := 0                  -- address of the first free buffer
  free     : Nat := 0
  minFree  : Option Nat := none        -- lowest free count since the last read
  corrupt  : Bool := false
  inCrit   : Bool := false
deriving DecidableEq, Repr

structure Bpm where
  pools   : Vector Pool 16 := Vector.replicate 16 {}
  refs    : List (Nat × Nat) := []     -- buffer address, owner (R440)
  fenced  : List Nat := []             -- owners
  sweep   : Option Nat := none         -- owner being swept
deriving DecidableEq, Repr

structure Mov where
  running  : Bool := false
  stopped  : Bool := false             -- under R449
  consumed : Nat := 0
  tail     : Nat := 0
  bytes    : Nat := 0
  pulses   : List (Nat × Nat × Nat) := []   -- target, channel, tag of descriptors done, pulse not yet sent (R447)
  tagsSeen : List (Nat × Nat) := []    -- pulses received at CRY (2) and MAP (3): target, tag
deriving DecidableEq, Repr

/-! ### Control complex (WRK, ICU, SWM, WGL) -/

inductive CoreState where
  | run
  | idle
  | halted
  | fenced
deriving DecidableEq, Repr

structure Core where
  st      : CoreState := .run
  reason  : Nat := 0                   -- halt reason (R492)
  pc      : Word := 0
  haltReq : Bool := false
  maskIrq : Bool := false
  stepping : Bool := false
  skipBp  : Bool := false              -- next breakpoint at its address does not fire (R485)
  kickAt  : Nat := 0                   -- the die's device time at its last kick
  cregs   : List (Nat × Word) := []    -- registers read or written through the debug port during this halt (R492)
deriving DecidableEq, Repr

/-- A source of the ICU (R466 to R472); unlisted sources are at reset. -/
structure IcuSrc where
  num    : Nat
  en     : Bool := false
  prio   : Nat := 0
  group  : Nat := 0
  target : Nat := 0
  st     : Nat := 0                    -- 0 INACTIVE, 1 PENDING, 2 ACTIVE
  count  : Nat := 0
  raised : Bool := false               -- the level as last seen (R467)
  shown  : Bool := false               -- presented to a core (R472)
deriving DecidableEq, Repr

structure Icu where
  srcs : List IcuSrc := []
  hold : List Nat := []                -- groups whose hold-off runs
deriving DecidableEq, Repr

/-- The states of a Swarm link (SWM_STATE). -/
inductive LinkState where
  | down
  | training
  | up
  | retired
deriving DecidableEq, Repr

structure Swm where
  st       : LinkState := .down
  replay   : List Flit := []           -- sent, not acknowledged
  rxNext   : Nat := 0                  -- next sequence number expected
  rounds   : Nat := 0                  -- failed rounds in a row on the oldest flit
  reqCred  : Nat := 64
  rspCred  : Nat := 64
  txNext   : Nat := 0                  -- next sequence number to send
  hold     : List Flit := []           -- held messages (R20)
  switching : Bool := false            -- retired, and its messages not yet on their new routes (R20)
  held     : Bool := false             -- the link is held (R464, R477)
  seen     : List (DieId × DieId × BitVec 16) := []  -- end-to-end numbers accepted (R476)
deriving DecidableEq, Repr

/-- The Waggle port's state, kept once for the package in die 0's WGL, and the halt registers of a die. -/
structure Bp where
  core : Nat
  bp   : Nat
  addr : Word
deriving DecidableEq, Repr

/-! ### Thermal (THM) and power (PWR) -/

inductive ThmState where
  | normal
  | warn
  | throttle
  | shutdown
deriving DecidableEq, Repr

structure Thm where
  temps  : List Int := List.replicate 12 400   -- last readings, 1/16 °C
  bad    : List Nat := []
  st     : ThmState := .normal
  loaded : Bool := false
  oscTab : List Int := List.replicate 16 0
  bgTab  : List Int := List.replicate 16 0
  oscTrim : Int := 0
  bgTrim  : Int := 0
  stage2 : Bool := false
deriving DecidableEq, Repr

/-! ### A controller die -/

/-- A message of the Swarm that waits at its source while its route does (R19, R20, R475): a command for its owner, a barrier, the
reply of a command. -/
inductive Crossing where
  | command (c : Cmd)
  | barrier (dst : DieId) (b : Barrier)
  | reply (c : Cmd) (status aux version objLen : Nat) (data : Bytes)
deriving DecidableEq, Repr

/-- Whether and why a die runs (R21, R464, R513, R567). -/
inductive DiePhase where
  | reset          -- held in reset during a start
  | up             -- takes commands
  | refused        -- rejected or unmountable at start (BOOT_FAULT, TRAIN_FAIL)
  | dieReset       -- in the die reset of R464
  | fenced
  | hot            -- held by a thermal shutdown (R513)
deriving DecidableEq, Repr

structure Die where
  phase   : DiePhase := .reset
  ktp     : Ktp := {}
  csq     : Csq := {}
  comb    : Comb := {}
  map     : MapEng := {}
  groups  : List Group := []
  fgr     : Fgr := {}
  flash   : Flash := {}
  cry     : Cry := {}
  tenants : List Tenant := []
  hashKeys : List (Nat × Bytes) := []   -- per tenant (R143)
  mon     : Monitor := {}
  ports   : Vector EthPort 2 := Vector.replicate 2 {}
  rxq     : List RxHeld := []
  dmc     : Dmc := {}
  bpm     : Bpm := {}
  mov     : Mov := {}
  cores   : Vector Core 8 := Vector.replicate 8 {}
  icu     : Icu := {}
  swm     : Vector Swm 3 := Vector.replicate 3 {}
  out     : List Crossing := []         -- messages of its own that wait for their routes, oldest first
  bps     : List Bp := []
  thm     : Thm := {}
  pll     : Bool := false               -- the core PLL reports lock
  pllCores : Bool := false              -- the cores run from the core PLL (R24)
  gated   : List Nat := []              -- pages whose clock was woken by an access (R498)
  mem     : List Host.Cell := []        -- SRAM and DRAM by die-local address (R426)
deriving DecidableEq, Repr

/-! ### The guard die -/

/-- A slot of HCE (R305 to R310). -/
structure HceSlot where
  fixedIn : Option Int := none          -- a fixed inner reference (R312)
  omeas   : Int := 0
  oout    : Int := 0
  oint    : Int := 0
  imeas   : Int := 0
  iout    : Int := 0
  iint    : Int := 0
  oscale  : Nat := 0x1000
  iscale  : Nat := 0x1000
  traced  : List (List Int) := []       -- the newest sample last, at most 4,096
  armed   : Bool := false
  trig    : Bool := false               -- triggered, recording on
  trigd   : Bool := false               -- holds a triggered capture
  left    : Nat := 0                    -- samples still to record
  divCnt  : Nat := 0
  forced0 : Bool := false               -- inner output forced to 0 (R303)
deriving DecidableEq, Repr

/-- The states of the bank (PSU_STATE). -/
inductive BankState where
  | charging
  | ready
  | testing
  | degraded
  | fault
  | loss
deriving DecidableEq, Repr

/-- Where a bank health test stands (R312). -/
inductive TestStep where
  | none
  | waitFit          -- step 1
  | discharge        -- steps 2 to 4
  | recharge         -- step 5
deriving DecidableEq, Repr

structure Psu where
  vin      : Nat := 0                   -- 10 mV
  vbank    : Nat := 0
  vhold    : Nat := 0
  vadm     : Nat := 0
  limit    : Nat := 0                   -- package dirty limit, bytes
  eUsable  : Nat := 0                   -- mJ
  cMeas    : Nat := 0                   -- 10 µF
  esr      : Nat := 0
  tested   : Bool := false              -- a test has completed since the cold reset
  begun    : Bool := false              -- a test has begun since the cold reset (R311)
  testAt   : Option Nat := none         -- device time at which the last test completed
  bank     : BankState := .charging
  verdict  : BankState := .charging     -- the last test's verdict
  test     : TestStep := .none
  testDue  : Bool := false
  ovStop   : Bool := false              -- charger stopped by BANK_OV
  ovRead   : Bool := false              -- ERR_CODE has been read since
  orOn     : Bool := true               -- the ORing FET
  flushed  : List DieId := []           -- dies that have reported done
  vStart   : Nat := 0
  flushKb  : Nat := 0
  wdog     : Bool := false              -- the package watchdog has been kicked first
deriving DecidableEq, Repr

/-- A PMBus output as the master knows it (R556). -/
structure Rail where
  on      : Bool := false
  failed  : Bool := false
  noAns   : Nat := 0
  status  : BitVec 16 := 0
  vin     : Nat := 0
  vout    : Nat := 0
  iout    : Nat := 0
  temp    : Nat := 0
  margin  : Nat := 0
  marginPct : Nat := 0
  vset    : Nat := 0                    -- last VOUT_COMMAND, mV
  recheck : Bool := false
deriving DecidableEq, Repr

structure Guard where
  devTime  : Nat := 0                   -- ns since the last cold reset (R373)
  offset   : Int := 0                   -- wall time less device time (R375)
  wallUnset : Bool := true
  hce      : Vector HceSlot 4 := #v[{ armed := true }, { armed := true }, {}, {}]
  psu      : Psu := {}
  rails    : Vector Rail 16 := Vector.replicate 16 {}
  thm      : Thm := { temps := List.replicate 2 400 }
  ext      : List Int := List.replicate 8 0    -- external temperature inputs
  fanFault : Bool := false              -- HEALTH.FAN_FAULT
  alarms   : List Nat := []             -- device times of alarms within the last hour (R363)
  alarmSrc : List (AlarmSource × Site) := []   -- active alarm sources waiting for R361 step 5
  alarmHold : Bool := false
  die0At   : Option Nat := none         -- device time of the last die 0 fault (R16)
  die0Hold : Bool := false
  faultAt  : List (DieId × Nat) := []   -- last die fault of each die (R464)
  tripped  : List (Fin 2) := []         -- tamper inputs tripped since cold reset
  purge    : Bool := false              -- PURGE (R364)
  mgtOut   : List Bytes := [[], []]     -- last SMBus response of each MGT port; empty for NACK
  off      : Bool := false              -- the package is in OFF
  shutting : Bool := false              -- orderly shutdown in progress
  deep     : Bool := false              -- the package is in DEEP
  entry    : Nat := 0                   -- the last step done of an entry to DEEP in progress (R495, R496)
  wakeSrc  : Nat := 0
  losing   : Bool := false              -- a power-loss sequence runs
  lossDone : Bool := false              -- step 9 of R322 is over, waiting for VIN
  resetLow : Bool := false              -- RESET_N is low
  thermHold : Bool := false             -- R514 holds the package
deriving DecidableEq, Repr

/-! ### Boot NOR and firmware -/

/-- Boot-control entries (R531). -/
inductive BootEntry where
  | active (slot : Bool)
  | start (slot : Bool) (cause : Nat)
  | confirm (slot : Bool)
deriving DecidableEq, Repr

/-- Configuration journal records (R544). -/
inductive CjBody where
  | tenantCtx (t : Tenant)
  | keyAuth (tenant : Nat) (wrapped : Bytes)
  | keyData (tenant gen : Nat) (wrapped : Bytes) (st : SlotState)
  | keyXts (tenant nsid : Nat) (wrapped : Bytes)
  | ctrBound (die : Nat) (tenant gen : Nat) (bound : Nat)
  | clockOffset (off : Int) (mark : Int)
  | boot (n : Nat)
  | chanRetired (die chan : Nat)
  | ldcRates (v : Word)
  | rule (index : Nat) (val care : BitVec 192) (prio : Nat) (res : BitVec 128)
  | portAddr (die port slot : Nat) (cfg : Word) (data : BitVec 128)
  | lunRetired (die chan lun : Nat)
deriving DecidableEq, Repr

structure CjRec where
  seq     : Nat
  deleted : Bool
  sector  : Nat            -- the main sector it lies in (385 to 510)
  off     : Nat            -- its place in the sector
  body    : CjBody
deriving DecidableEq, Repr

/-- A running NOR operation (R521). -/
structure NorOp where
  erase  : Bool
  addr   : Nat
  len    : Nat
  sector : Nat             -- coded as in R522
  data   : Bytes           -- what a program writes
deriving DecidableEq, Repr

structure Nor where
  array   : List Host.Cell := []        -- NOR bytes; unlisted bytes read 0xFF
  op      : Option NorOp := none
  pe      : Bool := false
  optWe   : Bool := false
  shadow  : Bytes := []                 -- the option area shadow (R526)
  optOk   : Bool := false
  journal : List CjRec := []
  cjSeq   : Nat := 0
  cjHead  : Nat := 385                  -- main sector at the head of the configuration journal
  cjAt    : Nat := 0                    -- next free place in that sector, 0 while it has no header
  cjSectors : Nat := 0                  -- SECTOR_SEQ of the next sector
  cjErased : Nat := 125                 -- erased journal sectors that remain
  running : Bool := false               -- the running slot: false A, true B
  bootFault : Bool := false
  dlSlot  : Bool := false
  dlOn    : Bool := false               -- a download is in progress
  dlGot   : Nat := 0                    -- bytes received
  dlLen   : Nat := 0                    -- 4,096 + IMAGE_LEN
  cause   : Nat := 0                    -- CAUSE of the last START
  kicked  : Bool := false
  -- fuses (R365)
  rootHash : List Bytes := []
  revoke  : Nat := 0
  svn     : Nat := 0
  secret  : Bytes := []
  dbgLock : Bool := false
  mfgKey  : Bytes := []                 -- wrapped provisioning key of main sector 511 (R334)
  unitId  : Bytes := []
deriving DecidableEq, Repr

/-! ### Waggle (die 0's WGL) -/

structure Waggle where
  err      : Bool := false
  busy     : Bool := false
  caps     : Nat := 0                   -- granted: bit 0 REG, bit 1 MEM, bit 2 HALT
  want     : Nat := 0                   -- requested by WRITE_CTRL
  lockout  : Bool := false
  fails    : Nat := 0
  lastSeq  : Option Nat := none         -- SEQ of the last write that returned DONE (R479)
  readSeq  : Option (Nat × Nat × Word) := none  -- OP, SEQ and word of the last transaction, when it was a read
  addr     : Word := 0
  chal     : Bytes := []
  chalIdx  : Nat := 0
  resp     : Bytes := []
  grant    : Option Nat := none         -- the capabilities of a response that has passed, grant pending (R483)
  status   : Nat := 0                   -- last status sent: 6 DONE, 9 RETRY, 12 REFUSED
  out      : Word := 0                  -- last data word sent
  outCrc   : Byte := 0
deriving DecidableEq, Repr

/-! ### The package -/

/-- What the log of sealed minutes holds (R385 to R390). -/
structure Sealed where
  minute  : Nat
  dies    : Nat
  records : List Bytes                 -- the 256-byte records, the seal last
  head    : Bytes
deriving DecidableEq, Repr

structure Metering where
  minute    : Nat := 0                 -- the open minute (R377)
  wallStart : Int := 0
  devStart  : Nat := 0
  steps     : List (Int × Int × Nat) := []   -- clock steps of the open minute (R384)
  enabledIn : List Nat := []           -- tenants enabled at some time in the open minute (R386)
  -- the minute waiting for its seal
  closing   : Option Nat := none
  cWall     : Int := 0
  cDev      : Nat := 0
  cMs       : Nat := 60000
  cSteps    : List (Int × Int × Nat) := []
  cLoss     : Bool := false
  cUnset    : Bool := false            -- WALL_UNSET at its end
  cEnabled  : List Nat := []
  got       : List DieId := []         -- dies whose partial records are in
  missing   : List DieId := []
  sums      : List Meter := []
  carry     : List (Nat × Nat) := []   -- energy carry per tenant (R381)
  lost      : List DieId := []         -- dies fenced in the open minute (R388)
  opened    : Bool := false            -- a start has opened the minute, and it has not been cut short since
  cutAt     : Option Nat := none       -- device time at which the open minute was cut short (R389)
  cutUnset  : Bool := false            -- WALL_UNSET at that time
  log       : List Sealed := []        -- the oldest first
  boot      : Nat := 0
deriving DecidableEq, Repr

/-- Firmware activation (R133). -/
structure Activation where
  on   : Bool := false
  cid  : Nat := 0
  slot : Bool := false
  old  : Bool := false
deriving DecidableEq, Repr

structure Package where
  placement : List Nat := []           -- the master placement table, OFFLINE in bit 7 (R144, R216)
  epoch     : Nat := 0
  formatId  : Nat := 0
  act       : Activation := {}
  lims      : List (Option Nat) := List.replicate 8 none  -- lim of R508; none: at the cap
  demand    : List Nat := List.replicate 8 0
  pkgF      : Nat := 256
  purged    : Bool := false            -- R364: only NOP and admin commands until a FORMAT
  keysOut   : Bool := false            -- R369: slots stay EMPTY until the next reset
  mountedAt : Option Nat := none       -- device time since which R533 counts
  nextCid   : Nat := 0
  fwReload  : Nat := 0                 -- firmware reloads of R133
  resetPend : Bool := false            -- RESET_DEVICE has replied, the warm reset follows (R101)
  entropyFail : Bool := false          -- R359: no die has a healthy source
  clockFault : Bool := false           -- R25
  starting  : Bool := false            -- a warm reset or start is in progress, held at R535 step 4
  startCold : Bool := false            -- that start is a cold one
  startWhy  : Nat := 0                 -- its CAUSE (R531)
  partBlocks : Nat := 1862              -- blocks per LUN that the LUNs' parameter pages give (R263)
  lunsBad : List (DieId × ChanId × Nat) := []  -- LUNs (CE × 16 + LUN) whose parameter page fails identification (R263)
deriving DecidableEq, Repr

/-- What the block last answered to an access: the data returned to a register read (R10). -/
structure Answer where
  data : Word := 0
  addr : Nat := 0                      -- the address that the last ALLOC returned (R438)
  runs : List Word := []               -- the words of the last REG_READ
deriving DecidableEq, Repr

/-- The state of the package. -/
structure State where
  part    : Part
  dies    : Vector Die 8
  guard   : Guard
  nor     : Nor
  wgl     : Waggle
  pkg     : Package
  mtr     : Metering
  regs    : List (Nat × Word)                        -- registers that differ from their reset value, by address
  latch   : List (Requester × Nat × Word)            -- latched _HI values (R8)
  heldLo  : List (Requester × Nat × Word)            -- held _LO writes (R8)
  answer  : Answer
  draws   : Nat                                      -- the model's own: how many free values have been drawn
  pending : List Instr                               -- the model's own: commands waiting, the first at the front
deriving DecidableEq, Repr

/-- The package right after a cold reset: every register at its reset value (none listed in `regs`), every queue and
table empty, the controller dies held in reset until the start sequence of R535 (COLD_RESET) has run. -/
def State.reset : State where
  part    := .stz8880
  dies    := Vector.replicate 8 {}
  guard   := {}
  nor     := {}
  wgl     := {}
  pkg     := {}
  mtr     := {}
  regs    := []
  latch   := []
  heldLo  := []
  answer  := {}
  draws   := 0
  pending := []

end Sys2Proof.Machine
end

