-- ==== Sys2Proof/Machine/Ops.lean ====
section
/-! DEFINITION. The named operations over the state that every family uses: sparse storage in canonical form, the
registers, dies, block memory, and the drawing of free values. -/
namespace Sys2Proof.Machine
open Sys2Proof

/-- The outcome of every meaning. -/
abbrev Out := Host.Outcome State Fault Refusal

/-! ### Sparse storage -/

/-- What an address of a sparse store reads as: its listed value, or what an unlisted address reads as. -/
def cellGet {α : Type} (dflt : Nat → α) : List (Nat × α) → Nat → α
  | [], a => dflt a
  | (b, v) :: r, a => if a = b then v else cellGet dflt r a

/-- Writes one address of a sparse store, keeping addresses rising and unlisted what reads the same without an
entry. -/
def cellSet {α : Type} [DecidableEq α] (dflt : Nat → α) : List (Nat × α) → Nat → α → List (Nat × α)
  | [], a, v => if v = dflt a then [] else [(a, v)]
  | (b, w) :: r, a, v =>
    if a < b then (if v = dflt a then (b, w) :: r else (a, v) :: (b, w) :: r)
    else if a = b then (if v = dflt a then r else (a, v) :: r)
    else (b, w) :: cellSet dflt r a v

/-- The canonical form: addresses strictly rising, no entry equal to what an unlisted address reads as. -/
def cellWf {α : Type} [DecidableEq α] (dflt : Nat → α) : List (Nat × α) → Bool
  | [] => true
  | (a, v) :: r => decide (v ≠ dflt a) && r.all (fun p => decide (a < p.1)) && cellWf dflt r

/-- What an unlisted byte of die-local memory reads as (log 2). -/
def memBlank : Nat → Byte := fun _ => 0

/-- What an unlisted byte of the boot NOR reads as: erased (log 3). -/
def norBlank : Nat → Byte := fun _ => 0xFF

/-- The canonical form of a die's memory. -/
def memWf (m : List Host.Cell) : Bool := cellWf memBlank m

/-- The canonical form of the NOR array. -/
def norWf (m : List Host.Cell) : Bool := cellWf norBlank m

/-- The canonical form of the registers. -/
def regsWf (m : List (Nat × Word)) : Bool := cellWf resetOf m

/-- Writes a byte string from an address up. -/
def cellsPut (dflt : Nat → Byte) (m : List Host.Cell) (a : Nat) : Bytes → List Host.Cell
  | [] => m
  | b :: bs => cellsPut dflt (cellSet dflt m a b) (a + 1) bs

/-- Reads n bytes from an address up. -/
def cellsGet (dflt : Nat → Byte) (m : List Host.Cell) (a : Nat) : Nat → Bytes
  | 0 => []
  | n + 1 => cellGet dflt m a :: cellsGet dflt m (a + 1) n

/-! ### Dies -/

/-- How many controller dies the part has (R1). -/
def partDies : Part → Nat
  | .stz8820 => 2
  | .stz8840 => 4
  | .stz8880 => 8

/-- The die IDs of R1 that the part has. -/
def present (s : State) (d : DieId) : Bool := decide (d.val < partDies s.part)

/-- All die numbers. -/
def allDies : List DieId := [0, 1, 2, 3, 4, 5, 6, 7]

/-- A die's state. -/
def State.die (s : State) (d : DieId) : Die := s.dies.get d

/-- Replaces a die's state. -/
def State.setDie (s : State) (d : DieId) (x : Die) : State := { s with dies := s.dies.set d.val x d.isLt }

/-- Changes a die's state. -/
def State.updDie (s : State) (d : DieId) (f : Die → Die) : State := s.setDie d (f (s.die d))

/-- A present die that runs: not held in reset, fenced or hot, and not in a power-loss sequence, in which a die does
nothing but flush (R322), nor in DEEP, in which its clocks are stopped (R493). -/
def running (s : State) (d : DieId) : Bool :=
  present s d && decide ((s.die d).phase = .up) && !s.guard.losing && !s.guard.deep

/-- The dies of the part that run. -/
def upDies (s : State) : List DieId := allDies.filter (running s)

/-- Applies a change to each die of a list, in order. -/
def overDies (f : State → DieId → State) (s : State) (ds : List DieId) : State := ds.foldl f s

/-- A change of a die that runs; a command at a die that does not run changes nothing. -/
def onDie (s : State) (d : DieId) (f : State → State) : State := if running s d then f s else s

/-- Sets position k of a fixed table. -/
def vset {α : Type} {n : Nat} (v : Vector α n) (k : Fin n) (a : α) : Vector α n := v.set k.val a k.isLt

/-! ### Registers -/

/-- The address of a register of a controller die's page (R34). -/
def dreg (d : DieId) (page off : Nat) : Nat := d.val * 0x10000000 + page * 0x10000 + off

/-- The address of a register of the guard die's window. -/
def greg (page off : Nat) : Nat := 0xF0000000 + page * 0x10000 + off

/-- The address of a register of the boot NOR controller's page. -/
def nreg (off : Nat) : Nat := 0xE0000000 + off

/-- The value that a register holds. -/
def regGet (s : State) (a : Nat) : Word := cellGet resetOf s.regs a

/-- Sets the value that a register holds. -/
def regSet (s : State) (a : Nat) (v : Word) : State := { s with regs := cellSet resetOf s.regs a v }

/-- A field of a die's register. -/
def dfld (s : State) (d : DieId) (page off hi lo : Nat) : Nat := fld (regGet s (dreg d page off)) hi lo

/-- A field of a register of the guard die. -/
def gfld (s : State) (page off hi lo : Nat) : Nat := fld (regGet s (greg page off)) hi lo

/-- Adds to a saturating counter register. -/
def regBump (s : State) (a k : Nat) : State := regSet s a (satWord ((regGet s a).toNat + k))

/-- Replaces a field of a register. -/
def regFld (s : State) (a hi lo x : Nat) : State := regSet s a (setFld (regGet s a) hi lo x)

/-- The base address of the page that holds an address. -/
def baseOf (a : Nat) : Nat := a - a % 0x10000

/-- CTRL.EN of a page. -/
def enabled (s : State) (base : Nat) : Bool := bitAt (regGet s (base + 0x08)) 0

/-- CTRL.LOCK of a page. -/
def locked (s : State) (base : Nat) : Bool := bitAt (regGet s (base + 0x08)) 31

/-- A soft reset of the page is in progress (R49). -/
def softResetting (s : State) (base : Nat) : Bool := bitAt (regGet s (base + 0x08)) 1

/-- Whether a block takes new work: it is enabled (R48) and no soft reset of it is in progress (R49). -/
def takesWork (s : State) (base : Nat) : Bool := enabled s base && !softResetting s base

/-- New work at a block of a die that runs; without EN, or in a soft reset, the block takes none (R48, R49, log 61). -/
def onBlock (s : State) (d : DieId) (page : Nat) (f : State → State) : State :=
  onDie s d (fun s => if takesWork s (dreg d page 0) then f s else s)

/-- Removes the listed values of the registers that a test picks: they read their reset value again. -/
def regsDrop (s : State) (p : Nat → Bool) : State := { s with regs := s.regs.filter (fun c => !p c.1) }

/-! ### Reaching a register -/

/-- Whether a controller die's window answers (R39, R567): the die is present and out of reset; during the hold of
R513 its PWR and THM pages answer. -/
def dieOpen (s : State) (d : DieId) (page : Nat) : Bool :=
  present s d && (match (s.die d).phase with
    | .up => true
    | .refused => true
    | .hot => decide (page < 2)
    | _ => false)

/-- Whether an address lies in a window that answers. -/
def windowOpen (s : State) (a : Nat) : Bool :=
  if h : winOf a < 8 then dieOpen s ⟨winOf a, h⟩ (pageOf a)
  else if winOf a = 0xE then dieOpen s 0 2
  else winOf a = 0xF && !s.guard.off

/-- An access of a requester: the Waggle requester has the register space only while its REG capability is granted (R40,
R481). -/
def byReq (s : State) (r : Requester) (f : State → State) : State :=
  if r = .waggle ∧ s.wgl.caps.testBit 0 = false then s else f s

/-- The code field of a write lies within the values that the field defines (R566). -/
def rngOk (f : FieldSpec) (x : Nat) : Bool :=
  match f.rng with
  | .any => true
  | .between lo hi => decide (lo ≤ x ∧ x ≤ hi)
  | .sbetween lo hi => decide (lo ≤ signed (f.hi + 1 - f.lo) x ∧ signed (f.hi + 1 - f.lo) x ≤ hi)
  | .oneOf l => l.contains x

/-- Whether a programmable field takes the value written; the fields that ignore writes are not checked. -/
def fieldOk (v : Word) (f : FieldSpec) : Bool := f.acc == .ro || rngOk f (fld v f.hi f.lo)

/-- Whether every field of a write holds a defined value (R566). -/
def valuesOk (r : RegSpec) (v : Word) : Bool := r.fields.all (fieldOk v)

/-- A field after a write, by its access code (R10); W1S and WO fields hold nothing here. -/
def mergeField (lock : Bool) (v : Word) (acc : Word) (f : FieldSpec) : Word :=
  match f.acc with
  | .rw => setFld acc f.hi f.lo (fld v f.hi f.lo)
  | .rws => setFld acc f.hi f.lo (fld v f.hi f.lo)
  | .rwl => if lock then acc else setFld acc f.hi f.lo (fld v f.hi f.lo)
  | _ => acc

/-- A register after a write (R10, R565). -/
def mergeFields (lock : Bool) (old v : Word) (r : RegSpec) : Word := r.fields.foldl (mergeField lock v) old

/-- Whether a write would change an RWL field while the page is locked (R565). -/
def lockedChange (lock : Bool) (old v : Word) (r : RegSpec) : Bool :=
  lock && r.fields.any (fun f => f.acc == .rwl && fld v f.hi f.lo != fld old f.hi f.lo)

/-! ### Pages of R37 -/

namespace Page
def pwr := 0x000
def thm := 0x001
def icu := 0x002
def evr := 0x003
def lat := 0x004
def mtr := 0x005
def eth (p : PortId) : Nat := 0x010 + p.val
def ktp := 0x018
def csq := 0x020
def cmb := 0x028
def map := 0x030
def fgr := 0x038
def fch (c : ChanId) : Nat := 0x040 + c.val
def ldc := 0x050
def mov := 0x058
def cry := 0x060
def dmc := 0x068
def bpm := 0x070
def wrk := 0x078
def swm (k : SwmId) : Nat := 0x080 + k.val
def fwu := 0x090
def wgl := 0x098
-- of window 0xF
def psu := 0
def hce := 1
def gthm := 3
def pkg := 4
def mgt (i : Fin 2) : Nat := 6 + i.val
end Page

/-! ### Free values -/

/-- Draws n bytes of CTR_DRBG output (R358, log 4). -/
def drawBytes (s : State) (n : Nat) : Bytes × State :=
  ((List.range n).map (fun i => Config.drbgByte (s.draws + i)), { s with draws := s.draws + n })

/-- Draws a choice that the spec leaves to the device (log 5). -/
def drawChoice (s : State) : Nat × State := (Config.choice s.draws, { s with draws := s.draws + 1 })

/-! ### Die-local memory -/

/-- A byte of die-local memory (R426). -/
def memGet (s : State) (d : DieId) (a : Nat) : Byte := cellGet memBlank (s.die d).mem a

/-- Bytes of die-local memory. -/
def memRead (s : State) (d : DieId) (a n : Nat) : Bytes := cellsGet memBlank (s.die d).mem a n

/-- Writes bytes of die-local memory. -/
def memWrite (s : State) (d : DieId) (a : Nat) (b : Bytes) : State :=
  s.updDie d (fun x => { x with mem := cellsPut memBlank x.mem a b })

end Sys2Proof.Machine
end

