-- ==== Sys2Proof/Machine/Conditions.lean ====
section
/-! DEFINITION. The orders and conditions between registers that the chapters state of a write (R566). -/
namespace Sys2Proof.Machine
open Sys2Proof

/-- A number below 8 as a die. -/
def dieOf (n : Nat) : DieId := ⟨n % 8, Nat.mod_lt _ (by decide)⟩

/-- The controller die whose window holds an address. -/
def dieAt (a : Nat) : DieId := dieOf (winOf a)

/-- The DRAM data capacity that DMC_CFG describes; none while the channel is off. -/
def dramSize (s : State) (d : DieId) : Nat :=
  let v := regGet s (dreg d Page.dmc 0x40)
  let gib := match fld v 29 28 with
    | 0 => 16
    | 1 => 24
    | _ => 32
  if fld v 15 0 = 0 then 0 else gib * (fld v 27 27 + 1) * 2 ^ 30

/-- A register of HCE slot n (R328). -/
def hreg (n : SlotId) (off : Nat) : Nat := greg Page.hce (0x40 + 0x40 * n.val + off)
/-- A field of a register of HCE slot n. -/
def hfld (s : State) (n : SlotId) (off hi lo : Nat) : Nat := fld (regGet s (hreg n off)) hi lo

/-- The offset of an HCE register within its slot. -/
def slotReg (off : Nat) : Nat := off % 0x40

/-- The index range of a kind of monitor (R404). -/
def latIndexOk (kind index : Nat) : Bool :=
  match kind with
  | 0 => decide (index < 8)
  | 1 => decide (index < 4096)
  | _ => decide (index < 16)

/-- The rates that an interface mode allows (R260). -/
def rateFits (mode rate : Nat) : Bool :=
  match mode with
  | 0 => rate == 10
  | 1 => decide (400 ≤ rate ∧ rate ≤ 1600)
  | 2 => decide (800 ≤ rate ∧ rate ≤ 3600)
  | _ => decide (400 ≤ rate ∧ rate ≤ 3600)

/-- Whether a code rate fits the pages of the die (R267, log 80). -/
def codeFits (s : State) (d : DieId) (rate : Nat) : Bool :=
  decide (2 ^ dfld s d (Page.fch 0) 0x44 20 18 * (4116 + 256 + 128 * rate) ≤ dfld s d (Page.fch 0) 0x48 15 0)

/-- The order of the free-group thresholds (R258). -/
def freeOrder (hi lo : Word) : Bool :=
  decide (fld lo 7 0 < fld lo 15 8) && decide (fld lo 15 8 < fld hi 15 0) && decide (fld hi 15 0 < fld hi 31 16)

/-- The slot count of a key bank (R342). -/
def bankSlots (bank : Nat) : Nat := if bank = 0 then 8192 else 4096

/-- The orders and conditions that the chapters state of a write (R566). -/
def condOk (s : State) (b : Block) (a : Nat) (v : Word) : Bool :=
  let d := dieAt a
  let en := enabled s (baseOf a)
  match b, offOf a with
  | .ktp, 0x4C => decide (fld v 15 8 ≤ fld v 7 0)
  | .cmb, 0x44 => decide (fld v 15 8 ≤ fld v 7 0) && !en
  | .cmb, 0xF8 => decide (fld v 15 0 ≤ fld v 31 16)
  | .map, 0x40 => decide (256 ≤ fld v 19 0) && decide (fld v 19 0 + dfld s d Page.map 0x44 15 0 + 1024 ≤ dramSize s d / 2 ^ 20)
  | .map, 0x4C => decide (fld v 15 8 ≤ fld v 31 16)
  | .fgr, 0x4C => freeOrder v (regGet s (dreg d Page.fgr 0x50))
  | .fgr, 0x50 => freeOrder (regGet s (dreg d Page.fgr 0x4C)) v
  | .fch, 0x40 => rateFits (fld v 19 16) (fld v 15 0)
  | .ldc, 0x40 => codeFits s d (fld v 5 4) && codeFits s d (fld v 1 0)
  | .psu, 0x40 => decide (fld v 15 0 < fld v 31 16)
  | .psu, 0x48 => decide (fld v 31 16 + 200 ≤ fld v 15 0) && decide (hfld s 1 4 31 16 + 200 ≤ fld v 31 16)
  | .psu, 0x4C => decide (fld v 31 16 ≤ fld v 15 0)
  | .cry, 0x50 => decide (fld v 13 0 < bankSlots (fld v 15 14))
  | .lat, 0x50 => latIndexOk (fld v 29 28) (fld v 11 0)
  | .thm, 0x40 => decide (fld v 15 8 + 5 ≤ fld v 23 16) && decide (fld v 7 0 + 3 ≤ fld v 15 8)
  | .eth, 0x40 => !en && !(fld v 2 0 == 1 && (blockInst a == 1 || dfld s d (Page.eth 1) 0x40 2 0 != 0))
  | .eth, 0x48 => !bitAt v 8
  | .eth, 0x4C => !en
  | .eth, 0x64 => !bitAt v 29 || decide (1 ≤ fld v 11 0 ∧ fld v 11 0 ≤ 4094)
  | .dmc, 0x40 => !en
  | .mov, 0x40 => v.toNat % 64 == 0
  | .wgl, 0x50 => v.toNat % 4 == 0
  | .hce, off =>
    if decide (off < 0x140) && (slotReg off == 0x10 || slotReg off == 0x14) then decide (signed 16 (fld v 15 0) ≤ signed 16 (fld v 31 16))
    else true
  | _, _ => true

end Sys2Proof.Machine
end

