-- ==== Sys2Proof/Machine/Flags.lean ====
section
/-! DEFINITION. Interrupt events, error recording, event records and the metering counters: the flag computations that
every family shares (R51 to R55, R379, R380, R394, R397 to R399). -/
namespace Sys2Proof.Machine
open Sys2Proof

/-! ### Interrupt bits -/

/-- An event sets its INT_RAW bit (R52). -/
def raiseInt (s : State) (base bit : Nat) : State :=
  regSet s (base + 0x10) (regGet s (base + 0x10) ||| BitVec.ofNat 32 (2 ^ bit))

/-- INT_STAT: INT_RAW and INT_MASK (R52). -/
def intStat (s : State) (base : Nat) : Word := regGet s (base + 0x10) &&& regGet s (base + 0x14)

/-! ### Event records (EVR) -/

/-- The histogram bin of a value (R397). -/
def eventBin (v : Nat) : Nat := if v = 0 then 0 else min 15 (Nat.log2 v + 1)

/-- An admitted event applied to its record (R397); the first event sets both extremes (log 20). -/
def eventApply (r : EvtRec) (v dev : Nat) (wall : Int) : EvtRec :=
  { r with
    count := min (r.count + 1) 0xFFFFFFFF
    seen := true
    min := if r.seen ∧ r.min ≤ v then r.min else v
    minDev := if r.seen ∧ r.min ≤ v then r.minDev else dev
    minWall := if r.seen ∧ r.min ≤ v then r.minWall else wall
    max := if r.seen ∧ v ≤ r.max then r.max else v
    maxDev := if r.seen ∧ v ≤ r.max then r.maxDev else dev
    maxWall := if r.seen ∧ v ≤ r.max then r.maxWall else wall
    hist := bumpAt (eventBin v) 1 r.hist }

/-- An event that found no token (R398). -/
def eventLimit (r : EvtRec) : EvtRec :=
  { r with count := min (r.count + 1) 0xFFFFFFFF, limited := min (r.limited + 1) 0xFFFFFFFF }

/-- The record of a code, empty when nothing has been recorded. -/
def evtOf (code : Nat) (l : List EvtRec) : EvtRec :=
  match l.find? (fun r => r.code == code) with
  | some r => r
  | none => { code := code }

/-- Replaces the record of its code. -/
def evtPut (r : EvtRec) (l : List EvtRec) : List EvtRec := r :: l.filter (fun x => x.code != r.code)

/-- The rate setting and tokens of a code: BURST 100, RATE 100 and a full bucket until set (R398, R405). -/
def rateOf (code : Nat) (l : List EvtRate) : EvtRate :=
  match l.find? (fun r => r.code == code) with
  | some r => r
  | none => { code := code, burst := 100, rate := 100, tokens := 100000 }

/-- Replaces the rate setting of its code. -/
def ratePut (r : EvtRate) (l : List EvtRate) : List EvtRate := r :: l.filter (fun x => x.code != r.code)

/-- Whether an event of a code finds a token or needs none (R398). -/
def eventAdmitted (m : Monitor) (code : Nat) : Bool :=
  decide ((rateOf code m.rates).rate = 0 ∨ 1000 ≤ (rateOf code m.rates).tokens)

/-- The monitor after one event of a code with a value (R397, R398). -/
def eventMonitor (m : Monitor) (code v : Nat) (wall : Int) : Monitor :=
  if (rateOf code m.rates).rate = 0 then
    { m with events := evtPut (eventApply (evtOf code m.events) v m.devTime wall) m.events }
  else if 1000 ≤ (rateOf code m.rates).tokens then
    { m with
      events := evtPut (eventApply (evtOf code m.events) v m.devTime wall) m.events
      rates := ratePut { rateOf code m.rates with tokens := (rateOf code m.rates).tokens - 1000 } m.rates }
  else { m with events := evtPut (eventLimit (evtOf code m.events)) m.events }

/-- Wall time on a die: device time plus the offset (R375). -/
def wallNow (s : State) (d : DieId) : Int := ((s.die d).mon.devTime : Int) + s.guard.offset

/-- An event is recorded on a die (R397 to R400). A limited event also counts in EVR_LIMITED and, when it is the first
after a clear, raises EVR INT bit 1. -/
def recordEvent (s : State) (d : DieId) (code v : Nat) : State :=
  let m := (s.die d).mon
  let s1 := s.updDie d (fun x => { x with mon := eventMonitor x.mon code (min v 0xFFFFFFFF) (wallNow s d) })
  if eventAdmitted m code then s1
  else
    let s2 := regBump s1 (dreg d Page.evr 0x100) 1
    if (evtOf code m.events).limited = 0 then raiseInt s2 (dreg d Page.evr 0) 1 else s2

/-! ### Errors -/

/-- The die on which a page's errors are recorded as events: its own, and die 0 for the guard die and the NOR (R399). -/
def eventDie (base : Nat) : DieId :=
  if h : winOf base < 8 then ⟨winOf base, h⟩ else 0

/-- A block records an error: the first in ERR_CODE and ERR_INFO with the ERR interrupt, a later one in OVERFLOW
(R51, R54, R55), and each as event 0x40 + TYPE (R399). -/
def recordErr (s : State) (base code off : Nat) : State :=
  let s1 :=
    if regGet s (base + 0x20) = 0 then
      raiseInt (regSet (regSet s (base + 0x20) (BitVec.ofNat 32 code)) (base + 0x24) (BitVec.ofNat 32 (off % 0x10000)))
        base 0
    else regFld s (base + 0x24) 31 24 (min 255 (fld (regGet s (base + 0x24)) 31 24 + 1))
  match blockAt base with
  | some b => recordEvent s1 (eventDie base) (0x40 + blockType b) code
  | none => s1

/-- BAD_VALUE recorded for a refused write (R54, R566). -/
def badValue (s : State) (a : Nat) : State := recordErr s (baseOf a) 0x04 (offOf a)

/-- Stores a write's fields by their access codes and records LOCKED_WRITE when R565 says so. -/
def storeFields (s : State) (a : Nat) (r : RegSpec) (v : Word) : State :=
  let lock := locked s (baseOf a)
  let old := regGet s a
  let s1 := regSet s a (mergeFields lock old v r)
  if lockedChange lock old v r then recordErr s1 (baseOf a) 0x01 (offOf a) else s1

/-! ### Waking (R24, R493, R496 to R499) -/

/-- A core whose clock was stopped runs again. -/
def coreWake (c : Core) : Core := if c.st = .idle then { c with st := .run } else c

/-- A die leaves IDLE or SLEEP, or an entry in progress, whose steps are undone: its cores start on the fast oscillator, the DRAM
leaves power-down, from SLEEP its PLL has to lock again, and its idle timer restarts (R24, R496, R499). -/
def wakeX (x : Die) : Die :=
  if x.csq.ps = .run then
    (if x.csq.stage = 0 then x
     else { x with
       csq := { x.csq with stage := 0, idleFrom := x.mon.devTime }
       cores := x.cores.map coreWake })
  else { x with
    csq := { x.csq with ps := .run, stage := 0, deepReq := false, idleFrom := x.mon.devTime }
    cores := x.cores.map coreWake
    dmc := { x.dmc with pdown := false }
    pll := x.csq.ps == .idle && x.pll
    pllCores := false
    gated := [] }

/-- A Swarm link that an entry to DEEP had taken down trains again. -/
def linkReturn (q : Swm) : Swm := if q.st = .down ∧ q.held = true then { q with st := .training, held := false } else q

/-- The steps of an entry to DEEP are undone on a die in reverse order: DRAM leaves self-refresh for the power-down of SLEEP, and
links that went down train again (R495, R496). -/
def undoDeepX (entry : Nat) (x : Die) : Die :=
  let y : Die := if 4 ≤ entry then { x with dmc := { x.dmc with st := if x.dmc.st = 3 then 2 else x.dmc.st, pdown := true } } else x
  if 3 ≤ entry then { y with swm := y.swm.map linkReturn } else y

/-- Those steps are undone on every die that runs. -/
def undoDeep (s : State) (entry : Nat) : State :=
  overDies (fun s d => if decide ((s.die d).phase = .up) then s.updDie d (undoDeepX entry) else s) s allDies

/-- No entry to DEEP is in progress. -/
def noEntry (s : State) : State := { s with guard := { s.guard with entry := 0 } }

/-- An entry to DEEP in progress is abandoned at its abort point: the dies return to SLEEP, and PWR_DEEP_ABORTS counts it (R496,
R516, R517). -/
def abandonDeep (s : State) : State :=
  if s.guard.entry = 0 then s
  else raiseInt (regBump (noEntry (undoDeep s s.guard.entry)) (greg Page.pkg 0x84) 1) (greg Page.pkg 0) 1

/-- A die in IDLE or SLEEP, asked for DEEP or on its way to one of them wakes; when its state changes, CSQ_PS_STATE does, with CSQ
INT bit 3 (R138, R140, R496). -/
def wakeAt (s : State) (d : DieId) : State :=
  let s1 := abandonDeep s
  if (s1.die d).csq.ps = .run then s1.updDie d wakeX else raiseInt (s1.updDie d wakeX) (dreg d Page.csq 0) 3

/-- A die leaves DEEP: self-refresh ends, and the Swarm links train again (R436, R493). -/
def wakeDeepX (x : Die) : Die :=
  let y := wakeX x
  { y with
    dmc := { y.dmc with st := if y.dmc.st = 3 then 2 else y.dmc.st }
    swm := if x.csq.ps = .deep then y.swm.map linkReturn else y.swm }

/-- The package wakes from DEEP by a source, numbered by its row of R497 (R496, R516, R517): the core rails return to their
nominal first (R558). An entry in progress is abandoned. -/
def wakePackage (s : State) (src : Option Nat) : State :=
  if s.guard.deep then
    let s1 := overDies (fun s d => if decide ((s.die d).phase = .up) then raiseInt (s.updDie d wakeDeepX) (dreg d Page.csq 0) 3 else s) s allDies
    let g := s1.guard
    raiseInt { s1 with guard := { g with
      deep := false
      entry := 0
      wakeSrc := src.getD g.wakeSrc
      rails := Vector.ofFn (fun n => if 8 ≤ n.val then { g.rails.get n with vset := 750 } else g.rails.get n) } }
      (greg Page.pkg 0) 2
  else abandonDeep s

/-- An access to a controller die window wakes the package in DEEP; in IDLE and SLEEP it wakes the page's clock domain
alone (R498). -/
def accessWake (s : State) (a : Nat) : State :=
  if h : winOf a < 8 then
    let d : DieId := ⟨winOf a, h⟩
    let s1 := wakePackage s (some 3)
    let p := (s1.die d).csq.ps
    if p = .idle ∨ p = .sleep then
      s1.updDie d (fun x => { x with gated := pageOf a :: x.gated.filter (· != pageOf a) })
    else s1
  else s

/-- A write to a register whose row has its own action: discarded in a window that does not answer (R39, R567),
ignored while the page is in a soft reset (R49), refused whole with BAD_VALUE for a value that a field does not define
or one that breaks an order or condition (R566), otherwise carried out. -/
def rowWrite (s0 : State) (a : Nat) (v : Word) (act : State → State) : State :=
  let s := accessWake s0 a
  if !windowOpen s a || softResetting s (baseOf a) then s
  else match blockAt a with
    | none => s
    | some b => match regSpec b (offOf a) with
      | none => s
      | some r => if valuesOk r v && condOk s b a v then act s else badValue s a

/-- Stores the fields of a write to a register of the table. -/
def storeReg (s : State) (a : Nat) (v : Word) : State :=
  match blockAt a with
  | none => s
  | some b => match regSpec b (offOf a) with
    | none => s
    | some r => storeFields s a r v

/-! ### Metering counters and latency -/

/-- The latency bin of a time in ns (R380). -/
def latBin (ns : Nat) : Nat := if ns < 500 then 0 else min 23 (Nat.log2 (ns / 500) + 1)

/-- A tenant's counters in a bank. -/
def meterOf (t : Nat) (l : List Meter) : Meter :=
  match l.find? (fun m => m.tenant == t) with
  | some m => m
  | none => { tenant := t }

/-- Replaces a tenant's counters in a bank. -/
def meterPut (m : Meter) (l : List Meter) : List Meter := m :: l.filter (fun x => x.tenant != m.tenant)

/-- Changes a tenant's counters of the open minute on a die (R378). -/
def meterAdd (s : State) (d : DieId) (t : Nat) (f : Meter → Meter) : State :=
  s.updDie d (fun x => { x with mon := { x.mon with bank := meterPut (f (meterOf t x.mon.bank)) x.mon.bank } })

/-- A sample of a latency record (R394). -/
def latApply (r : LatRec) (ns dev : Nat) : LatRec :=
  let v := min ns 0xFFFFFFFF
  { r with
    count := min (r.count + 1) 0xFFFFFFFF
    min := if 0 < r.count ∧ r.min ≤ v then r.min else v
    minDev := if 0 < r.count ∧ r.min ≤ v then r.minDev else dev
    max := if 0 < r.count ∧ v ≤ r.max then r.max else v
    maxDev := if 0 < r.count ∧ v ≤ r.max then r.maxDev else dev
    hist := bumpAt (latBin ns) 1 r.hist }

/-- A monitor of LAT, empty when it has no sample. -/
def latOf (kind index : Nat) (l : List LatRec) : LatRec :=
  match l.find? (fun r => r.kind == kind && r.index == index) with
  | some r => r
  | none => { kind := kind, index := index }

/-- Replaces a monitor of LAT. -/
def latPut (r : LatRec) (l : List LatRec) : List LatRec :=
  r :: l.filter (fun x => !(x.kind == r.kind && x.index == r.index))

/-- The latency monitors of a class and of a tenant take one sample (R393). -/
def latSample (m : Monitor) (cls tenant ns : Nat) : Monitor :=
  let l1 := latPut (latApply (latOf 0 cls m.lat) ns m.devTime) m.lat
  { m with lat := latPut (latApply (latOf 1 tenant l1) ns m.devTime) l1 }

/-- The SLO of a class in µs (R404), 0 for none. -/
def sloOf (s : State) (d : DieId) (cls : Nat) : Nat :=
  if cls % 2 = 1 then dfld s d Page.lat (0x40 + 4 * (cls / 2)) 31 16 else dfld s d Page.lat (0x40 + 4 * (cls / 2)) 15 0

end Sys2Proof.Machine
end

