-- ==== Sys2Proof/Machine/Hash.lean ====
section
/-! DEFINITION. The codes that the spec itself defines: SipHash-2-4 with 128-bit output (R141), CRC32C (the chapter on
placement), the CRC-5 and CRC-8 of Waggle (R479), the LFSR, scrambler and LDPC parity of a codeword (R268, R269). -/
namespace Sys2Proof.Machine.Hash
open Sys2Proof Sys2Proof.Machine

/-! ### SipHash (R141) -/

/-- The four words of SipHash's state. -/
structure Sip where
  v0 : BitVec 64
  v1 : BitVec 64
  v2 : BitVec 64
  v3 : BitVec 64
deriving DecidableEq, Repr

/-- round() of R141. -/
def sipRound (s : Sip) : Sip :=
  let v0 := s.v0 + s.v1
  let v1 := s.v1.rotateLeft 13 ^^^ v0
  let v0 := v0.rotateLeft 32
  let v2 := s.v2 + s.v3
  let v3 := s.v3.rotateLeft 16 ^^^ v2
  let v0 := v0 + v3
  let v3 := v3.rotateLeft 21 ^^^ v0
  let v2 := v2 + v1
  let v1 := v1.rotateLeft 17 ^^^ v2
  let v2 := v2.rotateLeft 32
  ⟨v0, v1, v2, v3⟩

/-- Takes in one message word with two rounds. -/
def sipWord (s : Sip) (w : BitVec 64) : Sip :=
  let s := sipRound (sipRound { s with v3 := s.v3 ^^^ w })
  { s with v0 := s.v0 ^^^ w }

/-- Four rounds and the exclusive or of the four words. -/
def sipOut (s : Sip) : Sip × BitVec 64 :=
  let s := sipRound (sipRound (sipRound (sipRound s)))
  (s, s.v0 ^^^ s.v1 ^^^ s.v2 ^^^ s.v3)

/-- siphash128 of R141: the keyed hash H of a key. -/
def siphash128 (hk m : Bytes) : BitVec 128 :=
  let k0 := BitVec.ofNat 64 (leNat (hk.take 8))
  let k1 := BitVec.ofNat 64 (leNat (slice hk 8 8))
  let s : Sip := ⟨k0 ^^^ 0x736F6D6570736575#64, k1 ^^^ 0x646F72616E646F6D#64 ^^^ 0xEE#64,
    k0 ^^^ 0x6C7967656E657261#64, k1 ^^^ 0x7465646279746573#64⟩
  let whole := m.take (8 * (m.length / 8))
  let s := (chunks 8 whole).foldl (fun s b => sipWord s (BitVec.ofNat 64 (leNat b))) s
  let s := sipWord s (BitVec.ofNat 64 (leNat (m.drop (8 * (m.length / 8))) + (m.length % 256) * 2 ^ 56))
  let (s, lo) := sipOut { s with v2 := s.v2 ^^^ 0xEE#64 }
  let (_, hi) := sipOut { s with v1 := s.v1 ^^^ 0xDD#64 }
  hi ++ lo

/-! ### CRCs -/

/-- One bit of CRC32C, least significant bit first, polynomial 0x1EDC6F41 reflected. -/
def crc32cBits : Nat → BitVec 32 → BitVec 32
  | 0, c => c
  | n + 1, c => crc32cBits n ((c >>> 1) ^^^ (if c.getLsbD 0 then 0x82F63B78#32 else 0#32))

/-- CRC32C: the Castagnoli CRC with initial value 0xFFFF_FFFF and final inversion. -/
def crc32c (b : Bytes) : BitVec 32 :=
  ~~~ b.foldl (fun c x => crc32cBits 8 (c ^^^ x.setWidth 32)) 0xFFFFFFFF#32

/-- A CRC of a bit string, most significant bit first, over a register of w bits. -/
def crcMsb (w poly : Nat) (start : Nat) (bits : List Bool) : Nat :=
  bits.foldl (fun c b =>
    let top := c.testBit (w - 1) ^^ b
    ((c * 2) % 2 ^ w) ^^^ (if top then poly else 0)) start

/-- The n low bits of a number, most significant first. -/
def msbBits (n x : Nat) : List Bool := ((List.range n).map (fun i => x.testBit i)).reverse

/-- The CRC-5 of Waggle header bits [15:5] (R479). -/
def crc5 (hdrTop : Nat) : Nat := crcMsb 5 0x05 0x1F (msbBits 11 hdrTop)

/-- The CRC-8 of Waggle over a bit string (R479). -/
def crc8 (bits : List Bool) : Nat := crcMsb 8 0x07 0 bits

/-! ### The scrambler and the LDPC parity (R268, R269) -/

/-- lfsr_step() of R268: the new state and the output bit. -/
def lfsrStep (st : BitVec 23) : BitVec 23 × Bool :=
  let b := st.getLsbD 22 ^^ st.getLsbD 17
  ((st <<< 1) ||| (if b then 1#23 else 0#23), b)

/-- n outputs of lfsr_step(). -/
def lfsrBits : Nat → BitVec 23 → List Bool × BitVec 23
  | 0, st => ([], st)
  | n + 1, st =>
    let (st1, b) := lfsrStep st
    let (bs, st2) := lfsrBits n st1
    (b :: bs, st2)

/-- The value of a bit list, the first bit least significant. -/
def bitsVal : List Bool → Nat
  | [] => 0
  | b :: bs => (if b then 1 else 0) + 2 * bitsVal bs

/-- next16() of R268. -/
def next16 (st : BitVec 23) : Nat × BitVec 23 :=
  let (bs, st1) := lfsrBits 16 st
  (bitsVal bs, st1)

/-- Draws the four block rows of one column with their shifts (the while loop of build_h), with fuel. -/
def drawColumn (mb : Nat) : Nat → BitVec 23 → List (Nat × Nat) → List (Nat × Nat) × BitVec 23
  | 0, st, rows => (rows, st)
  | fuel + 1, st, rows =>
    if rows.length ≥ 4 then (rows, st) else
    let (x, st1) := next16 st
    if rows.any (fun p => p.1 = x % mb) then drawColumn mb fuel st1 rows
    else
      let (sh, st2) := next16 st1
      drawColumn mb fuel st2 (rows ++ [(x % mb, sh % 256)])

/-- The information part of build_h(r): for each block column from c up, its rows with their shifts. -/
def buildColumns (mb : Nat) : Nat → BitVec 23 → List (List (Nat × Nat))
  | 0, _ => []
  | n + 1, st =>
    let (rows, st1) := drawColumn mb 4096 st []
    rows :: buildColumns mb n st1

/-- build_h(r) of R268: the 129 information block columns. The parity columns are the lower bidiagonal of the rule. -/
def buildH (rate : Nat) : List (List (Nat × Nat)) :=
  buildColumns (8 + 4 * rate) 129 (BitVec.ofNat 23 (0x5A5A00 + rate))

/-- Bit i of a byte string is bit (i mod 8) of byte (i div 8) (R268). -/
def strBit (b : Bytes) (i : Nat) : Bool := (b.getD (i / 8) 0).getLsbD (i % 8)

/-- The bits of block row x of the product of H with the information part, without the parity columns. -/
def rowSum (h : List (List (Nat × Nat))) (info : Bytes) (x : Nat) : List Bool :=
  (List.range 256).map (fun i =>
    (List.zip (List.range h.length) h).foldl (fun acc (c, rows) =>
      rows.foldl (fun a (p : Nat × Nat) => if p.1 = x then a ^^ strBit info (256 * c + (i + p.2) % 256) else a) acc) false)

/-- The parity blocks of R268: with the lower bidiagonal, parity block j is row sum j with parity block j − 1. -/
def parityRows (h : List (List (Nat × Nat))) (info : Bytes) : Nat → Nat → List Bool → List Bool
  | 0, _, _ => []
  | n + 1, j, prev =>
    let cur := List.zipWith (· ^^ ·) (rowSum h info j) prev
    cur ++ parityRows h info n (j + 1) cur

/-- Bytes of a bit list, bit 0 of each byte first. -/
def bytesOfBits (l : List Bool) : Bytes :=
  (List.range (l.length / 8)).map (fun i => BitVec.ofNat 8 (bitsVal ((l.drop (8 * i)).take 8)))

/-- The LDPC parity of an information part at a rate (R267, R268): P bytes. -/
def ldpcParity (rate : Nat) (info : Bytes) : Bytes :=
  let mb := 8 + 4 * rate
  bytesOfBits (parityRows (buildH rate) info mb 0 (List.replicate 256 false))

/-- The scrambler's seed (R269). -/
def scrambleSeed (block page cw : Nat) : BitVec 23 :=
  BitVec.ofNat 23 (1 + ((block * 4096 + page) * 8 + cw) % (2 ^ 23 - 1))

/-- Scrambling of a codeword, which is also its descrambling (R269). -/
def scramble (block page cw : Nat) (b : Bytes) : Bytes :=
  xorBytes b (bytesOfBits (lfsrBits (8 * b.length) (scrambleSeed block page cw)).1)

end Sys2Proof.Machine.Hash
end

