-- ==== Sys2Proof/Machine/Operands.lean ====
section
/-! DEFINITION. Operand forms: the wire formats of Kocel (R60 to R63, R93, R94), the descriptors that commands carry
inline, locations (R179 to R182), and where a key or an LBA lies (R144, R186, R187). -/
namespace Sys2Proof.Machine
open Sys2Proof

/-! ### Status codes (R107) -/

namespace Stat
def ok := 0x00
def notFound := 0x01
def versionMismatch := 0x02
def noSpace := 0x03
def readOnly := 0x04
def aborted := 0x05
def busyRetry := 0x06
def dieOffline := 0x07
def authFail := 0x08
def mediaError := 0x09
def invalidField := 0x0A
def notPermitted := 0x0B
def resetAborted := 0x0C
def keyExhausted := 0x0D
def thermalStop := 0x0E
def overload := 0x0F
end Stat

/-! ### Packets -/

/-- The Kocel header (R60). -/
structure PktHdr where
  magic  : Nat
  ver    : Nat
  ptype  : Nat
  flags  : Nat
  sid    : Nat
  psn    : Word
  ackPsn : Word
  sack   : Word
  credit : Nat
  length : Nat
deriving DecidableEq, Repr

/-- Reads a big-endian field. -/
def beAt (b : Bytes) (off n : Nat) : Nat := beNat (slice b off n)

/-- Reads a little-endian field. -/
def leAt (b : Bytes) (off n : Nat) : Nat := leNat (slice b off n)

/-- Reads the Kocel header of a UDP payload (R60). -/
def parsePkt (b : Bytes) : PktHdr where
  magic := byteAt b 0
  ver := byteAt b 1
  ptype := byteAt b 2
  flags := byteAt b 3
  sid := beAt b 4 4
  psn := BitVec.ofNat 32 (beAt b 8 4)
  ackPsn := BitVec.ofNat 32 (beAt b 12 4)
  sack := BitVec.ofNat 32 (beAt b 16 4)
  credit := beAt b 20 2
  length := beAt b 22 2

/-- Writes the Kocel header (R60). -/
def pktBytes (h : PktHdr) : Bytes :=
  [BitVec.ofNat 8 h.magic, BitVec.ofNat 8 h.ver, BitVec.ofNat 8 h.ptype, BitVec.ofNat 8 h.flags]
    ++ beBytes 4 h.sid ++ beBytes 4 h.psn.toNat ++ beBytes 4 h.ackPsn.toNat ++ beBytes 4 h.sack.toNat
    ++ beBytes 2 h.credit ++ beBytes 2 h.length

/-- FLAGS.ENC (R61). -/
def PktHdr.enc (h : PktHdr) : Bool := h.flags.testBit 7
/-- FLAGS.ACKV (R61). -/
def PktHdr.ackv (h : PktHdr) : Bool := h.flags.testBit 6
/-- FLAGS.PING (R61). -/
def PktHdr.ping (h : PktHdr) : Bool := h.flags.testBit 5

/-- The die that a session ID names (R68). -/
def sidDie (sid : Nat) : Nat := sid / 2 ^ 28
/-- The generation that a session ID names (R68). -/
def sidGen (sid : Nat) : Nat := sid / 2 ^ 12 % 2 ^ 16
/-- The local session that a session ID names (R68). -/
def sidSlot (sid : Nat) : Nat := sid % 2 ^ 12
/-- A session ID (R68). -/
def sidOf (d gen slot : Nat) : Nat := d * 2 ^ 28 + gen % 2 ^ 16 * 2 ^ 12 + slot % 2 ^ 12

/-- The types of packet that a host sends: OPEN, CMD, DATA_OUT, ACK, CLOSE, TERMINATE (R62, R66). -/
def hostTypes : List Nat := [0x01, 0x03, 0x06, 0x07, 0x08, 0x0A]

/-- The segment header (R63): tag, LAST and OFFSET. -/
def segBytes (tag : Byte) (last : Bool) (off : Nat) : Bytes :=
  [tag, if last then 1 else 0, 0, 0] ++ beBytes 4 off

/-! ### Commands and replies -/

/-- Reads the command header (R93). -/
def parseCmd (b : Bytes) : CmdHdr where
  opcode := byteAt b 0
  cls := byteAt b 1
  mflags := beAt b 2 2
  nsid := beAt b 4 4
  keyLen := beAt b 8 2
  valueLen := beAt b 12 4
  version := beAt b 16 8
  arg := beAt b 24 8

/-- The reply header (R94) followed by its data. -/
def replyBytes (opcode status rflags aux version objLen : Nat) (data : Bytes) : Bytes :=
  [BitVec.ofNat 8 opcode, BitVec.ofNat 8 status] ++ beBytes 2 rflags ++ beBytes 4 aux ++ beBytes 8 version
    ++ beBytes 4 data.length ++ beBytes 4 objLen ++ data

/-- MFLAGS.IF_VERSION (R93). -/
def CmdHdr.ifVersion (h : CmdHdr) : Bool := h.mflags.testBit 0
/-- MFLAGS.IF_ABSENT (R93). -/
def CmdHdr.ifAbsent (h : CmdHdr) : Bool := h.mflags.testBit 1
/-- MFLAGS.PARTIAL (R93). -/
def CmdHdr.partialGet (h : CmdHdr) : Bool := h.mflags.testBit 2

-- The opcodes of R96.
namespace Op
def get := 0x01
def put := 0x02
def delete := 0x03
def stat := 0x04
def read := 0x10
def write := 0x11
def trim := 0x12
def flush := 0x20
def abort := 0x21
def nop := 0x22
def identify := 0x23
def resetSession := 0x24
def meterRead := 0x25
def regRead := 0x40
def regWrite := 0x41
def resetDevice := 0x42
def tenantSet := 0x43
def nsCreate := 0x44
def nsDelete := 0x45
def keyInstall := 0x46
def fwDownload := 0x47
def fwActivate := 0x48
def format := 0x49
def logRead := 0x4A
def clockSet := 0x4B
def all : List Nat := [1, 2, 3, 4, 0x10, 0x11, 0x12, 0x20, 0x21, 0x22, 0x23, 0x24, 0x25,
  0x40, 0x41, 0x42, 0x43, 0x44, 0x45, 0x46, 0x47, 0x48, 0x49, 0x4A, 0x4B]
end Op

/-- The key-value opcodes. -/
def isKv (op : Nat) : Bool := 1 ≤ op && op ≤ 4
/-- The block opcodes. -/
def isBlock (op : Nat) : Bool := 0x10 ≤ op && op ≤ 0x12
/-- The opcodes that take a grant exchange above 8,192 bytes (R104). -/
def isGranted (op : Nat) : Bool := op == 2 || op == 0x11 || op == 0x47
/-- The readers of R121. -/
def isReader (op : Nat) : Bool := op == 1 || op == 4 || op == 0x10
/-- The writers of R121. -/
def isWriter (op : Nat) : Bool := op == 2 || op == 3 || op == 0x11 || op == 0x12

/-! ### Descriptors carried inline -/

/-- Inline fields are multi-byte fields of a Kocel packet: big-endian (R59). Reads the tenant context (R332). -/
def parseTenant (id : Nat) (b : Bytes) : Tenant :=
  let f := beAt b 0 2
  { id := id, enable := f.testBit 0, reqEnc := f.testBit 1, urgentOk := f.testBit 2, rules := f.testBit 3,
    reject := f.testBit 4, weight := byteAt b 2, share := byteAt b 3, sessMax := beAt b 4 2, nsMax := beAt b 6 2,
    opsRate := beAt b 8 4, opsBurst := beAt b 12 4, byteRate := beAt b 16 4, byteBurst := beAt b 20 4,
    refillUs := beAt b 24 4, limitLog2 := byteAt b 28, adminPorts := beAt b 30 2 }

/-- The checks of R332 on a tenant context's bytes. -/
def tenantOk (id : Nat) (b : Bytes) : Bool :=
  let t := parseTenant id b
  decide (b.length = 64) && decide (beAt b 0 2 < 32) && decide (1 ≤ t.weight) && decide (1 ≤ t.sessMax ∧ t.sessMax ≤ 32768)
    && decide (t.nsMax ≤ 1024) && (decide (t.opsRate = 0) || decide (1 ≤ t.opsBurst))
    && decide (10 ≤ t.refillUs ∧ t.refillUs ≤ 1000000) && decide (32 ≤ t.limitLog2 ∧ t.limitLog2 ≤ 64)
    && decide (byteAt b 29 = 0) && (decide (id = 0) || decide (t.adminPorts = 0)) && (slice b 32 32).all (· == 0)

/-- The default context of tenant 0 (R334). -/
def tenantZero : Tenant :=
  { id := 0, enable := true, reqEnc := true, urgentOk := true, rules := false, reject := false, weight := 16, share := 0,
    sessMax := 64, nsMax := 1024, opsRate := 0, opsBurst := 0, byteRate := 0, byteBurst := 0, refillUs := 1000,
    limitLog2 := 48, adminPorts := 1 }

/-- The namespace descriptor (R339). -/
def parseNs (nsid : Nat) (b : Bytes) : NsEntry :=
  { nsid := nsid, tenant := beAt b 0 2, ntype := byteAt b 2, bucketBits := byteAt b 4,
    chunkShift := if byteAt b 2 = 1 ∧ byteAt b 5 = 0 then 20 else byteAt b 5,
    lbaSize := beAt b 6 2, blocks := beAt b 8 8 }

/-- NFLAGS.WRAPPED of a namespace descriptor (R339). -/
def nsWrapped (b : Bytes) : Bool := (byteAt b 3).testBit 0

/-- The checks that R339 and R340 make on a namespace descriptor's own fields. -/
def nsOk (nsid : Nat) (b : Bytes) : Bool :=
  let n := parseNs nsid b
  decide (b.length = if nsWrapped b then 88 else 16) && decide (n.tenant < 4096) && decide (n.ntype ≤ 1)
    && decide (byteAt b 3 ≤ 1) && decide (1 ≤ nsid ∧ nsid < 0xFFFFFFFF)
    && (if n.ntype = 0 then
          decide (byteAt b 3 = 0 ∧ 4 ≤ n.bucketBits ∧ n.bucketBits ≤ 28 ∧ byteAt b 5 = 0 ∧ n.lbaSize = 0 ∧ n.blocks = 0)
        else
          decide (n.bucketBits = 0 ∧ 16 ≤ n.chunkShift ∧ n.chunkShift ≤ 30 ∧ (n.lbaSize = 512 ∨ n.lbaSize = 4096)
            ∧ 1 ≤ n.blocks ∧ n.blocks * n.lbaSize % 2 ^ n.chunkShift = 0))

/-- The checks of R346 on a KEY_INSTALL body. -/
def keyBodyOk (b : Bytes) : Bool :=
  let kind := byteAt b 0
  let gen := (byteAt b 1).testBit 0
  decide (1 ≤ kind ∧ kind ≤ 2) && decide (byteAt b 1 ≤ 1) && (!gen || decide (kind = 2))
    && decide (beAt b 2 2 = if gen then 0 else 40) && decide (beAt b 4 4 = 0)
    && decide (b.length = if gen then 8 else 48)

/-- The checks of R184 on a format descriptor's own fields (R183). -/
def formatOk (b : Bytes) : Bool :=
  let placed := (byteAt b 3).testBit 0
  decide (beAt b 0 2 = if placed then 272 else 16) && decide (b.length = if placed then 272 else 16)
    && decide (byteAt b 2 ≤ 1) && decide (byteAt b 3 ≤ 1) && decide (7 ≤ byteAt b 4 ∧ byteAt b 4 ≤ 50)
    && decide (byteAt b 5 ≤ 2) && (slice b 6 10).all (· == 0) && (slice b 16 256).all (fun x => decide (x.toNat < 8))

/-! ### Locations -/

/-- The block-group number (R179). -/
def groupNum (ce lun block : Nat) : Nat := ce * 2 ^ 18 + lun * 2 ^ 14 + block
def groupCe (g : Nat) : Nat := g / 2 ^ 18
def groupLun (g : Nat) : Nat := g / 2 ^ 14 % 16
def groupBlock (g : Nat) : Nat := g % 2 ^ 14

/-- A location (R180). -/
def locOf (ch group page unit : Nat) (slc : Bool) : BitVec 56 :=
  BitVec.ofNat 56 (ch * 2 ^ 53 + groupCe group * 2 ^ 51 + groupLun group * 2 ^ 47 + groupBlock group * 2 ^ 33
    + page * 2 ^ 21 + unit * 2 ^ 12 + (if slc then 2 ^ 11 else 0))

def locCh (l : BitVec 56) : Nat := bitsOf l.toNat 55 53
def locCe (l : BitVec 56) : Nat := bitsOf l.toNat 52 51
def locLun (l : BitVec 56) : Nat := bitsOf l.toNat 50 47
def locBlock (l : BitVec 56) : Nat := bitsOf l.toNat 46 33
def locPage (l : BitVec 56) : Nat := bitsOf l.toNat 32 21
def locUnit (l : BitVec 56) : Nat := bitsOf l.toNat 20 12
def locSlc (l : BitVec 56) : Bool := l.getLsbD 11
/-- The block group that a location lies in. -/
def locGroup (l : BitVec 56) : Nat := groupNum (locCe l) (locLun l) (locBlock l)

/-- A dense entry (R182) that names a codeword. -/
def denseOf (ch group page cw : Nat) (slc : Bool) : BitVec 40 :=
  BitVec.ofNat 40 (ch * 2 ^ 37 + groupCe group * 2 ^ 35 + groupLun group * 2 ^ 31 + groupBlock group * 2 ^ 17
    + page * 2 ^ 5 + cw * 4 + (if slc then 2 else 0) + 1)

/-- The location of the first unit of a dense entry's codeword (R180, R182). -/
def denseLoc (e : BitVec 40) : BitVec 56 :=
  locOf (bitsOf e.toNat 39 37) (groupNum (bitsOf e.toNat 36 35) (bitsOf e.toNat 34 31) (bitsOf e.toNat 30 17))
    (bitsOf e.toNat 16 5) (bitsOf e.toNat 4 2 * 64) (e.getLsbD 1)

/-- The dense entry of the codeword that holds a location. -/
def locDense (l : BitVec 56) : BitVec 40 := denseOf (locCh l) (locGroup l) (locPage l) (locUnit l / 64) (locSlc l)

/-! ### Where a key or an LBA lies -/

/-- The index of a hash in the placement table (R144). -/
def placeIndex (h : BitVec 128) : Nat := bitsOf h.toNat 127 120

/-- A die's copy of a placement entry: die in bits [2:0], OFFLINE in bit 3. -/
def placeOf (x : Die) (i : Nat) : Nat := x.comb.placement.getD i 0

/-- A number below 8 as a worker core. -/
def coreOf (n : Nat) : CoreId := ⟨n % 8, Nat.mod_lt _ (by decide)⟩

/-- A number below 8 as a channel. -/
def chanOf (n : Nat) : ChanId := ⟨n % 8, Nat.mod_lt _ (by decide)⟩

/-- The chunk of an LBA (R186). -/
def chunkOf (n : NsEntry) (lba : Nat) : Nat := lba * n.lbaSize / 2 ^ n.chunkShift

/-- The placement indices that name a die, in ascending order (R187). -/
def placeIndices (x : Die) (d : DieId) : List Nat := (List.range 256).filter (fun i => placeOf x i % 8 == d.val)

/-- The local unit number of a byte offset of a block namespace on the die that owns it (R187). -/
def localUnit (x : Die) (d : DieId) (n : NsEntry) (byteOff : Nat) : Nat :=
  let c := byteOff / 2 ^ n.chunkShift
  let ix := placeIndices x d
  let r := (ix.filter (· < c % 256)).length
  ((c / 256) * ix.length + r) * 2 ^ (n.chunkShift - 12) + byteOff % 2 ^ n.chunkShift / 4096

/-- The bucket index of a hash (R193). -/
def bucketOf (n : NsEntry) (h : BitVec 128) : Nat := bitsOf h.toNat 119 (120 - n.bucketBits)

/-- H[63:0] (R193). -/
def htagOf (h : BitVec 128) : BitVec 64 := BitVec.ofNat 64 h.toNat

/-- A die's namespace entry. -/
def nsOf (x : Die) (tenant nsid : Nat) : Option NsEntry :=
  x.map.nstab.find? (fun n => n.tenant == tenant && n.nsid == nsid)

/-- A die's context of a tenant (R333). -/
def tenantOf (x : Die) (t : Nat) : Option Tenant := x.tenants.find? (fun c => c.id == t)

/-- A tenant's QoS weight, 1 without a context. -/
def tenantWeight (x : Die) (t : Nat) : Nat := match tenantOf x t with
  | some c => c.weight
  | none => 1

/-- The record's stored length with one extent (R190). -/
def recLen (keyLen valueLen : Nat) : Nat := 48 + keyLen + valueLen + 16

/-- The header of a value record with one extent (R189). -/
def recHdr (tenant keyLen nsid valueLen version : Nat) (nonce : Bytes) (extents keygen : Nat) : Bytes :=
  let b := leBytes 4 0x56524B53 ++ leBytes 2 tenant ++ leBytes 2 keyLen ++ leBytes 4 nsid ++ leBytes 4 valueLen
    ++ leBytes 8 version ++ nonce ++ leBytes 1 extents ++ leBytes 1 keygen ++ zeros 6
  b ++ leBytes 4 (Hash.crc32c b).toNat

end Sys2Proof.Machine
end

