-- ==== Sys2Proof/Machine/Layout.lean ====
section
/-! DEFINITION. The formats on flash, byte by byte: map pages (R192, R193, R195, R196, R225), journal records and pages (R211,
R212, R256), the root record (R216), value records (R189, R190), unit tags (R229). Multi-byte fields are little-endian. The
flash of the model holds the contents of each page; these functions give the codeword that holds them. -/
namespace Sys2Proof.Machine
open Sys2Proof

/-- A byte string cut or filled with zeros to a length. -/
def fit (n : Nat) (b : Bytes) : Bytes := (b ++ zeros (n - b.length)).take n

/-- CRC32C of a byte string as its four bytes. -/
def crcBytes (b : Bytes) : Bytes := leBytes 4 (Hash.crc32c b).toNat

/-! ### Entries of map pages -/

/-- A bucket entry (R193). -/
def bucketBytes (e : BEntry) : Bytes :=
  leBytes 8 e.htag.toNat ++ leBytes 8 e.version ++ leBytes 7 e.loc.toNat
    ++ leBytes 1 ((if e.valid then 1 else 0) + (if e.nectar then 2 else 0)) ++ leBytes 4 e.stLen ++ leBytes 2 e.keyLen ++ zeros 2

/-- Dense entries at their places, 5 bytes each; a place without one is unmapped (R195). -/
def denseBytes (l : List (Nat × BitVec 40)) : Bytes :=
  (List.range 806).flatMap (fun i => leBytes 5 ((assocGet i l).getD 0).toNat)

/-- An entry of the namespace table (R196). -/
def nsRowBytes (r : NsRow) : Bytes :=
  leBytes 4 r.ns.nsid ++ leBytes 2 (r.ns.tenant % 4096) ++ leBytes 1 r.ns.ntype ++ leBytes 1 r.ns.bucketBits
    ++ leBytes 1 r.ns.chunkShift ++ zeros 1 ++ leBytes 2 r.ns.lbaSize ++ leBytes 8 r.ns.blocks ++ leBytes 7 r.top.toNat
    ++ leBytes 1 r.levels ++ zeros 4

/-- STATE of a block-group entry (R224). -/
def stateCode : GroupState → Nat
  | .free => 0
  | .erasePending => 1
  | .opened => 2
  | .closed => 3
  | .retired => 4
  | .rescue => 5
  | .sys => 6
  | .anchor => 7

/-- A block-group entry (R224). -/
def groupBytes16 (g : Group) : Bytes :=
  leBytes 1 (stateCode g.st) ++ leBytes 1 ((if g.qlc then 1 else 0) + (if g.copy then 2 else 0)) ++ leBytes 1 g.good ++ zeros 1
    ++ leBytes 4 g.wear ++ leBytes 4 g.valid ++ leBytes 4 g.closedS

/-! ### Map pages -/

/-- FORM of a page (R192). -/
def MapBody.form : MapBody → Nat
  | .bucket .. => 0x01
  | .dense _ => 0x02
  | .dir _ => 0x03
  | .nstab _ => 0x04
  | .bgtab _ => 0x05

/-- COUNT of a page (R192). -/
def MapBody.count : MapBody → Nat
  | .bucket es _ => es.length
  | .dense es => es.length
  | .dir es => es.length
  | .nstab rows => rows.length
  | .bgtab gs => gs.length

/-- OVERFLOW of a page (R192). -/
def MapBody.overflow : MapBody → BitVec 56
  | .bucket _ next => next
  | _ => 0

/-- The body of a page, from byte 64 on (R193, R195, R196, R225). -/
def MapBody.bytes : MapBody → Bytes
  | .bucket es _ => es.flatMap bucketBytes
  | .dense es => denseBytes (es.map (fun e => (e.unit % 806, e.entry)))
  | .dir es => denseBytes es
  | .nstab rows => (List.range 126).flatMap (fun i =>
      match rows.find? (fun r => r.ns.slot % 126 == i) with
      | some r => nsRowBytes r
      | none => zeros 32)
  | .bgtab gs => (List.range 252).flatMap (fun i =>
      match gs.find? (fun g => g.num % 252 == i) with
      | some g => groupBytes16 g
      | none => zeros 16)

/-- TENANT and NSID of a page: those of its namespace, 0 in the tables (log 161). -/
def Tree.owner : Tree → Nat × Nat
  | .ns t n => (t, n)
  | _ => (0, 0)

/-- The 4 KiB of a map page (R192). -/
def mapPageBytes (p : FlashPage) : Bytes :=
  let head := leBytes 4 0x504D4B53 ++ leBytes 1 p.body.form ++ leBytes 1 p.id.level ++ leBytes 2 p.body.count
    ++ leBytes 2 (p.id.tree.owner.1 % 4096) ++ zeros 2 ++ leBytes 4 p.id.tree.owner.2 ++ leBytes 8 p.id.index
    ++ leBytes 8 p.jseq ++ leBytes 7 p.body.overflow.toNat ++ zeros 21
  let body := fit 4032 p.body.bytes
  head ++ crcBytes (head ++ body) ++ body

/-! ### The journal -/

/-- TYPE of a journal record (R212, R256). -/
def JBody.type : JBody → Nat
  | .mapPut .. => 0x01
  | .mapDelete .. => 0x02
  | .mapMove .. => 0x03
  | .lbaMap .. => 0x04
  | .lbaTrim .. => 0x05
  | .lbaMove .. => 0x06
  | .eraseIntent .. => 0x10
  | .eraseDone .. => 0x11
  | .bgOpen .. => 0x12
  | .blockRetire .. => 0x13
  | .wseqReserve .. => 0x20
  | .ckptBegin .. => 0x21
  | .capShrink .. => 0x40
  | .readOnlyEnter .. => 0x41
  | .groupRetire .. => 0x42

/-- BODY of a journal record (R212, R256). EFLAGS of MAP_PUT is VALID. -/
def JBody.bytes : JBody → Bytes
  | .mapPut _ htag version loc stLen keyLen bucket =>
    leBytes 8 htag.toNat ++ leBytes 8 version ++ leBytes 7 loc.toNat ++ leBytes 1 1 ++ leBytes 4 stLen ++ leBytes 2 keyLen
      ++ leBytes 4 bucket
  | .mapDelete htag version loc bucket =>
    leBytes 8 htag.toNat ++ leBytes 8 version ++ leBytes 7 loc.toNat ++ zeros 1 ++ leBytes 4 bucket
  | .mapMove htag version old new bucket =>
    leBytes 8 htag.toNat ++ leBytes 8 version ++ leBytes 7 old.toNat ++ leBytes 7 new.toNat ++ leBytes 4 bucket
  | .lbaMap unit count first => leBytes 8 unit ++ leBytes 4 count ++ leBytes 5 first.toNat
  | .lbaTrim unit count => leBytes 8 unit ++ leBytes 4 count
  | .lbaMove unit count old new => leBytes 8 unit ++ leBytes 4 count ++ leBytes 5 old.toNat ++ leBytes 5 new.toNat
  | .eraseIntent g mask => leBytes 4 g ++ leBytes 1 mask
  | .eraseDone g mask => leBytes 4 g ++ leBytes 1 mask
  | .bgOpen g mode purpose => leBytes 4 g ++ leBytes 1 mode ++ leBytes 1 purpose
  | .blockRetire g chan => leBytes 4 g ++ leBytes 1 chan
  | .wseqReserve bound => leBytes 8 bound
  | .ckptBegin j => leBytes 8 j
  | .capShrink gb => leBytes 4 gb
  | .readOnlyEnter die => leBytes 1 die
  | .groupRetire g => leBytes 4 g

/-- A journal record (R211); one that is torn has a bad CRC. -/
def jrecBytes (r : JRec) : Bytes :=
  let b := leBytes 8 r.jseq ++ leBytes 1 r.body.type ++ zeros 3 ++ leBytes 4 r.nsid ++ leBytes 2 r.tenant ++ zeros 2
    ++ fit 40 r.body.bytes
  b ++ (if r.torn then (crcBytes b).map (fun x => ~~~x) else crcBytes b)

/-- The number of the journal page that holds a JSEQ: 63 records to a page, JSEQ rising by 1 across pages (R211). -/
def jpageOf (jseq : Nat) : Nat := (jseq - 1) / 63

/-- A journal page (R211): its records and the trailer with its first JSEQ and the CRC. -/
def jpageBytes (page : Nat) (l : List JRec) : Bytes :=
  let b := fit 4032 ((l.filter (fun r => jpageOf r.jseq == page)).flatMap jrecBytes) ++ leBytes 8 (page * 63 + 1) ++ zeros 52
  b ++ crcBytes b

/-! ### The root record -/

/-- RFLAGS (R216). -/
def Root.flags (r : Root) : Nat := (if r.mapMode then 1 else 0) + (if r.loss then 2 else 0) + (if r.readOnly then 4 else 0)

/-- OP_SPARE (R216, R256). -/
def Root.opSpare (r : Root) : Nat := r.opPct % 256 + r.policy % 4 * 256 + r.shrinkGb % 2 ^ 22 * 1024

/-- The 4 KiB of a root record (R216). -/
def rootBytes (r : Root) : Bytes :=
  let b := fit 4092 (leBytes 4 0x54524B53 ++ leBytes 2 1 ++ leBytes 1 r.die ++ leBytes 1 r.flags ++ leBytes 8 r.seq
    ++ leBytes 8 r.ckptJseq ++ leBytes 8 r.jhead.toNat ++ leBytes 8 r.wseqBound ++ leBytes 8 r.formatId
    ++ fit 256 (r.placement.map (BitVec.ofNat 8)) ++ leBytes 4 r.epoch ++ leBytes 8 r.nstab.toNat ++ leBytes 4 r.opSpare
    ++ leBytes 8 r.bgtab.toNat)
  b ++ crcBytes b

/-! ### Value records and unit tags -/

/-- An entry of a record's extent table: LOC, a reserved byte, the length in units (R190). -/
def extentBytes (loc : BitVec 56) (units : Nat) : Bytes := leBytes 7 loc.toNat ++ zeros 1 ++ leBytes 4 units

/-- EXTENTS of a record. -/
def Rec.extents (r : Rec) : Nat := r.table.length / 12 + 1

/-- The additional authenticated data of a record: the header and the extent table (R190). -/
def recAad (r : Rec) : Bytes :=
  recHdr r.tenant r.keyLen r.nsid r.valueLen r.version r.nonce r.extents r.keygen ++ r.table

/-- A value record as it is stored, filled up to whole units (R189, R190). -/
def recBytes (r : Rec) : Bytes :=
  let b := recAad r ++ r.cipher ++ r.gtag
  fit (ceilDiv b.length 64 * 64) b

/-- The stored length of a record (R190). -/
def storedLen (r : Rec) : Nat := recLen r.keyLen r.valueLen + r.table.length

/-- A unit tag (R229). -/
def tagBytes (kind first tenant nsid ref : Nat) : Bytes :=
  leBytes 1 kind ++ leBytes 1 first ++ leBytes 2 (tenant % 4096) ++ leBytes 4 nsid ++ leBytes 8 ref

/-- KIND, TENANT and REF of a unit tag. -/
def tagKind (t : Bytes) : Nat := byteAt t 0
def tagTenant (t : Bytes) : Nat := leAt t 2 2
def tagNsid (t : Bytes) : Nat := leAt t 4 4
def tagRef (t : Bytes) : Nat := leAt t 8 8

end Sys2Proof.Machine
end

