-- ==== Sys2Proof/Machine/Comb.lean ====
section
/-! DEFINITION. CMB: search and cascade (R150 to R157), the hot-key directory and the value cache as the data path
keeps them (R166 to R169), and the update, search and shift registers (R159 to R165, R176, R177). -/
namespace Sys2Proof.Machine
open Sys2Proof

/-! ### Entries and search -/

/-- An entry of the array; an unlisted one is invalid and was never written. -/
def combEntry (c : Comb) (i : Nat) : CombEntry :=
  match c.entries.find? (fun e => e.idx == i) with
  | some e => e
  | none => { idx := i, val := 0, care := 0, prio := 0, res := 0, valid := false, refd := false }

/-- Replaces an entry of the array. -/
def combPut (c : Comb) (e : CombEntry) : Comb := { c with entries := e :: c.entries.filter (fun x => x.idx != e.idx) }

/-- A valid entry matches when every masked cell that is not X equals the search word's bit (R150). -/
def combMatch (word mask : BitVec 192) (e : CombEntry) : Bool := e.valid && ((e.val ^^^ word) &&& e.care &&& mask) == 0

/-- The matching entries of one array. -/
def combMatches (c : Comb) (word mask : BitVec 192) : List CombEntry := c.entries.filter (combMatch word mask)

/-- The winner of a search (R151): die, entry, and MULTI. -/
structure Won where
  die   : Nat
  entry : CombEntry
  multi : Bool
deriving DecidableEq, Repr

/-- The largest PRIORITY, then the lowest global index; MULTI when another match has the same PRIORITY (R151, R156). -/
def combWinner (l : List (Nat × CombEntry)) : Option Won :=
  match argMax (fun p : Nat × CombEntry => p.2.prio) l with
  | none => none
  | some m =>
    let best := l.filter (fun p => p.2.prio == m.2.prio)
    match argMin (fun p : Nat × CombEntry => p.1 * 65536 + p.2.idx) best with
    | none => none
    | some w => some { die := w.1, entry := w.2, multi := decide (1 < best.length) }

/-- A local search. -/
def combSearch (c : Comb) (d : DieId) (word mask : BitVec 192) : Option Won :=
  combWinner ((combMatches c word mask).map (fun e => (d.val, e)))

/-- A cascade search over the arrays of every die that runs (R156 to R158). -/
def cascadeSearch (s : State) (word mask : BitVec 192) : Option Won :=
  combWinner ((upDies s).flatMap (fun d => (combMatches (s.die d).comb word mask).map (fun e => (d.val, e))))

/-! ### Words -/

/-- A hot-key WORD (R147). -/
def hotWord (tenant nsid blkTag : Nat) (h : BitVec 128) : BitVec 192 :=
  BitVec.ofNat 192 (tenant % 4096 * 2 ^ 178 + nsid % 2 ^ 32 * 2 ^ 146 + blkTag % 2 ^ 18 * 2 ^ 128 + h.toNat)

/-- The global mask of a hot-key search: all 1s except [145:128] (R153). -/
def hotMask : BitVec 192 := BitVec.ofNat 192 (2 ^ 192 - 1 - (2 ^ 146 - 2 ^ 128))

/-- The key prefix field of a rule search word (R147). -/
def keyPrefix (key : Bytes) : Nat := beNat (padTo 16 (key.take 16))

/-- A rule search word (R147, R153). -/
def ruleWord (tenant nsid opcode cls : Nat) (d : DieId) (p : PortId) (key : Bytes) : BitVec 192 :=
  BitVec.ofNat 192 (1 * 2 ^ 190 + tenant % 4096 * 2 ^ 178 + nsid % 2 ^ 32 * 2 ^ 146 + opcode % 256 * 2 ^ 138
    + cls % 8 * 2 ^ 135 + (d.val * 2 + p.val) * 2 ^ 131 + keyPrefix key)

/-- RESULT of a hot-key entry (R148): kind 0 FLASH, 1 VCACHE, 2 NECTAR. -/
def hotResult (version kind : Nat) (loc : BitVec 56) : BitVec 128 :=
  BitVec.ofNat 128 (version % 2 ^ 64 * 2 ^ 64 + kind % 16 * 2 ^ 60 + loc.toNat)
def resVersion (r : BitVec 128) : Nat := bitsOf r.toNat 127 64
def resKind (r : BitVec 128) : Nat := bitsOf r.toNat 63 60
def resLoc (r : BitVec 128) : BitVec 56 := BitVec.ofNat 56 r.toNat

/-- BLK_TAG of an entry that names a location of a kind (R147, R179). -/
def blkTagOf (kind : Nat) (loc : BitVec 56) : Nat := if kind = 0 then locGroup loc % 2 ^ 18 else 0x3FFFF

/-- Registers of a 192-bit word: n words from an offset. -/
def regWide (s : State) (d : DieId) (off n : Nat) : Nat :=
  ((List.range n).map (fun i => (regGet s (dreg d Page.cmb (off + 4 * i))).toNat * 2 ^ (32 * i))).sum

/-! ### The rule search (R153, R154) -/

/-- What the rule search says of a command. -/
inductive RuleSay where
  | proceed
  | deny
  | setClass (c : Nat)
deriving DecidableEq, Repr

/-- The rule search of a command at its arrival die. -/
def ruleSearch (s : State) (d : DieId) (p : PortId) (tenant nsid opcode cls : Nat) (key : Bytes) : RuleSay :=
  let on := match tenantOf (s.die d) tenant with
    | some t => t.rules
    | none => false
  if dfld s d Page.cmb 0x40 3 3 = 1 ∧ on = true then
    let word := ruleWord tenant nsid opcode cls d p key
    let mask := BitVec.ofNat 192 (regWide s d 0x68 6)
    let w := if dfld s d Page.cmb 0x40 2 2 = 1 then cascadeSearch s word mask else combSearch (s.die d).comb d word mask
    match w with
    | none => .proceed
    | some w =>
      if bitsOf w.entry.res.toNat 1 0 = 1 then .deny
      else if bitsOf w.entry.res.toNat 1 0 = 2 then .setClass (bitsOf w.entry.res.toNat 4 2)
      else .proceed
  else .proceed

/-- Whether the rule search of a command is a cascade that its die starts (CMB_CASCADE). -/
def ruleCascades (s : State) (d : DieId) (tenant : Nat) : Bool :=
  decide (dfld s d Page.cmb 0x40 3 3 = 1) && decide (dfld s d Page.cmb 0x40 2 2 = 1) &&
    (match tenantOf (s.die d) tenant with
     | some t => t.rules
     | none => false)

/-! ### The hot region and the value cache -/

/-- First index of the hot region (R165). -/
def hotFirst (s : State) (d : DieId) : Nat := dfld s d Page.cmb 0x44 15 8 * 256
/-- Last index of the hot region (R165). -/
def hotLast (s : State) (d : DieId) : Nat := dfld s d Page.cmb 0x44 7 0 * 256 + 255
/-- Whether an index lies in the hot region. -/
def inHot (s : State) (d : DieId) (i : Nat) : Bool := decide (hotFirst s d ≤ i ∧ i ≤ hotLast s d)

/-- TENANT of a WORD. -/
def wordTenant (v : BitVec 192) : Nat := bitsOf v.toNat 189 178

/-- CACHE_SHARE of a tenant on a die. -/
def shareOfTenant (x : Die) (t : Nat) : Nat := match tenantOf x t with
  | some c => c.share
  | none => 0

/-- Valid entries of the hot region. -/
def hotEntries (c : Comb) (lo hi : Nat) : List CombEntry := c.entries.filter (fun e => e.valid && lo ≤ e.idx && e.idx ≤ hi)

/-- Whether an entry may be evicted to let in a tenant's (R169): it is the tenant's own, or its tenant holds more than
its reserve of n places. -/
def mayEvict (x : Die) (n taker owner held : Nat) : Bool :=
  owner == taker || decide (shareOfTenant x owner * n / 256 < held)

/-- The victim of a clock pointer among places with their reference bits (R169): the first from the pointer on with its bit
clear, else the first from the pointer on. -/
def clockVictim (clock : Nat) (cand : List (Nat × Bool)) : Option Nat :=
  let clear := cand.filter (fun p => !p.2)
  let pick := (if clear.isEmpty then cand else clear).map (fun p => p.1)
  match argMin id (pick.filter (fun i => clock ≤ i)) with
  | some i => some i
  | none => argMin id pick

/-- Whether the pointer passes a place on its way to a victim; it clears the bits that it passes (R169, log 158). -/
def clockPasses (clock victim i : Nat) : Bool :=
  if clock ≤ victim then decide (clock ≤ i ∧ i < victim) else decide (clock ≤ i ∨ i < victim)

/-- A free index of the hot region, not one whose value cache slot is being reclaimed (R162). -/
def freeHot (c : Comb) (lo hi : Nat) : Option Nat :=
  ((List.range (hi + 1 - lo)).map (· + lo)).find? (fun i =>
    !(c.reclaimIx.contains i) && !(c.entries.any (fun e => e.idx == i && e.valid)))

/-- Whether an entry is a hot-key entry whose value lies in the value cache, and in which slot (R147, R148). -/
def slotNamed (e : CombEntry) : Option Nat :=
  if e.valid && bitsOf e.val.toNat 191 190 == 0 && resKind e.res == 1 then some ((resLoc e.res).toNat % 4096) else none

/-- Frees the value cache slot that a valid entry names. -/
def dropSlotOf (c : Comb) (e : CombEntry) : Comb :=
  match slotNamed e with
  | some n => { c with slots := c.slots.filter (fun v => v.slot != n) }
  | none => c

/-- The index that a new entry of a tenant takes, a free one or that of an entry evicted for it, and the array without what
was there (R161, R169). -/
def hotPlace (x : Die) (lo hi tenant : Nat) : Option (Nat × Comb) :=
  match freeHot x.comb lo hi with
  | some i => some (i, x.comb)
  | none =>
    let es := hotEntries x.comb lo hi
    let cand := es.filter (fun e =>
      mayEvict x (hi + 1 - lo) tenant (wordTenant e.val) (es.filter (fun f => wordTenant f.val == wordTenant e.val)).length)
    (clockVictim x.comb.clock (cand.map (fun e => (e.idx, e.refd)))).map (fun i =>
      let c := dropSlotOf x.comb (combEntry x.comb i)
      (i, { c with entries := c.entries.map (fun e =>
              if lo ≤ e.idx && e.idx ≤ hi && clockPasses x.comb.clock i e.idx then { e with refd := false } else e) }))

/-- The valid hot-key entries of a key. -/
def hotOf (c : Comb) (tenant nsid : Nat) (h : BitVec 128) : List CombEntry :=
  combMatches c (hotWord tenant nsid 0 h) hotMask

/-- Invalidates every hot-key entry of a key and frees its slots (R155, R166); an invalidated entry is not listed, as one that
has not been written since (R177). -/
def hotDrop (c : Comb) (tenant nsid : Nat) (h : BitVec 128) : Comb :=
  let es := hotOf c tenant nsid h
  let c1 := es.foldl dropSlotOf c
  { c1 with entries := c1.entries.filter (fun e => !es.any (fun f => f.idx == e.idx)) }

/-- Inserts a hot-key entry when no entry of the key exists (R161, R166). -/
def hotInsert (s : State) (d : DieId) (tenant nsid : Nat) (h : BitVec 128) (version kind : Nat) (loc : BitVec 56) : State :=
  let x := s.die d
  if !(hotOf x.comb tenant nsid h).isEmpty then s
  else match hotPlace x (hotFirst s d) (hotLast s d) tenant with
    | none => s
    | some (i, c1) =>
      s.setDie d { x with comb := { combPut c1 { idx := i, val := hotWord tenant nsid (blkTagOf kind loc) h,
                                                 care := BitVec.allOnes 192, prio := 0,
                                                 res := hotResult version kind loc, valid := true, refd := false }
                                    with clock := (i + 1) % 65536 } }

/-- Rewrites the entry of a key, when it exists and a test of it holds, to a version, kind and location: the three-step
rewrite of R166. -/
def hotRewrite (c : Comb) (tenant nsid : Nat) (h : BitVec 128) (test : CombEntry → Bool) (version kind : Nat)
    (loc : BitVec 56) : Comb :=
  match hotOf c tenant nsid h with
  | [e] =>
    if test e then
      combPut (dropSlotOf c e) { e with val := hotWord tenant nsid (blkTagOf kind loc) h, res := hotResult version kind loc }
    else c
  | _ => c

/-- The same for an entry found by HTAG and the version it holds, when only the record is known: entries of the tenant
and namespace whose H[63:0] is the HTAG. -/
def hotRewriteTag (c : Comb) (tenant nsid : Nat) (htag : BitVec 64) (test : CombEntry → Bool) (version kind : Nat)
    (loc : BitVec 56) : Comb :=
  let pick (e : CombEntry) : Bool := e.valid && bitsOf e.val.toNat 191 190 == 0 && wordTenant e.val == tenant &&
    bitsOf e.val.toNat 177 146 == nsid && bitsOf e.val.toNat 63 0 == htag.toNat && test e
  let c1 := (c.entries.filter pick).foldl dropSlotOf c
  { c1 with entries := c1.entries.map (fun e =>
      if pick e then { e with val := hotWord tenant nsid (blkTagOf kind loc) (BitVec.ofNat 128 e.val.toNat),
                              res := hotResult version kind loc } else e) }

/-- Marks the entries of a key as referenced (R169). -/
def hotTouch (c : Comb) (tenant nsid : Nat) (h : BitVec 128) : Comb :=
  { c with entries := c.entries.map (fun e =>
      if combMatch (hotWord tenant nsid 0 h) hotMask e then { e with refd := true } else e) }

/-- A slot of the value cache by number. -/
def slotAt (c : Comb) (n : Nat) : Option CacheSlot := c.slots.find? (fun v => v.slot == n)

/-- Evicts a slot: its entry's RESULT goes from VCACHE back to FLASH with the location of the slot header (R166). -/
def slotEvict (c : Comb) (n : Nat) : Comb :=
  match slotAt c n with
  | none => c
  | some v =>
    { c with
      slots := c.slots.filter (fun w => w.slot != n)
      entries := c.entries.map (fun e =>
        if slotNamed e = some n then { e with res := hotResult (resVersion e.res) 0 v.loc } else e) }

/-- A place for a tenant's value in the value cache: a free slot, else one that R169 lets be evicted, by the clock pointer;
a slot that a reclaim is to free is neither (R162). -/
def slotPlace (x : Die) (tenant : Nat) : Option (Nat × Comb) :=
  match (List.range 4096).find? (fun n => !(x.comb.slots.any (fun v => v.slot == n)) && !(x.comb.reclaim.contains n)) with
  | some n => some (n, x.comb)
  | none =>
    let cand := x.comb.slots.filter (fun v => !x.comb.reclaim.contains v.slot && mayEvict x 4096 tenant v.tenant
      (x.comb.slots.filter (fun w => w.tenant == v.tenant)).length)
    (clockVictim x.comb.slotClock (cand.map (fun v => (v.slot, v.refd)))).map (fun n =>
      let c := slotEvict x.comb n
      (n, { c with
        slots := c.slots.map (fun v => if clockPasses x.comb.slotClock n v.slot then { v with refd := false } else v)
        slotClock := (n + 1) % 4096 }))

/-- Marks a value cache slot as referenced (R169). -/
def slotTouch (c : Comb) (n : Nat) : Comb :=
  { c with slots := c.slots.map (fun v => if v.slot == n then { v with refd := true } else v) }

/-- Fills a slot for a key whose entry is a FLASH hint at a version and location: RESULT becomes VCACHE, conditional
under R160 (R166, R167). WORD stays as it is, so that BLK_TAG goes on naming the group of the flash copy (log 159). -/
def slotFill (s : State) (d : DieId) (tenant nsid : Nat) (h : BitVec 128) (version : Nat) (v : CacheSlot) : State :=
  let x := s.die d
  match hotOf x.comb tenant nsid h with
  | [e] =>
    if resKind e.res = 0 ∧ resVersion e.res = version ∧ resLoc e.res = v.loc then
      match slotPlace x tenant with
      | none => s
      | some (n, c1) =>
        let e1 := combEntry c1 e.idx
        s.setDie d { x with comb := { combPut c1 { e1 with res := hotResult version 1 (BitVec.ofNat 56 n) }
                                      with slots := { v with slot := n } :: c1.slots } }
    else s
  | _ => s

/-! ### INV_MASKED (R162) -/

/-- Whether a cell is a definite bit equal to V wherever M is 1. -/
def invPick (v m : BitVec 192) (e : CombEntry) : Bool := e.valid && (m &&& ~~~ e.care) == 0 && ((e.val ^^^ v) &&& m) == 0

/-- INV_MASKED on one array: the picked entries become invalid at once; their value cache slots and indices are freed
when the reclaim ends. -/
def invMasked (c : Comb) (v m : BitVec 192) : Comb :=
  let hit := c.entries.filter (invPick v m)
  { c with
    entries := c.entries.map (fun e => if invPick v m e then { e with valid := false } else e)
    reclaim := c.reclaim ++ hit.filterMap slotNamed
    reclaimIx := c.reclaimIx ++ hit.map (fun e => e.idx)
    reclaimOn := true }

/-- INV_MASKED on one die. -/
def invOnDie (v m : BitVec 192) (s : State) (d : DieId) : State := s.updDie d (fun x => { x with comb := invMasked x.comb v m })

/-- V and M that name all hot-key entries of a tenant. -/
def tenantInv (t : Nat) : BitVec 192 × BitVec 192 :=
  (BitVec.ofNat 192 (t % 4096 * 2 ^ 178), BitVec.ofNat 192 (2 ^ 192 - 2 ^ 178))
/-- V and M that name all hot-key entries of a namespace. -/
def nsInv (t n : Nat) : BitVec 192 × BitVec 192 :=
  (BitVec.ofNat 192 (t % 4096 * 2 ^ 178 + n % 2 ^ 32 * 2 ^ 146), BitVec.ofNat 192 (2 ^ 192 - 2 ^ 146))
/-- V and M that name all hot-key entries with a BLK_TAG (R174). -/
def tagInv (tag : Nat) : BitVec 192 × BitVec 192 :=
  (BitVec.ofNat 192 (tag % 2 ^ 18 * 2 ^ 128), BitVec.ofNat 192 (3 * 2 ^ 190 + (2 ^ 146 - 2 ^ 128)))

/-! ### The update registers -/

/-- CMB_UPD_CTRL of a die. -/
def updCtrl (d : DieId) : Nat := dreg d Page.cmb 0x80

/-- A CMB error: ERR_INFO.OFFSET holds the entry index (R177). -/
def combErr (s : State) (d : DieId) (code idx : Nat) : State := recordErr s (dreg d Page.cmb 0) code idx

/-- Whether an index is shifted by the shift in progress, or its target (R164). -/
def inShift (c : Comb) (i : Nat) : Bool :=
  match c.shift with
  | none => false
  | some sh => if sh.down then decide (sh.first - 1 ≤ i ∧ i ≤ sh.last) else decide (sh.first ≤ i ∧ i ≤ sh.last + 1)

/-- The WORD that CMB_UPD_VAL and CMB_UPD_MASK give a WRITE: a cell is X where the mask is 0. -/
def updEntry (s : State) (d : DieId) (i prio : Nat) : CombEntry :=
  let care := BitVec.ofNat 192 (regWide s d 0xA0 6)
  { idx := i, val := BitVec.ofNat 192 (regWide s d 0x88 6) &&& care, care := care, prio := prio,
    res := BitVec.ofNat 128 (regWide s d 0xB8 4), valid := false, refd := false }

/-- FAIL of CMB_UPD_CTRL: whether the last RESULT did not take effect (R160, R176). -/
def updFail (s : State) (d : DieId) (b : Bool) : State := regFld s (updCtrl d) 22 22 (if b then 1 else 0)

/-- Starts an update operation: its fields are stored and BUSY is set (R161, R176). -/
def updBegin (s : State) (d : DieId) (v : Word) : State :=
  (storeReg s (updCtrl d) v).updDie d (fun x => { x with comb := { x.comb with busy := some { op := fld v 19 16, idx := fld v 15 0 } } })

/-- The refusals that a firmware operation on an index meets before its own: SHIFT_BUSY and HOT_REGION (R164, R165).
INV_MASKED names no index. -/
def updRefused (s : State) (d : DieId) (v : Word) : Option Nat :=
  let i := fld v 15 0
  if inShift (s.die d).comb i ∧ fld v 19 16 ≠ 5 then some 0x84
  else if inHot s d i ∧ 2 ≤ fld v 19 16 ∧ fld v 19 16 ≤ 4 then some 0x83
  else none

/-- INVALIDATE (R159). -/
def updInvalidate (s : State) (d : DieId) (v : Word) : State :=
  (updBegin s d v).updDie d (fun x =>
    let e := combEntry x.comb (fld v 15 0)
    { x with comb := { dropSlotOf x.comb e with
        entries := (dropSlotOf x.comb e).entries.filter (fun f => f.idx != fld v 15 0) } })

/-- WRITE (R159). At an index that a reclaim still holds it takes effect, and BUSY lasts, until the reclaim ends (R162, log
160). -/
def updWrite (s : State) (d : DieId) (v : Word) : State :=
  if (combEntry (s.die d).comb (fld v 15 0)).valid then combErr s d 0x80 (fld v 15 0)
  else
    let e := updEntry s d (fld v 15 0) (fld v 31 24)
    (updBegin s d v).updDie d (fun x =>
      { x with comb := if x.comb.reclaimIx.contains e.idx then { x.comb with late := some e } else combPut x.comb e })

/-- Whether an entry has been written since its last invalidation: it is listed, and no INV_MASKED waits for its
reclaim. -/
def combWritten (c : Comb) (i : Nat) : Bool := c.entries.any (fun e => e.idx == i) && !c.reclaimIx.contains i

/-- VALIDATE (R159, R177). -/
def updValidate (s : State) (d : DieId) (v : Word) : State :=
  let i := fld v 15 0
  if !combWritten (s.die d).comb i then combErr s d 0x85 i
  else (updBegin s d v).updDie d (fun x => { x with comb := combPut x.comb { combEntry x.comb i with valid := true } })

/-- Whether a RESULT operation takes effect (R160). -/
def resultTakes (s : State) (d : DieId) (i : Nat) : Bool :=
  let e := combEntry (s.die d).comb i
  e.valid && e.val == (BitVec.ofNat 192 (regWide s d 0x88 6) &&& e.care)
    && resVersion e.res == resVersion (BitVec.ofNat 128 (regWide s d 0xB8 4))

/-- RESULT (R160): atomic and conditional; FAIL is set when it does not take effect. -/
def updResult (s : State) (d : DieId) (v : Word) : State :=
  let i := fld v 15 0
  if !combWritten (s.die d).comb i then updFail (combErr s d 0x85 i) d true
  else if resultTakes s d i then
    (updFail (updBegin s d v) d false).updDie d (fun x =>
      { x with comb := combPut x.comb { combEntry x.comb i with res := BitVec.ofNat 128 (regWide s d 0xB8 4) } })
  else updFail (updBegin s d v) d true

/-- INV_MASKED by firmware, on one die or on all (R162). -/
def updInvMasked (s : State) (d : DieId) (v : Word) : State :=
  let iv := BitVec.ofNat 192 (regWide s d 0x88 6)
  let im := BitVec.ofNat 192 (regWide s d 0xA0 6)
  if bitAt v 20 then overDies (invOnDie iv im) (updBegin s d v) (upDies s)
  else invOnDie iv im (updBegin s d v) d

/-- A write of CMB_UPD_CTRL whose operation is `op`: OP_BUSY while one runs (R176). -/
def updOp (s : State) (d : DieId) (v : Word) (op : Nat) (act : State → DieId → Word → State) : State :=
  rowWrite s (updCtrl d) v (fun s =>
    if fld v 19 16 ≠ op ∨ takesWork s (dreg d Page.cmb 0) = false then s
    else if (s.die d).comb.busy.isSome then combErr s d 0x81 (fld v 15 0)
    else match updRefused s d v with
      | some e => combErr s d e (fld v 15 0)
      | none => act s d v)

/-- A write of CMB_UPD_CTRL, by its OP field. -/
def combUpdWrite (s : State) (d : DieId) (v : Word) : State :=
  match fld v 19 16 with
  | 1 => updOp s d v 1 updInvalidate
  | 2 => updOp s d v 2 updWrite
  | 3 => updOp s d v 3 updValidate
  | 4 => updOp s d v 4 updResult
  | 5 => updOp s d v 5 updInvMasked
  | _ => rowWrite s (updCtrl d) v id

/-- CMB_INVALIDATE. -/
def execCmbInvalidate (r : Requester) (d : DieId) (v : Word) (s : State) : Out := .next (byReq s r (fun s => updOp s d v 1 updInvalidate))
/-- CMB_WRITE. -/
def execCmbWrite (r : Requester) (d : DieId) (v : Word) (s : State) : Out := .next (byReq s r (fun s => updOp s d v 2 updWrite))
/-- CMB_VALIDATE. -/
def execCmbValidate (r : Requester) (d : DieId) (v : Word) (s : State) : Out := .next (byReq s r (fun s => updOp s d v 3 updValidate))
/-- CMB_RESULT. -/
def execCmbResult (r : Requester) (d : DieId) (v : Word) (s : State) : Out := .next (byReq s r (fun s => updOp s d v 4 updResult))
/-- CMB_INV_MASKED. -/
def execCmbInvMasked (r : Requester) (d : DieId) (v : Word) (s : State) : Out := .next (byReq s r (fun s => updOp s d v 5 updInvMasked))

/-- CMB_UPDATE_DONE: the operation in progress completes and BUSY clears (R161). -/
def execCmbUpdateDone (d : DieId) (s : State) : Out :=
  .next (onDie s d (fun s => s.updDie d (fun x =>
    if x.comb.late.isSome then x else { x with comb := { x.comb with busy := none } })))

/-- The array at the end of a reclaim: the slots of the invalidated entries are free, their indices may be used again, and a
WRITE that waited for one takes effect (R162). -/
def reclaimed (c : Comb) : Comb :=
  let f := { c with
    slots := c.slots.filter (fun v => !c.reclaim.contains v.slot)
    entries := c.entries.filter (fun e => e.valid || !c.reclaimIx.contains e.idx)
    reclaim := []
    reclaimIx := []
    reclaimOn := false
    late := none }
  match c.late with
  | some e => combPut f e
  | none => f

/-- CMB_SLOT_RECLAIM_DONE: the reclaim of an INV_MASKED ends, and INT bit 2 is set (R162, R178). -/
def execCmbSlotReclaimDone (d : DieId) (s : State) : Out :=
  .next (onDie s d (fun s =>
    if (s.die d).comb.reclaimOn then
      raiseInt (s.updDie d (fun x => { x with comb := reclaimed x.comb })) (dreg d Page.cmb 0) 2
    else s))

/-! ### The search registers -/

/-- The search that CMB_SRCH_CTRL and CMB_SRCH_KEY describe. -/
def srchOf (s : State) (d : DieId) (v : Word) : CombSearch :=
  { word := BitVec.ofNat 192 (regWide s d 0xCC 6)
    mask := if bitAt v 0 then BitVec.ofNat 192 (regWide s d 0x50 6) else BitVec.allOnes 192
    cascade := bitAt v 1 }

/-- A write of CMB_SRCH_CTRL: START starts a search; a START while one runs is ignored with OP_BUSY (R176). -/
def combSrchWrite (s : State) (d : DieId) (v : Word) : State :=
  rowWrite s (dreg d Page.cmb 0xC8) v (fun s =>
    if bitAt v 31 && takesWork s (dreg d Page.cmb 0) then
      if (s.die d).comb.search.isSome then combErr s d 0x81 0
      else
        let s1 := (storeReg s (dreg d Page.cmb 0xC8) v).updDie d (fun x =>
          { x with comb := { x.comb with search := some (srchOf s d v) } })
        if bitAt v 1 ∧ dfld s d Page.cmb 0x40 2 2 = 1 then regBump s1 (dreg d Page.cmb 0x19C) 1 else s1
    else storeReg s (dreg d Page.cmb 0xC8) v)

/-- CMB_SEARCH. -/
def execCmbSearch (r : Requester) (d : DieId) (v : Word) (s : State) : Out := .next (byReq s r (fun s => combSrchWrite s d v))

/-- CMB_SRCH_RES of a search result (R177). -/
def srchWord : Option Won → Word
  | none => 0
  | some w => BitVec.ofNat 32 (2 ^ 31 + (if w.multi then 2 ^ 30 else 0) + w.die % 8 * 2 ^ 27 + w.entry.prio % 256 * 2 ^ 16
      + w.entry.idx % 65536)

/-- What a firmware search finds: the cascade when asked for and enabled, else the local array (R156). -/
def srchFind (s : State) (d : DieId) (q : CombSearch) : Option Won :=
  if q.cascade && decide (dfld s d Page.cmb 0x40 2 2 = 1) then cascadeSearch s q.word q.mask
  else combSearch (s.die d).comb d q.word q.mask

/-- CMB_SEARCH_RESULT: the result of the search in progress arrives and START reads 0 (R157, R176). -/
def execCmbSearchResult (d : DieId) (s : State) : Out :=
  .next (onDie s d (fun s =>
    match (s.die d).comb.search with
    | none => s
    | some q =>
      let w := srchFind s d q
      s.updDie d (fun x => { x with comb := { x.comb with
        search := none
        srchRes := srchWord w
        srchData := match w with
          | some w => w.entry.res
          | none => 0 } })))

/-! ### SHIFT (R163, R164) -/

/-- Whether a shift of the range in CMB_SHIFT_RANGE is allowed (R163). -/
def shiftOk (s : State) (d : DieId) (first last : Nat) (down : Bool) : Bool :=
  let c := (s.die d).comb
  let dest := if down then first - 1 else last + 1
  decide (first ≤ last) && decide (last < hotFirst s d) && (!down || decide (1 ≤ first)) && decide (dest < hotFirst s d)
    && !(combEntry c dest).valid

/-- A write of CMB_SHIFT_CTRL: START starts the shift, is ignored while BUSY and refused under R163. -/
def combShiftWrite (s : State) (d : DieId) (v : Word) : State :=
  rowWrite s (dreg d Page.cmb 0xFC) v (fun s =>
    let first := dfld s d Page.cmb 0xF8 15 0
    let last := dfld s d Page.cmb 0xF8 31 16
    if bitAt v 0 && takesWork s (dreg d Page.cmb 0) then
      if (s.die d).comb.shift.isSome then s
      else if shiftOk s d first last (bitAt v 1) then
        (storeReg s (dreg d Page.cmb 0xFC) v).updDie d (fun x =>
          { x with comb := { x.comb with shift := some { first := first, last := last, down := bitAt v 1 } } })
      else combErr s d 0x82 first
    else storeReg s (dreg d Page.cmb 0xFC) v)

/-- CMB_SHIFT. -/
def execCmbShift (r : Requester) (d : DieId) (v : Word) (s : State) : Out := .next (byReq s r (fun s => combShiftWrite s d v))

/-- The array after a shift: each entry of the range lies one place further, in the same order (R163, R164). -/
def shifted (c : Comb) (sh : CombShift) : List CombEntry :=
  (c.entries.filter (fun e => sh.first ≤ e.idx && e.idx ≤ sh.last)).map
      (fun e => { e with idx := if sh.down then e.idx - 1 else e.idx + 1 })
    ++ c.entries.filter (fun e => !(sh.first ≤ e.idx && e.idx ≤ sh.last)
        && e.idx != (if sh.down then sh.first - 1 else sh.last + 1))

/-- Whether the index that a shift moves into is held by a reclaim (R162). -/
def shiftHeld (c : Comb) (sh : CombShift) : Bool := c.reclaimIx.contains (if sh.down then sh.first - 1 else sh.last + 1)

/-- CMB_SHIFT_DONE: the last move ends, BUSY clears and INT bit 1 is set (R164); not while a reclaim holds the index that the
first move needs (R162, log 160). -/
def execCmbShiftDone (d : DieId) (s : State) : Out :=
  .next (onDie s d (fun s =>
    match (s.die d).comb.shift with
    | none => s
    | some sh =>
      if shiftHeld (s.die d).comb sh then s
      else raiseInt (s.updDie d (fun x => { x with comb := { x.comb with entries := shifted x.comb sh, shift := none } }))
        (dreg d Page.cmb 0) 1))

end Sys2Proof.Machine
end

