-- ==== Sys2Proof/Machine/Journal.lean ====
section
/-! DEFINITION. The configuration journal as the boot NOR holds it (R544): the bytes of its sectors, and the list of its records
that those bytes spell. -/
namespace Sys2Proof.Machine
open Sys2Proof

/-! ### The array -/

/-- Bytes of the NOR array. -/
def norRead (n : Nor) (a len : Nat) : Bytes := cellsGet norBlank n.array a len

/-- Writes bytes of the NOR array. -/
def norWrite (n : Nor) (a : Nat) (b : Bytes) : Nor := { n with array := cellsPut norBlank n.array a b }

/-- The first address and the length of a coded sector. -/
def sectorSpan (k : Nat) : Nat × Nat := if k < 32 then (k * 0x1000, 0x1000) else ((k - 32) * 0x40000, 0x40000)

/-- Programs bytes: a program clears bits only (R521). -/
def norProgram (n : Nor) (a : Nat) (b : Bytes) : Nor :=
  norWrite n a (List.zipWith (· &&& ·) (norRead n a b.length) b)

/-! ### Records -/

/-- Whether two record bodies have one key: the newer supersedes the older. -/
def cjSame : CjBody → CjBody → Bool
  | .tenantCtx a, .tenantCtx b => a.id == b.id
  | .keyAuth a _, .keyAuth b _ => a == b
  | .keyData a g _ _, .keyData b h _ _ => a == b && g == h
  | .keyXts a n _, .keyXts b m _ => a == b && n == m
  | .ctrBound d t g _, .ctrBound e u h _ => d == e && t == u && g == h
  | .clockOffset _ _, .clockOffset _ _ => true
  | .boot _, .boot _ => true
  | .chanRetired d c, .chanRetired e f => d == e && c == f
  | .ldcRates _, .ldcRates _ => true
  | .rule i _ _ _ _, .rule j _ _ _ _ => i == j
  | .portAddr d p k _ _, .portAddr e q l _ _ => d == e && p == q && k == l
  | .lunRetired d c l, .lunRetired e f m => d == e && c == f && l == m
  | _, _ => false

/-- The length of a record's body in bytes (R544; log 59 for the bodies whose layout is not given). -/
def cjBodyLen : CjBody → Nat
  | .tenantCtx _ => 64
  | .keyAuth _ w => w.length
  | .keyData _ _ w _ => w.length + 1
  | .keyXts _ _ w => w.length
  | .ctrBound _ _ _ _ => 8
  | .clockOffset _ _ => 16
  | .boot _ => 4
  | .chanRetired _ _ => 0
  | .ldcRates _ => 4
  | .rule _ _ _ _ _ => 68
  | .portAddr _ _ _ _ _ => 20
  | .lunRetired _ _ _ => 0

/-- The bytes that a record takes: 28 around its body, padded to 16 (R544). -/
def cjSize (b : CjBody) : Nat := ceilDiv (28 + cjBodyLen b) 16 * 16

/-- The journal sector that follows a sector. -/
def cjNext (n : Nat) : Nat := if n = 510 then 385 else n + 1

/-- The 64-byte context of R332. -/
def tenantBytes (t : Tenant) : Bytes :=
  let b (x : Bool) (i : Nat) := if x then 2 ^ i else 0
  leBytes 2 (b t.enable 0 + b t.reqEnc 1 + b t.urgentOk 2 + b t.rules 3 + b t.reject 4) ++ leBytes 1 t.weight ++ leBytes 1 t.share
    ++ leBytes 2 t.sessMax ++ leBytes 2 t.nsMax ++ leBytes 4 t.opsRate ++ leBytes 4 t.opsBurst ++ leBytes 4 t.byteRate
    ++ leBytes 4 t.byteBurst ++ leBytes 4 t.refillUs ++ leBytes 1 t.limitLog2 ++ zeros 1 ++ leBytes 2 t.adminPorts ++ zeros 32

/-- A signed 64-bit value, little-endian. -/
def leSigned (x : Int) : Bytes := leBytes 8 (BitVec.ofInt 64 x).toNat

/-- The code of a data slot's state in its record (log 59). -/
def slotCode : SlotState → Nat
  | .empty => 0
  | .current => 1
  | .decryptOnly => 2

/-- TYPE of a record, and its KEY; the parts of a KEY that R544 gives only in words are packed (log 59). -/
def cjTypeKey : CjBody → Nat × Nat
  | .tenantCtx t => (1, t.id)
  | .keyAuth t _ => (2, t)
  | .keyData t g _ _ => (3, t * 256 + g)
  | .keyXts t n _ => (4, t * 2 ^ 32 + n)
  | .ctrBound d t g _ => (5, d * 2 ^ 56 + t * 2 ^ 40 + g)
  | .clockOffset _ _ => (6, 0)
  | .boot _ => (7, 0)
  | .chanRetired d c => (8, d * 8 + c)
  | .ldcRates _ => (9, 0)
  | .rule i _ _ _ _ => (0x0A, i)
  | .portAddr d p k _ _ => (0x0B, d * 16 + p * 8 + k)
  | .lunRetired d c l => (0x0C, d * 512 + c * 64 + l)

/-- The body of a record (log 59). -/
def cjBody : CjBody → Bytes
  | .tenantCtx t => tenantBytes t
  | .keyAuth _ w => w
  | .keyData _ _ w st => w ++ leBytes 1 (slotCode st)
  | .keyXts _ _ w => w
  | .ctrBound _ _ _ b => leBytes 8 b
  | .clockOffset o m => leSigned o ++ leSigned m
  | .boot n => leBytes 4 n
  | .chanRetired _ _ => []
  | .ldcRates v => leBytes 4 v.toNat
  | .rule _ v c p r => leBytes 24 v.toNat ++ leBytes 24 c.toNat ++ leBytes 4 p ++ leBytes 16 r.toNat
  | .portAddr _ _ _ c a => leBytes 4 c.toNat ++ leBytes 16 a.toNat
  | .lunRetired _ _ _ => []

/-- The bytes of a record, padded with zeros (R544, log 59). -/
def cjBytes (b : CjBody) (seq : Nat) (deleted : Bool) : Bytes :=
  let h := leBytes 1 (cjTypeKey b).1 ++ leBytes 1 (if deleted then 1 else 0) ++ leBytes 2 (cjBodyLen b) ++ zeros 4
    ++ leBytes 8 (cjTypeKey b).2 ++ leBytes 8 seq ++ cjBody b
  padTo (cjSize b) (h ++ leBytes 4 (Hash.crc32c h).toNat)

/-- A sector's header: MAGIC, SECTOR_SEQ, CRC32C. -/
def cjHeader (seq : Nat) : Bytes :=
  let h := leBytes 4 0x4A434B53 ++ leBytes 8 seq
  h ++ leBytes 4 (Hash.crc32c h).toNat

/-- The NOR address of a place in a journal sector. -/
def cjAddr (sector off : Nat) : Nat := sector * 0x40000 + off

/-- Whether a sector has a valid header (R543, R545). -/
def cjHeaderOk (n : Nor) (sector : Nat) : Bool :=
  let h := norRead n (cjAddr sector 0) 16
  leAt h 0 4 == 0x4A434B53 && leAt h 12 4 == (Hash.crc32c (h.take 12)).toNat

/-- Whether the NOR spells a record of the list at its place. -/
def cjStands (n : Nor) (r : CjRec) : Bool :=
  cjHeaderOk n r.sector && norRead n (cjAddr r.sector r.off) (cjSize r.body) == cjBytes r.body r.seq r.deleted

/-- The records that the NOR still spells after something else has written it. -/
def cjReload (n : Nor) : Nor := { n with journal := n.journal.filter (cjStands n) }

/-- Erases a sector: every byte reads 0xFF. -/
def norClear (n : Nor) (k : Nat) : Nor :=
  { n with array := n.array.filter (fun c => !(decide ((sectorSpan k).1 ≤ c.1 ∧ c.1 < (sectorSpan k).1 + (sectorSpan k).2))) }

/-- Erases a span: every byte reads 0xFF; journal records that lay in it are gone. -/
def norEraseSpan (n : Nor) (k : Nat) : Nor :=
  { norClear n k with journal := n.journal.filter (fun r => 32 + r.sector != k) }

/-- A new sector at the head: one that holds neither records nor the erased state is erased again (R543), then its header is
written. -/
def cjOpen (n : Nor) (sector : Nat) : Nor :=
  { norProgram (norClear n (32 + sector)) (cjAddr sector 0) (cjHeader n.cjSectors) with
    cjHead := sector
    cjAt := 16
    cjSectors := n.cjSectors + 1 }

/-- The head with room for a record; no record crosses a sector. -/
def cjRoom (n : Nor) (size : Nat) : Nor :=
  if n.cjAt = 0 then cjOpen n n.cjHead
  else if 0x40000 < n.cjAt + size then { cjOpen n (cjNext n.cjHead) with cjErased := n.cjErased - 1 }
  else n

/-- Writes a record at the next free place, again at the one after it while it does not read back, with fuel (R544): the place. -/
def cjWrite (b : CjBody) (deleted : Bool) : Nat → Nor → Nor
  | 0, n => n
  | f + 1, n =>
    let m := cjRoom n (cjSize b)
    let bytes := cjBytes b n.cjSeq deleted
    let p := norProgram m (cjAddr m.cjHead m.cjAt) bytes
    let q := { p with cjAt := m.cjAt + cjSize b }
    if norRead p (cjAddr m.cjHead m.cjAt) (cjSize b) == bytes then q else cjWrite b deleted f q

/-- Appends a record to the configuration journal (R544). -/
def cjAppend (n : Nor) (b : CjBody) (deleted : Bool) : Nor :=
  let m := cjWrite b deleted 64 n
  { m with
    journal := n.journal ++ [{ seq := n.cjSeq, deleted := deleted, sector := m.cjHead, off := m.cjAt - cjSize b, body := b }]
    cjSeq := n.cjSeq + 1 }

/-- Firmware's own programs and erases of the boot NOR count in NOR_PROGS and NOR_ERASES, and each sets NOR INT bit 1 as it
ends (R546, R547). -/
def norCount (s : State) (progs erases : Nat) : State :=
  raiseInt (regBump (regBump s (nreg 0x84) progs) (nreg 0x88) erases) (nreg 0) 1

/-- Appends a record to the configuration journal of the boot NOR: one program (R571). -/
def journalPut (s : State) (b : CjBody) : State := norCount { s with nor := cjAppend s.nor b false } 1 0

/-- Appends the deletion of a record. -/
def journalDel (s : State) (b : CjBody) : State := norCount { s with nor := cjAppend s.nor b true } 1 0

/-- The live records: for each key the newest, when it is no deletion. -/
def cjLive : List CjRec → List CjBody
  | [] => []
  | r :: rest => if rest.any (fun q => cjSame q.body r.body) then cjLive rest
                 else if r.deleted then cjLive rest else r.body :: cjLive rest

/-- The bound that the journal records for a die and a data key generation, 0 for none (R352). -/
def ctrBoundOf (s : State) (d : DieId) (tenant gen : Nat) : Nat :=
  (cjLive s.nor.journal).foldl (fun n b => match b with
    | .ctrBound e t g bound => if e == d.val && t == tenant && g == gen then bound else n
    | _ => n) 0

end Sys2Proof.Machine
end

