-- ==== Sys2Proof/Machine/Crypto.lean ====
section
/-! DEFINITION. The cryptographic functions that the spec cites by their standards: SHA-384 (FIPS 180-4), HMAC,
AES-256 (FIPS 197) with GCM (SP 800-38D), XTS (IEEE 1619) and key wrap (SP 800-38F), and ECDSA verification over
P-384. The spec names the standards and not the algorithms, so these follow the published standards (log 10,
PRESUMED). -/
namespace Sys2Proof.Machine.Crypto
open Sys2Proof Sys2Proof.Machine

/-! ### SHA-384 and HMAC -/

/-- The eighty round constants of FIPS 180-4, the first one in the highest 64 bits: four numbers of twenty words each. -/
def shaConsts : List Nat := [0x428A2F98D728AE227137449123EF65CDB5C0FBCFEC4D3B2FE9B5DBA58189DBBC3956C25BF348B53859F111F1B605D019923F82A4AF194F9BAB1C5ED5DA6D8118D807AA98A303024212835B0145706FBE243185BE4EE4B28C550C7DC3D5FFB4E272BE5D74F27B896F80DEB1FE3B1696B19BDC06A725C71235C19BF174CF692694E49B69C19EF14AD2EFBE4786384F25E30FC19DC68B8CD5B5240CA1CC77AC9C65,
   0x2DE92C6F592B02754A7484AA6EA6E4835CB0A9DCBD41FBD476F988DA831153B5983E5152EE66DFABA831C66D2DB43210B00327C898FB213FBF597FC7BEEF0EE4C6E00BF33DA88FC2D5A79147930AA72506CA6351E003826F142929670A0E6E7027B70A8546D22FFC2E1B21385C26C9264D2C6DFC5AC42AED53380D139D95B3DF650A73548BAF63DE766A0ABB3C77B2A881C2C92E47EDAEE692722C851482353B,
   0xA2BFE8A14CF10364A81A664BBC423001C24B8B70D0F89791C76C51A30654BE30D192E819D6EF5218D69906245565A910F40E35855771202A106AA07032BBD1B819A4C116B8D2D0C81E376C085141AB532748774CDF8EEB9934B0BCB5E19B48A8391C0CB3C5C95A634ED8AA4AE3418ACB5B9CCA4F7763E373682E6FF3D6B2B8A3748F82EE5DEFB2FC78A5636F43172F6084C87814A1F0AB728CC702081A6439EC,
   0x90BEFFFA23631E28A4506CEBDE82BDE9BEF9A3F7B2C67915C67178F2E372532BCA273ECEEA26619CD186B8C721C0C207EADA7DD6CDE0EB1EF57D4F7FEE6ED17806F067AA72176FBA0A637DC5A2C898A6113F9804BEF90DAE1B710B35131C471B28DB77F523047D8432CAAB7B40C724933C9EBE0A15C9BEBC431D67C49C100D4C4CC5D4BECB3E42B6597F299CFC657E2A5FCB6FAB3AD6FAEC6C44198C4A475817]

/-- The constant of round t. -/
def shaConst (t : Nat) : Nat := shaConsts.getD (t / 20) 0 >>> (64 * (19 - t % 20)) % 2 ^ 64

/-- The initial hash value of SHA-384, the first word in the highest 64 bits. -/
def shaStart : Nat := 0xCBBB9D5DC1059ED8629A292A367CD5079159015A3070DD17152FECD8F70E593967332667FFC00B318EB44A8768581511DB0C2E0D64F98FA747B5481DBEFA4FA4

/-- A 64-bit number turned right by each of a list of distances, the results added bit by bit. -/
def turned (x : Nat) (l : List Nat) : Nat := l.foldl (fun a n => a ^^^ (x * 2 ^ (64 - n) ||| x >>> n) % 2 ^ 64) 0

/-- One round on the window of sixteen schedule words, oldest first, and the eight working variables a to h: the window moves on by
the word that is sixteen rounds ahead. -/
def shaStep (p : List Nat × List Nat) (t : Nat) : List Nat × List Nat :=
  let w (i : Nat) := p.1.getD i 0
  let v (i : Nat) := p.2.getD i 0
  let ahead := w 0 + (turned (w 1) [1, 8] ^^^ w 1 >>> 7) + w 9 + (turned (w 14) [19, 61] ^^^ w 14 >>> 6)
  let pick := v 6 ^^^ (v 4 &&& (v 5 ^^^ v 6))
  let most := (v 0 &&& v 1) ||| (v 2 &&& (v 0 ||| v 1))
  let x := v 7 + turned (v 4) [14, 18, 41] + pick + shaConst t + w 0
  (p.1.drop 1 ++ [ahead % 2 ^ 64],
   (x + turned (v 0) [28, 34, 39] + most) % 2 ^ 64 :: p.2.take 3 ++ (v 3 + x) % 2 ^ 64 :: (p.2.drop 4).take 3)

/-- One 128-byte block goes into the hash value. -/
def shaBlock (h : List Nat) (blk : Bytes) : List Nat :=
  let out := (List.range 80).foldl shaStep ((chunks 8 blk).map beNat, h)
  (h.zip out.2).map (fun e => (e.1 + e.2) % 2 ^ 64)

/-- SHA-384 of a byte string: whole blocks of the message, a one bit, zeros and the length in bits. -/
def sha384 (m : Bytes) : Bytes :=
  let blocks := ceilDiv (m.length + 17) 128
  let tail := 0x80#8 :: zeros (128 * blocks - m.length - 17)
  let h := (chunks 128 (m ++ tail ++ beBytes 16 (8 * m.length))).foldl shaBlock ((chunks 8 (beBytes 64 shaStart)).map beNat)
  (h.flatMap (beBytes 8)).take 48

/-- HMAC-SHA-384, the `hmac` of the protocol chapter. -/
def hmac (key msg : Bytes) : Bytes :=
  let k := padTo 128 (if key.length > 128 then sha384 key else key)
  sha384 (k.map (· ^^^ 0x5C#8) ++ sha384 (k.map (· ^^^ 0x36#8) ++ msg))

/-! ### AES-256 -/

def aesS0 : List Nat :=
  [99, 124, 119, 123, 242, 107, 111, 197, 48, 1, 103, 43, 254, 215, 171, 118, 202, 130, 201, 125, 250, 89, 71, 240, 173, 212, 162, 175, 156, 164, 114, 192, 183, 253, 147, 38, 54, 63, 247, 204, 52, 165, 229, 241, 113, 216, 49, 21, 4, 199, 35, 195, 24, 150, 5, 154, 7, 18, 128, 226, 235, 39, 178, 117]
def aesS1 : List Nat :=
  [9, 131, 44, 26, 27, 110, 90, 160, 82, 59, 214, 179, 41, 227, 47, 132, 83, 209, 0, 237, 32, 252, 177, 91, 106, 203, 190, 57, 74, 76, 88, 207, 208, 239, 170, 251, 67, 77, 51, 133, 69, 249, 2, 127, 80, 60, 159, 168, 81, 163, 64, 143, 146, 157, 56, 245, 188, 182, 218, 33, 16, 255, 243, 210]
def aesS2 : List Nat :=
  [205, 12, 19, 236, 95, 151, 68, 23, 196, 167, 126, 61, 100, 93, 25, 115, 96, 129, 79, 220, 34, 42, 144, 136, 70, 238, 184, 20, 222, 94, 11, 219, 224, 50, 58, 10, 73, 6, 36, 92, 194, 211, 172, 98, 145, 149, 228, 121, 231, 200, 55, 109, 141, 213, 78, 169, 108, 86, 244, 234, 101, 122, 174, 8]
def aesS3 : List Nat :=
  [186, 120, 37, 46, 28, 166, 180, 198, 232, 221, 116, 31, 75, 189, 139, 138, 112, 62, 181, 102, 72, 3, 246, 14, 97, 53, 87, 185, 134, 193, 29, 158, 225, 248, 152, 17, 105, 217, 142, 148, 155, 30, 135, 233, 206, 85, 40, 223, 140, 161, 137, 13, 191, 230, 66, 104, 65, 153, 45, 15, 176, 84, 187, 22]
/-- The AES substitution box. -/
def aesS : List Nat :=
  aesS0 ++ aesS1 ++ aesS2 ++ aesS3

/-- The substitution of one byte. -/
def subByte (b : Byte) : Byte := BitVec.ofNat 8 (aesS.getD b.toNat 0)

/-- The inverse substitution of one byte. -/
def invSubByte (b : Byte) : Byte := BitVec.ofNat 8 (aesS.idxOf b.toNat)

/-- Multiplication by x in the AES field. -/
def xtime (b : Byte) : Byte := (b <<< 1) ^^^ (if b.getLsbD 7 then 0x1B#8 else 0#8)

/-- Multiplication in the AES field by a small constant. -/
def gmul (k : Nat) (b : Byte) : Byte :=
  (if k % 2 = 1 then b else 0) ^^^ (if k / 2 % 2 = 1 then xtime b else 0) ^^^
  (if k / 4 % 2 = 1 then xtime (xtime b) else 0) ^^^ (if k / 8 % 2 = 1 then xtime (xtime (xtime b)) else 0)

/-- One word of the key schedule after another: the words so far newest first, the word number, the constant. -/
def aesKeyWords : Nat → Nat → Byte → List Bytes → List Bytes
  | 0, _, _, ws => ws
  | n + 1, i, rc, ws =>
    let t := ws.getD 0 []
    let t' := if i % 8 = 0 then xorBytes ((t.drop 1 ++ t.take 1).map subByte) [rc, 0, 0, 0]
              else if i % 8 = 4 then t.map subByte else t
    aesKeyWords n (i + 1) (if i % 8 = 0 then xtime rc else rc) (xorBytes (ws.getD 7 []) t' :: ws)

/-- The fifteen round keys of AES-256. -/
def aesRoundKeys (key : Bytes) : List Bytes :=
  chunks 16 ((aesKeyWords 52 8 1 (chunks 4 key).reverse).reverse.flatten)

/-- The shift of rows: the byte at column c, row r comes from column c + r. -/
def shiftRows (s : Bytes) : Bytes := (List.range 16).map (fun i => s.getD ((i + 4 * (i % 4)) % 16) 0)

/-- The inverse shift of rows. -/
def invShiftRows (s : Bytes) : Bytes := (List.range 16).map (fun i => s.getD ((i + 12 * (i % 4)) % 16) 0)

/-- The mixing of one column with the given coefficients of its first row. -/
def mixColumn (k : List Nat) (c : Bytes) : Bytes :=
  (List.range 4).map (fun r =>
    (List.range 4).foldl (fun a j => a ^^^ gmul (k.getD ((j + 4 - r) % 4) 0) (c.getD j 0)) 0)

/-- One full round of encryption. -/
def aesRound (s k : Bytes) : Bytes :=
  xorBytes ((chunks 4 (shiftRows (s.map subByte))).flatMap (mixColumn [2, 3, 1, 1])) k

/-- AES-256 encryption of one block. -/
def aesEnc (key blk : Bytes) : Bytes :=
  let ks := aesRoundKeys key
  let s := ((ks.drop 1).take 13).foldl aesRound (xorBytes blk (ks.getD 0 []))
  xorBytes (shiftRows (s.map subByte)) (ks.getD 14 [])

/-- One full round of decryption. -/
def aesInvRound (s k : Bytes) : Bytes :=
  (chunks 4 (xorBytes ((invShiftRows s).map invSubByte) k)).flatMap (mixColumn [14, 11, 13, 9])

/-- AES-256 decryption of one block. -/
def aesDec (key blk : Bytes) : Bytes :=
  let ks := (aesRoundKeys key).reverse
  let s := ((ks.drop 1).take 13).foldl aesInvRound (xorBytes blk (ks.getD 0 []))
  xorBytes ((invShiftRows s).map invSubByte) (ks.getD 14 [])

/-! ### GCM -/

/-- Multiplication in the GCM field, bit by bit from the most significant bit of the first factor. -/
def ghashMulAux : Nat → BitVec 128 → BitVec 128 → BitVec 128 → BitVec 128
  | 0, _, _, z => z
  | n + 1, x, v, z =>
    ghashMulAux n x
      ((v >>> 1) ^^^ (if v.getLsbD 0 then BitVec.ofNat 128 (0xE1 * 2 ^ 120) else 0))
      (if x.getLsbD n then z ^^^ v else z)

/-- Multiplication in the GCM field. -/
def ghashMul (x y : BitVec 128) : BitVec 128 := ghashMulAux 128 x y 0

/-- GHASH over whole blocks. -/
def ghash (h : BitVec 128) (b : Bytes) : BitVec 128 :=
  (chunks 16 b).foldl (fun y blk => ghashMul (y ^^^ BitVec.ofNat 128 (beNat (padTo 16 blk))) h) 0

/-- The key stream of counter mode over n blocks from a counter value, with a 12-byte IV. -/
def ctrStream (key iv : Bytes) : Nat → Nat → Bytes
  | 0, _ => []
  | n + 1, c => aesEnc key (iv ++ beBytes 4 c) ++ ctrStream key iv n (c + 1)

/-- Counter mode encryption (and decryption) of the text. -/
def ctrCrypt (key iv text : Bytes) : Bytes := xorBytes text (ctrStream key iv (ceilDiv text.length 16) 2)

/-- The GCM tag of a ciphertext with its additional data. -/
def gcmTag (key iv aad ct : Bytes) : Bytes :=
  let h := BitVec.ofNat 128 (beNat (aesEnc key (zeros 16)))
  let pad (b : Bytes) := padTo (16 * ceilDiv b.length 16) b
  let s := ghash h (pad aad ++ pad ct ++ beBytes 8 (8 * aad.length) ++ beBytes 8 (8 * ct.length))
  xorBytes (beBytes 16 s.toNat) (aesEnc key (iv ++ beBytes 4 1))

/-- AES-256-GCM encryption: ciphertext and 16-byte tag. -/
def gcmSeal (key iv aad pt : Bytes) : Bytes × Bytes :=
  let ct := ctrCrypt key iv pt
  (ct, gcmTag key iv aad ct)

/-- AES-256-GCM decryption: the plaintext when the tag is right. -/
def gcmOpen (key iv aad ct tag : Bytes) : Option Bytes :=
  if gcmTag key iv aad ct = tag then some (ctrCrypt key iv ct) else none

/-! ### XTS and key wrap -/

/-- Multiplication of an XTS tweak by x: little-endian in the bytes. -/
def xtsNext (t : Bytes) : Bytes :=
  let n := leNat t * 2
  leBytes 16 (if n ≥ 2 ^ 128 then (n - 2 ^ 128) ^^^ 0x87 else n)

/-- XTS over whole blocks with a given block function. -/
def xtsBlocks (f : Bytes → Bytes) : List Bytes → Bytes → Bytes
  | [], _ => []
  | b :: bs, t => xorBytes (f (xorBytes b t)) t ++ xtsBlocks f bs (xtsNext t)

/-- AES-256-XTS encryption of one data unit of whole blocks under a 64-byte key pair. -/
def xtsEnc (key2 : Bytes) (unit : Nat) (pt : Bytes) : Bytes :=
  xtsBlocks (aesEnc (key2.take 32)) (chunks 16 pt) (aesEnc (key2.drop 32) (leBytes 16 unit))

/-- AES-256-XTS decryption. -/
def xtsDec (key2 : Bytes) (unit : Nat) (ct : Bytes) : Bytes :=
  xtsBlocks (aesDec (key2.take 32)) (chunks 16 ct) (aesEnc (key2.drop 32) (leBytes 16 unit))

/-- One step of key wrapping: integrity register, counter, one semiblock. -/
def kwStep (kek a : Bytes) (t : Nat) (r : Bytes) : Bytes × Bytes :=
  let b := aesEnc kek (a ++ r)
  (xorBytes (b.take 8) (beBytes 8 t), b.drop 8)

/-- One pass of key wrapping over the semiblocks. -/
def kwPass (kek : Bytes) (a : Bytes) (t : Nat) : List Bytes → Bytes × List Bytes
  | [] => (a, [])
  | r :: rs =>
    let (a1, r1) := kwStep kek a t r
    let (a2, rs1) := kwPass kek a1 (t + 1) rs
    (a2, r1 :: rs1)

/-- Six passes. -/
def kwPasses (kek : Bytes) : Nat → Nat → Bytes → List Bytes → Bytes × List Bytes
  | 0, _, a, rs => (a, rs)
  | n + 1, t, a, rs =>
    let (a1, rs1) := kwPass kek a t rs
    kwPasses kek n (t + rs.length) a1 rs1

/-- AES key wrap (KW) of a key of whole semiblocks. -/
def kwWrap (kek key : Bytes) : Bytes :=
  let (a, rs) := kwPasses kek 6 1 (List.replicate 8 0xA6#8) (chunks 8 key)
  a ++ rs.flatten

/-- One pass of unwrapping, from the last semiblock to the first (the list holds them last first). -/
def kwUnpass (kek : Bytes) (a : Bytes) (t : Nat) : List Bytes → Bytes × List Bytes
  | [] => (a, [])
  | r :: rs =>
    let b := aesDec kek (xorBytes a (beBytes 8 t) ++ r)
    let (a2, rs1) := kwUnpass kek (b.take 8) (t - 1) rs
    (a2, b.drop 8 :: rs1)

/-- Six passes of unwrapping. -/
def kwUnpasses (kek : Bytes) : Nat → Nat → Bytes → List Bytes → Bytes × List Bytes
  | 0, _, a, rs => (a, rs)
  | n + 1, t, a, rs =>
    let (a1, rs1) := kwUnpass kek a t rs
    kwUnpasses kek n (t - rs.length) a1 rs1

/-- AES key unwrap: the key when its integrity check passes. -/
def kwUnwrap (kek wrapped : Bytes) : Option Bytes :=
  let rs := (chunks 8 (wrapped.drop 8)).reverse
  let (a, out) := kwUnpasses kek 6 (6 * rs.length) (wrapped.take 8) rs
  if a = List.replicate 8 0xA6#8 then some out.reverse.flatten else none

/-! ### ECDSA over P-384 -/

/-- The field prime of P-384. -/
def p384 : Nat := 2 ^ 384 - 2 ^ 128 - 2 ^ 96 + 2 ^ 32 - 1
/-- The order of its base point. -/
def n384 : Nat := 0xffffffffffffffffffffffffffffffffffffffffffffffffc7634d81f4372ddf581a0db248b0a77aecec196accc52973
/-- The curve's coefficient b. -/
def b384 : Nat := 0xb3312fa7e23ee7e4988e056be3f82d19181d9c6efe8141120314088f5013875ac656398d8a2ed19d2a85c8edd3ec2aef
/-- The base point. -/
def g384 : Nat × Nat :=
  (0xaa87ca22be8b05378eb1c71ef320ad746e1d3b628ba79b9859f741e082542a385502f25dbf55296c3a545e3872760ab7,
   0x3617de4a96262c6f5d9e98bf9292dc29f8f41dbd289a147ce9da3113b5f0b8c00a60b1ce1d7e819d7a431d7c90ea0e5f)

/-- Modular power by squaring over the exponent's bits, from the highest. -/
def powMod (m b : Nat) : Nat → Nat → Nat
  | 0, _ => 1 % m
  | n + 1, e =>
    let r := powMod m b n (e / 2)
    let q := r * r % m
    if e % 2 = 1 then q * b % m else q

/-- The inverse modulo a prime. -/
def invMod (m a : Nat) : Nat := powMod m (a % m) 384 (m - 2)

/-- A point in Jacobian coordinates; z = 0 is the point at infinity. -/
abbrev JPoint := Nat × Nat × Nat

/-- Doubling. -/
def jDouble : JPoint → JPoint
  | (x, y, z) =>
    let p := p384
    let delta := z * z % p
    let gamma := y * y % p
    let beta := x * gamma % p
    let alpha := 3 * ((x + p - delta) % p) * ((x + delta) % p) % p
    let x3 := (alpha * alpha + 8 * (p - beta)) % p
    let z3 := ((y + z) * (y + z) + (p - gamma) + (p - delta)) % p
    let y3 := (alpha * ((4 * beta + p - x3) % p) + 8 * (p - gamma * gamma % p)) % p
    (x3, y3, z3)

/-- Addition. -/
def jAdd (a b : JPoint) : JPoint :=
  let p := p384
  if a.2.2 = 0 then b else if b.2.2 = 0 then a else
  let z1z1 := a.2.2 * a.2.2 % p
  let z2z2 := b.2.2 * b.2.2 % p
  let u1 := a.1 * z2z2 % p
  let u2 := b.1 * z1z1 % p
  let s1 := a.2.1 * b.2.2 % p * z2z2 % p
  let s2 := b.2.1 * a.2.2 % p * z1z1 % p
  let h := (u2 + p - u1) % p
  let r := (s2 + p - s1) % p
  if h = 0 then (if r = 0 then jDouble a else (1, 1, 0)) else
  let hh := h * h % p
  let hhh := h * hh % p
  let v := u1 * hh % p
  let x3 := (r * r + (p - hhh) + 2 * (p - v)) % p
  let y3 := (r * ((v + p - x3) % p) + (p - s1 * hhh % p)) % p
  (x3, y3, h * a.2.2 % p * b.2.2 % p)

/-- Scalar multiplication over n bits of the scalar. -/
def jMul (q : JPoint) : Nat → Nat → JPoint
  | 0, _ => (1, 1, 0)
  | n + 1, k =>
    let r := jDouble (jMul q n (k / 2))
    if k % 2 = 1 then jAdd r q else r

/-- ECDSA P-384 verification: a SEC1 uncompressed point, the digest, and r then s of 48 bytes each. -/
def ecdsaVerify (pub digest sig : Bytes) : Bool :=
  let qx := beNat (slice pub 1 48)
  let qy := beNat (slice pub 49 48)
  let r := beNat (sig.take 48)
  let s := beNat (slice sig 48 48)
  let p := p384
  let onCurve := pub.length = 97 && pub.getD 0 0 = 4#8 && qx < p && qy < p &&
    qy * qy % p = (qx * qx % p * qx + 3 * (p - qx) + b384) % p
  if onCurve && sig.length = 96 && 0 < r && r < n384 && 0 < s && s < n384 then
    let w := invMod n384 s
    let e := beNat (digest.take 48)
    let pt := jAdd (jMul (g384.1, g384.2, 1) 384 (e * w % n384)) (jMul (qx, qy, 1) 384 (r * w % n384))
    if pt.2.2 = 0 then false
    else
      let zi := invMod p pt.2.2
      pt.1 * (zi * zi % p) % p % n384 = r
  else false

end Sys2Proof.Machine.Crypto
end

