-- ==== Sys2Proof/Machine/Shares.lean ====
section
/-! DEFINITION. The pipelines of CRY: AES on two Boolean shares of the state and of the key schedule, and the mask generator of each
pipeline (R355, R357). `Crypto.aesEnc` and `Crypto.aesDec` say what block comes out; the masks change no result. -/
namespace Sys2Proof.Machine
open Sys2Proof

/-- The masks of one block that step n of its computation draws (R357): k bytes of the block's mask stream. -/
def stepMask (masks : Nat → Byte) (n k : Nat) : Bytes := (List.range k).map (fun i => masks (16 * n + i))

/-- The value of two shares. -/
def unshare (p : Bytes × Bytes) : Bytes := xorBytes p.1 p.2

/-- A linear step acts on each share by itself. -/
def onShares (f : Bytes → Bytes) (p : Bytes × Bytes) : Bytes × Bytes := (f p.1, f p.2)

/-- The sum of two shared values, share by share. -/
def addShares (p q : Bytes × Bytes) : Bytes × Bytes := (xorBytes p.1 q.1, xorBytes p.2 q.2)

/-- The substitution of each byte on its two shares: a table for the second share, masked anew. -/
def subShares (f : Byte → Byte) (m : Bytes) (p : Bytes × Bytes) : Bytes × Bytes := (xorBytes ((unshare p).map f) m, m)

/-- The key schedule of AES-256 on the two key shares s1 and s2 of R343: the words so far newest first. -/
def sharedKeyWords (masks : Nat → Byte) : Nat → Nat → Byte → List (Bytes × Bytes) → List (Bytes × Bytes)
  | 0, _, _, ws => ws
  | n + 1, i, rc, ws =>
    let t := ws.getD 0 ([], [])
    let sub := subShares Crypto.subByte (stepMask masks i 4)
    let u := if i % 8 = 0 then addShares (sub (onShares (fun w => w.drop 1 ++ w.take 1) t)) ([rc, 0, 0, 0], zeros 4)
             else if i % 8 = 4 then sub t else t
    sharedKeyWords masks n (i + 1) (if i % 8 = 0 then Crypto.xtime rc else rc) (addShares (ws.getD 7 ([], [])) u :: ws)

/-- The fifteen round keys, shared. -/
def sharedRoundKeys (masks : Nat → Byte) (key : Bytes × Bytes) : List (Bytes × Bytes) :=
  let ws := (sharedKeyWords masks 52 8 1 ((chunks 4 key.1).zip (chunks 4 key.2)).reverse).reverse
  (chunks 16 (ws.flatMap (fun w => w.1))).zip (chunks 16 (ws.flatMap (fun w => w.2)))

/-- A block in two shares, with the masks of step 0. -/
def shareBlock (masks : Nat → Byte) (blk : Bytes) : Bytes × Bytes :=
  (xorBytes blk (stepMask masks 0 16), stepMask masks 0 16)

/-- The rounds of encryption on shares; the number of the round picks its masks. -/
def sharedRounds (masks : Nat → Byte) : Nat → List (Bytes × Bytes) → Bytes × Bytes → Bytes × Bytes
  | _, [], p => p
  | n, k :: ks, p =>
    let q := onShares Crypto.shiftRows (subShares Crypto.subByte (stepMask masks n 16) p)
    let mixed := if ks.isEmpty then q else onShares (fun b => (chunks 4 b).flatMap (Crypto.mixColumn [2, 3, 1, 1])) q
    sharedRounds masks (n + 1) ks (addShares mixed k)

/-- The rounds of decryption on shares. -/
def sharedInvRounds (masks : Nat → Byte) : Nat → List (Bytes × Bytes) → Bytes × Bytes → Bytes × Bytes
  | _, [], p => p
  | n, k :: ks, p =>
    let q := addShares (subShares Crypto.invSubByte (stepMask masks n 16) (onShares Crypto.invShiftRows p)) k
    let mixed := if ks.isEmpty then q else onShares (fun b => (chunks 4 b).flatMap (Crypto.mixColumn [14, 11, 13, 9])) q
    sharedInvRounds masks (n + 1) ks mixed

/-- What a pipeline computes for one block in encryption, from its masks and the two key shares (R357). -/
def pipeEnc (masks : Nat → Byte) (key : Bytes × Bytes) (blk : Bytes) : Bytes :=
  let ks := sharedRoundKeys masks key
  unshare (sharedRounds masks 60 (ks.drop 1) (addShares (shareBlock masks blk) (ks.getD 0 ([], []))))

/-- What a pipeline computes for one block in decryption. -/
def pipeDec (masks : Nat → Byte) (key : Bytes × Bytes) (blk : Bytes) : Bytes :=
  let ks := (sharedRoundKeys masks key).reverse
  unshare (sharedInvRounds masks 60 (ks.drop 1) (addShares (shareBlock masks blk) (ks.getD 0 ([], []))))

/-- The masks that a pipeline's generator gives for the n-th block after its seeding. -/
def pipeMasks (p : Pipe) (n : Nat) : Nat → Byte := Config.maskByte p.seed n

/-- A pipeline after n more blocks: its mask generator is seeded from the CTR_DRBG again every 2^16 blocks (R357). -/
def pipeRun (s : State) (p : Pipe) (n : Nat) : Pipe × State :=
  let k := (p.blocks + n) / 65536
  ({ seed := if k = 0 then p.seed else s.draws + k - 1, blocks := (p.blocks + n) % 65536 }, { s with draws := s.draws + k })

/-- A request of n blocks goes to the first free pipeline (R355). Which are busy is a matter of time: a free value (log 174). -/
def cryBlocks (s : State) (d : DieId) (n : Nat) : State :=
  let r := drawChoice s
  let i := r.1 % 6
  let l := (s.die d).cry.pipes
  let q := pipeRun r.2 (l.getD i {}) n
  q.2.updDie d (fun x => { x with cry := { x.cry with pipes := l.set i q.1 } })

/-- The block computations of a GCM request: the hash key, the mask of the tag, one for each block of text. -/
def gcmBlocks (len : Nat) : Nat := 2 + ceilDiv len 16

/-- XTS requests for n data units of 4 KiB: a tweak and 256 blocks each. -/
def cryUnits (d : DieId) : Nat → State → State
  | 0, s => s
  | n + 1, s => cryUnits d n (cryBlocks s d 257)

end Sys2Proof.Machine
end

