-- ==== Sys2Proof/Machine/Keys.lean ====
section
/-! DEFINITION. The key store (R342 to R345), its use by KTP and the data path (R350 to R354), and the key records of
the configuration journal. A slot holds the share s1; the key is s1 XOR s2 (R343). -/
namespace Sys2Proof.Machine
open Sys2Proof

/-! ### Shares -/

/-- The second share s2 of a slot: AES-256 under K_MASK of the blocks of R343 (log 7). -/
def maskBytes (kmask : Bytes) (bank slot len : Nat) : Bytes :=
  ((List.range (ceilDiv len 16)).flatMap (fun i => Crypto.aesEnc kmask (Config.maskBlock bank slot i))).take len

/-- The share of a key, and back again: XOR with s2 (R343). -/
def shareOf (kmask : Bytes) (bank slot : Nat) (key : Bytes) : Bytes :=
  xorBytes key (maskBytes kmask bank slot key.length)

/-- The session key of a local session (bank 1), none when the slot is EMPTY. -/
def sessionKey (c : Cry) (slot : Nat) : Option Bytes := (assocGet slot c.session).map (shareOf c.kmask 1 slot)

/-- A tenant's authentication key (bank 2), none when the slot is EMPTY. -/
def authKey (c : Cry) (t : Nat) : Option Bytes := (assocGet t c.auth).map (shareOf c.kmask 2 t)

/-- The key in a data slot (bank 0). -/
def dataKey (c : Cry) (k : DataSlot) : Bytes := shareOf c.kmask 0 k.num k.share

/-- Loads a session key (R72). -/
def loadSession (c : Cry) (slot : Nat) (key : Bytes) : Cry :=
  { c with session := assocSet slot (shareOf c.kmask 1 slot key) c.session }

/-- Erases a session key slot (R345). -/
def eraseSession (c : Cry) (slot : Nat) : Cry := { c with session := assocDel slot c.session }

/-- Loads an authentication key. -/
def loadAuth (c : Cry) (t : Nat) (key : Bytes) : Cry := { c with auth := assocSet t (shareOf c.kmask 2 t key) c.auth }

/-- Erases every slot of all three banks and K_MASK (R343, R360). -/
def eraseSlots (c : Cry) : Cry := { c with data := [], session := [], auth := [], kmask := [] }

/-- The first data slot number that is EMPTY. -/
def freeDataSlot (c : Cry) : Option Nat := (List.range 8192).find? (fun n => !c.data.any (fun k => k.num == n))

/-- How many data slots are EMPTY. -/
def freeDataSlots (c : Cry) : Nat := 8192 - c.data.length

/-- The data slot that holds a generation of a tenant's data key. -/
def dataSlot (c : Cry) (tenant gen : Nat) : Option DataSlot :=
  c.data.find? (fun k => k.tenant == tenant && k.gen == gen && k.xts == none)

/-- A tenant's CURRENT data slot (R345). -/
def currentSlot (c : Cry) (tenant : Nat) : Option DataSlot :=
  c.data.find? (fun k => k.tenant == tenant && k.xts == none && k.st == .current)

/-- A namespace's XTS slot. -/
def xtsSlot (c : Cry) (tenant nsid : Nat) : Option DataSlot :=
  c.data.find? (fun k => k.tenant == tenant && k.xts == some nsid)

/-- Replaces a data slot. -/
def putSlot (c : Cry) (k : DataSlot) : Cry := { c with data := k :: c.data.filter (fun x => x.num != k.num) }

/-- Loads a data key generation as CURRENT; the generation that was CURRENT becomes DECRYPT_ONLY (R345, R349). The
counter starts at the recorded bound (R352). -/
def loadData (c : Cry) (tenant gen : Nat) (key : Bytes) (bound : Nat) : Cry :=
  match freeDataSlot c with
  | none => c
  | some n =>
    let old := c.data.map (fun k =>
      if k.tenant == tenant && k.xts == none && k.st == .current then { k with st := .decryptOnly } else k)
    { c with data := { num := n, st := .current, tenant := tenant, gen := gen, xts := none,
                       share := shareOf c.kmask 0 n key, ctr := bound, bound := bound } :: old }

/-- Loads a data key generation in a given state (R344, R345). -/
def loadDataAs (c : Cry) (tenant gen : Nat) (key : Bytes) (bound : Nat) (st : SlotState) : Cry :=
  match freeDataSlot c with
  | none => c
  | some n =>
    { c with data := { num := n, st := st, tenant := tenant, gen := gen, xts := none,
                       share := shareOf c.kmask 0 n key, ctr := bound, bound := bound } :: c.data }

/-- Loads a namespace's XTS key pair (R347). -/
def loadXts (c : Cry) (tenant nsid : Nat) (key : Bytes) (bound : Nat) : Cry :=
  match freeDataSlot c with
  | none => c
  | some n =>
    { c with data := { num := n, st := .current, tenant := tenant, gen := 0, xts := some nsid,
                       share := shareOf c.kmask 0 n key, ctr := bound, bound := bound } :: c.data }

/-- How a counter bound's journal record names a key: a generation by its number, an XTS key by 256 + NSID (log 26). -/
def boundKey (k : DataSlot) : Nat := match k.xts with
  | none => k.gen
  | some n => 256 + n

/-- Erases the data slots that a test picks (R345). -/
def eraseData (c : Cry) (p : DataSlot → Bool) : Cry := { c with data := c.data.filter (fun k => !p k) }

/-! ### Nonces -/

/-- The IV of a session packet (R89). -/
def sessionIv (d : DieId) (slot : Nat) (fromHost : Bool) (ctr : Nat) : Bytes :=
  beBytes 12 (d.val * 2 ^ 92 + (if fromHost then 2 ^ 91 else 0) + slot % 4096 * 2 ^ 64 + ctr % 2 ^ 64)

/-- The IV of a value record (R351). -/
def recordIv (d : DieId) (slot ctr : Nat) : Bytes :=
  beBytes 12 (d.val * 2 ^ 92 + slot % 8192 * 2 ^ 64 + ctr % 2 ^ 64)

/-- What a data slot says to a request to encrypt (R352, R353). -/
inductive EncAsk where
  | ready (k : DataSlot)
  | wait (k : DataSlot)      -- no value below the recorded bound
  | exhausted                -- DECRYPT_ONLY by exhaustion, or no CURRENT generation
deriving DecidableEq, Repr

/-- LIMIT_LOG2 of a tenant on a die, 64 without a context. -/
def limitLog2 (x : Die) (t : Nat) : Nat := match tenantOf x t with
  | some c => c.limitLog2
  | none => 64

/-- Whether a die can encrypt a record of a tenant now (R352, R353). -/
def askEncrypt (x : Die) (t : Nat) : EncAsk :=
  match currentSlot x.cry t with
  | none => .exhausted
  | some k =>
    if 2 ^ limitLog2 x t ≤ k.ctr then .exhausted
    else if k.bound ≤ k.ctr then .wait k
    else .ready k

/-- A data slot after one encryption: the counter advances, and at 2^LIMIT_LOG2 the generation becomes DECRYPT_ONLY
(R351, R353). -/
def afterEncrypt (limit : Nat) (k : DataSlot) : DataSlot :=
  { k with ctr := k.ctr + 1, st := if 2 ^ limit ≤ k.ctr + 1 then .decryptOnly else k.st }

/-- A tenant's CURRENT generation whose counter stands at 2^LIMIT_LOG2 or above becomes DECRYPT_ONLY on the die; so a limit
lowered below a counter takes effect at the next encryption (R353). -/
def retireSpent (x : Die) (t : Nat) : Die :=
  { x with cry := { x.cry with data := x.cry.data.map (fun k =>
      if k.tenant == t && k.xts == none && k.st == .current && decide (2 ^ limitLog2 x t ≤ k.ctr) then { k with st := .decryptOnly }
      else k) } }

/-! ### Wrapping -/

/-- The KEK of keys that tenant 0 supplies (R347). -/
def kekOf (auth0 : Bytes) (sid : Nat) : Bytes :=
  (Crypto.hmac auth0 (asciiBytes "KOCEL-KEK" ++ beBytes 4 sid)).take 32

/-- The key-store key (R344, log 6). -/
def storeKey (s : State) : Bytes := Config.keyStoreKey s.nor.secret

/-- The session key of R72. -/
def sessionKeyOf (auth hostNonce devNonce : Bytes) (sid : Nat) : Bytes :=
  (Crypto.hmac auth (asciiBytes "KOCEL-SK" ++ hostNonce ++ devNonce ++ beBytes 4 sid)).take 32

/-- The PROOF of an OPEN (R67). -/
def openProof (auth body28 : Bytes) : Bytes := (Crypto.hmac auth (asciiBytes "KOCEL-OPEN" ++ body28)).take 16

/-- The PROOF of an OPEN_REPLY (R68). -/
def replyProof (auth hostNonce body32 : Bytes) : Bytes :=
  (Crypto.hmac auth (asciiBytes "KOCEL-ACPT" ++ hostNonce ++ body32)).take 16

end Sys2Proof.Machine
end

