-- ==== Sys2Proof/Machine/Routes.lean ====
section
/-! DEFINITION. Swarm ports, the routes of messages (R18, R21), and which messages wait at their source for a route (R19, R20, R475). -/
namespace Sys2Proof.Machine
open Sys2Proof

/-- The partner of a Swarm port (R17). -/
def partnerOf (d : DieId) (k : SwmId) : Nat := Nat.xor d.val (2 ^ k.val)

/-- All Swarm ports. -/
def allLinks : List SwmId := [0, 1, 2]

/-- A Swarm port of a die. -/
def linkOf (x : Die) (k : SwmId) : Swm := x.swm.get k

/-- Changes a Swarm port of a die. -/
def updLink (s : State) (d : DieId) (k : SwmId) (f : Swm → Swm) : State :=
  s.updDie d (fun x => { x with swm := vset x.swm k (f (x.swm.get k)) })

/-- The page of a Swarm port. -/
def swmBase (d : DieId) (k : SwmId) : Nat := dreg d (Page.swm k) 0

/-- The partner die of a port. -/
def partnerDie (d : DieId) (k : SwmId) : DieId := dieOf (partnerOf d k)

/-! ### Routes (R18, R21) -/

/-- Whether bit k of a die number is 1. -/
def bitOn (n : Nat) (k : SwmId) : Bool := n.testBit k.val

/-- Whether a port leads on: its link is not retired, and its partner is a die of the part. -/
def portOpen (s : State) (cur : DieId) (k : SwmId) : Bool :=
  (linkOf (s.die cur) k).st != .retired && decide (partnerOf cur k < partDies s.part)

/-- The port that R18 forwards on. -/
def nextPort (s : State) (cur dst : DieId) : Option SwmId :=
  let x := Nat.xor cur.val dst.val
  match allLinks.find? (fun k => bitOn x k && portOpen s cur k) with
  | some k => some k
  | none => allLinks.find? (fun k => !bitOn x k && portOpen s cur k)

/-- The port of the last hop of the route of R18, with fuel: none for a route that comes back to a die again and again. -/
def lastPort (s : State) : Nat → DieId → DieId → Option SwmId
  | 0, _, _ => none
  | n + 1, cur, dst =>
    match nextPort s cur dst with
    | none => none
    | some k => if partnerDie cur k = dst then some k else lastPort s n (partnerDie cur k) dst

/-- The dies that some dies reach over one link that is not retired at either end, and they themselves. -/
def reachOnce (s : State) (l : List DieId) : List DieId :=
  allDies.filter (fun d => l.contains d || allLinks.any (fun k =>
    l.contains (partnerDie d k) && portOpen s d k && portOpen s (partnerDie d k) k))

/-- Whether a route of links that are not retired leads from one die to another (R21, log 97). -/
def routeEnds (s : State) (src dst : DieId) : Bool :=
  ((List.range 7).foldl (fun l _ => reachOnce s l) [src]).contains dst

/-! ### Messages that wait (R19, R20, R475) -/

/-- Whether a port leads on while the messages of a retired link have not yet gone over to their new routes: the link still counts. -/
def portWas (s : State) (cur : DieId) (k : SwmId) : Bool :=
  portOpen s cur k || ((linkOf (s.die cur) k).switching && decide (partnerOf cur k < partDies s.part))

/-- The port that messages take until a retired link's have gone over (R20). -/
def portNow (s : State) (cur dst : DieId) : Option SwmId :=
  let x := Nat.xor cur.val dst.val
  match allLinks.find? (fun k => bitOn x k && portWas s cur k) with
  | some k => some k
  | none => allLinks.find? (fun k => !bitOn x k && portWas s cur k)

/-- Whether messages over a link wait: either end trains, or the link is retired and its messages have not gone over. -/
def linkWaits (s : State) (d : DieId) (k : SwmId) : Bool :=
  (linkOf (s.die d) k).switching || (linkOf (s.die d) k).st == .training || (linkOf (s.die (partnerDie d k)) k).st == .training

/-- Whether a message of a die waits somewhere on its route, with fuel. -/
def routeHeld (s : State) : Nat → DieId → DieId → Bool
  | 0, _, _ => false
  | n + 1, cur, dst =>
    if cur = dst then false
    else match portNow s cur dst with
      | none => false
      | some k => linkWaits s cur k || routeHeld s n (partnerDie cur k) dst

/-- The die that a waiting message goes to. -/
def crossTo : Crossing → DieId
  | .command c => c.owner
  | .barrier e _ => e
  | .reply c _ _ _ _ _ => c.home

/-- Whether a new message from one die to another waits: its route does, or an older one for the same die does (R19). -/
def waitsOut (s : State) (src dst : DieId) : Bool :=
  src != dst && (routeHeld s 8 src dst || (s.die src).out.any (fun m => crossTo m == dst))

/-- A message waits at its source. -/
def holdOut (s : State) (src : DieId) (m : Crossing) : State := s.updDie src (fun x => { x with out := x.out ++ [m] })

/-- The commands among the messages that a die holds back. -/
def outCmds (x : Die) : List Cmd := x.out.filterMap (fun m => match m with
  | .command c => some c
  | _ => none)

/-- The commands whose replies a die holds back. -/
def outReplies (x : Die) : List Cmd := x.out.filterMap (fun m => match m with
  | .reply c _ _ _ _ _ => some c
  | _ => none)

end Sys2Proof.Machine
end

