-- ==== Sys2Proof/Machine/Reply.lean ====
section
/-! DEFINITION. Sending on a session (R58, R77 to R90), ending a session (R74, R75), and completing a command: its
reply, its metering and what waits on it. -/
namespace Sys2Proof.Machine
open Sys2Proof

/-! ### Sessions -/

/-- The session in a local slot. -/
def sessOf (x : Die) (slot : Nat) : Option Session := x.ktp.sessions.find? (fun k => k.slot == slot)

/-- The session in a local slot with a generation. -/
def sessGen (x : Die) (slot gen : Nat) : Option Session := x.ktp.sessions.find? (fun k => k.slot == slot && k.gen == gen)

/-- Stores a session in its slot. -/
def putSess (s : State) (d : DieId) (k : Session) : State :=
  s.updDie d (fun x => { x with ktp := { x.ktp with sessions := k :: x.ktp.sessions.filter (fun q => q.slot != k.slot) } })

/-- Removes the session of a slot. -/
def delSess (s : State) (d : DieId) (slot : Nat) : State :=
  s.updDie d (fun x => { x with ktp := { x.ktp with sessions := x.ktp.sessions.filter (fun q => q.slot != slot) } })

/-- A packet-buffer pool of the die is at or below low water (R86, R443). -/
def poolLow (x : Die) : Bool := x.bpm.pools.toList.any (fun p => p.pen && p.bpKtp && decide (p.free ≤ p.low))

/-- A packet-buffer pool of the die is at critical (R86, R443). -/
def poolCrit (x : Die) : Bool := x.bpm.pools.toList.any (fun p => p.pen && p.bpKtp && p.inCrit)

/-- The credit that the die advertises (R86). -/
def creditNow (s : State) (d : DieId) : Nat :=
  if poolLow (s.die d) then min (dfld s d Page.ktp 0x4C 15 8) (dfld s d Page.ktp 0x4C 7 0) else dfld s d Page.ktp 0x4C 7 0

/-- Whether a session's window edge stands still: a pool at critical (R86), the activation pause (R135), commands held
by the rate limit (R338). -/
def edgeHeld (s : State) (d : DieId) (k : Session) : Bool := poolCrit (s.die d) || s.pkg.act.on || k.rateHold

/-- The upper window edge that the next packet advertises: never below one advertised before (R79). -/
def nextEdge (s : State) (d : DieId) (k : Session) : Word :=
  let e := k.rcvNext + BitVec.ofNat 32 (creditNow s d)
  if edgeHeld s d k then k.edge else if psnBefore k.edge e then e else k.edge

/-- SACK (R60): bit i set when PSN ACK_PSN + 1 + i has been received. -/
def sackOf (k : Session) : Word :=
  BitVec.ofNat 32 (((List.range 32).map (fun i =>
    if k.rcvSeen.contains (k.rcvNext + 1 + BitVec.ofNat 32 i) then 2 ^ i else 0)).sum)

/-- The header of a packet that the device sends on a session (R60, R61, R81). -/
def devHdr (d : DieId) (k : Session) (ptype : Nat) (psn : Word) (retx : Bool) (bodyLen : Nat) : PktHdr where
  magic := 0x4B
  ver := 1
  ptype := ptype
  flags := (if k.enc then 0x80 else 0) + 0x40 + (if retx then 0x10 else 0)
  sid := sidOf d.val k.gen k.slot
  psn := psn
  ackPsn := k.rcvNext
  sack := sackOf k
  credit := (k.edge - k.rcvNext).toNat % 65536
  length := bodyLen + (if k.enc then 24 else 0)

/-- The bytes of a packet on a session (R88 to R90), none when the key slot is EMPTY. -/
def packetOf (x : Die) (d : DieId) (k : Session) (ptype : Nat) (psn : Word) (retx : Bool) (body : Bytes) : Option Bytes :=
  let h := pktBytes (devHdr d k ptype psn retx body.length)
  if k.enc then
    match sessionKey x.cry k.slot with
    | none => none
    | some key =>
      let ctr := beBytes 8 k.txCtr
      let r := Crypto.gcmSeal key (sessionIv d k.slot false k.txCtr) (h ++ ctr) body
      some (h ++ ctr ++ r.1 ++ r.2)
  else some (h ++ body)

/-- The 16-bit words of a byte string, the last one padded with a zero byte. -/
def words16 : Bytes → List Nat
  | [] => []
  | [a] => [a.toNat * 256]
  | a :: b :: r => (a.toNat * 256 + b.toNat) :: words16 r

/-- The ones' complement sum of 16-bit words, folded to 16 bits. -/
def sum16 (n : Nat) : Nat := let a := n / 65536 + n % 65536; a / 65536 + a % 65536

/-- The UDP checksum of a datagram over its pseudo-header (R57, log 141); 0 is sent as 0xFFFF. -/
def udpCsum (v6 : Bool) (src dst sport dport : Nat) (payload : Bytes) : BitVec 16 :=
  let n := 8 + payload.length
  let addr := if v6 then beBytes 16 src ++ beBytes 16 dst else beBytes 4 src ++ beBytes 4 dst
  let total := (words16 addr).sum + 17 + n / 65536 + n % 65536 + sport + dport + n % 65536 + (words16 payload).sum
  let c := 65535 - sum16 (sum16 total)
  BitVec.ofNat 16 (if c = 0 then 65535 else c)

/-- Queues a UDP payload at a port of the die. -/
def queueTx (s : State) (d : DieId) (p : PortId) (t : TxPkt) : State :=
  s.updDie d (fun x =>
    let q := x.ports.get p
    { x with ports := vset x.ports p { q with txq := q.txq ++ [t] } })

/-- A Kocel packet from the UDP port of KTP_UDP_CFG and a local address, with its checksum (R56, R57). -/
def kocelTx (s : State) (d : DieId) (src : Nat) (t : TxPkt) (payload : Bytes) : TxPkt :=
  let port := dfld s d Page.ktp 0x40 15 0
  { t with
    kind := .kocel payload
    srcIp := src
    srcUdp := port
    csum := udpCsum t.v6 src t.dstIp port t.dstUdp payload }

/-- The addressing of a packet to a session's host (R56, R58): from the address that the host last sent to (log 141). -/
def sessTx (s : State) (d : DieId) (k : Session) (payload : Bytes) : TxPkt :=
  kocelTx s d k.localIp { pcp := k.pcp, dscp := k.dscp, vlan := k.vlan, dstMac := k.peerMac, v6 := k.v6, dstIp := k.peerIp,
                          dstUdp := k.peerUdp, kind := .kocel [] } payload

/-- Sends one packet on a session: the window edge moves as R79 allows, the acknowledgement rides on the packet (R81),
and an encrypted packet takes the next NONCE_CTR (R90). The last value of the counter is for the TERMINATE alone, and no
packet goes out with a value that would wrap. The session is stored. -/
def transmit (s : State) (d : DieId) (k : Session) (ptype : Nat) (psn : Word) (retx : Bool) (body : Bytes) : State × Session :=
  let k1 := { k with edge := nextEdge s d k }
  let k2 := { k1 with ackCount := 0, txCtr := if k.enc then k.txCtr + 1 else k.txCtr }
  if k.enc && decide (2 ^ 64 ≤ k.txCtr + (if ptype = 0x0A then 0 else 1)) then (putSess s d k, k)
  else match packetOf (s.die d) d k1 ptype psn retx body with
    | none => (putSess s d k2, k2)
    | some b =>
    let s1 := if k.enc then cryBlocks s d (gcmBlocks body.length) else s
    (putSess (queueTx s1 d k.port (sessTx s d k b)) d k2, k2)

/-- Whether the host's window admits another sequenced packet (R78 as it binds the device). -/
def txOpen (k : Session) : Bool := psnBefore k.sndNext k.sndEdge

/-- Sends a sequenced packet with the next PSN (R77), kept until it is acknowledged. -/
def sendNow (s : State) (d : DieId) (k : Session) (ptype : Nat) (body : Bytes) : State × Session :=
  let r := transmit s d k ptype k.sndNext false body
  let p : SentPkt := { psn := k.sndNext, ptype := ptype, body := body, retx := 0, fast := false, sacked := false,
                       sentAt := (s.die d).mon.devTime }
  let k2 := { r.2 with sndNext := k.sndNext + 1, unacked := r.2.unacked ++ [p] }
  (putSess r.1 d k2, k2)

/-- Sends a sequenced packet, or keeps it until the host's window opens. -/
def sendSeq (s : State) (d : DieId) (k : Session) (ptype : Nat) (body : Bytes) : State × Session :=
  if txOpen k && k.backlog.isEmpty then sendNow s d k ptype body
  else
    let k1 := { k with backlog := k.backlog ++ [(ptype, body)] }
    (putSess s d k1, k1)

/-- Sends what the host's window now admits of the packets that wait, with fuel. -/
def pump : Nat → State → DieId → Session → State × Session
  | 0, s, _, k => (s, k)
  | n + 1, s, d, k =>
    match k.backlog with
    | [] => (s, k)
    | (t, b) :: rest =>
      if txOpen k then
        let r := sendNow s d { k with backlog := rest } t b
        pump n r.1 d r.2
      else (s, k)

/-- Cuts a reply message into segments of at most the host's MAX_SEG (R63, R65). -/
def segmentsFrom (tag : Byte) : Nat → List Bytes → List Bytes
  | _, [] => []
  | off, [b] => [segBytes tag true off ++ b]
  | off, b :: rest => (segBytes tag false off ++ b) :: segmentsFrom tag (off + b.length) rest

/-- Sends a reply message on a session. -/
def sendMsg (s : State) (d : DieId) (k : Session) (tag : Byte) (msg : Bytes) : State × Session :=
  (segmentsFrom tag 0 (chunks (max 1 k.maxSeg) msg)).foldl (fun r b => sendSeq r.1 d r.2 0x04 b) (s, k)

/-! ### Ending a session -/

/-- The die that sends a barrier. -/
def barrierHome : Barrier → DieId
  | .terminate h _ _ => h
  | .reset h _ _ _ => h
  | .flush h _ => h

/-- A barrier reaches a die; the message wakes a die in IDLE or SLEEP (R497). -/
def giveBarrier (s : State) (e : DieId) (b : Barrier) : State :=
  (wakeAt s e).updDie e (fun x => { x with csq := { x.csq with barriers := x.csq.barriers ++ [b] } })

/-- Every present, unfenced die gets a barrier (R75, R128, R130), once its route lets it through (R20, R475). -/
def sendBarrier (s : State) (b : Barrier) : State :=
  overDies (fun s e => if waitsOut s (barrierHome b) e then holdOut s (barrierHome b) (.barrier e b) else giveBarrier s e b)
    s (upDies s)

/-- Frees a slot: the session is gone and its key slot is erased (R74). -/
def freeSlot (s : State) (d : DieId) (slot : Nat) : State :=
  (delSess s d slot).updDie d (fun x => { x with cry := eraseSession x.cry slot })

/-- A session ends under R75: its termination barrier goes to every die, it is counted (R109) and INT bit 1 is set
(R110). The key slot is erased once every die has acted. -/
def endSession (s : State) (d : DieId) (k : Session) : State :=
  let s1 := delSess s d k.slot
  let s2 := s1.updDie d (fun x => { x with ktp := { x.ktp with ending := (k.slot, k.gen, upDies s) :: x.ktp.ending } })
  raiseInt (regBump (sendBarrier s2 (.terminate d k.slot k.gen)) (dreg d Page.ktp 0x78) 1) (dreg d Page.ktp 0) 1

/-- A session ends with a TERMINATE packet (R74, R75, R66's reasons). -/
def terminateSession (s : State) (d : DieId) (k : Session) (reason : Nat) : State :=
  let r := transmit s d k 0x0A 0 false [BitVec.ofNat 8 reason, 0, 0, 0]
  endSession r.1 d r.2

/-- Ends every session of a die that a test picks with a reason. -/
def terminateWhere (s : State) (d : DieId) (p : Session → Bool) (reason : Nat) : State :=
  ((s.die d).ktp.sessions.filter p).foldl (fun s k => terminateSession s d k reason) s

/-- A nonce counter that has come to its end ends the session with KEY_EXHAUSTED (R90). -/
def checkNonce (s : State) (d : DieId) (slot : Nat) : State :=
  match sessOf (s.die d) slot with
  | none => s
  | some k => if k.enc && decide (2 ^ 64 - 1 ≤ k.txCtr) then terminateSession s d k 0x03 else s

/-! ### Commands outstanding -/

/-- Whether a command belongs to a session. -/
def ofSession (home : DieId) (slot gen : Nat) (c : Cmd) : Bool := c.home == home && c.slot == slot && c.gen == gen

/-- Whether a die holds a command of a session. -/
def dieHolds (x : Die) (home : DieId) (slot gen : Nat) : Bool :=
  x.csq.inbox.any (ofSession home slot gen) || x.csq.cmds.any (ofSession home slot gen)
    || (outCmds x).any (ofSession home slot gen) || (outReplies x).any (ofSession home slot gen)

/-- Whether any die holds a command of a session. -/
def outstanding (s : State) (home : DieId) (slot gen : Nat) : Bool := allDies.any (fun e => dieHolds (s.die e) home slot gen)

/-- Sends CLOSE_REPLY once a closed session has no command left (R74). -/
def maybeClose (s : State) (d : DieId) (slot gen : Nat) : State :=
  match sessGen (s.die d) slot gen with
  | none => s
  | some k =>
    if k.closeAt && !k.closeSent && k.held.isEmpty && !outstanding s d slot gen && (s.die d).csq.controls.all (fun c => !ofSession d slot gen c) then
      checkNonce (sendSeq s d { k with closeSent := true, st := .closing } 0x09 (segBytes 0 true 0)).1 d slot
    else s

/-! ### Metering a reply -/

/-- The data bytes that a command received, counted in BYTES_IN (R379). -/
def bytesIn (c : Cmd) : Nat := if isGranted c.hdr.opcode then c.inline.length + c.value.length else 0

/-- The counters of a command that completes (R378, R379): OPS, BYTES_IN, BYTES_OUT, REFUSED, LAT_HIST and QOS_VIOL; the
last two and the monitors of LAT only when a reply is sent (R393, R404). -/
def countReply (s : State) (d : DieId) (tenant cls arrived status inLen outLen : Nat) (sent : Bool) : State :=
  let ns := (s.die d).mon.devTime - arrived
  let slo := sloOf s d cls
  let viol := sent && decide (0 < slo ∧ slo * 1000 < ns)
  let s1 := meterAdd s d tenant (fun m =>
    { m with
      ops := bumpAt cls 1 m.ops
      bytesIn := m.bytesIn + inLen
      bytesOut := m.bytesOut + outLen
      refused := if status = Stat.busyRetry ∨ status = Stat.overload then min (m.refused + 1) 0xFFFFFFFF else m.refused
      hist := if sent then bumpAt (latBin ns) 1 m.hist else m.hist
      qosViol := if viol then min (m.qosViol + 1) 0xFFFFFFFF else m.qosViol })
  let s2 := if sent then s1.updDie d (fun x => { x with mon := latSample x.mon cls tenant ns }) else s1
  if viol then raiseInt s2 (dreg d Page.lat 0) 1 else s2

/-- The byte bucket of a tenant after a read reply, which may go negative (R337). Units: 1/840,000 of a byte. -/
def chargeReply (x : Die) (tenant len : Nat) : Die :=
  { x with csq := { x.csq with buckets := x.csq.buckets.map (fun b =>
      if b.1 == tenant then (b.1, b.2.1, b.2.2 - (len : Int) * 840000) else b) } }

/-! ### Completing a command -/

/-- Sends a reply for a command of a session and counts it. -/
def replyTo (s : State) (home : DieId) (slot gen : Nat) (tag : Byte) (tenant cls arrived inLen opcode status rflags aux version
    objLen : Nat) (data : Bytes) (noReply : Bool) : State :=
  match sessGen (s.die home) slot gen with
  | none => countReply s home tenant cls arrived status inLen 0 false
  | some k =>
    if noReply then
      putSess (countReply s home tenant cls arrived status inLen 0 false) home { k with tags := k.tags.filter (· != tag) }
    else
      let s1 := countReply s home tenant cls arrived status inLen data.length true
      let s2 := (sendMsg s1 home k tag (replyBytes opcode status rflags aux version objLen data)).1
      let s3 := if opcode = Op.get ∨ opcode = Op.read then s2.updDie home (fun x => chargeReply x tenant data.length) else s2
      checkNonce s3 home slot

/-- Removes a command from the die that executes it. -/
def dropCmd (s : State) (d : DieId) (cid : Nat) : State :=
  s.updDie d (fun x => { x with csq := { x.csq with cmds := x.csq.cmds.filter (fun c => c.cid != cid) } })

/-- Stores a command on the die that executes it. -/
def putCmd (s : State) (d : DieId) (c : Cmd) : State :=
  s.updDie d (fun x => { x with csq := { x.csq with cmds := x.csq.cmds.map (fun q => if q.cid == c.cid then c else q) } })

/-- A command on the die that executes it. -/
def cmdOf (x : Die) (cid : Nat) : Option Cmd := x.csq.cmds.find? (fun c => c.cid == cid)

/-- The first ABORT that waits for the reply of a target (R105). -/
def lateAbort (x : Die) (cid : Nat) : Option Cmd := x.csq.controls.find? (fun a => a.target == some cid)

/-- Answers an ABORT (R105): 1 ABORT_CAUGHT, 2 ABORT_TOO_LATE. -/
def answerAbort (s : State) (d : DieId) (a : Cmd) (aux : Nat) : State :=
  let s1 := s.updDie d (fun x => { x with csq := { x.csq with controls := x.csq.controls.filter (fun c => c.cid != a.cid) } })
  replyTo (regBump s1 (dreg d Page.csq (if aux = 1 then 0xA8 else 0xAC)) 1) d a.slot a.gen a.tag a.tenant a.cls a.arrived 0
    a.hdr.opcode Stat.ok 0 aux 0 0 [] a.noReply

/-- The ABORTs that waited for a target which has now replied are answered ABORT_TOO_LATE, with fuel (R105). -/
def answerLate : Nat → State → DieId → Nat → State
  | 0, s, _, _ => s
  | n + 1, s, d, cid =>
    match lateAbort (s.die d) cid with
    | none => s
    | some a => answerLate n (answerAbort s d a 2) d cid

/-- The RESET_SESSION of a session is answered once every die has confirmed its barrier and every earlier command has
completed; the commands held behind it then run (R106, R130). The held ones are delivered by RATE_ADMIT. The
tags of commands that came after the RESET_SESSION stay in use. -/
def maybeReset (s : State) (d : DieId) (slot gen : Nat) : State :=
  match sessGen (s.die d) slot gen with
  | none => s
  | some k => match k.resetting with
    | none => s
    | some cid => match (s.die d).csq.controls.find? (fun c => c.cid == cid) with
      | none => s
      | some c =>
        if c.phase = .barrier && c.waits.isEmpty && !outstanding s d slot gen then
          let later := c.tag :: (k.held.filter (fun m => !m.clash)).map (fun m => m.tag)
            ++ (k.asm.filter (fun a => !a.clash && !a.isClose)).map (fun a => a.tag)
          let s1 := putSess s d { k with resetting := none, heldOld := 0, tags := k.tags.filter (fun t => later.contains t) }
          let s2 := s1.updDie d (fun x =>
            { x with csq := { x.csq with controls := x.csq.controls.filter (fun q => q.cid != cid) } })
          answerLate (s.die d).csq.controls.length
            (replyTo s2 d slot gen c.tag c.tenant c.cls c.arrived 0 c.hdr.opcode Stat.ok 0 0 0 0 [] c.noReply) d cid
        else s

/-- The session's RESET_SESSION and then its CLOSE are answered when nothing of theirs is left (R74, R106). -/
def settleSess (s : State) (d : DieId) (slot gen : Nat) : State := maybeClose (maybeReset s d slot gen) d slot gen

/-- What follows a reply: the ABORTs that wait for it, and then the session's RESET_SESSION and CLOSE. -/
def afterReply (s : State) (d : DieId) (slot gen cid : Nat) : State :=
  settleSess (answerLate (s.die d).csq.controls.length s d cid) d slot gen

/-- The reply of a command at its session's die, and what waited for it there: an ABORT, a CLOSE or a RESET_SESSION. -/
def finish (s : State) (c : Cmd) (status aux version objLen : Nat) (data : Bytes) : State :=
  afterReply (replyTo s c.home c.slot c.gen c.tag c.tenant c.cls c.arrived (bytesIn c) c.hdr.opcode status 0 aux version objLen
    data c.noReply) c.home c.slot c.gen c.cid

/-- A command completes: it leaves its die, its hazards are gone with it, and its reply goes to its session's die, once its route
lets it through (R20, R475). -/
def complete (s : State) (d : DieId) (c : Cmd) (status aux version objLen : Nat) (data : Bytes) : State :=
  let s1 := dropCmd s d c.cid
  if waitsOut s1 d c.home then holdOut s1 d (.reply c status aux version objLen data)
  else finish s1 c status aux version objLen data

/-- A command completes with a status alone. -/
def fail (s : State) (d : DieId) (c : Cmd) (status : Nat) : State := complete s d c status 0 0 0 []

end Sys2Proof.Machine
end

