-- ==== Sys2Proof/Machine/Transport.lean ====
section
/-! DEFINITION. KTP: opening sessions (R67 to R74), receiving packets (R56 to R92, R569), assembling and checking
commands (R80, R93 to R97, R570, R337, R338), acknowledgement and retransmission (R81 to R85), grants (R104). -/
namespace Sys2Proof.Machine
open Sys2Proof

/-! ### Receiving -/

/-- Counts a packet dropped by R57, R65 or R66. -/
def dropHdr (s : State) (d : DieId) : State := regBump s (dreg d Page.ktp 0x64) 1

/-- Counts a packet dropped by R91 or R92, with INT bit 2 (R110). -/
def dropAuth (s : State) (d : DieId) : State := raiseInt (regBump s (dreg d Page.ktp 0x68) 1) (dreg d Page.ktp 0) 2

/-- Counts a packet dropped by R78. -/
def dropWindow (s : State) (d : DieId) : State := regBump s (dreg d Page.ktp 0x6C) 1

/-- The checks of R57 and of R66 that need no session: fragment, options, checksum, port, MAGIC, VER, TYPE, LENGTH. -/
def frontOk (s : State) (d : DieId) (g : Datagram) : Bool :=
  let h := parsePkt g.payload
  !g.fragment && !g.options && g.csumOk && decide (g.dstUdp = dfld s d Page.ktp 0x40 15 0)
    && decide (24 ≤ g.payload.length) && decide (h.magic = 0x4B) && decide (h.ver = 1) && hostTypes.contains h.ptype
    && decide (h.length + 24 = g.payload.length)

/-- The address of a slot: an IPv4 address lies in the low word. -/
def slotIp (a : AddrSlot) : Nat := if a.v6 then a.data.toNat else a.data.toNat % 2 ^ 32

/-- Whether a datagram is addressed to one of the addresses configured on a port (R56, R409). -/
def addressed (s : State) (d : DieId) (p : PortId) (g : Datagram) : Bool :=
  ((s.die d).ports.get p).slots.any (fun a => a.valid && a.v6 == g.v6 && slotIp a == g.dstIp)

/-- A datagram at a port of a die that runs. One to an address that the port does not have never reaches KTP (R409). -/
def onPort (s : State) (d : DieId) (p : PortId) (g : Datagram) (f : State → State) : State :=
  onBlock s d Page.ktp (fun s => if takesWork s (dreg d (Page.eth p) 0) && addressed s d p g then f s else s)

/-- The MAX_SEG that the device declares on a port (R65). -/
def devMaxSeg (s : State) (d : DieId) (p : PortId) (v6 enc : Bool) : Nat :=
  dfld s d (Page.eth p) 0x4C 13 0 - (if v6 then 40 else 20) - 8 - 24 - 8 - (if enc then 24 else 0)

/-- What became of a packet on a session. -/
inductive Arrival where
  | badHdr
  | badAuth
  | good (k : Session) (h : PktHdr) (body : Bytes)
deriving DecidableEq, Repr

/-- Whether R91 lets a nonce counter through. -/
def replayOk (k : Session) (ctr : Nat) : Bool :=
  match k.replayTop with
  | none => true
  | some h => decide (h < ctr) || (decide (h ≤ ctr + 63) && !k.replaySet.contains ctr)

/-- The replay window after a counter has been accepted (R91). -/
def replayNext (k : Session) (ctr : Nat) : Session :=
  let top := match k.replayTop with
    | none => ctr
    | some h => max h ctr
  { k with replayTop := some top, replaySet := (ctr :: k.replaySet).filter (fun c => decide (top ≤ c + 63)) }

/-- Authenticates a packet of a session (R88, R91, R92): the session with its replay window moved, and the body. -/
def openBody (x : Die) (d : DieId) (k : Session) (h : PktHdr) (payload : Bytes) : Option (Session × Bytes) :=
  if h.enc != k.enc then none
  else if !k.enc then some (k, payload.drop 24)
  else if payload.length < 48 then none
  else
    let ctr := beAt payload 24 8
    if !replayOk k ctr then none
    else match sessionKey x.cry k.slot with
      | none => none
      | some key =>
        let n := payload.length - 48
        match Crypto.gcmOpen key (sessionIv d k.slot true ctr) (payload.take 32) (slice payload 32 n) (payload.drop (32 + n)) with
        | none => none
        | some b => some (replayNext k ctr, b)

/-- The session that a packet names, from its bound address and port (R66). -/
def namedSession (x : Die) (d : DieId) (g : Datagram) (h : PktHdr) : Option Session :=
  if sidDie h.sid ≠ d.val then none
  else match sessGen x (sidSlot h.sid) (sidGen h.sid) with
    | none => none
    | some k => if k.peerIp = g.srcIp ∧ k.peerUdp = g.srcUdp ∧ k.v6 = g.v6 then some k else none

/-- Whether the body length suits the type (R62, R66) and the MAX_SEG declared at OPEN (R65). A CLOSE may carry bytes after its
segment header, which are ignored (log 142). -/
def bodyLenOk (k : Session) (ptype len : Nat) : Bool :=
  if ptype = 0x07 then decide (len = 0)
  else if ptype = 0x0A then decide (len = 4)
  else decide (len ≤ 8 + k.devSeg)

/-- Receives a packet of a session up to its body (R57, R66, R91, R92). -/
def arrive (s : State) (d : DieId) (g : Datagram) (want : Nat) : Arrival :=
  let h := parsePkt g.payload
  if !frontOk s d g || h.ptype != want then .badHdr
  else match namedSession (s.die d) d g h with
    | none => .badHdr
    | some k =>
      if h.enc != k.enc then .badAuth
      else if !bodyLenOk k h.ptype (g.payload.length - 24 - (if k.enc then 24 else 0)) then .badHdr
      else match openBody (s.die d) d k h g.payload with
        | none => .badAuth
        | some (k1, body) => .good k1 h body

/-- The decryption that CRY runs for a packet that gets as far (R88, R91, R357), whether its tag is right or not. -/
def deciphered (s : State) (d : DieId) (g : Datagram) (want : Nat) : State :=
  let h := parsePkt g.payload
  match namedSession (s.die d) d g h with
  | none => s
  | some k =>
    let n := g.payload.length - 48
    if frontOk s d g && h.ptype == want && h.enc && k.enc && decide (48 ≤ g.payload.length) && bodyLenOk k h.ptype n
        && replayOk k (beAt g.payload 24 8) && (sessionKey (s.die d).cry k.slot).isSome then
      cryBlocks s d (gcmBlocks n)
    else s

/-- A session after an accepted packet, a duplicate among them (log 143): DSCP and PCP to copy (R58), the port and the MAC address that replies go to (the
section after R416), OPEN_RCVD becomes ESTABLISHED (R74). -/
def heard (k : Session) (p : PortId) (g : Datagram) : Session :=
  { k with
    dscp := g.dscp
    pcp := g.pcp
    vlan := g.vlan
    peerMac := g.srcMac
    port := p
    localIp := g.dstIp
    st := if k.st = .openRcvd then .established else k.st }

/-! ### Acknowledgements from the host -/

/-- Whether a packet sent is acknowledged by an ACK_PSN and SACK. -/
def ackedBy (ackPsn sack : Word) (p : SentPkt) : Bool :=
  psnBefore p.psn ackPsn ||
    (let i := (p.psn - ackPsn).toNat
     decide (1 ≤ i) && decide (i ≤ 32) && sack.getLsbD (i - 1))

/-- The tag that an acknowledged packet frees: the LAST segment of a reply that is no TAG_CONFLICT (R95). -/
def freedTag (p : SentPkt) : Option Byte :=
  if p.ptype = 0x04 ∧ (p.body.getD 1 0).getLsbD 0 = true ∧ ¬ (beAt p.body 4 4 = 0 ∧ (p.body.getD 11 0).getLsbD 0 = true) then
    some (p.body.getD 0 0)
  else none

/-- The round-trip estimate after a sample (R82), in ns, clamped to [RTO_MIN, RTO_MAX]. -/
def rttSample (k : Session) (sample lo hi : Nat) : Session :=
  let v := match k.srtt with
    | none => sample / 2
    | some r => (3 * k.rttvar + absDiff r sample) / 4
  let r := match k.srtt with
    | none => sample
    | some r => (7 * r + sample) / 8
  let rto := max lo (min hi (r + 4 * v))
  { k with srtt := some r, rttvar := v, rto := rto }

/-- The session after ACK_PSN, SACK and CREDIT of a packet (R81 to R83): acknowledged packets leave, the tags whose reply has
now arrived are freed, the estimate takes a sample, RTO follows the computed value unless it has been doubled, to which
it returns when ACK_PSN advances, and the host's window moves. Fields whose ACK_PSN lies beyond every PSN sent are ignored
whole (log 144). -/
def takeAck (k : Session) (h : PktHdr) (now lo hi : Nat) : Session :=
  if !h.ackv || psnBefore k.sndNext h.ackPsn then k
  else
    let newly := k.unacked.filter (fun p => ackedBy h.ackPsn h.sack p && !p.sacked)
    let fresh := newly.filter (fun p => p.retx == 0)
    let adv := k.unacked.any (fun p => psnBefore p.psn h.ackPsn)
    let k1 := { k with
      unacked := (k.unacked.filter (fun p => !psnBefore p.psn h.ackPsn)).map (fun p =>
        if ackedBy h.ackPsn h.sack p then { p with sacked := true } else p)
      tags := k.tags.filter (fun t => !newly.any (fun p => freedTag p == some t))
      sndEdge := let e := h.ackPsn + BitVec.ofNat 32 h.credit
                 if psnBefore k.sndEdge e then e else k.sndEdge }
    let k2 := match argMax (fun p : SentPkt => p.sentAt) fresh with
      | none => k1
      | some p => rttSample k1 (now - p.sentAt) lo hi
    if adv || !k2.doubled then { k2 with backoff := k2.rto, doubled := false } else k2

/-- The packets that fast retransmission is due for: 3 or more marked beyond them (R84). -/
def fastDue (k : Session) : List SentPkt :=
  k.unacked.filter (fun p => !p.sacked && !p.fast &&
    decide (3 ≤ (k.unacked.filter (fun q => q.sacked && psnBefore p.psn q.psn)).length))

/-- Retransmits one packet, encrypted afresh (R90), and counts it. -/
def retransmit (s : State) (d : DieId) (k : Session) (p : SentPkt) (fast : Bool) : State × Session :=
  let r := transmit s d k p.ptype p.psn true p.body
  let now := (s.die d).mon.devTime
  let k1 := { r.2 with unacked := r.2.unacked.map (fun q =>
    if q.psn == p.psn then { q with retx := q.retx + 1, fast := q.fast || fast, sentAt := now } else q) }
  (regBump (putSess r.1 d k1) (dreg d Page.ktp 0x70) 1, k1)

/-- Processes the acknowledgement fields of an accepted packet: the estimate, fast retransmission, the packets that
waited for the window, and the end of a CLOSING session whose CLOSE_REPLY is acknowledged (R74). -/
def ackIn (s : State) (d : DieId) (k : Session) (h : PktHdr) : State :=
  let lo := dfld s d Page.ktp 0x44 15 0 * 1000
  let hi := dfld s d Page.ktp 0x44 31 16 * 1000
  let k1 := takeAck k h (s.die d).mon.devTime lo hi
  let r := (fastDue k1).foldl (fun r p => retransmit r.1 d r.2 p true) (putSess s d k1, k1)
  let r2 := pump (r.2.backlog.length) r.1 d r.2
  if r2.2.st = .closing ∧ r2.2.closeSent = true ∧ !(r2.2.unacked.any (fun p => p.ptype == 0x09)) && !(r2.2.backlog.any (fun b => b.1 == 0x09)) then
    freeSlot r2.1 d k.slot
  else checkNonce r2.1 d k.slot

/-! ### Sequenced packets -/

/-- How a PSN stands to the window (R78). -/
inductive SeqSay where
  | dup
  | beyond
  | fresh
deriving DecidableEq, Repr

def seqSay (k : Session) (psn : Word) : SeqSay :=
  if psnBefore psn k.rcvNext || k.rcvSeen.contains psn then .dup
  else if psnBefore psn k.edge then .fresh
  else .beyond

/-- Advances ACK_PSN over what has been received, with fuel. -/
def advanceRcv : Nat → Word → List Word → Word × List Word
  | 0, n, l => (n, l)
  | f + 1, n, l => if l.contains n then advanceRcv f (n + 1) (l.filter (· != n)) else (n, l)

/-- The session after a sequenced packet has been accepted (R78, R81). -/
def seqIn (k : Session) (psn : Word) : Session :=
  let r := advanceRcv (k.rcvSeen.length + 1) k.rcvNext (psn :: k.rcvSeen)
  { k with rcvNext := r.1, rcvSeen := r.2, ackCount := k.ackCount + 1 }

/-- Sends a separate ACK (R81). -/
def sendAck (s : State) (d : DieId) (slot : Nat) : State :=
  match sessOf (s.die d) slot with
  | none => s
  | some k => checkNonce (transmit s d k 0x07 0 false []).1 d slot

/-- An acknowledgement falls due: when no packet of this step has carried it, a separate ACK is sent (R81). -/
def ackIfDue (s : State) (d : DieId) (slot : Nat) (due : Bool) : State :=
  match sessOf (s.die d) slot with
  | none => s
  | some k => if due && decide (0 < k.ackCount) then sendAck s d slot else s

/-! ### Assembly of messages (R64, R80) -/

/-- Joins segments from offset 0 up while they are contiguous, with fuel. -/
def joinSegs (segs : List (Nat × Bytes)) : Nat → Bytes → Bytes
  | 0, b => b
  | n + 1, b =>
    match segs.find? (fun p => decide (p.1 ≤ b.length) && decide (b.length < p.1 + p.2.length)) with
    | none => b
    | some p => joinSegs segs n (b ++ p.2.drop (b.length - p.1))

/-- The message of an assembly, when its LAST segment and every byte before that segment's end have arrived (R64). -/
def assembled (a : Assembly) : Option Bytes :=
  match a.lastEnd with
  | none => none
  | some e =>
    let b := joinSegs a.segs (a.segs.length + 1) []
    if e ≤ b.length then some (b.take e) else none

/-- Places a segment (R64): in the unfinished assembly of its tag, or in a new one, whose tag may be in use (R95). -/
def placeSeg (inUse : List Byte) (l : List Assembly) (tag : Byte) (off : Nat) (data : Bytes) (last : Bool) (psn : Word) : List Assembly :=
  let clash := inUse.contains tag || l.any (fun a => a.tag == tag && !a.isClose)
  let put (a : Assembly) : Assembly :=
    { a with segs := a.segs ++ [(off, data)],
             lastEnd := if last then some (off + data.length) else a.lastEnd,
             lastPsn := if last then psn else a.lastPsn }
  match l.find? (fun a => a.tag == tag && !a.isClose && (assembled a).isNone) with
  | some _ => (l.foldl (fun (r : List Assembly × Bool) a =>
      if !r.2 && a.tag == tag && !a.isClose && (assembled a).isNone then (r.1 ++ [put a], true) else (r.1 ++ [a], r.2)) ([], false)).1
  | none => l ++ [put { tag := tag, segs := [], lastEnd := none, lastPsn := 0, isClose := false, clash := clash }]

/-- The next assembly to deliver: of those whose LAST has arrived the one with the earliest PSN, once it is complete and
every packet with a lower PSN has arrived (R80). -/
def nextDeliver (k : Session) : Option Assembly :=
  let ends := k.asm.filter (fun a => a.lastEnd.isSome)
  match argMin (fun a : Assembly => (a.lastPsn - (k.rcvNext - BitVec.ofNat 32 (2 ^ 31))).toNat) ends with
  | none => none
  | some a => if psnBefore a.lastPsn k.rcvNext && (assembled a).isSome then some a else none

/-! ### Checks (R95, R97, R569, R570) -/

/-- Sends a reply that no command structure stands behind. -/
def refuse (s : State) (d : DieId) (k : Session) (m : Msg) (status rflags : Nat) : State :=
  let h := parseCmd m.body
  let tenant := k.tenant
  replyTo s d k.slot k.gen m.tag tenant (h.cls % 8) m.arrived 0 (if m.body = [] then 0 else h.opcode) status rflags 0 0 0 [] false

/-- Whether the inline data suits the opcode (R93, R97): the length that the opcode states, and a VALUE_LEN of 8,192 at most. -/
def inlineOk (h : CmdHdr) (inline : Bytes) : Bool :=
  let n := inline.length
  if isGranted h.opcode then
    if 8192 < h.valueLen then decide (n = 0) else decide (n = h.valueLen)
  else if h.opcode = Op.regWrite then decide (n = h.valueLen ∧ 4 ≤ n ∧ n ≤ 1024 ∧ n % 4 = 0)
  else if 8192 < h.valueLen && decide (0 < n) then false
  else if h.opcode = Op.tenantSet then decide (n = 64)
  else if h.opcode = Op.nsCreate then decide (n = if nsWrapped inline then 88 else 16)
  else if h.opcode = Op.keyInstall then keyBodyOk inline
  else if h.opcode = Op.format then formatOk inline
  else decide (n = 0)

/-- The header checks of R97. -/
def headerOk (b : Bytes) (h : CmdHdr) : Bool :=
  decide (h.cls < 8) && decide (h.mflags < 8) && decide (beAt b 10 2 = 0)
    && (if isKv h.opcode then decide (1 ≤ h.keyLen ∧ h.keyLen ≤ 1024) else decide (h.keyLen = 0))
    && (!h.ifVersion || [1, 2, 3].contains h.opcode) && (!h.ifAbsent || h.opcode == 2) && (!h.partialGet || h.opcode == 1)
    && !(h.ifVersion && h.ifAbsent)

/-- The checks that an opcode's own rules state for its fields and body (R96, R332, R339, R346, R183, R538). A tenant in ARG
above 4,095 is refused; the bits of ARG that ABORT, REG_READ, REG_WRITE, FW_ACTIVATE and LOG_READ do not use are ignored
(log 145). -/
def bodyOk (h : CmdHdr) (inline : Bytes) : Bool :=
  if h.opcode = Op.put then decide (h.valueLen ≤ 64 * 2 ^ 20)
  else if h.opcode = Op.regRead then decide (1 ≤ h.valueLen ∧ h.valueLen ≤ 256)
  else if h.opcode = Op.tenantSet then decide (h.arg < 4096) && tenantOk h.arg inline
  else if h.opcode = Op.nsCreate then nsOk h.nsid inline
  else if h.opcode = Op.nsDelete then decide (h.arg < 4096)
  else if h.opcode = Op.keyInstall then decide (h.arg < 4096)
  else true

/-- The data of a block command lies whole LBAs within the namespace and one chunk (R97, R186). -/
def rangeOk (n : NsEntry) (h : CmdHdr) : Bool :=
  decide (0 < h.valueLen) && decide (h.valueLen % n.lbaSize = 0) && decide (h.arg + h.valueLen / n.lbaSize ≤ n.blocks)
    && decide (chunkOf n h.arg = chunkOf n (h.arg + h.valueLen / n.lbaSize - 1))

/-- The checks of step 4 of R570: the status that a command fails with, or none. Of several that fail the header, the inline
data and the body come first, then NOT_FOUND, then the namespace's other checks (log 146). -/
def fieldCheck (x : Die) (tenant : Nat) (b : Bytes) (h : CmdHdr) (inline : Bytes) : Option Nat :=
  if !headerOk b h || !inlineOk h inline || !bodyOk h inline then some Stat.invalidField
  else if isKv h.opcode || isBlock h.opcode then
    match nsOf x tenant h.nsid with
    | none => some Stat.notFound
    | some n =>
      if isKv h.opcode != (n.ntype == 0) then some Stat.invalidField
      else if isBlock h.opcode && !rangeOk n h then some Stat.invalidField
      else none
  else none

/-- Whether an NS_CREATE or KEY_INSTALL needs an encrypted session (R347). -/
def needsEnc (h : CmdHdr) (inline : Bytes) : Bool := h.opcode == Op.keyInstall || (h.opcode == Op.nsCreate && nsWrapped inline)

/-! ### Rate limits (R337, R338) -/

/-- How many dies share a tenant's rate. -/
def rateDies (s : State) : Nat := max 1 (upDies s).length

/-- A tenant's buckets on a die: command tokens in units of 1/(840 × 10^6), bytes in units of 1/840,000; full after a
reset (R337). -/
def rateBucket (s : State) (d : DieId) (t : Tenant) : Int × Int :=
  match assocGet t.id (s.die d).csq.buckets with
  | some b => b
  | none => (((t.opsBurst * 840000000 / rateDies s : Nat) : Int), ((t.byteBurst * 1000 * 840000 / rateDies s : Nat) : Int))

/-- Whether the admission of R337 lets a command through. -/
def rateOk (t : Tenant) (b : Int × Int) : Bool :=
  (t.opsRate == 0 || decide (840000000 ≤ b.1)) && (t.byteRate == 0 || decide (0 < b.2))

/-- The buckets after an admitted command. -/
def rateTake (b : Int × Int) (h : CmdHdr) : Int × Int :=
  (b.1 - 840000000, b.2 - (if isGranted h.opcode then (h.valueLen : Int) * 840000 else 0))

/-- Stores a tenant's buckets. -/
def putBucket (s : State) (d : DieId) (t : Nat) (b : Int × Int) : State :=
  s.updDie d (fun x => { x with csq := { x.csq with buckets := assocSet t b x.csq.buckets } })

/-! ### Delivery -/

/-- Where a command executes and its key hash (R28, R102, R128, R186): none when the placement entry is OFFLINE. -/
def routeOf (x : Die) (d : DieId) (tenant : Nat) (h : CmdHdr) (key : Bytes) : Option (DieId × BitVec 128) :=
  if isKv h.opcode then
    let hash := match assocGet tenant x.hashKeys with
      | some hk => Hash.siphash128 hk key
      | none => 0
    let e := placeOf x (placeIndex hash)
    if 8 ≤ e then none else some (dieOf e, hash)
  else if isBlock h.opcode then
    match nsOf x tenant h.nsid with
    | none => some (d, 0)
    | some n =>
      let e := placeOf x (chunkOf n h.arg % 256)
      if 8 ≤ e then none else some (dieOf e, 0)
  else if 0x42 ≤ h.opcode then some (0, 0)
  else some (d, 0)

/-- Whether an opcode is a control: ABORT or RESET_SESSION. -/
def isControl (op : Nat) : Bool := op == Op.abort || op == Op.resetSession

/-- The command that a checked message becomes. -/
def mkCmd (s : State) (d : DieId) (k : Session) (m : Msg) (h : CmdHdr) (key inline : Bytes) (hash : BitVec 128) (cls : Nat)
    (owner : DieId) : Cmd :=
  { cid := s.pkg.nextCid, home := d, slot := k.slot, gen := k.gen, tag := m.tag, tenant := k.tenant, hdr := h, key := key,
    inline := inline, hash := hash, cls := cls, owner := owner, seq := 0, phase := .queued, core := 0, arrived := m.arrived,
    chgCls := cls, funded := false, noReply := false, grants := [], nextOff := 0, gseq := 0, got := [], value := [],
    fixed := none, ra := none, reads := 0, failed := false, waits := [], released := false }

/-- From a RESET_SESSION on, its session's commands are held; the ones held before it are its to remove (R106). -/
def beginReset (s : State) (c : Cmd) : State :=
  match sessGen (s.die c.home) c.slot c.gen with
  | none => s
  | some k => putSess s c.home { k with resetting := some c.cid, heldOld := k.held.length }

/-- A command reaches the die that executes it (R19, R138). -/
def giveCmd (s : State) (c : Cmd) : State :=
  (wakeAt s c.owner).updDie c.owner (fun x => { x with csq := { x.csq with inbox := x.csq.inbox ++ [c] } })

/-- Hands a command to the intake of the die that executes it, or to the controls of its session's die (R105, R111). It wakes
the dies in IDLE or SLEEP that it reaches (R138), and waits while its route does (R20, R475). -/
def hand (s : State) (c : Cmd) : State :=
  let s1 := wakeAt { s with pkg := { s.pkg with nextCid := s.pkg.nextCid + 1 } } c.home
  if isControl c.hdr.opcode then
    let s2 := s1.updDie c.home (fun x => { x with csq := { x.csq with controls := x.csq.controls ++ [c] } })
    if c.hdr.opcode = Op.resetSession then beginReset s2 c else s2
  else if waitsOut s1 c.home c.owner then holdOut s1 c.home (.command c)
  else giveCmd s1 c

/-- The status that an arrival die answers for a command owned by a die that does not run: THERMAL_STOP or BUSY_RETRY in
the hold of R513, BUSY_RETRY in a die reset (R464), DIE_OFFLINE when fenced (R465). -/
def ownerDown (s : State) (owner : DieId) (op : Nat) : Option Nat :=
  match (s.die owner).phase with
  | .up => none
  | .hot => some (if op = Op.put ∨ op = Op.delete ∨ op = Op.write then Stat.thermalStop else Stat.busyRetry)
  | .fenced => some Stat.dieOffline
  | _ => some Stat.busyRetry

/-- Steps 6 to 8 of R570 and the hand-over: placement, the rule search, the class-0 check. -/
def routeCmd (s : State) (d : DieId) (k : Session) (m : Msg) (h : CmdHdr) (key inline : Bytes) (owner : DieId)
    (hash : BitVec 128) : State :=
  let s1 := if ruleCascades s d k.tenant then regBump s (dreg d Page.cmb 0x19C) 1 else s
  let urgentNo := (tenantOf (s.die d) k.tenant).all (fun t => !t.urgentOk)
  match ruleSearch s d k.port k.tenant h.nsid h.opcode h.cls key with
  | .deny => refuse s1 d k m Stat.notPermitted 0
  | .proceed =>
    if h.cls = 0 ∧ urgentNo = true then refuse s1 d k m Stat.notPermitted 0
    else hand s1 (mkCmd s1 d k m h key inline hash h.cls owner)
  | .setClass c =>
    if c = 0 ∧ urgentNo = true then refuse s1 d k m Stat.notPermitted 0
    else hand s1 (mkCmd s1 d k m h key inline hash c owner)

/-- The owner of a command, a die that does not run, and then the rest of the checks: such a die is answered for at step 6,
before the rule search and the class-0 check (log 147). -/
def checkRoute (s : State) (d : DieId) (k : Session) (m : Msg) (h : CmdHdr) (key inline : Bytes) : State :=
  match routeOf (s.die d) d k.tenant h key with
  | none => refuse s d k m Stat.dieOffline 0
  | some (owner, hash) =>
    match ownerDown s owner h.opcode with
    | some st => refuse s d k m st 0
    | none => routeCmd s d k m h key inline owner hash

/-- Step 5 of R570: admits the command, answers OVERLOAD, or holds it and what follows in its session (R338). ABORT and
RESET_SESSION take no tokens. -/
def checkRate (s : State) (d : DieId) (k : Session) (m : Msg) (h : CmdHdr) (key inline : Bytes) : State :=
  if isControl h.opcode then checkRoute s d k m h key inline
  else match tenantOf (s.die d) k.tenant with
    | none => checkRoute s d k m h key inline
    | some t =>
      let b := rateBucket s d t
      if rateOk t b then checkRoute (putBucket s d t.id (rateTake b h)) d k m h key inline
      else if t.reject then refuse s d k m Stat.overload 0
      else
        meterAdd (putSess s d { k with held := m :: k.held, rateHold := true }) d k.tenant
          (fun q => { q with delayed := min (q.delayed + 1) 0xFFFFFFFF })

/-- The checks of R95, R569 and R570 on a delivered message, made in that order. -/
def checkMsg (s : State) (d : DieId) (k : Session) (m : Msg) : State :=
  if m.clash then refuse s d k m Stat.invalidField 1
  else
    let h := parseCmd m.body
    if m.body.length < 32 then refuse s d k m Stat.invalidField 0
    else if 32 + 1024 + 8192 < m.body.length then refuse s d k m Stat.invalidField 0
    else if m.body.length < 32 + h.keyLen then refuse s d k m Stat.invalidField 0
    else
      let key := slice m.body 32 h.keyLen
      let inline := m.body.drop (32 + h.keyLen)
      if m.late then refuse s d k m Stat.notPermitted 0
      else if !Op.all.contains h.opcode then refuse s d k m Stat.invalidField 0
      else if decide (0x40 ≤ h.opcode) && decide (k.tenant ≠ 0) then refuse s d k m Stat.notPermitted 0
      else if s.pkg.purged && decide (h.opcode < 0x40) && decide (h.opcode ≠ Op.nop) then refuse s d k m Stat.notPermitted 0
      else if needsEnc h inline && !k.enc then refuse s d k m Stat.notPermitted 0
      else match fieldCheck (s.die d) k.tenant m.body h inline with
        | some st => refuse s d k m st 0
        | none => checkRate s d k m h key inline

/-- A message in its turn of delivery: held behind a RESET_SESSION, behind what one still holds, or behind commands that the
rate limit holds, which ABORT and RESET_SESSION pass (R106, R338), else checked. -/
def deliver (s : State) (d : DieId) (k : Session) (m : Msg) : State :=
  let op := (parseCmd m.body).opcode
  if k.resetting.isSome then putSess s d { k with held := k.held ++ [m] }
  else if !k.held.isEmpty && !(isControl op && k.rateHold) then putSess s d { k with held := k.held ++ [m] }
  else checkMsg s d k m

/-- CLOSE is delivered (R74). -/
def deliverClose (s : State) (d : DieId) (k : Session) : State :=
  maybeClose (putSess s d { k with closeAt := true }) d k.slot k.gen

/-- Delivers every message that is due, in the order of R80, with fuel. -/
def deliverAll : Nat → State → DieId → Nat → State
  | 0, s, _, _ => s
  | n + 1, s, d, slot =>
    match sessOf (s.die d) slot with
    | none => s
    | some k =>
      match nextDeliver k with
      | none => s
      | some a =>
        let k1 := { k with asm := k.asm.filter (fun b => !(b.lastEnd.isSome && b.lastPsn == a.lastPsn)) }
        let s1 := putSess s d k1
        if a.isClose then deliverAll n (deliverClose s1 d k1) d slot
        else
          let m : Msg := { tag := a.tag, body := (assembled a).getD [], arrived := (s.die d).mon.devTime, clash := a.clash,
                           late := k.closeAt }
          deliverAll n (deliver s1 d k1 m) d slot

/-! ### Held messages -/

/-- Delivers a message again in its turn (R80), on the session as it now stands. -/
def redeliver (s : State) (d : DieId) (slot : Nat) (m : Msg) : State :=
  match sessOf (s.die d) slot with
  | none => s
  | some k => deliver s d k m

/-- The command that the rate limit holds goes on from step 5 of R570, where it stood. -/
def resumeRate (s : State) (d : DieId) (slot : Nat) (m : Msg) : State :=
  match sessOf (s.die d) slot with
  | none => s
  | some k =>
    let h := parseCmd m.body
    let still := match tenantOf (s.die d) k.tenant with
      | none => false
      | some t => !rateOk t (rateBucket s d t) && !t.reject
    if still then putSess s d { k with held := m :: k.held, rateHold := true }
    else checkRate s d k m h (slice m.body 32 h.keyLen) (m.body.drop (32 + h.keyLen))

/-- Whether the held commands of a session may go on now: none is held behind a RESET_SESSION. -/
def drainHeld (s : State) (d : DieId) (slot : Nat) : State :=
  match sessOf (s.die d) slot with
  | none => s
  | some k =>
    if k.resetting.isSome then s
    else match k.held with
      | [] => s
      | m :: rest =>
        let s1 := putSess s d { k with held := [], rateHold := false }
        let s2 := if k.rateHold then resumeRate s1 d slot m else redeliver s1 d slot m
        settleSess (rest.foldl (fun s m => redeliver s d slot m) s2) d slot k.gen

/-- An ACK at once for a session whose window edge has been held and advances again, unless a packet has told the host (R79). -/
def tellEdge (s : State) (d : DieId) (slot : Nat) : State :=
  match sessOf (s.die d) slot with
  | none => s
  | some k => if nextEdge s d k != k.edge then sendAck s d slot else s

/-! ### Rows: packets -/

/-- A sequenced packet of a session, once it has been received up to its body: the window (R78), the segment header
(R569), and then what its type does with the segment. `act` stores the segment. -/
def sequenced (s : State) (d : DieId) (p : PortId) (g : Datagram) (ptype : Nat)
    (act : State → Session → PktHdr → Bytes → State) : State :=
  let a := arrive s d g ptype
  let s := deciphered s d g ptype
  match a with
  | .badHdr => dropHdr s d
  | .badAuth => dropAuth s d
  | .good k0 h body =>
    match seqSay k0 h.psn with
    | .beyond => dropWindow (putSess s d k0) d
    | .dup => sendAck (putSess s d (heard k0 p g)) d k0.slot
    | .fresh =>
      let k := seqIn (heard k0 p g) h.psn
      if body.length < 8 then terminateSession (putSess s d k) d k 0x06
      else
        let s1 := ackIn (putSess s d k) d k h
        let s2 := match sessOf (s1.die d) k.slot with
          | none => s1
          | some k1 => act s1 k1 h body
        let due := h.ping || h.psn != k0.rcvNext || decide (dfld s d Page.ktp 0x48 15 8 ≤ k.ackCount)
        ackIfDue s2 d k.slot due

/-- CMD_SEGMENT: a segment of a command message (R64, R80). Its tag is in use from the first segment on (R95). -/
def cmdSegment (s : State) (d : DieId) (p : PortId) (g : Datagram) : State :=
  sequenced s d p g 0x03 (fun s k h body =>
    let asm := placeSeg k.tags k.asm (body.getD 0 0) (beAt body 4 4) (body.drop 8) ((body.getD 1 0).getLsbD 0) h.psn
    let k1 := { k with
      asm := asm
      tags := if asm.any (fun a => a.tag == body.getD 0 0 && !a.clash && !a.isClose) && !k.tags.contains (body.getD 0 0) then
          body.getD 0 0 :: k.tags else k.tags }
    deliverAll (k1.asm.length + 1) (putSess s d k1) d k.slot)

/-- CMD_SEGMENT. -/
def execCmdSegment (d : DieId) (p : PortId) (g : Datagram) (s : State) : Out := .next (onPort s d p g (fun s => cmdSegment s d p g))

/-- CLOSE: takes its place in the order of delivery (R74, R80). -/
def execClose (d : DieId) (p : PortId) (g : Datagram) (s : State) : Out :=
  .next (onPort s d p g (fun s => sequenced s d p g 0x08 (fun s k h _ =>
    let k1 := { k with asm := k.asm ++ [{ tag := 0, segs := [], lastEnd := some 0, lastPsn := h.psn, isClose := true }] }
    deliverAll (k1.asm.length + 1) (putSess s d k1) d k.slot)))

/-- ACK (R81 to R84): the acknowledgement fields, and an ACK at once for PING. -/
def execAck (d : DieId) (p : PortId) (g : Datagram) (s : State) : Out :=
  .next (onPort s d p g (fun s =>
    let a := arrive s d g 0x07
    let s := deciphered s d g 0x07
    match a with
    | .badHdr => dropHdr s d
    | .badAuth => dropAuth s d
    | .good k h _ =>
      let s1 := ackIn (putSess s d (heard k p g)) d (heard k p g) h
      if h.ping then sendAck s1 d k.slot else s1))

/-- TERMINATE received and authenticated ends the session (R74, R75). -/
def execTerminate (d : DieId) (p : PortId) (g : Datagram) (s : State) : Out :=
  .next (onPort s d p g (fun s =>
    let a := arrive s d g 0x0A
    let s := deciphered s d g 0x0A
    match a with
    | .badHdr => dropHdr s d
    | .badAuth => dropAuth s d
    | .good k _ _ => endSession s d (heard k p g)))

/-! ### DATA_OUT and grants (R104) -/

/-- Changes the command of a tag of a session, wherever it executes. -/
def tagCmd (s : State) (home : DieId) (slot gen : Nat) (tag : Byte) : Option (DieId × Cmd) :=
  (allDies.filterMap (fun e => ((s.die e).csq.cmds.find? (fun c => ofSession home slot gen c && c.tag == tag)).map
    (fun c => (e, c)))).head?

/-- The grant that covers a segment. -/
def grantFor (c : Cmd) (off len : Nat) : Option Grant :=
  c.grants.find? (fun g => decide (g.off ≤ off) && decide (off + len ≤ g.off + g.len))

/-- How far the segments reach without a gap from a place, with fuel. -/
def reach (segs : List (Nat × Bytes)) : Nat → Nat → Nat
  | 0, a => a
  | n + 1, a =>
    match segs.find? (fun p => decide (p.1 ≤ a) && decide (a < p.1 + p.2.length)) with
    | none => a
    | some p => reach segs n (p.1 + p.2.length)

/-- A command after a segment of one of its grants: a grant is closed once its bytes have arrived without a gap. -/
def grantTake (c : Cmd) (off : Nat) (data : Bytes) : Cmd :=
  let got := c.got ++ [(off, data)]
  { c with
    grants := (c.grants.map (fun g => { g with got := min g.len (reach got got.length g.off - g.off) })).filter
      (fun g => decide (g.got < g.len))
    got := got }

/-- A command of a session that has been handed to a die and not yet taken at its intake, by tag. -/
def inboxTag (s : State) (home : DieId) (slot gen : Nat) (tag : Byte) : Option (DieId × Cmd) :=
  (allDies.filterMap (fun e => (((s.die e).csq.inbox ++ outCmds (s.die e)).find? (fun c => ofSession home slot gen c && c.tag == tag)).map
    (fun c => (e, c)))).head?

/-- Answers a command that has not entered a queue. -/
def refuseCmd (s : State) (c : Cmd) (status : Nat) : State :=
  afterReply (replyTo s c.home c.slot c.gen c.tag c.tenant c.cls c.arrived 0 c.hdr.opcode status 0 0 0 0 [] c.noReply)
    c.home c.slot c.gen c.cid

/-- Takes a command out of the arrivals of its die and answers it. -/
def refuseInbox (s : State) (e : DieId) (c : Cmd) (status : Nat) : State :=
  refuseCmd (s.updDie e (fun x => { x with
    csq := { x.csq with inbox := x.csq.inbox.filter (fun q => q.cid != c.cid) }
    out := x.out.filter (fun m => match m with
      | .command q => q.cid != c.cid
      | _ => true) })) c status

/-- Removes a held message of a session by its tag. -/
def dropHeld (s : State) (d : DieId) (slot gen : Nat) (tag : Byte) : State :=
  match sessGen (s.die d) slot gen with
  | none => s
  | some k => putSess s d { k with
      held := k.held.filter (fun m => m.tag != tag || m.clash)
      heldOld := ((k.held.take k.heldOld).filter (fun m => m.tag != tag || m.clash)).length
      rateHold := k.rateHold && !((k.held.take 1).any (fun m => m.tag == tag && !m.clash)) }

/-- Answers a held message and takes it out; what was held behind the first one goes on, and the window edge with it (R79). -/
def refuseOneHeld (s : State) (d : DieId) (k : Session) (m : Msg) (status : Nat) : State :=
  let s1 := refuse (dropHeld s d k.slot k.gen m.tag) d k m status 0
  match sessOf (s1.die d) k.slot with
  | none => s1
  | some q => if q.rateHold then s1 else tellEdge (drainHeld s1 d k.slot) d k.slot

/-- Whether a command takes a grant exchange (R104). -/
def takesGrants (h : CmdHdr) : Bool := isGranted h.opcode && decide (8192 < h.valueLen)

/-- DATA_OUT for a command that has not reached a queue, and so has no grant: the command completes with INVALID_FIELD
(R104). -/
def earlyData (s : State) (d : DieId) (k : Session) (tag : Byte) : State :=
  match inboxTag s d k.slot k.gen tag with
  | some (e, c) => if takesGrants c.hdr then refuseInbox s e c Stat.invalidField else s
  | none =>
    match k.held.find? (fun m => m.tag == tag && !m.clash) with
    | none => s
    | some m =>
      if takesGrants (parseCmd m.body) then
        refuseOneHeld s d k m Stat.invalidField
      else s

/-- A command whose data is complete: a write goes on to admission, FW_DOWNLOAD to its row; during an activation pause it
waits for the end of the pause (R112, R135). -/
def dataReady (s : State) (c : Cmd) : Cmd :=
  let b := joinSegs c.got (c.got.length + 1) []
  if c.hdr.valueLen ≤ b.length then
    { c with value := b.take c.hdr.valueLen, got := [],
             phase := if s.pkg.act.on then .granting else if c.hdr.opcode = Op.fwDownload then .dispatched else .admitting }
  else c

/-- DATA_OUT: a segment of granted data. Outside an open grant it is dropped and the command completes with INVALID_FIELD, unless
it has passed its media point and so runs to completion (R104, R112, log 148). -/
def dataOut (s : State) (d : DieId) (p : PortId) (g : Datagram) : State :=
  sequenced s d p g 0x06 (fun s k _ body =>
    let off := beAt body 4 4
    let data := body.drop 8
    match tagCmd s d k.slot k.gen (body.getD 0 0) with
    | none => earlyData s d k (body.getD 0 0)
    | some (e, c) =>
      if !takesGrants c.hdr then s
      else if c.phase = .granting ∧ (grantFor c off data.length).isSome = true then
        putCmd s e (dataReady s (grantTake c off data))
      else if c.phase = .queued ∨ c.phase = .granting ∨ c.phase = .dispatched then fail s e c Stat.invalidField
      else s)

/-- DATA_OUT. -/
def execDataOut (d : DieId) (p : PortId) (g : Datagram) (s : State) : Out := .next (onPort s d p g (fun s => dataOut s d p g))

/-- An XFER_RDY body: the segment header and the 16-byte grant (R104). -/
def xferRdy (tag : Byte) (off len gseq : Nat) : Bytes :=
  segBytes tag true 0 ++ beBytes 4 off ++ beBytes 4 len ++ beBytes 2 gseq ++ zeros 6

/-- GRANT_ISSUE: a further grant of at most GRANT_SIZE, in increasing OFFSET order, while fewer than GRANTS_OPEN are open
and no packet-buffer pool is at critical (R104). -/
def execGrantIssue (d : DieId) (cid : Nat) (s : State) : Out :=
  .next (onDie s d (fun s =>
    match cmdOf (s.die d) cid with
    | none => s
    | some c =>
      let size := dfld s d Page.ktp 0x54 7 0 * 65536
      let len := min size (c.hdr.valueLen - c.nextOff)
      if c.phase = .granting ∧ c.nextOff < c.hdr.valueLen ∧ c.grants.length < dfld s d Page.ktp 0x54 15 8 ∧ poolCrit (s.die d) = false then
        match sessGen (s.die c.home) c.slot c.gen with
        | none => s
        | some k =>
          let s1 := putCmd s d { c with grants := c.grants ++ [{ off := c.nextOff, len := len, got := 0 }],
                                        nextOff := c.nextOff + len, gseq := c.gseq + 1 }
          checkNonce (sendSeq s1 c.home k 0x05 (xferRdy c.tag c.nextOff len (c.gseq % 65536))).1 c.home c.slot
      else s))

/-- GRANT_TIMEOUT: a grant with no byte arriving for XFER_TIMEOUT completes its command with ABORTED (R104); the timer
stands during an activation pause (R135). -/
def execGrantTimeout (d : DieId) (cid : Nat) (s : State) : Out :=
  .next (onDie s d (fun s =>
    match cmdOf (s.die d) cid with
    | none => s
    | some c =>
      if c.phase = .granting ∧ c.grants ≠ [] ∧ (s.die d).csq.tmoStop = false then fail s d c Stat.aborted else s))

/-! ### OPEN -/

/-- The status of a valid OPEN, its conditions in the order of R70; R369 and R364 come first. -/
def openStatus (s : State) (d : DieId) (p : PortId) (body : Bytes) : Nat :=
  let id := beAt body 0 2
  let of_ := beAt body 2 2
  let x := s.die d
  if s.pkg.keysOut then Stat.notPermitted
  else if 4096 ≤ id then Stat.authFail
  else match tenantOf x id, authKey x.cry id with
    | some t, some key =>
      if t.enable = false ∨ openProof key (body.take 28) ≠ slice body 28 16 then Stat.authFail
      else if (of_.testBit 0 = false ∧ t.reqEnc = true) ∨ (id = 0 ∧ t.adminPorts.testBit (d.val * 2 + p.val) = false) then
        Stat.notPermitted
      else if beAt body 10 2 < 1024 ∨ 2 ≤ of_ then Stat.invalidField
      else if 4096 ≤ x.ktp.sessions.length + x.ktp.ending.length ∨
          t.sessMax ≤ (allDies.map (fun e => ((s.die e).ktp.sessions.filter (fun k => k.tenant == id)).length)).sum then
        Stat.overload
      else Stat.ok
    | _, _ => Stat.authFail

/-- An OPEN_REPLY packet (R68): its header carries nothing but the session ID. -/
def openReply (sid : Nat) (body : Bytes) : Bytes :=
  pktBytes { magic := 0x4B, ver := 1, ptype := 0x02, flags := 0, sid := sid, psn := 0, ackPsn := 0, sack := 0, credit := 0,
             length := 48 } ++ body

/-- The addressing of a packet back to a datagram's sender, from the address that it was sent to (R56). -/
def answerTx (s : State) (d : DieId) (g : Datagram) (payload : Bytes) : TxPkt :=
  kocelTx s d g.dstIp { pcp := g.pcp, dscp := g.dscp, vlan := g.vlan, dstMac := g.srcMac, v6 := g.v6, dstIp := g.srcIp,
                        dstUdp := g.srcUdp, kind := .kocel [] } payload

/-- How many refusing OPEN_REPLYs a port has sent in this second (R71). -/
def refusedOn (x : Die) (p : PortId) : Nat := (assocGet p x.ktp.refused).getD 0

/-- Refuses an OPEN: at most 16 replies on each port in each second (R71). -/
def refuseOpen (s : State) (d : DieId) (p : PortId) (g : Datagram) (status : Nat) : State :=
  let s1 := regBump s (dreg d Page.ktp 0x74) 1
  let s2 := if status = Stat.authFail then raiseInt s1 (dreg d Page.ktp 0) 3 else s1
  if refusedOn (s.die d) p < 16 then
    queueTx (s2.updDie d (fun x => { x with ktp := { x.ktp with refused := assocSet p (refusedOn x p + 1) x.ktp.refused } })) d p
      (answerTx s d g (openReply 0 (BitVec.ofNat 8 status :: zeros 47)))
  else s2

/-- The free local slots of a die. -/
def freeSlots (x : Die) : List Nat :=
  (List.range 4096).filter (fun n => !(x.ktp.sessions.any (fun k => k.slot == n)) && !(x.ktp.ending.any (fun e => e.1 == n)))

/-- The generation that a slot's next session takes (R69): drawn at the first allocation after a reset, then one more. -/
def nextGen (s : State) (d : DieId) (slot : Nat) : Nat × State :=
  match assocGet slot (s.die d).ktp.gens with
  | some g => ((g + 1) % 65536, s)
  | none => let r := drawBytes s 2
            ((beNat r.1 + 1) % 65536, r.2)

/-- Creates a session for an accepted OPEN and answers it (R68, R72, R74). While a pool is at critical the DEV_CREDIT is 0
(log 149). -/
def createSession (s : State) (d : DieId) (p : PortId) (g : Datagram) (body : Bytes) : State :=
  let id := beAt body 0 2
  let enc := (beAt body 2 2).testBit 0
  let hostNonce := slice body 12 16
  let c := drawChoice s
  let slots := freeSlots (s.die d)
  let slot := slots.getD (c.1 % slots.length) 0
  let gn := nextGen c.2 d slot
  let rp := drawBytes gn.2 4
  let rn := drawBytes rp.2 16
  let s1 := rn.2
  let key := (authKey (s.die d).cry id).getD []
  let sid := sidOf d.val gn.1 slot
  let cred := if poolCrit (s.die d) then 0 else creditNow s d
  let b32 := [BitVec.ofNat 8 Stat.ok, if enc then 1 else 0, 0, 0] ++ beBytes 4 sid ++ rp.1 ++ beBytes 2 cred
    ++ beBytes 2 (devMaxSeg s d p g.v6 enc) ++ rn.1
  let pkt := openReply sid (b32 ++ replyProof key hostNonce b32)
  let hostPsn := BitVec.ofNat 32 (beAt body 4 4)
  let devPsn := BitVec.ofNat 32 (beNat rp.1)
  let k : Session :=
    { slot := slot, gen := gn.1, tenant := id, enc := enc, st := .openRcvd, v6 := g.v6, peerIp := g.srcIp, peerUdp := g.srcUdp,
      peerMac := g.srcMac, vlan := g.vlan, pcp := g.pcp, dscp := g.dscp, port := p, hostNonce := hostNonce, openReply := pkt,
      maxSeg := beAt body 10 2, devSeg := devMaxSeg s d p g.v6 enc, localIp := g.dstIp, rcvNext := hostPsn, rcvSeen := [], edge := hostPsn + BitVec.ofNat 32 cred, asm := [],
      ackCount := 0, replayTop := none, replaySet := [], sndNext := devPsn,
      sndEdge := devPsn + BitVec.ofNat 32 (beAt body 8 2), unacked := [], backlog := [], srtt := none, rttvar := 0,
      rto := 100000, backoff := 100000, txCtr := 0, tags := [], held := [], rateHold := false, resetting := none,
      closeAt := false, closeSent := false }
  let s2 := s1.updDie d (fun x =>
    { x with
      ktp := { x.ktp with sessions := k :: x.ktp.sessions, gens := assocSet slot gn.1 x.ktp.gens }
      cry := if enc then loadSession x.cry slot (sessionKeyOf key hostNonce rn.1 sid) else x.cry })
  queueTx s2 d p (answerTx s d g pkt)

/-- The session that an OPEN repeats (R73). -/
def repeatOf (x : Die) (g : Datagram) (body : Bytes) : Option Session :=
  x.ktp.sessions.find? (fun k => k.peerIp == g.srcIp && k.peerUdp == g.srcUdp && k.v6 == g.v6 && k.tenant == beAt body 0 2
    && k.hostNonce == slice body 12 16 &&
    (match authKey x.cry k.tenant with
     | some key => openProof key (body.take 28) == slice body 28 16
     | none => false))

/-- OPEN: checked, answered, and a session created when the status is OK (R66 to R73); without a healthy entropy source its
request for fresh randomness waits (R359). A SESSION_ID in its header is ignored (log 150). -/
def openIn (s : State) (d : DieId) (p : PortId) (g : Datagram) : State :=
  let h := parsePkt g.payload
  let body := g.payload.drop 24
  if !frontOk s d g || h.ptype != 0x01 || h.enc || body.length != 44 then dropHdr s d
  else match repeatOf (s.die d) g body with
    | some k => queueTx s d p (answerTx s d g k.openReply)
    | none =>
      let st := openStatus s d p body
      if st != Stat.ok then refuseOpen s d p g st
      else if s.pkg.entropyFail then s.updDie d (fun x => { x with ktp := { x.ktp with waiting := x.ktp.waiting ++ [(p, g)] } })
      else createSession s d p g body

/-- Lets the OPENs that wait for randomness go on. -/
def openWaiting (s : State) (d : DieId) : State :=
  let l := (s.die d).ktp.waiting
  l.foldl (fun s q => openIn s d q.1 q.2) (s.updDie d (fun x => { x with ktp := { x.ktp with waiting := [] } }))

/-- The lowest-numbered die with a healthy entropy source. -/
def healthyDie (s : State) : Option DieId :=
  allDies.find? (fun d => present s d && (s.die d).phase == .up && (s.die d).cry.healthy)

/-- Where each die takes its seed material from, and whether requests for randomness wait (R359). -/
def entropyUpdate (s : State) : State :=
  let h := healthyDie s
  let s1 := overDies (fun s d => s.updDie d (fun x => { x with cry := { x.cry with
    borrow := if x.cry.healthy then none else h } })) s allDies
  let s2 := { s1 with pkg := { s1.pkg with entropyFail := h.isNone } }
  if h.isNone then s2 else overDies openWaiting s2 (upDies s2)

/-- OPEN. -/
def execOpen (d : DieId) (p : PortId) (g : Datagram) (s : State) : Out := .next (onPort s d p g (fun s => openIn s d p g))

/-- OPEN_REFUSE_WINDOW: a whole second begins (R71). -/
def execOpenRefuseWindow (d : DieId) (p : PortId) (s : State) : Out :=
  .next (onDie s d (fun s => s.updDie d (fun x => { x with ktp := { x.ktp with refused := assocDel p x.ktp.refused } })))

/-! ### Rows: timers -/

/-- A row of one session of a die that runs. -/
def onSess (s : State) (d : DieId) (slot : Nat) (f : State → Session → State) : State :=
  onDie s d (fun s => match sessOf (s.die d) slot with
    | none => s
    | some k => f s k)

/-- OPEN_RCVD_TIMEOUT (R74). -/
def execOpenRcvdTimeout (d : DieId) (slot : Nat) (s : State) : Out :=
  .next (onSess s d slot (fun s k => if k.st = .openRcvd then freeSlot s d slot else s))

/-- CLOSING_TIMEOUT (R74). -/
def execClosingTimeout (d : DieId) (slot : Nat) (s : State) : Out :=
  .next (onSess s d slot (fun s k => if k.st = .closing then freeSlot s d slot else s))

/-- ACK_DELAY_EXPIRY (R81). -/
def execAckDelayExpiry (d : DieId) (slot : Nat) (s : State) : Out :=
  .next (onSess s d slot (fun s k => if 0 < k.ackCount then sendAck s d slot else s))

/-- The retransmission timers of a session stand while its port's priority is paused (R417). -/
def portPaused (s : State) (d : DieId) (k : Session) : Bool := ((s.die d).ports.get k.port).paused.contains k.pcp

/-- RTO_EXPIRY (R83, R85). -/
def execRtoExpiry (d : DieId) (slot : Nat) (s : State) : Out :=
  .next (onSess s d slot (fun s k =>
    if portPaused s d k then s
    else match k.unacked with
    | [] => s
    | p :: _ =>
      if dfld s d Page.ktp 0x48 23 16 ≤ p.retx then terminateSession s d k 0x01
      else
        let r := retransmit s d k p false
        let hi := dfld s d Page.ktp 0x44 31 16 * 1000
        checkNonce (putSess r.1 d { r.2 with backoff := min hi (2 * k.backoff), doubled := true }) d slot))

/-- Whether the idle timer of a session runs (R76). -/
def idleRuns (s : State) (d : DieId) (k : Session) : Bool :=
  decide (dfld s d Page.ktp 0x50 15 0 ≠ 0) && k.tags.isEmpty && k.unacked.isEmpty && k.backlog.isEmpty && k.held.isEmpty
    && !(s.die d).csq.tmoStop && decide (k.st ≠ .openRcvd)

/-- IDLE_TIMEOUT (R76). -/
def execIdleTimeout (d : DieId) (slot : Nat) (s : State) : Out :=
  .next (onSess s d slot (fun s k => if idleRuns s d k then terminateSession s d k 0x02 else s))

/-- RATE_ADMIT: the first held command is admitted once the buckets allow, and the held ones after it follow in order
(R338); messages held behind a RESET_SESSION run when its reply has been sent (R106). -/
def execRateAdmit (d : DieId) (slot : Nat) (s : State) : Out :=
  .next (onSess s d slot (fun s k => if k.rateHold then tellEdge (drainHeld s d slot) d slot else drainHeld s d slot))

/-- TOKEN_REFILL (R337). -/
def execTokenRefill (d : DieId) (tenant : Nat) (s : State) : Out :=
  .next (onDie s d (fun s =>
    match tenantOf (s.die d) tenant with
    | none => s
    | some t =>
      let b := rateBucket s d t
      let n := rateDies s
      let ops : Int := if t.opsRate = 0 then b.1 else
        min ((t.opsBurst * 840000000 / n : Nat) : Int) (b.1 + ((t.opsRate * t.refillUs * 840 / n : Nat) : Int))
      let byt : Int := if t.byteRate = 0 then b.2 else
        min ((t.byteBurst * 840000000 / n : Nat) : Int) (b.2 + ((t.byteRate * t.refillUs * 840 / n : Nat) : Int))
      putBucket s d tenant (ops, byt)))

/-- Whether a command has not passed its media point (R112). A DELETE or TRIM that waits for admission has not begun its index
update. -/
def beforeMedia (c : Cmd) : Bool :=
  c.phase == .queued || c.phase == .granting ||
    (c.phase == .admitting && (c.hdr.opcode == Op.delete || c.hdr.opcode == Op.trim)) ||
    (c.phase == .dispatched && (isReader c.hdr.opcode || isWriter c.hdr.opcode || c.hdr.opcode == Op.flush
      || c.hdr.opcode == Op.fwDownload))

/-- TERMINATE_BARRIER: the die drops the session's commands that have not passed the media point, the results of the
others are discarded, and the last die to act lets the key slot be erased (R75). -/
def actTerminate (s : State) (d home : DieId) (slot gen : Nat) : State :=
  let mine := ofSession home slot gen
  let s1 := s.updDie d (fun x => { x with csq := { x.csq with
    inbox := x.csq.inbox.filter (fun c => !mine c)
    controls := x.csq.controls.filter (fun c => !mine c)
    cmds := (x.csq.cmds.filter (fun c => !(mine c && beforeMedia c))).map (fun c => if mine c then { c with noReply := true } else c) } })
  let mineOf := (s1.die home).ktp.ending.filter (fun e => e.1 == slot && e.2.1 == gen)
  let left := !mineOf.isEmpty && mineOf.all (fun e => (e.2.2.filter (· != d)).isEmpty)
  s1.updDie home (fun x =>
    { x with
      ktp := { x.ktp with ending := (x.ktp.ending.map (fun e =>
          if e.1 == slot && e.2.1 == gen then (e.1, e.2.1, e.2.2.filter (· != d)) else e)).filter (fun e => !e.2.2.isEmpty) }
      cry := if left then eraseSession x.cry slot else x.cry })

/-- TERMINATE_BARRIER: the first termination barrier that has reached the die, once its confirmation can go (R20, R475). -/
def execTerminateBarrier (d : DieId) (s : State) : Out :=
  .next (onDie s d (fun s =>
    match (s.die d).csq.barriers with
    | .terminate home slot gen :: rest =>
      if waitsOut s d home then s
      else actTerminate (s.updDie d (fun x => { x with csq := { x.csq with barriers := rest } })) d home slot gen
    | _ => s))

end Sys2Proof.Machine
end

