-- ==== Sys2Proof/Machine/Sched.lean ====
section
/-! DEFINITION. CSQ: intake (R111 to R113), service cost and dispatch (R114 to R120), hazards and inheritance (R121 to
R125), abort, flush and session reset (R105, R106, R126 to R130). -/
namespace Sys2Proof.Machine
open Sys2Proof

/-! ### Hazards (R121, R122) -/

/-- The LBA range of a block command. -/
def blockRange (x : Die) (c : Cmd) : Nat × Nat :=
  match nsOf x c.tenant c.hdr.nsid with
  | none => (0, 0)
  | some n => (c.hdr.arg, c.hdr.arg + c.hdr.valueLen / max 1 n.lbaSize)

/-- The 4 KiB units that a writer's range touches: it overlays each of them whole (R188, log 172). -/
def unitRange (x : Die) (c : Cmd) : Nat × Nat :=
  let k := match nsOf x c.tenant c.hdr.nsid with
    | none => 1
    | some n => max 1 (4096 / max 1 n.lbaSize)
  ((blockRange x c).1 / k, ceilDiv (blockRange x c).2 k)

/-- Whether two ranges meet. -/
def rangesMeet (a b : Nat × Nat) : Bool := decide (a.1 < b.2) && decide (b.1 < a.2)

/-- Whether two commands overlap (R121); two writers do when they touch one unit (R188). -/
def overlap (x : Die) (a b : Cmd) : Bool :=
  a.tenant == b.tenant && a.hdr.nsid == b.hdr.nsid &&
    ((isKv a.hdr.opcode && isKv b.hdr.opcode && a.hash == b.hash) ||
     (isBlock a.hdr.opcode && isBlock b.hdr.opcode &&
       (rangesMeet (blockRange x a) (blockRange x b)
         || (!isReader a.hdr.opcode && !isReader b.hdr.opcode && rangesMeet (unitRange x a) (unitRange x b)))))

/-- Whether a holds a hazard against the later command b (R122). -/
def hazard (x : Die) (a b : Cmd) : Bool :=
  decide (a.seq < b.seq) && !a.released && overlap x a b && !(isReader a.hdr.opcode && isReader b.hdr.opcode)

/-- Whether an unreleased hazard stands against a command. -/
def blocked (x : Die) (c : Cmd) : Bool := x.csq.cmds.any (fun a => hazard x a c)

/-- The queued commands of a class. -/
def queuedIn (x : Die) (cls : Nat) : List Cmd := x.csq.cmds.filter (fun c => c.phase == .queued && c.cls == cls)

/-- The dispatchable commands of a class (R120). -/
def readyIn (x : Die) (cls : Nat) : List Cmd := (queuedIn x cls).filter (fun c => !blocked x c)

/-- The dispatchable commands of lower-priority classes that hold a hazard against a queued command of a class (R124). -/
def inherited (x : Die) (cls : Nat) : List Cmd :=
  x.csq.cmds.filter (fun a => a.phase == .queued && decide (cls < a.cls) && !blocked x a
    && (queuedIn x cls).any (fun w => hazard x a w))

/-- The oldest of a list of commands. -/
def oldest (l : List Cmd) : Option Cmd := argMin (fun c : Cmd => c.seq) l

/-! ### Cost (R115) -/

/-- The 4 KiB units that a write touches: for a block command those its byte range meets (R115, R188). -/
def unitsOf (s : State) (d : DieId) (c : Cmd) : Nat :=
  match (if isBlock c.hdr.opcode then nsOf (s.die d) c.tenant c.hdr.nsid else none) with
  | some n => ceilDiv (c.hdr.arg * n.lbaSize + c.hdr.valueLen) 4096 - c.hdr.arg * n.lbaSize / 4096
  | none => ceilDiv c.hdr.valueLen 4096

/-- The cost charged at dispatch. -/
def costOf (s : State) (d : DieId) (c : Cmd) : Nat :=
  if isReader c.hdr.opcode then dfld s d Page.csq 0x50 15 0
  else if isGranted c.hdr.opcode then dfld s d Page.csq 0x54 15 0 + unitsOf s d c * dfld s d Page.csq 0x54 31 16
  else dfld s d Page.csq 0x54 15 0

/-- The lower bound of the urgent token count (R117). -/
def urgCap (s : State) (d : DieId) : Int := (dfld s d Page.csq 0x48 31 16 * 1000 : Nat)

/-- Debits the urgent token count (R117). -/
def urgDebit (s : State) (d : DieId) (q : Csq) (cost : Nat) : Csq := { q with tokens := max (q.tokens - cost) (-(urgCap s d)) }

/-- Whether a tenant is in the round of a class. -/
def inRound (q : Csq) (cls tenant : Nat) : Bool := (q.rounds.getD cls []).any (fun r => r.tenant == tenant)

/-- The deficit of a tenant in a class whose round it has left (R119). -/
def debtOf (q : Csq) (cls tenant : Nat) : Int :=
  ((q.debts.find? (fun e => e.1 == cls && e.2.1 == tenant)).map (fun e => e.2.2)).getD 0

/-- Debits a class's deficit and a tenant's deficit in it, in the round or out of it (R115, R119). -/
def drrDebit (q : Csq) (cls tenant cost : Nat) : Csq :=
  { q with
    cdef := q.cdef.set cls (q.cdef.getD cls 0 - cost)
    rounds := q.rounds.set cls ((q.rounds.getD cls []).map (fun r =>
      if r.tenant == tenant then { r with deficit := r.deficit - cost } else r))
    debts := if inRound q cls tenant then q.debts else
      q.debts.filter (fun e => !(e.1 == cls && e.2.1 == tenant)) ++ [(cls, tenant, debtOf q cls tenant - cost)] }

/-- The cost of flash reads falls on the class and tenant that the command was charged to (R115, R124). -/
def chargeRead (s : State) (d : DieId) (c : Cmd) (units : Nat) : State :=
  let cost := units * dfld s d Page.csq 0x50 31 16
  let charge (q : Csq) : Csq := if c.chgCls = 0 then urgDebit s d q cost else drrDebit q c.chgCls c.tenant cost
  let s1 := s.updDie d (fun x => { x with csq := charge x.csq })
  meterAdd s1 c.home c.tenant (fun m => { m with reads4k := m.reads4k + units })

/-! ### Intake -/

/-- The queue limit of a class, in entries (R113). -/
def queueLimit (s : State) (d : DieId) (cls : Nat) : Nat :=
  64 * (if cls < 4 then dfld s d Page.csq 0x58 (8 * cls + 7) (8 * cls) else dfld s d Page.csq 0x5C (8 * (cls - 4) + 7) (8 * (cls - 4)))

/-- Whether the intake has room for a command of a class (R113). -/
def intakeRoom (s : State) (d : DieId) (cls : Nat) : Bool :=
  decide ((queuedIn (s.die d) cls).length < queueLimit s d cls) && decide ((s.die d).csq.cmds.length < 16384)

/-- A tenant enters the round of a class when it has no place in it yet, with the deficit it stands at (R119). -/
def enterRound (q : Csq) (cls tenant : Nat) : Csq :=
  if inRound q cls tenant then q
  else { q with
         rounds := q.rounds.set cls (q.rounds.getD cls [] ++ [{ tenant := tenant, deficit := debtOf q cls tenant, credited := false }])
         debts := q.debts.filter (fun e => !(e.1 == cls && e.2.1 == tenant)) }

/-- A command takes its intake sequence number and its place in the queue; the idle timer restarts (R111, R136). -/
def enqueue (s : State) (d : DieId) (c : Cmd) : State :=
  s.updDie d (fun x => { x with csq := { enterRound x.csq c.cls c.tenant with
    cmds := x.csq.cmds ++ [{ c with seq := x.csq.nextSeq, owner := d }]
    nextSeq := x.csq.nextSeq + 1
    idleFrom := x.mon.devTime } })

/-- CMD_INTAKE: the command at the head of the die's arrivals is refused with BUSY_RETRY, answered with MEDIA_ERROR on a
die that could not mount (R219), or queued. -/
def cmdIntake (s : State) (d : DieId) : State :=
  match (s.die d).csq.inbox with
  | [] => s
  | c :: rest =>
    let s1 := s.updDie d (fun x => { x with csq := { x.csq with inbox := rest } })
    if !(s.die d).csq.intake then s
    else if !(s.die d).map.mounted && decide (c.hdr.opcode < 0x40) then refuseCmd s1 c Stat.mediaError
    else if intakeRoom s d c.cls then enqueue s1 d c
    else raiseInt (regBump (refuseCmd s1 c Stat.busyRetry) (dreg d Page.csq 0xA4) 1) (dreg d Page.csq 0) 1

/-- CMD_INTAKE. -/
def execCmdIntake (d : DieId) (s : State) : Out := .next (onBlock s d Page.csq (fun s => cmdIntake s d))

/-! ### Dispatch -/

/-- The worker core that takes a command: the lowest-numbered one that runs (R461). -/
def freeCore (x : Die) : CoreId :=
  match (List.range 8).find? (fun i => (x.cores.get (coreOf i)).st == .run || (x.cores.get (coreOf i)).st == .idle) with
  | some i => coreOf i
  | none => 0

/-- Dispatches a command, charged to a class (R117, R119, R124). -/
def dispatchCmd (x : Die) (c : Cmd) (cls : Nat) (funded : Bool) : Die :=
  { x with csq := { x.csq with cmds := x.csq.cmds.map (fun q =>
      if q.cid == c.cid then { q with phase := .dispatched, chgCls := cls, funded := funded, core := freeCore x } else q) } }

/-- A tenant without a queued command of the class leaves its round (R119). -/
def leaveRound (x : Die) (cls tenant : Nat) : Die :=
  if (queuedIn x cls).any (fun c => c.tenant == tenant) then x
  else { x with csq := { x.csq with rounds := x.csq.rounds.set cls ((x.csq.rounds.getD cls []).filter (fun r => r.tenant != tenant)) } }

/-- The weight of a class (CSQ_WEIGHT_A, CSQ_WEIGHT_B). -/
def classWeight (s : State) (d : DieId) (cls : Nat) : Nat :=
  if cls ≤ 4 then dfld s d Page.csq 0x40 (8 * cls - 1) (8 * cls - 8) else dfld s d Page.csq 0x44 (8 * (cls - 4) - 1) (8 * (cls - 4) - 8)

/-- What one turn of a class comes to. -/
inductive Turn where
  | took (x : Die)       -- a command was dispatched
  | over (x : Die)       -- the turn ends
deriving DecidableEq, Repr

/-- The loop of visit(c) of R119, with fuel; `passed` lists the tenants passed over with no command since the last
dispatch. A tenant without a queued command keeps no deficit and no place. -/
def visitLoop (s : State) (d : DieId) (cls : Nat) : Nat → Die → List Nat → Turn
  | 0, x, _ => .over x
  | n + 1, x, passed =>
    match x.csq.rounds.getD cls [] with
    | [] => .over x
    | r0 :: rest =>
      let q := dfld s d Page.csq 0x4C 15 0
      let r : RoundEntry := if r0.credited then r0 else
        { r0 with deficit := r0.deficit + (tenantWeight x r0.tenant * q : Nat), credited := true }
      let rotated := { x with csq := { x.csq with rounds := x.csq.rounds.set cls (rest ++ [{ r with credited := false }]) } }
      let kept := { x with csq := { x.csq with rounds := x.csq.rounds.set cls (r :: rest) } }
      match oldest ((readyIn x cls).filter (fun c => c.tenant == r.tenant)) with
      | none =>
        if (queuedIn x cls).any (fun c => c.tenant == r.tenant) then
          if rest.all (fun e => passed.contains e.tenant) then .over rotated
          else visitLoop s d cls n rotated (r.tenant :: passed)
        else visitLoop s d cls n (leaveRound x cls r.tenant) passed
      | some c =>
        let cost := costOf s d c
        if r.deficit < (cost : Int) then visitLoop s d cls n rotated passed
        else if kept.csq.cdef.getD cls 0 < (cost : Int) then .over kept
        else .took (leaveRound { dispatchCmd kept c cls false with
                                 csq := drrDebit (dispatchCmd kept c cls false).csq cls c.tenant cost } cls c.tenant)

/-- More turns than the highest cost needs at the lowest weight and quantum (R119, R139). -/
def visitFuel : Nat := 16777216

/-- The class after a class in the order of turns. -/
def nextClass (c : Nat) : Nat := if c = 7 then 1 else c + 1

/-- Serves classes 1 to 7 until a command is dispatched, with fuel (R119). -/
def serve (s : State) (d : DieId) : Nat → Die → Die
  | 0, x => x
  | n + 1, x =>
    let c := x.csq.cur
    let step (y : Die) : Die := { y with csq := { y.csq with cur := nextClass c, inTurn := false } }
    if !x.csq.inTurn && (readyIn x c).isEmpty && (inherited x c).isEmpty then
      serve s d n (step (if (queuedIn x c).isEmpty then { x with csq := { x.csq with cdef := x.csq.cdef.set c 0 } } else x))
    else
      let y := if x.csq.inTurn then x else
        { x with csq := { x.csq with
            inTurn := true
            cdef := x.csq.cdef.set c (x.csq.cdef.getD c 0 + (classWeight s d c * dfld s d Page.csq 0x4C 15 0 : Nat)) } }
      match oldest (inherited y c) with
      | some e => { dispatchCmd y e c false with csq := drrDebit (dispatchCmd y e c false).csq c e.tenant (costOf s d e) }
      | none =>
        match visitLoop s d c visitFuel y [] with
        | .took z => z
        | .over z => serve s d n (step z)

/-- Whether some class from 1 to 7 holds a dispatchable command, beside those that class 0 waits for (R117, R124). -/
def otherReady (x : Die) : Bool :=
  x.csq.cmds.any (fun c => c.phase == .queued && decide (c.cls ≠ 0) && !blocked x c && !(inherited x 0).any (fun a => a.cid == c.cid))

/-- Class 0's candidate at its check: a command that one of its own waits for, else its oldest dispatchable one (R117, R124). -/
def urgentNext (x : Die) : Option Cmd := (oldest (inherited x 0)).orElse (fun _ => oldest (readyIn x 0))

/-- One dispatch opportunity (R114, R117 to R120, R124). -/
def dispatchOne (s : State) (d : DieId) : State :=
  let x := s.die d
  match urgentNext x with
  | some c =>
    if decide (0 < x.csq.tokens) || !otherReady x then
      let y := dispatchCmd x c 0 (decide (0 < x.csq.tokens))
      s.setDie d { y with csq := urgDebit s d y.csq (costOf s d c) }
    else s.setDie d (serve s d visitFuel x)
  | none => if otherReady x then s.setDie d (serve s d visitFuel x) else s

/-- Whether CSQ dispatches now: not stopped, in RUN, enabled (R48), and fewer than INFLIGHT_MAX dispatched (R114). -/
def mayDispatch (s : State) (d : DieId) : Bool :=
  let q := (s.die d).csq
  q.dispatch && !s.pkg.act.on && decide (q.ps = .run) && takesWork s (dreg d Page.csq 0)
    && decide ((q.cmds.filter (fun c => c.phase != .queued)).length < dfld s d Page.csq 0x60 10 0)

/-- CSQ_DISPATCH. -/
def execCsqDispatch (d : DieId) (s : State) : Out :=
  .next (onDie s d (fun s => if mayDispatch s d then dispatchOne s d else s))

/-- URGENT_REFILL: the class-0 token count gains URG_RATE up to its cap (R116). -/
def execUrgentRefill (d : DieId) (s : State) : Out :=
  .next (onDie s d (fun s => s.updDie d (fun x => { x with csq := { x.csq with
    tokens := min (urgCap s d) (x.csq.tokens + (dfld s d Page.csq 0x48 15 0 : Nat)) } })))

/-! ### Commands of the data path, by row -/

/-- A row that is a command: it acts on a dispatched command of one of its opcodes on a die that runs. -/
def onCmd (s : State) (d : DieId) (cid op : Nat) (f : State → Cmd → State) : State :=
  onDie s d (fun s => match cmdOf (s.die d) cid with
    | none => s
    | some c => if c.phase = .dispatched ∧ c.hdr.opcode = op then f s c else s)

/-! ### ABORT (R105, R126, R127) -/

/-- A control of a session's die with an opcode. -/
def ctrlOf (x : Die) (cid op : Nat) : Option Cmd := x.csq.controls.find? (fun c => c.cid == cid && c.hdr.opcode == op)

/-- Removes a control. -/
def dropCtrl (s : State) (d : DieId) (cid : Nat) : State :=
  s.updDie d (fun x => { x with csq := { x.csq with controls := x.csq.controls.filter (fun c => c.cid != cid) } })

/-- What an ABORT comes to (R105, R126, R127): its target is removed and answered, it comes too late, or it waits for the reply
of a target that runs. -/
inductive AbortSay where
  | caught (s : State)
  | late
  | waits (cid : Nat)

/-- The control with a tag that an ABORT's reply must follow: not itself, and none that waits for another (log 151). -/
def tagCtrl (x : Die) (a : Cmd) (tag : Byte) : Option Cmd :=
  x.csq.controls.find? (fun c => c.slot == a.slot && c.gen == a.gen && c.tag == tag && c.cid != a.cid && c.target.isNone)

/-- An ABORT's target among what its session's die still holds, with a tag that no command has. -/
def abortHeld (s : State) (d : DieId) (a : Cmd) (tag : Byte) : AbortSay :=
  match sessGen (s.die d) a.slot a.gen with
  | none => .late
  | some k =>
    match k.held.find? (fun m => m.tag == tag && !m.clash) with
    | none => .late
    | some m => if isControl (parseCmd m.body).opcode then .late else .caught (refuseOneHeld s d k m Stat.aborted)

/-- A command of a session whose reply waits for its route, by tag. -/
def replyOut (s : State) (home : DieId) (slot gen : Nat) (tag : Byte) : Option Cmd :=
  (allDies.flatMap (fun e => outReplies (s.die e))).find? (fun c => ofSession home slot gen c && c.tag == tag)

/-- What an ABORT does to its target. -/
def abortTarget (s : State) (d : DieId) (a : Cmd) : AbortSay :=
  let tag := BitVec.ofNat 8 (a.hdr.arg % 256)
  match tagCmd s d a.slot a.gen tag with
  | some (e, c) => if beforeMedia c then .caught (fail s e c Stat.aborted) else .waits c.cid
  | none =>
    match inboxTag s d a.slot a.gen tag with
    | some (e, c) => .caught (refuseInbox s e c Stat.aborted)
    | none =>
      match (replyOut s d a.slot a.gen tag).orElse (fun _ => tagCtrl (s.die d) a tag) with
      | some c => .waits c.cid
      | none => abortHeld s d a tag

/-- Carries out an ABORT: the target's reply goes first (R105). -/
def abortNow (s : State) (d : DieId) (a : Cmd) : State :=
  match abortTarget s d a with
  | .caught t => afterReply (answerAbort t d a 1) d a.slot a.gen a.cid
  | .late => afterReply (answerAbort s d a 2) d a.slot a.gen a.cid
  | .waits cid => s.updDie d (fun x => { x with csq := { x.csq with controls := x.csq.controls.map (fun c =>
      if c.cid == a.cid then { c with target := some cid } else c) } })

/-- ABORT: takes effect at once, ahead of the queues (R105). Held ABORTs wait for the end of an activation pause (R133). -/
def execAbort (d : DieId) (cid : Nat) (s : State) : Out :=
  .next (onDie s d (fun s =>
    match ctrlOf (s.die d) cid Op.abort with
    | none => s
    | some a => if s.pkg.act.on || a.target.isSome then s else abortNow s d a))

/-! ### RESET_SESSION (R106, R130) -/

/-- Answers the messages of a session held before its RESET_SESSION with a status; the window edge is told at once (R79). -/
def refuseHeld (s : State) (d : DieId) (slot gen status : Nat) : State :=
  match sessGen (s.die d) slot gen with
  | none => s
  | some k =>
    let s1 := putSess s d { k with held := k.held.drop k.heldOld, heldOld := 0, rateHold := false }
    tellEdge ((k.held.take k.heldOld).foldl (fun s m => if m.clash then refuse s d k m Stat.invalidField 1 else refuse s d k m status 0) s1) d slot

/-- RESET_SESSION: the session's commands held before it are answered with RESET_ABORTED, and the barrier goes to every die. -/
def execResetSession (d : DieId) (cid : Nat) (s : State) : Out :=
  .next (onDie s d (fun s =>
    match ctrlOf (s.die d) cid Op.resetSession with
    | none => s
    | some c =>
      match sessGen (s.die d) c.slot c.gen with
      | none => dropCtrl s d cid
      | some k =>
        if k.resetting ≠ some cid ∨ c.phase = .barrier then s
        else
          let s3 := (refuseHeld s d c.slot c.gen Stat.resetAborted).updDie d (fun x => { x with csq := { x.csq with controls := x.csq.controls.map (fun q =>
            if q.cid == cid then { q with waits := upDies s, phase := .barrier } else q) } })
          sendBarrier s3 (.reset d c.slot c.gen cid)))

/-- Answers the session's commands that a die has not yet executed with RESET_ABORTED. -/
def resetQueued (s : State) (d home : DieId) (slot gen : Nat) : State :=
  let mine := ofSession home slot gen
  let inb := (s.die d).csq.inbox.filter mine
  let s1 := s.updDie d (fun x => { x with csq := { x.csq with inbox := x.csq.inbox.filter (fun c => !mine c) } })
  let s2 := inb.foldl (fun s c => refuseCmd s c Stat.resetAborted) s1
  ((s2.die d).csq.cmds.filter (fun c => mine c && beforeMedia c)).foldl (fun s c => fail s d c Stat.resetAborted) s2

/-- RESET_SESSION_BARRIER: steps 1 and 2 of R106 on one die, then its confirmation (R130). -/
def actReset (s : State) (d home : DieId) (slot gen cid : Nat) : State :=
  let s1 := resetQueued s d home slot gen
  let s2 := s1.updDie d (fun x => { x with csq := { x.csq with cmds := x.csq.cmds.map (fun c =>
    if ofSession home slot gen c then { c with noReply := true } else c) } })
  let s3 := s2.updDie home (fun x => { x with csq := { x.csq with controls := x.csq.controls.map (fun q =>
    if q.cid == cid then { q with waits := q.waits.filter (· != d) } else q) } })
  settleSess s3 home slot gen

/-- RESET_SESSION_BARRIER, once its confirmation can go (R20, R475). -/
def execResetSessionBarrier (d : DieId) (s : State) : Out :=
  .next (onDie s d (fun s =>
    match (s.die d).csq.barriers with
    | .reset home slot gen cid :: rest =>
      if waitsOut s d home then s
      else actReset (s.updDie d (fun x => { x with csq := { x.csq with barriers := rest } })) d home slot gen cid
    | _ => s))

/-! ### FLUSH (R128, R129) -/

/-- FLUSH: the barrier leaves for every present, unfenced die. -/
def execFlush (d : DieId) (cid : Nat) (s : State) : Out :=
  .next (onCmd s d cid Op.flush (fun s c =>
    sendBarrier (putCmd s d { c with phase := .barrier, waits := upDies s }) (.flush d cid)))

/-- The writes that a die has acknowledged and that are not yet durable. -/
def unflushed (x : Die) : List Nat := (x.map.ring.filter (fun r => r.through.isNone)).map (fun r => r.wid)

/-- FLUSH_BARRIER: the die marks every write it acknowledged before the barrier reached it. -/
def execFlushBarrier (d : DieId) (s : State) : Out :=
  .next (onDie s d (fun s =>
    match (s.die d).csq.barriers with
    | .flush home cid :: rest =>
      s.updDie d (fun x => { x with csq := { x.csq with barriers := rest, marks := x.csq.marks ++ [(home, cid, unflushed x)] } })
    | _ => s))

/-- Whether every marked write of a flush is programmed and journalled on a die. -/
def flushed (x : Die) (wids : List Nat) : Bool := wids.all (fun w => !(x.map.ring.any (fun r => r.wid == w)))

/-- A confirmation reaches the flush's die: with the last one the reply is sent (R129); of both errors it carries DIE_OFFLINE
(log 152). -/
def flushConfirmed (s : State) (home : DieId) (cid : Nat) (e : DieId) : State :=
  match cmdOf (s.die home) cid with
  | none => s
  | some c =>
    let w := c.waits.filter (· != e)
    if w.isEmpty then
      fail s home { c with waits := [] } (if c.offline then Stat.dieOffline else if c.failed then Stat.mediaError else Stat.ok)
    else putCmd s home { c with waits := w }

/-- FLUSH_CONFIRM, once the confirmation can go (R20, R475). -/
def execFlushConfirm (d : DieId) (cid : Nat) (s : State) : Out :=
  .next (onDie s d (fun s =>
    match (s.die d).csq.marks.find? (fun m => m.2.1 == cid) with
    | none => s
    | some m =>
      if flushed (s.die d) m.2.2 && !waitsOut s d m.1 then
        flushConfirmed (s.updDie d (fun x => { x with csq := { x.csq with marks := x.csq.marks.filter (fun q => q.2.1 != cid) } }))
          m.1 cid d
      else s))

end Sys2Proof.Machine
end

