-- ==== Sys2Proof/Machine/Groups.lean ====
section
/-! DEFINITION. The geometry of the flash and the order of its units (R179 to R181, R272), block groups and their use (R224 to
R227, R238), the journal (R211 to R214), versions (R201), the entries of the map (R193 to R195), the admission budget (R202,
R203, R209), spare capacity (R250 to R253). -/
namespace Sys2Proof.Machine
open Sys2Proof

/-! ### Geometry -/

/-- Codewords per page (FCH_GEOM.PAGE_CW); the channels of a die share one geometry (log 31). -/
def pageCw (s : State) (d : DieId) : Nat := 2 ^ dfld s d (Page.fch 0) 0x44 20 18
/-- 64-byte units per page (R180, R270). -/
def pageUnits (s : State) (d : DieId) : Nat := 64 * pageCw s d
/-- Pages per wordline of a multi-level block (R265). -/
def wlPages (s : State) (d : DieId) : Nat := dfld s d (Page.fch 0) 0x44 17 16 + 1
/-- Pages of a block in a mode (R264). -/
def blockPages (s : State) (d : DieId) (qlc : Bool) : Nat :=
  if qlc then dfld s d (Page.fch 0) 0x44 12 0 else dfld s d (Page.fch 0) 0x44 12 0 / wlPages s d
/-- LUNs per CE (FCH_GEOM). -/
def lunsPerCe (s : State) (d : DieId) : Nat := dfld s d (Page.fch 0) 0x44 27 24 + 1
/-- The populated CEs (FCH_GEOM.CE_MASK). -/
def ceList (s : State) (d : DieId) : List Nat := (List.range 4).filter (dfld s d (Page.fch 0) 0x44 31 28).testBit
/-- The channels of a mask, in ascending order. -/
def chanList (mask : Nat) : List Nat := (List.range 8).filter mask.testBit
/-- How many channels a mask names. -/
def members (mask : Nat) : Nat := (chanList mask).length
/-- Bytes of a block in a mode. -/
def blockBytes (s : State) (d : DieId) (qlc : Bool) : Nat := blockPages s d qlc * pageCw s d * 4096
/-- The die's raw flash in bytes (R185). -/
def rawBytes (s : State) (d : DieId) : Nat :=
  8 * (ceList s d).length * lunsPerCe s d * s.pkg.partBlocks * blockBytes s d true
/-- The exported capacity of a die in bytes (R185), less the shrink recorded (R250). -/
def exported (s : State) (d : DieId) : Nat :=
  rawBytes s d * 7 / 8 * (100 - (s.die d).map.opPct) / 100 - (s.die d).fgr.shrinkGb * 1000000000

/-- Data units of one stripe of a group (R227). -/
def stripeUnits (s : State) (d : DieId) (g : Group) : Nat := (members g.layout - 1) * pageUnits s d
/-- Stripes handed to FCH at a time: one, or a wordline's (R265). -/
def stripeRun (s : State) (d : DieId) (g : Group) : Nat := if g.qlc then wlPages s d else 1
/-- Data units of a group. -/
def groupUnits (s : State) (d : DieId) (g : Group) : Nat := blockPages s d g.qlc * stripeUnits s d g
/-- The channel of the parity page of a stripe (R272). -/
def parityChan (g : Group) (page : Nat) : Nat := (chanList g.layout).getD ((page + g.num) % max 1 (members g.layout)) 0
/-- The location of a unit of a group in stripe order (R181, R272). -/
def unitLoc (s : State) (d : DieId) (g : Group) (u : Nat) : BitVec 56 :=
  let page := u / max 1 (stripeUnits s d g)
  let k := u % max 1 (stripeUnits s d g)
  let data := (chanList g.layout).filter (· != parityChan g page)
  locOf (data.getD (k / max 1 (pageUnits s d)) 0) g.num page (k % max 1 (pageUnits s d)) (!g.qlc)
/-- The place of a location in the stripe order of its group. -/
def locIndex (s : State) (d : DieId) (g : Group) (l : BitVec 56) : Nat :=
  let data := (chanList g.layout).filter (· != parityChan g (locPage l))
  locPage l * stripeUnits s d g + data.idxOf (locCh l) * pageUnits s d + locUnit l

/-! ### Block groups -/

/-- A block group of a die. -/
def groupOf (x : Die) (n : Nat) : Option Group := x.groups.find? (fun g => g.num == n)
/-- Changes a block group of a die. -/
def updGroup (x : Die) (n : Nat) (f : Group → Group) : Die := { x with groups := updWhere (fun g => g.num == n) f x.groups }
/-- F of R242: the FREE groups. -/
def freeGroups (x : Die) : List Group := x.groups.filter (fun g => g.st == .free)
/-- The FREE group that is opened next (R238): lowest WEAR, then more good blocks, then lowest number. -/
def leastWorn (x : Die) : Option Group :=
  argMin (fun g : Group => g.wear * 2 ^ 24 + (8 - members g.good) * 2 ^ 20 + g.num) (freeGroups x)
/-- Adds live units to a group's VALID (R228). -/
def validAdd (x : Die) (e : Extent) : Die := updGroup x e.group (fun g => { g with valid := g.valid + e.count })
/-- Takes live units from a group's VALID (R228). -/
def validSub (x : Die) (e : Extent) : Die := updGroup x e.group (fun g => { g with valid := g.valid - e.count })
/-- What lies on flash at a location. -/
def storedAt (x : Die) (l : BitVec 56) : Option Stored := x.map.stored.find? (fun r => r.loc == l)
/-- The extents of what lies at a location. -/
def extentsAt (x : Die) (l : BitVec 56) : List Extent := ((storedAt x l).map (fun r => r.extents)).getD []
/-- The units at a location are live no more. -/
def release (x : Die) (l : BitVec 56) : Die := (extentsAt x l).foldl validSub x
/-- The units at a location are live. -/
def retain (x : Die) (l : BitVec 56) : Die := (extentsAt x l).foldl validAdd x

/-! ### Channels, LUNs and operations -/

/-- Whether a LUN is retired on a channel (R292). -/
def lunRetired (x : Die) (c : ChanId) (ce lun : Nat) : Bool := (x.flash.chans.get c).retired.contains (ce * 16 + lun)

/-- Whether a channel and LUN are in service for new operations. -/
def inService (x : Die) (c : ChanId) (ce lun : Nat) : Bool :=
  (x.flash.chans.get c).st == .inService && !lunRetired x c ce lun

/-- The blocks of a group that a retired channel or LUN takes from it (R291, R292). -/
def deadChans (x : Die) (g : Group) : List Nat :=
  (chanList g.good).filter (fun c => (x.flash.chans.get (chanOf c)).st == .retired
    || lunRetired x (chanOf c) (groupCe g.num) (groupLun g.num))

/-- A flash operation's cost in tokens (R505). -/
def opCost (s : State) (d : DieId) (kind : OpKind) (slc : Bool) : Nat :=
  match kind with
  | .read => dfld s d Page.pwr 0x40 15 0
  | .erase => dfld s d Page.pwr 0x44 31 16
  | .program => if slc then dfld s d Page.pwr 0x40 31 16 else dfld s d Page.pwr 0x44 15 0

/-- Queues a flash operation at a page of a block. -/
def queueOp (s : State) (d : DieId) (kind : OpKind) (src : OpFrom) (l : BitVec 56) (urgent : Bool) (stripe : Option Nat)
    (parity : Bool) (cws : Nat) : State :=
  s.updDie d (fun x => { x with flash := { x.flash with
    ops := x.flash.ops ++ [{ op := x.flash.nextOp, kind := kind, src := src, chan := chanOf (locCh l), ce := locCe l, lun := locLun l,
                             block := locBlock l, page := locPage l, slc := locSlc l, urgent := urgent,
                             cost := opCost s d kind (locSlc l), running := false, susp := 0, paused := false,
                             stripe := stripe, parity := parity, cws := cws, since := 0, serve := [],
                             retries := 0, drop := false }]
    nextOp := x.flash.nextOp + 1 } })

/-! ### The journal -/

/-- The leaf pages that a journal record changes (R219), by INDEX. -/
def recLeaves : JBody → List Nat
  | .mapPut _ _ _ _ _ _ bucket => [bucket]
  | .mapDelete _ _ _ bucket => [bucket]
  | .mapMove _ _ _ _ bucket => [bucket]
  | .lbaMap unit count _ => (List.range (ceilDiv (unit % 806 + count) 806)).map (· + unit / 806)
  | .lbaTrim unit count => (List.range (ceilDiv (unit % 806 + count) 806)).map (· + unit / 806)
  | .lbaMove unit count _ _ => (List.range (ceilDiv (unit % 806 + count) 806)).map (· + unit / 806)
  | _ => []

/-- What a die knows of a map page; a page not listed is on flash nowhere, and empty. -/
def placeAt (x : Die) (id : PageId) : PageAt :=
  match x.map.places.find? (fun p => p.id == id) with
  | some p => p
  | none => { id := id, locs := [], jseq := 0, dirty := false }

/-- Replaces what a die knows of a map page. -/
def putPlace (x : Die) (p : PageAt) : Die :=
  { x with map := { x.map with places := p :: x.map.places.filter (fun q => q.id != p.id) } }

/-- A journal record has changed a leaf page: it reflects the record and is dirty (R219). -/
def markLeaf (tenant nsid jseq : Nat) (x : Die) (index : Nat) : Die :=
  putPlace x { placeAt x { tree := .ns tenant nsid, level := 0, index := index } with jseq := jseq, dirty := true }

/-- Appends a record to a die's journal (R211); it is on flash in the step that appends it (log 32). -/
def jAppendTo (x : Die) (tenant nsid : Nat) (b : JBody) : Die :=
  let y := { x with map := { x.map with
      journal := x.map.journal ++ [{ jseq := x.map.jseq + 1, tenant := tenant, nsid := nsid, body := b, torn := false }]
      jseq := x.map.jseq + 1
      journalAt := x.map.journalAt + 64 } }
  (recLeaves b).foldl (markLeaf tenant nsid (x.map.jseq + 1)) y

/-- Takes the next version, raising the bound by 2^20 in the journal before it is crossed (R201). -/
def takeVersion (x : Die) : Nat × Die :=
  let y := if x.map.wbound ≤ x.map.wseq + 1 then
      let z := jAppendTo x 0 0 (.wseqReserve (x.map.wbound + 2 ^ 20))
      { z with map := { z.map with wbound := x.map.wbound + 2 ^ 20 } }
    else x
  (x.map.wseq, { y with map := { y.map with wseq := x.map.wseq + 1 } })

/-- Takes the least-worn FREE group for a use, with its BG_OPEN record: PURPOSE 0 data, 1 map, 2 journal, 3 rescue (R212, R226,
R238, R272). -/
def takeFree (x : Die) (st : GroupState) (qlc copy : Bool) (purpose : Nat) : Option (Nat × Die) :=
  match leastWorn x with
  | none => none
  | some g =>
    some (g.num, jAppendTo (updGroup x g.num (fun g => { g with
      st := st
      qlc := qlc
      copy := copy
      purpose := purpose
      layout := g.good
      used := 0
      valid := 0
      failed := false })) 0 0 (.bgOpen g.num (if qlc then 1 else 0) purpose))

/-! ### The budget -/

/-- Data bytes of a group in a mode. -/
def groupBytes (s : State) (d : DieId) (g : Group) (qlc : Bool) : Nat := (members g.good - 1) * blockBytes s d qlc
/-- Erased SLC capacity held in the rescue reserve, in bytes (R203, R209). -/
def rescueBytes (s : State) (d : DieId) : Nat :=
  sumBy (fun g => groupBytes s d g false) ((s.die d).groups.filter (fun g => g.st == .rescue && g.used == 0))
/-- NECTAR_MB in bytes. -/
def nectarBytes (s : State) (d : DieId) : Nat := dfld s d Page.map 0x44 15 0 * 2 ^ 20
/-- The die's admission budget (R203). -/
def budgetOf (s : State) (d : DieId) : Nat :=
  min (s.die d).map.limShare (min (nectarBytes s d) (rescueBytes s d - 16 * 2 ^ 20))
/-- The die's dirty bytes (R202). -/
def dirtyBytes (x : Die) : Nat := sumBy (fun r : RingEntry => r.dirty) (x.map.ring.filter (fun r => r.through.isNone))

/-- Refills the rescue reserve until it covers the largest budget the limit and NECTAR_MB allow plus 16 MiB, or the
dirty bytes plus 16 MiB (R209, R238, R319), with fuel. -/
def refillRescue (s : State) (d : DieId) : Nat → State
  | 0 => s
  | n + 1 =>
    let want := max (min (s.die d).map.limShare (nectarBytes s d)) (dirtyBytes (s.die d)) + 16 * 2 ^ 20
    if rescueBytes s d < want then
      match takeFree (s.die d) .rescue false false 3 with
      | none => s
      | some (_, x) => refillRescue (s.setDie d x) d n
    else s

/-! ### Map entries -/

/-- The bucket entry of a key, valid or not (R193, R194). -/
def kvOf (x : Die) (tenant nsid : Nat) (key : Bytes) : Option BEntry :=
  x.map.kv.find? (fun e => e.tenant == tenant && e.nsid == nsid && e.key == key)
/-- The valid bucket entry of a key. -/
def kvLive (x : Die) (tenant nsid : Nat) (key : Bytes) : Option BEntry := (kvOf x tenant nsid key).filter (fun e => e.valid)
/-- Whether two entries are of one key. -/
def sameKey (a b : BEntry) : Bool := a.tenant == b.tenant && a.nsid == b.nsid && a.key == b.key
/-- Stores a bucket entry in the place of its key's, or at the end of its chain. -/
def kvPut (x : Die) (e : BEntry) : Die :=
  { x with map := { x.map with
      kv := if x.map.kv.any (sameKey e) then x.map.kv.map (fun q => if sameKey e q then e else q) else x.map.kv ++ [e] } }
/-- Removes a bucket entry. -/
def kvDel (x : Die) (e : BEntry) : Die := { x with map := { x.map with kv := x.map.kv.filter (fun q => !sameKey e q) } }
/-- The stored key-value bytes of a die. -/
def kvBytes (x : Die) : Nat := sumBy (fun e : BEntry => e.stLen) (x.map.kv.filter (fun e => e.valid))
/-- The bytes of a block namespace that a die owns. -/
def blockShare (x : Die) (d : DieId) (n : NsEntry) : Nat :=
  let chunks := ceilDiv (n.blocks * n.lbaSize) (2 ^ n.chunkShift)
  sumBy (fun i : Nat => (chunks / 256 + (if i < chunks % 256 then 1 else 0)) * 2 ^ n.chunkShift) (placeIndices x d)
/-- Bytes of the block-namespace chunks that the die owns (R252). -/
def blockNsBytes (x : Die) (d : DieId) : Nat :=
  sumBy (fun n : NsEntry => if n.ntype = 1 then blockShare x d n else 0) x.map.nstab
/-- The die's key-value pool (R252, R255). -/
def kvPool (s : State) (d : DieId) : Nat := exported s d - blockNsBytes (s.die d) d

/-- The dense entry of a local unit. -/
def denseAt (x : Die) (tenant nsid unit : Nat) : Option DEntry :=
  x.map.dense.find? (fun e => e.tenant == tenant && e.nsid == nsid && e.unit == unit)
/-- Stores a dense entry; an entry that is unmapped in every form is absent (R195). -/
def densePut (x : Die) (e : DEntry) : Die :=
  let rest := x.map.dense.filter (fun q => !(q.tenant == e.tenant && q.nsid == e.nsid && q.unit == e.unit))
  { x with map := { x.map with
      dense := if e.entry == 0 && e.nectar.isNone && e.durable == 0 then rest else e :: rest } }
/-- The dense entry of a local unit, unmapped when absent. -/
def denseGet (x : Die) (tenant nsid unit : Nat) : DEntry :=
  match denseAt x tenant nsid unit with
  | some e => e
  | none => { tenant := tenant, nsid := nsid, unit := unit, entry := 0, nectar := none, durable := 0 }

/-! ### Spare capacity (R250 to R253) -/

/-- q_sys: data bytes, counted in QLC mode, of the RESCUE and SYSTEM groups. -/
def qSys (s : State) (d : DieId) : Nat :=
  sumBy (fun g : Group => groupBytes s d g true) ((s.die d).groups.filter (fun g => g.st == .rescue || g.st == .sys))

/-- The spare margin M in bytes (R250). -/
def margin (s : State) (d : DieId) : Int :=
  let all := sumBy (fun g : Group => groupBytes s d g true) ((s.die d).groups.filter (fun g => g.st != .retired && g.st != .anchor))
  (all : Int) - (exported s d : Int) - (qSys s d : Int) - ((rawBytes s d * dfld s d Page.fgr 0x5C 7 0 / 100 : Nat) : Int)

/-- The policy in force: SPARE_POLICY 0 is the part default of R1 (R251). -/
def policyShrinks (s : State) (d : DieId) : Bool :=
  match (s.die d).map.policy with
  | 0 => s.part != .stz8880
  | 1 => true
  | _ => false

/-- Sets or clears space stop; FGR INT bit 4 marks a change of FGR_SPACE (R253, R259). -/
def setSpaceStop (s : State) (d : DieId) (on : Bool) : State :=
  if (s.die d).map.spaceStop = on then s
  else raiseInt (s.updDie d (fun x => { x with map := { x.map with spaceStop := on } })) (dreg d Page.fgr 0) 4

/-- SHRINK: takes the deficit in whole GB from the free part of the key-value pool with CAP_SHRINK, or enters space stop
(R252, R253). -/
def shrink (s : State) (d : DieId) : State :=
  let gb := ceilDiv (-(margin s d)).toNat 1000000000
  if gb * 1000000000 ≤ kvPool s d - kvBytes (s.die d) then
    let s1 := s.updDie d (fun x =>
      jAppendTo { x with fgr := { x.fgr with shrinkGb := x.fgr.shrinkGb + gb } } 0 0 (.capShrink (x.fgr.shrinkGb + gb)))
    raiseInt (setSpaceStop s1 d false) (dreg d Page.fgr 0) 3
  else setSpaceStop s d true

/-- READ_ONLY: appends READ_ONLY_ENTER and reports to die 0, once (R254). -/
def reportReadOnly (s : State) (d : DieId) : State :=
  if (s.die d).map.readOnly || (s.die d).fgr.roReport then s
  else s.updDie d (fun x => jAppendTo { x with fgr := { x.fgr with roReport := true } } 0 0 (.readOnlyEnter d.val))

/-- Applies the policy in force when M has fallen to 0 or below (R250, R251). -/
def applyPolicy (s : State) (d : DieId) : State :=
  if 0 < margin s d then s
  else if policyShrinks s d then shrink s d
  else reportReadOnly s d

/-- Refills the rescue reserve; a change of q_sys has the die recompute M (R209, R250). -/
def fillRescue (s : State) (d : DieId) : State :=
  let s1 := refillRescue s d 16384
  if qSys s1 d = qSys s d then s1 else applyPolicy s1 d

/-- Takes a FREE group for the map or the journal once the rescue reserve is full (R226, R238); a change of q_sys has the die
recompute M (R250). -/
def takeSys (s : State) (d : DieId) (purpose : Nat) : Option (Nat × State) :=
  let s0 := fillRescue s d
  (takeFree (s0.die d) .sys false false purpose).map (fun p => (p.1, applyPolicy (s0.setDie d p.2) d))

/-- Journal pages of a group. -/
def journalCap (s : State) (d : DieId) (g : Nat) : Nat := ((groupOf (s.die d) g).map (fun q => groupUnits s d q / 64)).getD 0

/-- Opens the journal's next group while the last one still has room for 64 pages (R211, R226, log 162). -/
def ensureJournal (s : State) (d : DieId) : State :=
  let page := (s.die d).map.jseq / 63
  let next := match (s.die d).map.jgroups.getLast? with
    | none => page
    | some (g, first) => first + journalCap s d g
  if page + 64 < next then s
  else match takeSys s d 2 with
    | none => s
    | some (g, s1) => s1.updDie d (fun x => { x with map := { x.map with jgroups := x.map.jgroups ++ [(g, next)] } })

/-- The location of a journal page (R211); 0 when no group of the journal holds it. -/
def jpageLoc (s : State) (d : DieId) (page : Nat) : BitVec 56 :=
  match (s.die d).map.jgroups.find? (fun p => decide (p.2 ≤ page ∧ page < p.2 + journalCap s d p.1)) with
  | none => 0
  | some p => match groupOf (s.die d) p.1 with
    | none => 0
    | some g => unitLoc s d g ((page - p.2) * 64)

/-- A DELETE or TRIM has freed data: a die in space stop retries R252 (R253). -/
def retryShrink (s : State) (d : DieId) : State := if (s.die d).map.spaceStop then shrink s d else s

end Sys2Proof.Machine
end

