-- ==== Sys2Proof/Machine/Pages.lean ====
section
/-! DEFINITION. The map as pages on flash (R192 to R200): the trees of a die, what each page holds, writing pages
copy-on-write in the groups of the map, and the map-page cache. -/
namespace Sys2Proof.Machine
open Sys2Proof

/-! ### Trees -/

/-- Leaf pages of a namespace's full table on a die: 2^b bucket pages of 126 entries, or a dense page for every 806 units
of its share (R193, R195). -/
def nsPages (x : Die) (d : DieId) (n : NsEntry) : Nat :=
  if n.ntype = 1 then ceilDiv (ceilDiv (blockShare x d n) 4096) 806 else 2 ^ n.bucketBits

/-- Directory levels over some leaf pages: the fewest whose top page covers them (R195), with fuel. -/
def levelsOver : Nat → Nat → Nat
  | 0, _ => 0
  | k + 1, n => if n ≤ 1 then 0 else levelsOver k (ceilDiv n 806) + 1

/-- Directory pages over some leaf pages, with fuel. -/
def dirsOver : Nat → Nat → Nat
  | 0, _ => 0
  | k + 1, n => if n ≤ 1 then 0 else ceilDiv n 806 + dirsOver k (ceilDiv n 806)

/-- Leaf pages of a tree (R195, R196): 131 of the namespace table, one for every 252 groups of the block-group table. -/
def treeLeaves (x : Die) (d : DieId) : Tree → Nat
  | .ns t n => ((nsOf x t n).map (nsPages x d)).getD 1
  | .nstab => 131
  | .bgtab => ((argMax (fun g : Group => g.num) x.groups).map (fun g => g.num)).getD 0 / 252 + 1

/-- Directory levels of a tree. -/
def treeLevels (x : Die) (d : DieId) (t : Tree) : Nat := levelsOver 5 (treeLeaves x d t)

/-- The location of the top page of a tree; 0 for an empty tree (R196). -/
def topOf (x : Die) (d : DieId) (t : Tree) : BitVec 56 :=
  (placeAt x { tree := t, level := treeLevels x d t, index := 0 }).locs.headD 0

/-- The overflow pages of a die: a bucket's entries beyond each 126 (R193). -/
def overflowPages (x : Die) : Nat :=
  sumBy (fun b : Nat × Nat × Nat =>
    ((x.map.kv.filter (fun e => e.tenant == b.1 && e.nsid == b.2.1 && e.bucket == b.2.2)).length - 1) / 126)
    (x.map.kv.map (fun e => (e.tenant, e.nsid, e.bucket))).eraseDups

/-- Pages of the die's resident map in full-table mode, directory pages among them (R199, R200). -/
def residentPages (x : Die) (d : DieId) : Nat :=
  sumBy (fun n => nsPages x d n + dirsOver 5 (nsPages x d n)) x.map.nstab + overflowPages x

/-- Whether some more pages would take the resident map of a die in full-table mode beyond raw flash / 800 (R200). -/
def tableBeyond (s : State) (d : DieId) (more : Nat) : Bool :=
  (s.die d).map.mapMode && decide (rawBytes s d / 800 < (residentPages (s.die d) d + more) * 4096)

/-- Whether a new key would need an overflow page that full-table mode has no room for (R200). -/
def tableFull (s : State) (d : DieId) (tenant nsid bucket : Nat) : Bool :=
  let x := s.die d
  let n := (x.map.kv.filter (fun e => e.tenant == tenant && e.nsid == nsid && e.bucket == bucket)).length
  decide (0 < n ∧ n % 126 = 0) && tableBeyond s d 1

/-! ### What a page holds -/

/-- A list cut into parts of a length, with fuel. -/
def partsOf {α : Type} (n : Nat) : Nat → List α → List (List α)
  | 0, _ => []
  | _ + 1, [] => []
  | k + 1, l => l.take n :: partsOf n k (l.drop n)

/-- The durable form of a bucket entry, which a page on flash holds (R206). -/
def durableKv (e : BEntry) : Option BEntry :=
  e.durable.map (fun q => { e with version := q.1, loc := q.2.1, stLen := q.2.2, valid := true, nectar := false })

/-- The durable form of a dense entry. -/
def durableDense (e : DEntry) : DEntry := { e with entry := e.durable, nectar := none }

/-- The pages of a bucket: 126 entries each, chained through OVERFLOW, which is filled in when they are written (R193). -/
def bucketBodies (x : Die) (t n index : Nat) : List MapBody :=
  let es := (x.map.kv.filter (fun e => e.tenant == t && e.nsid == n && e.bucket == index)).filterMap durableKv
  (partsOf 126 (es.length + 1) es).map (fun l => .bucket l 0)

/-- The dense page of a namespace (R195); none when it has no mapped unit. -/
def denseBodies (x : Die) (t n index : Nat) : List MapBody :=
  let es := (x.map.dense.filter (fun e => e.tenant == t && e.nsid == n && e.unit / 806 == index && e.durable != 0)).map durableDense
  if es.isEmpty then [] else [.dense es]

/-- A directory page: its written children by their place (R195). -/
def dirBodies (x : Die) (id : PageId) : List MapBody :=
  let es := x.map.places.filterMap (fun p =>
    if p.id.tree = id.tree ∧ p.id.level + 1 = id.level ∧ p.id.index / 806 = id.index then
      p.locs.head?.map (fun l => (p.id.index % 806, locDense l)) else none)
  if es.isEmpty then [] else [.dir es]

/-- The bodies that a page's place on flash is to hold: the page and its overflow pages; none for an absent one. -/
def bodiesOf (x : Die) (d : DieId) (id : PageId) : List MapBody :=
  match id.level with
  | 0 => match id.tree with
    | .ns t n => match nsOf x t n with
      | none => []
      | some e => if e.ntype = 1 then denseBodies x t n id.index else bucketBodies x t n id.index
    | .nstab =>
      let rows := (x.map.nstab.filter (fun n => n.slot / 126 == id.index)).map (fun n =>
        ({ ns := n, top := topOf x d (.ns n.tenant n.nsid), levels := treeLevels x d (.ns n.tenant n.nsid) } : NsRow))
      if rows.isEmpty then [] else [.nstab rows]
    | .bgtab =>
      let gs := x.groups.filter (fun g => g.num / 252 == id.index)
      if gs.isEmpty then [] else [.bgtab gs]
  | _ => dirBodies x id

/-- A page body with its OVERFLOW. -/
def MapBody.chained (next : BitVec 56) : MapBody → MapBody
  | .bucket es _ => .bucket es next
  | b => b

/-! ### Writing pages (R197, R198) -/

/-- The map group that takes the next page: one with room, else the next FREE group. -/
def mapGroup (s : State) (d : DieId) : Option (Group × State) :=
  match (s.die d).groups.find? (fun g => g.st == .sys && g.purpose == 1 && decide (g.used + 64 ≤ groupUnits s d g)) with
  | some g => some (g, s)
  | none => (takeSys s d 1).bind (fun p => (groupOf (p.2.die d) p.1).map (fun g => (g, p.2)))

/-- Writes one page to a new location (R192, R198), with its unit tag of KIND 3 (R229). None when no group can be opened. -/
def writePage (s : State) (d : DieId) (id : PageId) (jseq : Nat) (body : MapBody) : Option (BitVec 56 × State) :=
  (mapGroup s d).map (fun p =>
    let loc := unitLoc p.2 d p.1 p.1.used
    (loc, p.2.updDie d (fun x =>
      let y := { x with map := { x.map with
          pages := x.map.pages ++ [{ loc := loc, id := id, jseq := jseq, body := body }]
          tags := x.map.tags ++ [{ group := p.1.num, cw := p.1.used / 64, tag := tagBytes 3 0xFF 0 0 0 }] } }
      updGroup y p.1.num (fun g => { g with used := g.used + 64, valid := g.valid + 64 }))))

/-- Writes a page and its overflow pages, the last of the chain first: their locations in chain order. -/
def writeChain (s : State) (d : DieId) (id : PageId) (jseq : Nat) : List MapBody → Option (List (BitVec 56) × State)
  | [] => some ([], s)
  | b :: rest =>
    match writeChain s d id jseq rest with
    | none => none
    | some r => (writePage r.2 d id jseq (b.chained (r.1.headD 0))).map (fun p => (p.1 :: r.1, p.2))

/-- The directory page over a page is to be written, too. -/
def markParent (d : DieId) (jseq : Nat) (id : PageId) (x : Die) : Die :=
  if id.level < treeLevels x d id.tree then
    let up := placeAt x { tree := id.tree, level := id.level + 1, index := id.index / 806 }
    putPlace x { up with dirty := true, jseq := max up.jseq jseq }
  else x

/-- Writes a dirty page to a new location and updates its directory entry; its old location stays (R198). -/
def writePlace (s : State) (d : DieId) (p : PageAt) : Option State :=
  (writeChain s d p.id p.jseq (bodiesOf (s.die d) d p.id)).map (fun r =>
    r.2.updDie d (fun x => markParent d p.jseq p.id (putPlace x { p with locs := r.1, dirty := false })))

/-- Whether a tree is one of the two tables. -/
def Tree.isTable : Tree → Bool
  | .ns .. => false
  | _ => true

/-- Writes the dirty pages of one level, of the namespaces' trees or of the tables'. -/
def writeLevel (d : DieId) (tables : Bool) (s : State) (level : Nat) : Option State :=
  ((s.die d).map.places.filter (fun p => p.dirty && p.id.level == level && p.id.tree.isTable == tables)).foldl
    (fun o p => o.bind (fun s => writePlace s d p)) (some s)

/-- Writes the dirty pages of trees, leaf pages first. -/
def writeTrees (s : State) (d : DieId) (tables : Bool) : Option State :=
  (List.range 6).foldl (fun o level => o.bind (fun s => writeLevel d tables s level)) (some s)

/-- The leaf pages of the tables that are to be written: those with an entry and those written before. -/
def tableLeaves (x : Die) : List PageId :=
  ((x.map.nstab.map (fun n => ({ tree := .nstab, level := 0, index := n.slot / 126 } : PageId)))
    ++ (x.groups.map (fun g => ({ tree := .bgtab, level := 0, index := g.num / 252 } : PageId)))
    ++ ((x.map.places.filter (fun p => p.id.tree.isTable && p.id.level == 0)).map (fun p => p.id))).eraseDups

/-- Steps 2 to 4 of R215: the dirty map pages and the directory pages over them, then the two tables. -/
def writeMap (s : State) (d : DieId) : Option State :=
  (writeTrees s d false).bind (fun s1 =>
    writeTrees (s1.updDie d (fun x => (tableLeaves x).foldl (fun x id =>
      putPlace x { placeAt x id with dirty := true, jseq := x.map.jseq }) x)) d true)

/-- A system group that holds nothing any more is released (R226). -/
def releaseSys (s : State) (d : DieId) (n : Nat) : State :=
  s.updDie d (fun x => updGroup x n (fun g =>
    { g with st := .closed, valid := 0, used := groupUnits s d g, closedS := x.mon.devTime / 1000000000 }))

/-- Once a root is written, the pages that it does not name are given up, and full map groups without a page are released
(R198, R226). -/
def dropPages (s : State) (d : DieId) : State :=
  let named := (s.die d).map.places.flatMap (fun p => p.locs)
  let gone := (s.die d).map.pages.filter (fun p => !named.contains p.loc)
  let s1 := s.updDie d (fun x =>
    let y := gone.foldl (fun x p => updGroup x (locGroup p.loc) (fun g => { g with valid := g.valid - 64 })) x
    { y with map := { y.map with pages := y.map.pages.filter (fun p => named.contains p.loc) } })
  ((s1.die d).groups.filter (fun g => g.st == .sys && g.purpose == 1 && decide (groupUnits s1 d g < g.used + 64)
    && (s1.die d).map.pages.all (fun p => locGroup p.loc != g.num))).foldl (fun s g => releaseSys s d g.num) s1

/-- The journal's groups before the page of a JSEQ are released (R226). -/
def dropJournal (s : State) (d : DieId) (jseq : Nat) : State :=
  let old := (s.die d).map.jgroups.filter (fun p => decide (p.2 + journalCap s d p.1 ≤ jpageOf jseq))
  let s1 := old.foldl (fun s p => releaseSys s d p.1) s
  s1.updDie d (fun x => { x with map := { x.map with jgroups := x.map.jgroups.filter (fun p => !old.contains p) } })

/-! ### The map-page cache (R197) -/

/-- A leaf page of the cache: tenant, namespace, INDEX, reference bit. -/
abbrev MapPage := Nat × Nat × Nat × Bool

/-- Whether two cached pages are one page. -/
def samePage (a b : MapPage) : Bool := a.1 == b.1 && a.2.1 == b.2.1 && a.2.2.1 == b.2.2.1

/-- The page that a cached page is. -/
def pageIdOf (p : MapPage) : PageId := { tree := .ns p.1 p.2.1, level := 0, index := p.2.2.1 }

/-- Makes room for one page by the clock pointer at the head of the list: a page with its reference bit, or one that must
stay, passes to the tail without it, the first other page leaves; with fuel. -/
def clockEvict (stay : MapPage → Bool) : Nat → List MapPage → List MapPage
  | 0, l => l.eraseP (fun p => !stay p)
  | _ + 1, [] => []
  | n + 1, p :: r => if p.2.2.2 || stay p then clockEvict stay n (r ++ [(p.1, p.2.1, p.2.2.1, false)]) else r

/-- Brings a page into a level of the cache. -/
def cacheIn (stay : MapPage → Bool) (cap : Nat) (p : MapPage) (l : List MapPage) : List MapPage :=
  if l.any (samePage p) then l.map (fun q => if samePage p q then p else q)
  else (if cap ≤ l.length then clockEvict stay l.length l else l) ++ [p]

/-- Whether a page holds an entry that is not durable: it stays in DRAM, whose side table holds the durable form (R206,
log 163). -/
def holdsNectar (x : Die) (p : MapPage) : Bool :=
  x.map.kv.any (fun e => e.nectar && e.tenant == p.1 && e.nsid == p.2.1 && e.bucket == p.2.2.1)
    || x.map.dense.any (fun e => e.nectar.isSome && e.tenant == p.1 && e.nsid == p.2.1 && e.unit / 806 == p.2.2.1)

/-- Leaf pages that the DRAM cache holds: MAP_CACHE_MB, or every page in full-table mode (R199). -/
def cachePages (s : State) (d : DieId) : Nat :=
  if (s.die d).map.mapMode then 2 ^ 40 else dfld s d Page.map 0x40 19 0 * 256

/-- A leaf page that leaves DRAM is written first when it is dirty (R198). -/
def evictPage (d : DieId) (s : State) (p : MapPage) : State :=
  let q := placeAt (s.die d) (pageIdOf p)
  if q.dirty then (writePlace s d q).getD s else s

/-- Brings a leaf page into both levels (R197). -/
def pageIn (s : State) (d : DieId) (tenant nsid index : Nat) : State :=
  let p : MapPage := (tenant, nsid, index, true)
  let old := (s.die d).map.cache
  let new := cacheIn (holdsNectar (s.die d)) (cachePages s d) p old
  let s1 := (old.filter (fun q => !new.any (samePage q))).foldl (evictPage d) s
  s1.updDie d (fun x => { x with map := { x.map with
    l0 := cacheIn (fun _ => false) 2048 p x.map.l0
    cache := new } })

/-- Whether a leaf page is at hand: in a level of the cache, resident, or on flash nowhere and so empty (R195, R197, R199). -/
def pageHere (x : Die) (tenant nsid index : Nat) : Bool :=
  let p : MapPage := (tenant, nsid, index, true)
  x.map.mapMode || x.map.l0.any (samePage p) || x.map.cache.any (samePage p) || (placeAt x (pageIdOf p)).locs.isEmpty

/-- Whether a read of a map page is outstanding. -/
def pageRead (x : Die) (id : PageId) : Bool :=
  x.flash.ops.any (fun o => match o.src with
    | .mapPage _ q => q == id
    | _ => false)

/-- A lookup of a leaf page for a command: in L0, then in DRAM, then on flash; counted in MAP_L0_HITS, MAP_DRAM_HITS and
MAP_PAGE_READS (R197, R222). A miss at both levels queues one SLC page read; of a bucket chain each page is read. -/
def mapTouch (s : State) (d : DieId) (c : Cmd) (index : Nat) : State :=
  let m := (s.die d).map
  let p : MapPage := (c.tenant, c.hdr.nsid, index, true)
  if pageHere (s.die d) c.tenant c.hdr.nsid index then
    let hit := if m.l0.any (samePage p) then some 0x98 else if m.mapMode || m.cache.any (samePage p) then some 0x9C else none
    pageIn (match hit with
      | some off => if c.missed then s else regBump s (dreg d Page.map off) 1
      | none => s) d c.tenant c.hdr.nsid index
  else if pageRead (s.die d) (pageIdOf p) then s
  else (placeAt (s.die d) (pageIdOf p)).locs.foldl (fun s l =>
    queueOp (regBump s (dreg d Page.map 0xA0) 1) d .read (.mapPage c.cid (pageIdOf p)) l c.funded none false 1) s

/-- Whether the leaf pages of a command's lookup are all at hand. -/
def pagesHere (x : Die) (c : Cmd) (l : List Nat) : Bool := l.all (fun i => pageHere x c.tenant c.hdr.nsid i)

/-- Looks up the leaf pages of a command. -/
def touchAll (s : State) (d : DieId) (c : Cmd) (l : List Nat) : State := l.foldl (fun s i => mapTouch s d c i) s

/-- A command looks its leaf pages up and goes on once they are all at hand (R197). -/
def withPages (s : State) (d : DieId) (c : Cmd) (l : List Nat) (f : State → Cmd → State) : State :=
  if pagesHere (s.die d) c l then f (touchAll s d c l) c else putCmd (touchAll s d c l) d { c with missed := true }

end Sys2Proof.Machine
end

