-- ==== Sys2Proof/Machine/Map.lean ====
section
/-! DEFINITION. MAP: value records and block data, the Nectar ring and the packer (R189 to R191, R202 to R208, R229), and
admission (R201 to R206). -/
namespace Sys2Proof.Machine
open Sys2Proof

/-! ### Records -/

/-- The plaintext of a value record: none when its key slot is EMPTY or it fails verification (R350). -/
def openRec (c : Cry) (r : Rec) : Option (Bytes × Bytes) :=
  match dataSlot c r.tenant r.keygen with
  | none => none
  | some k =>
    match Crypto.gcmOpen (dataKey c k) r.nonce (recAad r) r.cipher r.gtag with
    | none => none
    | some p => some (p.take r.keyLen, p.drop r.keyLen)

/-- Encrypts a value record of one extent under a data slot (R189, R190, R350, R351). -/
def sealRec (c : Cry) (d : DieId) (k : DataSlot) (tenant nsid version : Nat) (key value : Bytes) : Rec :=
  let r0 : Rec := { tenant := tenant, nsid := nsid, keyLen := key.length, valueLen := value.length, version := version,
                    nonce := recordIv d k.num k.ctr, keygen := k.gen, cipher := [], gtag := [] }
  let r := Crypto.gcmSeal (dataKey c k) r0.nonce (recAad r0) (key ++ value)
  { r0 with cipher := r.1, gtag := r.2 }

/-- A record whose version and extents have become known: its tag is made again over the header and the extent table, its
ciphertext stays (R190, R201, R205, log 34). Without its key nothing can make the tag. -/
def finishRec (c : Cry) (r : Rec) (version : Nat) (table : Bytes) : Rec :=
  let r1 := { r with version := version, table := table }
  if recAad r1 = recAad r then r1
  else match dataSlot c r.tenant r.keygen with
    | none => r1
    | some k =>
      let plain := (Crypto.gcmSeal (dataKey c k) r.nonce [] r.cipher).1
      { r1 with gtag := (Crypto.gcmSeal (dataKey c k) r.nonce (recAad r1) plain).2 }

/-- Whether the die holds any data key of a tenant; without one its slots are EMPTY (R345, R362). -/
def hasDataKey (c : Cry) (tenant : Nat) : Bool := c.data.any (fun k => k.tenant == tenant && k.xts == none)

/-- A command that needs CRY while its slot is EMPTY ends without effect, and no reply is sent (R362). -/
def endQuiet (s : State) (d : DieId) (c : Cmd) : State := fail s d { c with noReply := true } Stat.authFail

/-- A write refused under R353. -/
def exhaust (s : State) (d : DieId) (c : Cmd) : State :=
  raiseInt (regBump (fail s d c Stat.keyExhausted) (dreg d Page.cry 0xA0) 1) (dreg d Page.cry 0) 3

/-! ### Payloads -/

/-- The units that a payload takes on flash in a number of extents (R190). -/
def unitsIn (extents : Nat) : Payload → Nat
  | .record r _ _ _ => ceilDiv (recLen r.keyLen r.valueLen + 12 * (extents - 1)) 64
  | .blocks bs => 64 * bs.length
  | .erase .. => 0
  | .trim .. => 0

/-- The units that a payload takes in the Nectar ring (R202). -/
def payloadUnits (p : Payload) : Nat := unitsIn 1 p

/-- Whether a write is a record larger than DIRECT_KB (R208). -/
def direct (s : State) (d : DieId) : Payload → Bool
  | .record r _ _ _ => decide (dfld s d Page.map 0x44 31 16 * 1024 < recLen r.keyLen r.valueLen)
  | _ => false

/-- The tenant of a payload's unit tags (R229). -/
def payloadTenant : Payload → Nat
  | .record r _ _ _ => r.tenant
  | .blocks bs => (bs.head?.map (fun b => b.tenant)).getD 0
  | .erase t _ _ _ _ _ _ => t
  | .trim t _ _ _ => t

/-- Units placed so far. -/
def placedUnits (e : List Extent) : Nat := sumBy (fun x : Extent => x.count) e

/-- Whether a ring entry lies wholly in stripes. -/
def fullyPlaced (r : RingEntry) : Bool := decide (unitsIn r.placed.length r.payload ≤ placedUnits r.placed)

/-- Whether a unit of a group follows on the last extent (R181). -/
def follows (l : List Extent) (group pos : Nat) : Bool :=
  (l.getLast?.map (fun q => q.group == group && q.first + q.count == pos)).getD false

/-- Adds a run of units, joined to the last extent when it follows on it. -/
def addExtent (l : List Extent) (e : Extent) : List Extent :=
  match l.getLast? with
  | some q => if follows l e.group e.first then l.dropLast ++ [{ q with count := q.count + e.count }] else l ++ [e]
  | none => [e]

/-- Whether a payload is block data. -/
def isBlocks : Payload → Bool
  | .blocks _ => true
  | _ => false

/-! ### The packer (R207, R208) -/

/-- Bytes of SLC-mode data in the SLC cache. -/
def slcUsed (x : Die) : Nat :=
  64 * sumBy (fun g : Group => g.used) (x.groups.filter (fun g => !g.qlc && (g.st == .opened || g.st == .closed)))

/-- Whether a write goes to a QLC group (R205, R208); one placed in part goes on in the mode of its group (R191). -/
def wantsQlc (s : State) (d : DieId) (r : RingEntry) : Bool :=
  match r.placed.getLast?.bind (fun e => groupOf (s.die d) e.group) with
  | some g => g.qlc
  | none => r.through.isNone && (decide ((s.die d).map.slcTarget ≤ slcUsed (s.die d)) || direct s d r.payload)

/-- Places units of the ring's writes of one mode into the units [pos, stop) of a group, in admission order, with fuel:
the entries with their new extents and the first unit left. Block data starts at a codeword (R182). A record that would need
a 256th extent starts anew in the group just opened (R191). -/
def packInto (mode : RingEntry → Bool) (group sid stop : Nat) : Nat → Nat → List RingEntry → List RingEntry × Nat
  | 0, pos, l => (l, pos)
  | _ + 1, pos, [] => ([], pos)
  | n + 1, pos, r :: rest =>
    if fullyPlaced r then
      let q := packInto mode group sid stop n pos rest
      (r :: q.1, q.2)
    else if !mode r then (r :: rest, pos)
    else if isBlocks r.payload then
      let p := ceilDiv pos 64 * 64
      if stop < p + 64 then (r :: rest, pos)
      else packInto mode group sid stop n (p + 64)
        ({ r with placed := r.placed ++ [{ group := group, first := p, count := 64 }],
                  stripes := if r.stripes.contains sid then r.stripes else r.stripes ++ [sid] } :: rest)
    else if 255 ≤ r.placed.length && !follows r.placed group pos then
      packInto mode group sid stop n pos ({ r with placed := [], stripes := [] } :: rest)
    else
      let extents := r.placed.length + (if follows r.placed group pos then 0 else 1)
      let k := min (unitsIn extents r.payload - placedUnits r.placed) (stop - pos)
      if k = 0 then (r :: rest, pos)
      else packInto mode group sid stop n (pos + k)
        ({ r with placed := addExtent r.placed { group := group, first := pos, count := k },
                  stripes := if r.stripes.contains sid then r.stripes else r.stripes ++ [sid] } :: rest)

/-- Whether a channel holds a parity page of one of the stripes of a run. -/
def holdsParity (g : Group) (page run c : Nat) : Bool := (List.range run).any (fun i => parityChan g (page + i) == c)

/-- Units of extents that lie in a run of a group. -/
def unitsWithin (es : List Extent) (group first count : Nat) : Nat :=
  sumBy (fun e : Extent => if e.group = group then min (e.first + e.count) (first + count) - max e.first first else 0) es

/-- What a member's program of a run of stripes counts for: the tenant of each codeword's unit tag and the units in it; padding
counts for none (R229, R232, R379). -/
def programFills (s : State) (d : DieId) (g : Group) (tags : List (Nat × Bytes)) (l : List RingEntry) (c : Nat) : List (Nat × Nat) :=
  (tags.filter (fun t => tagKind t.2 != 0 && locCh (unitLoc s d g (64 * t.1)) == c)).map (fun t =>
    (tagTenant t.2, sumBy (fun e : RingEntry => unitsWithin e.placed g.num (64 * t.1) 64) l))

/-- Queues the programs of a run of stripes: one for each member's channel (R265, R274). -/
def queuePrograms (s : State) (d : DieId) (g : Group) (page run sid : Nat) (src : OpFrom) (fills : Nat → List (Nat × Nat)) : State :=
  (chanList g.layout).foldl (fun s c =>
    let n := (s.die d).flash.nextOp
    (queueOp s d .program src (locOf c g.num page 0 (!g.qlc)) false (some sid) (holdsParity g page run c) 0).updDie d (fun x =>
      { x with flash := { x.flash with ops := updWhere (fun o => o.op == n) (fun o => { o with fills := fills c }) x.flash.ops } })) s

/-- Whether an extent holds a unit of a group. -/
def holdsUnit (group u : Nat) (e : Extent) : Bool := e.group == group && decide (e.first ≤ u ∧ u < e.first + e.count)

/-- The location of the first unit of a placed payload. -/
def placedLoc (s : State) (d : DieId) (e : List Extent) : BitVec 56 :=
  match e with
  | [] => 0
  | x :: _ => match groupOf (s.die d) x.group with
    | none => 0
    | some g => unitLoc s d g x.first

/-- The entries that are records and whose header lies in a codeword, with its unit there (R229). -/
def headersIn (group cw : Nat) (l : List RingEntry) : List (RingEntry × Nat) :=
  l.filterMap (fun e => match e.placed with
    | [] => none
    | x :: _ => if !isBlocks e.payload && x.group == group && x.first / 64 == cw then some (e, x.first % 64) else none)

/-- FIRST of a unit tag (R229). -/
def firstOf (group cw : Nat) (l : List RingEntry) : Nat :=
  ((argMin id ((headersIn group cw l).map (fun p => p.2)))).getD 0xFF

/-- The unit tag of a codeword of a group (R229). TENANT and NSID are those of what covers its first unit, else of the first
record that starts in it (log 164). -/
def unitTag (s : State) (d : DieId) (group : Nat) (l : List RingEntry) (cw : Nat) : Bytes :=
  match l.find? (fun e => e.placed.any (holdsUnit group (cw * 64))) with
  | some e => match e.payload with
    | .blocks bs => match (bs.zip e.placed).find? (fun p => holdsUnit group (cw * 64) p.2) with
      | some p => tagBytes 2 0xFF p.1.tenant p.1.nsid p.1.unit
      | none => tagBytes 0 0xFF 0 0 0
    | .record r _ _ _ =>
      let began := (e.placed.head?.map (fun x => x.group == group && x.first == cw * 64)).getD false
      tagBytes 1 (firstOf group cw l) r.tenant r.nsid (if began then 0 else (placedLoc s d e.placed).toNat)
    | _ => tagBytes 0 0xFF 0 0 0
  | none => match (headersIn group cw l).find? (fun p => p.2 == firstOf group cw l) with
    | some (e, first) => match e.payload with
      | .record r _ _ _ => tagBytes 1 first r.tenant r.nsid 0
      | _ => tagBytes 0 0xFF 0 0 0
    | none => tagBytes 0 0xFF 0 0 0

/-- The unit tags of the codewords of a run of units, by codeword. -/
def unitTags (s : State) (d : DieId) (group first span : Nat) (l : List RingEntry) : List (Nat × Bytes) :=
  (List.range (span / 64)).map (fun i => (first / 64 + i, unitTag s d group l (first / 64 + i)))

/-- Records a run of stripes in staging, with the unit tags of its codewords, and queues its programs. -/
def addStripe (s : State) (d : DieId) (g : Group) (first count : Nat) (l : List RingEntry) (forager : Bool) : State :=
  let run := stripeRun s d g
  let sid := (s.die d).flash.nextSid
  let writes := (l.filter (fun e => e.stripes.contains sid)).map (fun e => e.wid)
  let tags := unitTags s d g.num first (run * stripeUnits s d g) l
  let st : Stripe := { sid := sid, group := g.num, page := first / max 1 (stripeUnits s d g), first := first, count := count,
                       writes := writes, left := members g.layout, pulsed := [], forager := forager, qlc := g.qlc,
                       tags := tags }
  let s1 := s.updDie d (fun x => { x with flash := { x.flash with stripes := x.flash.stripes ++ [st], nextSid := sid + 1 } })
  queuePrograms s1 d g (first / max 1 (stripeUnits s d g)) run sid (if forager then .forager else .packer)
    (programFills s d g tags l)

/-- The open group of a mode for a use, opened when there is none, once the rescue reserve is full (R208, R238); one that is to
close takes no more. -/
def openFor (s : State) (d : DieId) (qlc copy : Bool) : Option (Group × State) :=
  match (s.die d).groups.find? (fun g => g.st == .opened && g.qlc == qlc && g.copy == copy && !g.failed && !g.rebuild
      && decide (g.used < groupUnits s d g)) with
  | some g => some (g, s)
  | none =>
    let s0 := fillRescue s d
    match takeFree (s0.die d) .opened qlc copy 0 with
    | none => none
    | some (n, x) => (groupOf x n).map (fun g => (g, s0.setDie d x))

/-- The packer assembles the next stripe, or the stripes of a wordline, from the first writes of the ring that are not
yet placed; a stripe that they do not fill is padded (R207, R208, R265, R275, log 35). -/
def packStripe (s : State) (d : DieId) : State :=
  match (s.die d).map.ring.find? (fun r => !fullyPlaced r) with
  | none => s
  | some head =>
    let qlc := wantsQlc s d head
    match openFor s d qlc false with
    | none => s
    | some (g, s1) =>
      let sid := (s1.die d).flash.nextSid
      let stop := g.used + stripeRun s d g * stripeUnits s d g
      let ring := (s1.die d).map.ring
      let r := packInto (fun e => wantsQlc s d e == qlc) g.num sid stop (2 * ring.length + stop - g.used + 2) g.used ring
      let s2 := s1.updDie d (fun x => updGroup { x with map := { x.map with ring := r.1 } } g.num (fun g => { g with used := stop }))
      addStripe s2 d g g.used (r.2 - g.used) r.1 false

/-! ### Draining the ring (R206, R207) -/

/-- Puts what a write has stored on flash among the stored data. -/
def addStored (x : Die) (r : Stored) : Die := { x with map := { x.map with stored := x.map.stored ++ [r] } }

/-- The extent table of a placed record (R190). -/
def extentTable (s : State) (d : DieId) (es : List Extent) : Bytes :=
  (es.drop 1).flatMap (fun e => extentBytes (placedLoc s d [e]) e.count)

/-- The record that a drained write leaves on flash: with its extents, and with the version that a write written through takes
at its order point (R190, R201, R205). -/
def flashRec (s : State) (d : DieId) (e : RingEntry) (r : Rec) (version : Nat) : Rec :=
  finishRec (s.die d).cry r version (extentTable s d e.placed)

/-- The durable form of a drained value record: MAP_PUT is on flash, the side table names the new location, and an entry
that still names this version in the Nectar buffer now names the flash (R206, R207). -/
def drainRecord (s : State) (d : DieId) (e : RingEntry) (r : Rec) (key : Bytes) (htag : BitVec 64) (bucket : Nat) : State :=
  let loc := placedLoc s d e.placed
  let len := storedLen r
  let s1 := s.updDie d (fun x =>
    addStored (jAppendTo x r.tenant r.nsid (.mapPut key htag r.version loc len r.keyLen bucket))
      { loc := loc, extents := e.placed, payload := .record r key htag bucket, poison := e.poison, verOk := true })
  s1.updDie d (fun x =>
    let old := kvOf x r.tenant r.nsid key
    let isCur := (old.map (fun q => q.valid && q.nectar && q.version == r.version)).getD false
    let y := if isCur || e.through.isSome then
        let z := match old with
          | some q => if e.through.isSome && q.valid && !q.nectar then release x q.loc else x
          | none => x
        retain (kvPut z { tenant := r.tenant, nsid := r.nsid, bucket := bucket, key := key, htag := htag, version := r.version,
                          loc := loc, valid := true, nectar := false, stLen := len, keyLen := r.keyLen,
                          durable := some (r.version, loc, len) }) loc
      else match old with
        | some q => kvPut x { q with durable := some (r.version, loc, len) }
        | none => x
    { y with
      comb := hotRewriteTag y.comb r.tenant r.nsid htag
        (fun c => if e.through.isSome then true else resKind c.res == 2 && resVersion c.res == r.version) r.version 0 loc })

/-- The durable form of one drained block unit (R206). -/
def drainUnit (d : DieId) (e : RingEntry) (s : State) (p : Blk × Extent) : State :=
  let loc := placedLoc s d [p.2]
  let entry := locDense loc
  s.updDie d (fun y =>
    let z := addStored y { loc := loc, extents := [p.2], payload := .blocks [p.1], poison := e.poison, verOk := true }
    let q := denseGet z p.1.tenant p.1.nsid p.1.unit
    if e.through.isSome then
      retain (densePut (if q.nectar.isNone && q.entry != 0 then release z (denseLoc q.entry) else z)
        { q with entry := entry, nectar := none, durable := entry }) loc
    else if q.nectar == some e.wid then retain (densePut z { q with entry := entry, nectar := none, durable := entry }) loc
    else densePut z { q with durable := entry })

/-- Whether a unit goes on from another one, in its namespace and in stripe order (R181, R212). -/
def unitFollows (a b : Blk × Extent) : Bool :=
  b.1.unit == a.1.unit + 1 && b.2.group == a.2.group && b.2.first == a.2.first + 64

/-- Placed units cut into runs, each for one LBA_MAP record (R212). -/
def unitRuns : List (Blk × Extent) → List (List (Blk × Extent))
  | [] => []
  | p :: rest =>
    match unitRuns rest with
    | (q :: run) :: more => if unitFollows p q then (p :: q :: run) :: more else [p] :: (q :: run) :: more
    | l => [p] :: l

/-- A run of drained units: its LBA_MAP record, then their durable forms (R206, R207). -/
def drainRun (d : DieId) (e : RingEntry) (s : State) (run : List (Blk × Extent)) : State :=
  match run with
  | [] => s
  | p :: _ => run.foldl (drainUnit d e) (s.updDie d (fun y =>
      jAppendTo y p.1.tenant p.1.nsid (.lbaMap p.1.unit run.length (locDense (placedLoc s d [p.2])))))

/-- A drained DELETE: MAP_DELETE, and the entry is gone unless the key has a newer value (R206, R212). -/
def drainErase (x : Die) (t n : Nat) (key : Bytes) (htag : BitVec 64) (bucket version : Nat) (old : BitVec 56) : Die :=
  let loc := (((kvOf x t n key).bind (fun q => q.durable)).map (fun q => q.2.1)).getD old
  let y := jAppendTo x t n (.mapDelete htag version loc bucket)
  match kvOf y t n key with
  | none => y
  | some q => if q.valid then kvPut y { q with durable := none } else kvDel y q

/-- A drained TRIM: LBA_TRIM, and its units are unmapped on flash (R206, R212). -/
def drainTrim (x : Die) (t n first count : Nat) : Die :=
  (List.range count).foldl (fun y i => densePut y { denseGet y t n (first + i) with durable := 0 })
    (jAppendTo x t n (.lbaTrim first count))

/-- Unmaps whole units (R195). -/
def unmapUnits (x : Die) (tenant nsid first count : Nat) : Die :=
  (List.range count).foldl (fun y i =>
    let q := denseGet y tenant nsid (first + i)
    densePut (if q.nectar.isNone && q.entry != 0 then release y (denseLoc q.entry) else y) { q with entry := 0, nectar := none }) x

/-- A DELETE's order point: VALID is cleared and the Comb entry dropped (R166, R206). -/
def deleteEntry (x : Die) (t n : Nat) (key : Bytes) (h : BitVec 128) (version : Nat) : Die :=
  match kvLive x t n key with
  | none => x
  | some e =>
    let y := kvPut (if e.nectar then x else release x e.loc) { e with valid := false, version := version }
    { y with comb := hotDrop y.comb t n h }

/-- The hash of the key of a write written through, as its command holds it. -/
def throughHash (x : Die) (e : RingEntry) : BitVec 128 := (((e.through.bind (cmdOf x)).map (fun c => c.hash))).getD 0

/-- Drains one write: its journal record is appended and its durable form takes effect. A write written through has its order
point here and takes its version here (R201, R205); the answer is that version. -/
def drainWrite (s : State) (d : DieId) (e : RingEntry) : State × Nat :=
  match e.payload with
  | .record r key htag bucket =>
    let v := if e.through.isSome then takeVersion (s.die d) else (r.version, s.die d)
    (drainRecord (s.setDie d v.2) d e (flashRec s d e r v.1) key htag bucket, v.1)
  | .blocks bs => ((unitRuns (bs.zip e.placed)).foldl (drainRun d e) s, 0)
  | .erase t n key htag bucket version old =>
    let v := if e.through.isSome then takeVersion (s.die d) else (version, s.die d)
    let x := if e.through.isSome then deleteEntry v.2 t n key (throughHash (s.die d) e) v.1 else v.2
    (s.setDie d (drainErase x t n key htag bucket v.1 old), v.1)
  | .trim t n first count =>
    (s.updDie d (fun x => drainTrim (if e.through.isSome then unmapUnits x t n first count else x) t n first count), 0)

/-- A DELETE or TRIM has freed data: a die in space stop retries R252 (R253). -/
def freed (s : State) (d : DieId) (p : Payload) : State :=
  match p with
  | .erase .. => retryShrink s d
  | .trim .. => retryShrink s d
  | _ => s

/-- A command written through is acknowledged when its journal records are on flash (R205). -/
def ackThrough (s : State) (d : DieId) (e : RingEntry) (version : Nat) : State :=
  match e.through with
  | none => s
  | some cid =>
    if (s.die d).map.ring.any (fun r => r.through == some cid) then s
    else match cmdOf (s.die d) cid with
      | none => s
      | some c => complete (freed s d e.payload) d c Stat.ok 0 version 0 []

/-- Drains the writes at the head of the ring whose stripes are all programmed (R207), with fuel. -/
def drainRing : Nat → State → DieId → State
  | 0, s, _ => s
  | n + 1, s, d =>
    match (s.die d).map.ring with
    | [] => s
    | e :: rest =>
      if fullyPlaced e && e.stripes.isEmpty then
        let r := drainWrite (s.updDie d (fun x => { x with map := { x.map with ring := rest } })) d e
        drainRing n (ackThrough r.1 d e r.2) d
      else s

/-! ### Admission (R201 to R206) -/

/-- The write that waits first for admission, in intake-sequence order (R204). -/
def firstWaiting (x : Die) : Option Cmd := oldest (x.csq.cmds.filter (fun c => c.phase == .admitting && isWriter c.hdr.opcode))

/-- Writes waiting for admission (MAP_WAITING). -/
def waitingCount (x : Die) : Nat := if x.map.waiting then (x.csq.cmds.filter (fun c => c.phase == .admitting && isWriter c.hdr.opcode)).length else 0

/-- A write's dirty size (R202). -/
def dirtySize (x : Die) (c : Cmd) : Nat :=
  if c.hdr.opcode = Op.put then ceilDiv (recLen c.key.length c.hdr.valueLen) 64 * 64 + 64
  else if c.hdr.opcode = Op.write then
    match nsOf x c.tenant c.hdr.nsid with
    | none => 64
    | some n =>
      let off := c.hdr.arg * n.lbaSize
      (ceilDiv (off % 4096 + c.hdr.valueLen) 4096) * 4096 + 64
  else 64

/-- Appends a write to the ring, at the next Nectar address. -/
def ringPush (x : Die) (p : Payload) (dirty : Nat) (through : Option Nat) : Die :=
  { x with map := { x.map with
      ring := x.map.ring ++ [{ wid := x.map.nextWid, addr := x.map.ringTop, payload := p, dirty := dirty, placed := [],
                               stripes := [], through := through, poison := false }]
      nextWid := x.map.nextWid + 1
      ringTop := x.map.ringTop + payloadUnits p } }

/-- A PUT's order point (R206): the bucket entry becomes NECTAR with the new version, its durable form is kept. -/
def putEntry (x : Die) (c : Cmd) (bucket version addr stLen : Nat) : Die :=
  let old := kvOf x c.tenant c.hdr.nsid c.key
  let y := match old with
    | some q => if q.valid && !q.nectar then release x q.loc else x
    | none => x
  kvPut y { tenant := c.tenant, nsid := c.hdr.nsid, bucket := bucket, key := c.key, htag := htagOf c.hash, version := version,
            loc := BitVec.ofNat 56 addr, valid := true, nectar := true, stLen := stLen, keyLen := c.key.length,
            durable := (old.map (fun q => q.durable)).getD none }

/-- Sends a write its way through to flash (R205). -/
def writeThrough (s : State) (d : DieId) (c : Cmd) : State :=
  putCmd (regBump s (dreg d Page.map 0x8C) 1) d { c with phase := .through }

/-- Admits a PUT with a slot that can encrypt it: version, encryption, Nectar buffer, order point, acknowledgement; or
its way through to flash, on which it takes its version later (R201, R205). -/
def admitPut (s : State) (d : DieId) (c : Cmd) (n : NsEntry) (k : DataSlot) (through : Bool) : State :=
  let s := cryBlocks s d (gcmBlocks (c.key.length + c.value.length))
  let x := s.die d
  let v := if through then (0, x) else takeVersion x
  let r := sealRec x.cry d k c.tenant c.hdr.nsid v.1 c.key c.value
  let y := { v.2 with cry := putSlot v.2.cry (afterEncrypt (limitLog2 x c.tenant) k) }
  let addr := y.map.ringTop
  let p := Payload.record r c.key (htagOf c.hash) (bucketOf n c.hash)
  if through then
    writeThrough (s.setDie d (ringPush y p (dirtySize x c) (some c.cid))) d c
  else
    let z := putEntry (ringPush y p (dirtySize x c) none) c (bucketOf n c.hash) v.1 addr (recLen c.key.length c.value.length)
    let z2 := { z with comb := hotRewrite z.comb c.tenant c.hdr.nsid c.hash (fun _ => true) v.1 2 (BitVec.ofNat 56 addr) }
    complete (s.setDie d z2) d c Stat.ok 0 v.1 0 []

/-- Admits a DELETE: its order point clears VALID and drops the Comb entry (R166, R206), at once or, written through, with its
journal record (R205). -/
def admitDelete (s : State) (d : DieId) (c : Cmd) (through : Bool) : State :=
  match kvLive (s.die d) c.tenant c.hdr.nsid c.key with
  | none => fail s d c Stat.notFound
  | some e =>
    if through then
      writeThrough (s.updDie d (fun x =>
        ringPush x (.erase c.tenant c.hdr.nsid c.key e.htag e.bucket 0 e.loc) 64 (some c.cid))) d c
    else
      let v := takeVersion (s.die d)
      let y := ringPush v.2 (.erase c.tenant c.hdr.nsid c.key e.htag e.bucket v.1 e.loc) 64 none
      complete (retryShrink (s.setDie d (deleteEntry y c.tenant c.hdr.nsid c.key c.hash v.1)) d) d c Stat.ok 0 v.1 0 []

/-! ### Block data -/

/-- The stored bytes of a local unit, none when it is unmapped: from the ring or from flash, with whether they are
good. -/
def unitData (x : Die) (tenant nsid unit : Nat) : Option (Bytes × Bool) :=
  match denseAt x tenant nsid unit with
  | none => none
  | some e =>
    match e.nectar with
    | some w =>
      match x.map.ring.find? (fun r => r.wid == w) with
      | none => none
      | some r => match r.payload with
        | .blocks bs => (bs.find? (fun b => b.unit == unit)).map (fun b => (b.data, !r.poison))
        | _ => none
    | none =>
      if e.entry = 0 then none
      else match storedAt x (denseLoc e.entry) with
        | none => some (zeros 4096, false)
        | some q => match q.payload with
          | .blocks (b :: _) => some (b.data, !q.poison && q.verOk)
          | _ => some (zeros 4096, false)

/-- The plaintext of a unit of a namespace under its XTS key: zeros when unmapped (R100, R350). -/
def unitPlain (key : Bytes) (nsUnit : Nat) : Option (Bytes × Bool) → Bytes × Bool
  | none => (zeros 4096, true)
  | some (b, ok) => (Crypto.xtsDec key nsUnit b, ok)

/-- The 4 KiB units that a byte range of a namespace touches: namespace unit numbers. -/
def touchedUnits (off len : Nat) : List Nat := (List.range (ceilDiv (off % 4096 + len) 4096)).map (· + off / 4096)

/-- The bytes of a unit after a range [off, off + data) of the namespace has been written over it. -/
def overlay (nsUnit off : Nat) (old data : Bytes) : Bytes :=
  let a := nsUnit * 4096
  let lo := max a off
  let hi := min (a + 4096) (off + data.length)
  if hi ≤ lo then old else old.take (lo - a) ++ slice data (lo - off) (hi - lo) ++ old.drop (hi - a)

/-- The units of a WRITE as they are stored: a unit that the range covers in part is read, merged and written back
(R188). The flag says that every unit read was good. -/
def writeUnits (x : Die) (d : DieId) (c : Cmd) (n : NsEntry) (key : Bytes) (off : Nat) (data : Bytes) : List Blk × Bool :=
  let l := (touchedUnits off data.length).map (fun u =>
    let unit := localUnit x d n (u * 4096)
    let whole := decide (off ≤ u * 4096) && decide (u * 4096 + 4096 ≤ off + data.length)
    let old := if whole then (zeros 4096, true) else unitPlain key u (unitData x c.tenant c.hdr.nsid unit)
    ({ tenant := c.tenant, nsid := c.hdr.nsid, unit := unit, data := Crypto.xtsEnc key u (overlay u off old.1 data) : Blk }, old.2))
  (l.map (fun p => p.1), l.all (fun p => p.2))

/-- How many units of a WRITE or a TRIM are read to be merged: covered in part, and mapped (R188). -/
def partUnits (x : Die) (d : DieId) (c : Cmd) (n : NsEntry) : Nat :=
  let off := c.hdr.arg * n.lbaSize
  ((touchedUnits off c.hdr.valueLen).filter (fun u => (decide (u * 4096 < off) || decide (off + c.hdr.valueLen < u * 4096 + 4096))
    && (unitData x c.tenant c.hdr.nsid (localUnit x d n (u * 4096))).isSome)).length

/-- A block write's order point: the dense entries of its units name the ring (R206). -/
def blockEntries (x : Die) (wid : Nat) (bs : List Blk) : Die :=
  bs.foldl (fun y b =>
    let q := denseGet y b.tenant b.nsid b.unit
    densePut (if q.nectar.isNone && q.entry != 0 then release y (denseLoc q.entry) else y)
      { q with entry := 0, nectar := some wid }) x

/-- Admits a WRITE under its namespace's XTS key. -/
def admitWrite (s : State) (d : DieId) (c : Cmd) (n : NsEntry) (k : DataSlot) (through : Bool) : State :=
  let u := writeUnits (s.die d) d c n (dataKey (s.die d).cry k) (c.hdr.arg * n.lbaSize) c.value
  let s := cryUnits d (u.1.length + partUnits (s.die d) d c n) s
  let x := s.die d
  if !u.2 then fail s d c Stat.mediaError
  else
    let y := { x with cry := putSlot x.cry { k with ctr := k.ctr + u.1.length } }
    if through then
      writeThrough (s.setDie d (ringPush y (.blocks u.1) (dirtySize x c) (some c.cid))) d c
    else
      complete (s.setDie d (blockEntries (ringPush y (.blocks u.1) (dirtySize x c) none) y.map.nextWid u.1)) d c Stat.ok 0 0 0 []

/-- The units that a TRIM covers in part and that hold data, as they are stored with zeros in its range (R100, R188, log 36). -/
def trimParts (x : Die) (d : DieId) (c : Cmd) (n : NsEntry) (key : Bytes) (part : List Nat) : List Blk :=
  part.map (fun u =>
    let unit := localUnit x d n (u * 4096)
    let old := unitPlain key u (unitData x c.tenant c.hdr.nsid unit)
    { tenant := c.tenant, nsid := c.hdr.nsid, unit := unit,
      data := Crypto.xtsEnc key u (overlay u (c.hdr.arg * n.lbaSize) old.1 (zeros c.hdr.valueLen)) })

/-- A TRIM's writes are in the ring: answered at once, or on its way through (R205). -/
def trimAdmitted (s : State) (d : DieId) (c : Cmd) (through : Bool) : State :=
  if through then writeThrough s d c else complete (retryShrink s d) d c Stat.ok 0 0 0 []

/-- Admits a TRIM: whole units are unmapped; a unit that the range covers in part is rewritten with zeros there, so that
the trimmed LBAs read as zeros (R100, log 36). Its dirty size is 64 bytes (R202). -/
def admitTrim (s : State) (d : DieId) (c : Cmd) (n : NsEntry) (through : Bool) : State :=
  let x := s.die d
  let off := c.hdr.arg * n.lbaSize
  let lo := ceilDiv off 4096
  let hi := (off + c.hdr.valueLen) / 4096
  let part := (touchedUnits off c.hdr.valueLen).filter (fun u => (decide (u < lo) || decide (hi ≤ u))
    && (unitData x c.tenant c.hdr.nsid (localUnit x d n (u * 4096))).isSome)
  let first := localUnit x d n (lo * 4096)
  let cid := if through then some c.cid else none
  let y0 := ringPush x (.trim c.tenant c.hdr.nsid first (hi - lo)) 64 cid
  let y := if through then y0 else unmapUnits y0 c.tenant c.hdr.nsid first (hi - lo)
  if part.isEmpty then trimAdmitted (s.setDie d y) d c through
  else match xtsSlot x.cry c.tenant c.hdr.nsid with
    | none => endQuiet s d c
    | some k =>
      let bs := trimParts x d c n (dataKey x.cry k) part
      let z := { y with cry := putSlot y.cry { k with ctr := k.ctr + bs.length } }
      let w := ringPush z (.blocks bs) 0 cid
      trimAdmitted (cryUnits d (2 * bs.length) (s.setDie d (if through then w else blockEntries w z.map.nextWid bs))) d c through

/-! ### NECTAR_ADMIT -/

/-- A write finds no counter value below its slot's recorded bound: it waits and RESERVE_WAIT is recorded (R352). -/
def reserveWait (s : State) (d : DieId) (k : DataSlot) : State := recordErr s (dreg d Page.cry 0) 0x81 k.num

/-- Whether a PUT's record would take the die's key-value data beyond its pool (R255). -/
def poolFull (s : State) (d : DieId) (c : Cmd) (cur : Option BEntry) : Bool :=
  decide (kvPool s d < kvBytes (s.die d) - ((cur.map (fun e => e.stLen)).getD 0) + recLen c.key.length c.hdr.valueLen)

/-- Whether a PUT finds no room in the pool, or for the overflow page that it needs in full-table mode (R200, R255). -/
def noRoom (s : State) (d : DieId) (c : Cmd) (n : NsEntry) : Bool :=
  let cur := kvLive (s.die d) c.tenant c.hdr.nsid c.key
  poolFull s d c cur || (cur.isNone && tableFull s d c.tenant c.hdr.nsid (bucketOf n c.hash))

/-- The status that refuses a write which has waited for admission: what has changed since it was checked (R200, R253 to R255).
A PUT or WRITE is past its media point here and is not refused by read-only mode (R112, R254). -/
def admitRefusal (s : State) (d : DieId) (c : Cmd) : Option Nat :=
  let x := s.die d
  if c.hdr.opcode = Op.delete ∨ c.hdr.opcode = Op.trim then (if x.map.readOnly then some Stat.readOnly else none)
  else if x.map.spaceStop then some Stat.noSpace
  else match nsOf x c.tenant c.hdr.nsid with
    | none => some Stat.notFound
    | some n => if c.hdr.opcode = Op.put && noRoom s d c n then some Stat.noSpace else none

/-- Admits a write whose admission rule holds. -/
def admitNow (s : State) (d : DieId) (c : Cmd) (through : Bool) : State :=
  if c.hdr.opcode = Op.delete then admitDelete s d c through
  else match nsOf (s.die d) c.tenant c.hdr.nsid with
    | none => fail s d c Stat.notFound
    | some n =>
      if c.hdr.opcode = Op.trim then admitTrim s d c n through
      else if c.hdr.opcode = Op.write then
        match xtsSlot (s.die d).cry c.tenant c.hdr.nsid with
        | none => endQuiet s d c
        | some k =>
          if 2 ^ 64 ≤ k.ctr + ceilDiv c.hdr.valueLen 4096 then exhaust s d c
          else if k.bound < k.ctr + ceilDiv c.hdr.valueLen 4096 then reserveWait s d k
          else admitWrite s d c n k through
      else if !hasDataKey (s.die d).cry c.tenant then endQuiet s d c
      else match askEncrypt (s.die d) c.tenant with
        | .exhausted => exhaust (s.updDie d (fun x => retireSpent x c.tenant)) d c
        | .wait k => reserveWait s d k
        | .ready k => admitPut s d c n k through

/-- Whether a write goes through to flash (R205). -/
def goesThrough (s : State) (d : DieId) (c : Cmd) : Bool :=
  decide (budgetOf s d < 4 * dirtySize (s.die d) c) || decide (budgetOf s d < 2 ^ 20)

/-- The wait of the first write ends: ADMIT_WAIT is recorded when it had to wait (R399). -/
def endWait (s : State) (d : DieId) : State :=
  if (s.die d).map.waiting then
    recordEvent (s.updDie d (fun x => { x with map := { x.map with waiting := false } })) d 0x09
      (((s.die d).mon.devTime - (s.die d).map.waitFrom) / 1000)
  else s

/-- The first write must wait: MAP_WAITING rises from 0 (R204, R223). -/
def beginWait (s : State) (d : DieId) : State :=
  if (s.die d).map.waiting then s
  else raiseInt (s.updDie d (fun x => { x with map := { x.map with waiting := true, waitFrom := x.mon.devTime } }))
    (dreg d Page.map 0) 2

/-- NECTAR_ADMIT on a die. -/
def nectarAdmit (s : State) (d : DieId) : State :=
  match firstWaiting (s.die d) with
  | none => s
  | some c =>
    match admitRefusal s d c with
    | some st => fail (endWait s d) d c st
    | none =>
    if goesThrough s d c then admitNow (endWait s d) d c true
    else if dirtySize (s.die d) c + dirtyBytes (s.die d) ≤ budgetOf s d then admitNow (endWait s d) d c false
    else beginWait s d

/-- Writes past the media point are admitted as far as the budget goes; the others are absent (R131, R132, R513). -/
def finishWrites (s : State) (d : DieId) : State :=
  (List.range ((s.die d).csq.cmds.filter (fun c => c.phase == .admitting)).length).foldl (fun s _ => nectarAdmit s d) s

/-- NECTAR_ADMIT: not during a power loss, when dies discard the writes not yet admitted (R322). -/
def execNectarAdmit (d : DieId) (s : State) : Out :=
  .next (onBlock s d Page.map (fun s => if s.guard.losing then s else nectarAdmit s d))

end Sys2Proof.Machine
end

