-- ==== Sys2Proof/Machine/KvCommands.lean ====
section
/-! DEFINITION. The data commands on the die that executes them: PUT, DELETE, WRITE, TRIM up to admission (R98, R200,
R253 to R255), GET and STAT (R31, R98, R99, R153 to R155, R166 to R173), READ (R100, R186 to R188). -/
namespace Sys2Proof.Machine
open Sys2Proof

/-! ### Writers -/

/-- The check of IF_VERSION and IF_ABSENT of a PUT against the key's live entry (R98). -/
def putCondition (c : Cmd) (cur : Option BEntry) : Option Nat :=
  if c.hdr.ifVersion then
    match cur with
    | none => some Stat.versionMismatch
    | some e => if e.version = c.hdr.version then none else some Stat.versionMismatch
  else if c.hdr.ifAbsent && cur.isSome then some Stat.versionMismatch
  else none

/-- The status that refuses a PUT, in the order READ_ONLY, space stop, conditions, space (log 38). -/
def putRefusal (s : State) (d : DieId) (c : Cmd) : Option Nat :=
  let x := s.die d
  if x.map.readOnly then some Stat.readOnly
  else if x.map.spaceStop then some Stat.noSpace
  else match nsOf x c.tenant c.hdr.nsid with
    | none => some Stat.notFound
    | some n =>
      let cur := kvLive x c.tenant c.hdr.nsid c.key
      match putCondition c cur with
      | some st => some st
      | none =>
        if noRoom s d c n then some Stat.noSpace else none

/-- A write's data: inline data goes to admission, a larger value waits for its grants (R30, R104). -/
def takeData (s : State) (d : DieId) (c : Cmd) : State :=
  if 8192 < c.hdr.valueLen then putCmd s d { c with phase := .granting }
  else putCmd s d { c with phase := .admitting, value := c.inline }

/-- The dense pages that a byte range of a block namespace lies in on the die (R187, R195). -/
def densePages (x : Die) (d : DieId) (c : Cmd) : List Nat :=
  match nsOf x c.tenant c.hdr.nsid with
  | none => []
  | some n => ((touchedUnits (c.hdr.arg * n.lbaSize) c.hdr.valueLen).map (fun u => localUnit x d n (u * 4096) / 806)).eraseDups

/-- The leaf pages that a command looks up: its key's bucket, or the dense pages of its range (R193, R195, R197). -/
def lookupPages (x : Die) (d : DieId) (c : Cmd) : List Nat :=
  if isBlock c.hdr.opcode then densePages x d c
  else match nsOf x c.tenant c.hdr.nsid with
    | none => []
    | some n => [bucketOf n c.hash]

/-- A command waits for its leaf pages and then runs; a map page that cannot be read ends it with MEDIA_ERROR (R171, R197). -/
def afterLookup (s : State) (d : DieId) (c : Cmd) (f : State → Cmd → State) : State :=
  if c.failed then fail s d c Stat.mediaError else withPages s d c (lookupPages (s.die d) d c) f

/-- PUT. -/
def execPut (d : DieId) (cid : Nat) (s : State) : Out :=
  .next (onCmd s d cid Op.put (fun s c => afterLookup s d c (fun s c =>
    match putRefusal s d c with
    | some st => fail s d c st
    | none => takeData s d c)))

/-- The status that refuses a DELETE (R98, R254). -/
def deleteRefusal (x : Die) (c : Cmd) : Option Nat :=
  if x.map.readOnly then some Stat.readOnly
  else match kvLive x c.tenant c.hdr.nsid c.key with
    | none => some Stat.notFound
    | some e => if c.hdr.ifVersion && decide (e.version ≠ c.hdr.version) then some Stat.versionMismatch else none

/-- DELETE: its index update begins with its admission. -/
def execDelete (d : DieId) (cid : Nat) (s : State) : Out :=
  .next (onCmd s d cid Op.delete (fun s c => afterLookup s d c (fun s c =>
    match deleteRefusal (s.die d) c with
    | some st => fail s d c st
    | none => putCmd s d { c with phase := .admitting })))

/-- The status that refuses a WRITE (R253, R254). -/
def writeRefusal (x : Die) (c : Cmd) : Option Nat :=
  if x.map.readOnly then some Stat.readOnly
  else if x.map.spaceStop then some Stat.noSpace
  else if (nsOf x c.tenant c.hdr.nsid).isNone then some Stat.notFound
  else none

/-- WRITE. -/
def execWrite (d : DieId) (cid : Nat) (s : State) : Out :=
  .next (onCmd s d cid Op.write (fun s c => afterLookup s d c (fun s c =>
    match writeRefusal (s.die d) c with
    | some st => fail s d c st
    | none => takeData s d c)))

/-- TRIM. -/
def execTrim (d : DieId) (cid : Nat) (s : State) : Out :=
  .next (onCmd s d cid Op.trim (fun s c => afterLookup s d c (fun s c =>
    if (s.die d).map.readOnly then fail s d c Stat.readOnly
    else if (nsOf (s.die d) c.tenant c.hdr.nsid).isNone then fail s d c Stat.notFound
    else putCmd s d { c with phase := .admitting })))

/-! ### Answering a reader -/

/-- The status and the data of a GET of a value (R98, R99): the version is checked first. -/
def getAnswer (c : Cmd) (version : Nat) (value : Bytes) : Nat × Bytes :=
  if c.hdr.ifVersion && decide (version ≠ c.hdr.version) then (Stat.versionMismatch, [])
  else if c.hdr.partialGet then
    if value.length < c.hdr.arg then (Stat.invalidField, [])
    else
      let n := if c.hdr.valueLen = 0 then value.length else c.hdr.valueLen
      (Stat.ok, slice value c.hdr.arg n)
  else (Stat.ok, value)

/-- Answers a STAT (R98). -/
def answerStat (s : State) (d : DieId) (c : Cmd) (version len : Nat) : State := complete s d c Stat.ok 0 version len []

/-- Answers a GET or STAT whose value is at hand. -/
def answerValue (s : State) (d : DieId) (c : Cmd) (version : Nat) (value : Bytes) : State :=
  if c.hdr.opcode = Op.stat then answerStat s d c version value.length
  else
    let r := getAnswer c version value
    if r.1 = Stat.ok then complete s d c Stat.ok 0 version value.length r.2 else fail s d c r.1

/-- Answers a reader of a record: its verification fails, its key slot is EMPTY, or its value is at hand (R350, R362). -/
def answerRec (s : State) (d : DieId) (c : Cmd) (r : Rec) (bad : Bool) : State :=
  if !hasDataKey (s.die d).cry r.tenant then endQuiet s d c
  else if bad then fail s d c Stat.mediaError
  else
    let s1 := cryBlocks s d (gcmBlocks (r.keyLen + r.valueLen))
    match openRec (s.die d).cry r with
    | none => fail s1 d c Stat.mediaError
    | some p => answerValue s1 d c r.version p.2

/-- The record that a Nectar address holds. -/
def ringRec (x : Die) (addr : Nat) : Option (Rec × Bool) :=
  match x.map.ring.find? (fun r => r.addr == addr && !isBlocks r.payload && decide (0 < payloadUnits r.payload)) with
  | none => none
  | some e => match e.payload with
    | .record r _ _ _ => some (r, e.poison)
    | _ => none

/-- The record of a value cache slot. -/
def slotRec (v : CacheSlot) : Rec :=
  { tenant := v.tenant, nsid := leAt v.header 8 4, keyLen := leAt v.header 6 2, valueLen := leAt v.header 12 4,
    version := leAt v.header 16 8, nonce := v.nonce, keygen := v.keygen, cipher := v.cipher, gtag := v.gtag,
    table := v.header.drop 48 }

/-! ### Flash pages of what is stored -/

/-- The codewords that extents lie in, as (group, codeword) in stripe order. -/
def extentCws (e : Extent) : List (Nat × Nat) :=
  (List.range (ceilDiv (e.first % 64 + e.count) 64)).map (fun i => (e.group, e.first / 64 + i))

/-- The pages that extents lie in, each with the codewords to read of it (R278). -/
def pagesOf (s : State) (d : DieId) (es : List Extent) : List (BitVec 56 × Nat) :=
  let cws := (es.flatMap extentCws).eraseDups
  let pages := (cws.map (fun p => (p.1, p.2 / max 1 (pageCw s d)))).eraseDups
  pages.filterMap (fun p =>
    match groupOf (s.die d) p.1 with
    | none => none
    | some g => some (unitLoc s d g (p.2 * pageUnits s d),
        (cws.filter (fun q => q.1 == p.1 && q.2 / max 1 (pageCw s d) == p.2)).length))

/-- Queues a command's reads of pages. -/
def queueReads (s : State) (d : DieId) (c : Cmd) (pages : List (BitVec 56 × Nat)) : State :=
  pages.foldl (fun s p => queueOp s d .read (.host c.cid) p.1 c.funded none false p.2) s

/-! ### GET and STAT: the search -/

/-- Counts a hit and marks the entries of the key as referenced (R169). -/
def countHit (s : State) (d : DieId) (c : Cmd) : State :=
  (regBump s (dreg d Page.cmb 0x184) 1).updDie d (fun x => { x with comb := hotTouch x.comb c.tenant c.hdr.nsid c.hash })

/-- A miss: the bucket decides, and its page is looked up (R197). -/
def goLookup (s : State) (d : DieId) (c : Cmd) : State :=
  let l := lookupPages (s.die d) d c
  putCmd (touchAll s d c l) d { c with phase := .lookup, missed := !pagesHere (s.die d) c l }

/-- Counts a miss. -/
def countMiss (s : State) (d : DieId) (c : Cmd) : State := goLookup (regBump s (dreg d Page.cmb 0x188) 1) d c

/-- Run-ahead reads outstanding on a die (R170). -/
def raOutstanding (x : Die) : Nat :=
  (x.flash.ops.filter (fun o => match o.src with
    | .runAhead _ => true
    | _ => false)).length

/-- Whether a hint may be followed (R170, R281): run-ahead reads are enabled, fewer than RA_MAX are outstanding, and the
hinted channel and LUN are in service. -/
def raAllowed (s : State) (d : DieId) (l : BitVec 56) : Bool :=
  let x := s.die d
  decide (dfld s d Page.cmb 0x40 0 0 = 1) && decide (raOutstanding x < dfld s d Page.cmb 0x48 12 0)
    && inService x (chanOf (locCh l)) (locCe l) (locLun l)

/-- Follows a FLASH hint: the read of the hinted location is queued and the bucket lookup starts (R170, R172). The read
covers the first codeword of the record, whose length the hint does not give (log 39). -/
def runAhead (s : State) (d : DieId) (c : Cmd) (version : Nat) (l : BitVec 56) : State :=
  let op := (s.die d).flash.nextOp
  let s1 := queueOp s d .read (.runAhead c.cid) l c.funded none false 1
  goLookup (regBump s1 (dreg d Page.cmb 0x190) 1) d
    { c with ra := some { version := version, loc := l, op := op, done := false, ok := false } }

/-- A hit on a value cache slot: the full key is compared first (R168). -/
def serveSlot (s : State) (d : DieId) (c : Cmd) (n : Nat) : State :=
  match slotAt (s.die d).comb n with
  | none => countMiss s d c
  | some v =>
    if v.key = c.key ∧ v.tenant = c.tenant ∧ (slotRec v).nsid = c.hdr.nsid then
      let s1 := (countHit s d c).updDie d (fun x => { x with comb := slotTouch x.comb n })
      answerRec (regBump s1 (dreg d Page.cmb 0x18C) 1) d c (slotRec v) false
    else countMiss s d c

/-- A hit on a value in the Nectar buffer (R168). -/
def serveNectar (s : State) (d : DieId) (c : Cmd) (addr : Nat) : State :=
  match ringRec (s.die d) addr with
  | none => countMiss s d c
  | some (r, bad) => answerRec (countHit s d c) d c r bad

/-- The hot-key search of a GET or STAT and what follows from it (R153, R155, R168, R170). -/
def hotSearch (s : State) (d : DieId) (c : Cmd) : State :=
  let word := hotWord c.tenant c.hdr.nsid 0 c.hash
  match combSearch (s.die d).comb d word hotMask with
  | none => countMiss s d c
  | some w =>
    if w.multi then
      let s1 := s.updDie d (fun x => { x with comb := hotDrop x.comb c.tenant c.hdr.nsid c.hash })
      countMiss (raiseInt (regBump s1 (dreg d Page.cmb 0x198) 1) (dreg d Page.cmb 0) 3) d c
    else if resKind w.entry.res = 1 then serveSlot s d c ((resLoc w.entry.res).toNat % 4096)
    else if resKind w.entry.res = 2 then serveNectar s d c (resLoc w.entry.res).toNat
    else if resKind w.entry.res = 0 ∧ c.hdr.opcode = Op.get ∧ raAllowed s d (resLoc w.entry.res) = true then
      runAhead (countHit s d c) d c (resVersion w.entry.res) (resLoc w.entry.res)
    else if resKind w.entry.res = 0 then goLookup (countHit s d c) d c
    else countMiss s d c

/-- GET. -/
def execGet (d : DieId) (cid : Nat) (s : State) : Out := .next (onCmd s d cid Op.get (fun s c => hotSearch s d c))

/-- STAT. -/
def execStat (d : DieId) (cid : Nat) (s : State) : Out := .next (onCmd s d cid Op.stat (fun s c => hotSearch s d c))

/-! ### BUCKET_LOOKUP_DONE -/

/-- Squashes a command's run-ahead read (R172, R173): one not yet sent is removed, one sent will be dropped on arrival,
one that has arrived is dropped now; it is counted, and RA_SQUASH records the units it read. -/
def squash (s : State) (d : DieId) (c : Cmd) : State :=
  match c.ra with
  | none => s
  | some r =>
    let sent := r.done || (s.die d).flash.ops.any (fun o => o.op == r.op && o.running)
    let s1 := s.updDie d (fun x => { x with flash := { x.flash with
      ops := (x.flash.ops.filter (fun o => !(o.op == r.op && !o.running))).map (fun o =>
        if o.op == r.op then { o with drop := true } else o) } })
    let s2 := recordEvent (regBump s1 (dreg d Page.cmb 0x194) 1) d 0x0A (if sent then 1 else 0)
    if sent && !r.done then chargeRead s2 d c 1 else s2

/-- The bucket lookup ends without a value: the run-ahead read is squashed and the command is answered. -/
def lookupFail (s : State) (d : DieId) (c : Cmd) (status : Nat) : State := fail (squash s d c) d { c with ra := none } status

/-- The pages a GET or STAT reads of a record: a STAT reads the first codeword, which confirms the key (log 40). -/
def wantPages (s : State) (d : DieId) (c : Cmd) (es : List Extent) : List (BitVec 56 × Nat) :=
  if c.hdr.opcode = Op.stat then (pagesOf s d es).take 1 |>.map (fun p => (p.1, 1)) else pagesOf s d es

/-- Value cache slot of a record that has been read (R167). -/
def cacheFill (s : State) (d : DieId) (c : Cmd) (r : Rec) (loc : BitVec 56) : State :=
  if dfld s d Page.cmb 0x40 1 1 = 1 ∧ r.valueLen ≤ 512 ∧ r.keyLen ≤ 224 ∧ c.hdr.opcode = Op.get then
    slotFill s d c.tenant c.hdr.nsid c.hash r.version
      { slot := 0, tenant := r.tenant, loc := loc, objLen := r.valueLen, key := c.key, nonce := r.nonce, keygen := r.keygen,
        header := recAad r, cipher := r.cipher, gtag := r.gtag }
  else s

/-- The entries of a key's bucket chain with its HTAG, in chain order (R194). -/
def htagEntries (x : Die) (c : Cmd) (bucket : Nat) : List BEntry :=
  x.map.kv.filter (fun e => e.valid && e.tenant == c.tenant && e.nsid == c.hdr.nsid && e.bucket == bucket && e.htag == htagOf c.hash)

/-- The bucket of a command's key. -/
def bucketPage (x : Die) (c : Cmd) : Nat := ((nsOf x c.tenant c.hdr.nsid).map (fun n => bucketOf n c.hash)).getD 0

/-- Whether the run-ahead read follows the hint of an entry's version and location (R171). -/
def raMatches (c : Cmd) (e : BEntry) : Bool :=
  match c.ra with
  | some r => decide (r.version = e.version) && r.loc == e.loc
  | none => false

/-- A record has been read for its full key: what the GET or STAT answers when the key is its own. -/
def recordRead (s : State) (d : DieId) (c : Cmd) (q : Stored) (r : Rec) : State :=
  let bad := c.failed || q.poison || !q.verOk
  let s1 := if bad then s else cacheFill s d c r q.loc
  if c.hdr.opcode = Op.stat && !c.failed then answerStat s1 d c r.version r.valueLen
  else answerRec s1 d c r bad

/-- A bucket entry fixes version and location on flash: a run-ahead read that follows it is kept, any other is squashed; the
remaining pages are queued (R122, R171, R172). The entry's own key decides later whether the read stands (R194). -/
def readAt (s : State) (d : DieId) (c : Cmd) (e : BEntry) : State :=
  let stands := raMatches c e
  let s1 := if stands then s else squash s d c
  let s2 := if e.key = c.key then hotInsert s1 d c.tenant c.hdr.nsid c.hash e.version 0 e.loc else s1
  let pages := wantPages s2 d c (extentsAt (s2.die d) e.loc)
  let raIn := stands && ((c.ra.map (fun r => !r.done || r.ok)).getD false)
  let rest := if raIn then
      (match pages with
       | [] => []
       | p :: r => if p.2 ≤ 1 then r else (p.1, p.2 - 1) :: r)
    else pages
  let left := rest.length + (if raIn && !((c.ra.map (fun r => r.done)).getD false) then 1 else 0)
  let c1 := { c with
    phase := .reading
    fixed := some { version := e.version, loc := e.loc, objLen := e.stLen - 64 - e.keyLen }
    ra := if raIn then c.ra else none
    reads := left
    released := e.key == c.key }
  queueReads (putCmd s2 d c1) d c1 rest

/-- The next entry of the bucket chain with the key's HTAG (R194): in the Nectar buffer its key is at hand, on flash its record
is read; none is left, and the key is absent. The first argument bounds the entries tried. -/
def tryEntry : Nat → State → DieId → Cmd → State
  | 0, s, d, c => lookupFail s d c Stat.notFound
  | n + 1, s, d, c =>
    match ((htagEntries (s.die d) c (bucketPage (s.die d) c)).drop c.tried).head? with
    | none => lookupFail s d c Stat.notFound
    | some e =>
      let c1 := { c with tried := c.tried + 1, failed := false }
      if e.nectar then
        if e.key ≠ c.key then tryEntry n s d c1
        else
          let s1 := hotInsert (squash s d c1) d c.tenant c.hdr.nsid c.hash e.version 2 e.loc
          match ringRec (s1.die d) e.loc.toNat with
          | none => fail s1 d { c1 with ra := none } Stat.mediaError
          | some (r, bad) => answerRec s1 d { c1 with ra := none } r bad
      else readAt s d c1 e

/-- Every read of a GET or STAT has ended: the key of the record confirms the entry, or the next one with its HTAG is tried
(R194); the record is verified and the command answered. -/
def finishRead (s : State) (d : DieId) (c : Cmd) : State :=
  match c.fixed with
  | none => fail s d c Stat.mediaError
  | some f =>
    match storedAt (s.die d) f.loc with
    | none => fail s d c Stat.mediaError
    | some q => match q.payload with
      | .record r key _ _ =>
        if key = c.key ∨ c.failed = true then recordRead s d c q r
        else
          let s1 := tryEntry ((s.die d).map.kv.length + 1) (squash s d c) d { c with ra := none }
          match cmdOf (s1.die d) c.cid with
          | some c1 => if c1.phase = .reading ∧ c1.reads = 0 then fail s1 d c1 Stat.mediaError else s1
          | none => s1
      | _ => fail s d c Stat.mediaError

/-- The bucket lookup's outcome for a command. A record whose pages are all at hand already is answered at once. -/
def lookupDone (s : State) (d : DieId) (c : Cmd) : State :=
  let s1 := tryEntry ((s.die d).map.kv.length + 1) s d c
  match cmdOf (s1.die d) c.cid with
  | some c1 => if c1.phase = .reading ∧ c1.reads = 0 then finishRead s1 d c1 else s1
  | none => s1

/-- BUCKET_LOOKUP_DONE: the lookup ends once its page is at hand; a bucket read that fails squashes the run-ahead read and
yields MEDIA_ERROR (R171, R197). -/
def execBucketLookupDone (d : DieId) (cid : Nat) (pageOk : Bool) (s : State) : Out :=
  .next (onDie s d (fun s =>
    match cmdOf (s.die d) cid with
    | none => s
    | some c =>
      if c.phase = .lookup then
        if !pageOk || c.failed then lookupFail s d c Stat.mediaError
        else if pagesHere (s.die d) c (lookupPages (s.die d) d c) then lookupDone s d c
        else s
      else s))

/-! ### READ -/

/-- The bytes of a READ's range and whether every unit of it that the die holds in memory or on flash is good. -/
def readData (x : Die) (d : DieId) (c : Cmd) (n : NsEntry) (key : Bytes) : Bytes × Bool :=
  let off := c.hdr.arg * n.lbaSize
  let us := (touchedUnits off c.hdr.valueLen).map (fun u =>
    unitPlain key u (unitData x c.tenant c.hdr.nsid (localUnit x d n (u * 4096))))
  (slice (us.flatMap (fun p => p.1)) (off % 4096) c.hdr.valueLen, us.all (fun p => p.2))

/-- The locations on flash of a READ's units. -/
def readLocs (x : Die) (d : DieId) (c : Cmd) (n : NsEntry) : List (BitVec 56) :=
  (touchedUnits (c.hdr.arg * n.lbaSize) c.hdr.valueLen).filterMap (fun u =>
    match denseAt x c.tenant c.hdr.nsid (localUnit x d n (u * 4096)) with
    | none => none
    | some e => if e.nectar.isNone ∧ e.entry ≠ 0 then some (denseLoc e.entry) else none)

/-- Every read of a READ has ended. -/
def finishBlocks (s : State) (d : DieId) (c : Cmd) : State :=
  if c.failed then fail s d c Stat.mediaError else complete s d c Stat.ok 0 0 c.value.length c.value

/-- READ: the map lookup fixes every location and releases the hazard; units on flash are read, one codeword each; the
others are answered from the Nectar buffer or as zeros (R100, R115, R122, log 41). -/
def readBlocks (s : State) (d : DieId) (c : Cmd) : State :=
  match nsOf (s.die d) c.tenant c.hdr.nsid with
  | none => fail s d c Stat.notFound
  | some n =>
    let x := s.die d
    match xtsSlot x.cry c.tenant c.hdr.nsid with
    | none => endQuiet s d c
    | some k =>
      let v := readData x d c n (dataKey x.cry k)
      let locs := readLocs x d c n
      let c1 := { c with phase := .reading, value := v.1, failed := !v.2, reads := locs.length, released := true, holds := locs }
      let mapped := (touchedUnits (c.hdr.arg * n.lbaSize) c.hdr.valueLen).filter (fun u =>
        (unitData x c.tenant c.hdr.nsid (localUnit x d n (u * 4096))).isSome)
      let s2 := queueReads (cryUnits d mapped.length (putCmd s d c1)) d c1 (locs.map (fun l => (l, 1)))
      if locs.isEmpty then finishBlocks s2 d c1 else s2

/-- READ. -/
def execRead (d : DieId) (cid : Nat) (s : State) : Out :=
  .next (onCmd s d cid Op.read (fun s c => afterLookup s d c (fun s c => readBlocks s d c)))

/-! ### A command's read has ended -/

/-- A read of a command has ended, well or not; the last one answers the command. -/
def readEnded (s : State) (d : DieId) (cid : Nat) (ok : Bool) : State :=
  match cmdOf (s.die d) cid with
  | none => s
  | some c =>
    if c.phase = .reading then
      let c1 := { c with reads := c.reads - 1, failed := c.failed || !ok }
      if c1.reads = 0 then
        (if c.hdr.opcode = Op.read then finishBlocks s d c1 else finishRead s d c1)
      else putCmd s d c1
    else s

/-- A run-ahead read has ended: dropped when it was squashed; kept in staging until it stands; counted as a read of its
command once it stands; read again through all stages when stage 1 did not yield it (R172, R281). -/
def runAheadEnded (s : State) (d : DieId) (cid : Nat) (o : FlashOp) (ok : Bool) : State :=
  if o.drop then s
  else match cmdOf (s.die d) cid with
    | none => s
    | some c =>
      if c.phase = .reading then
        if ok then readEnded s d cid true
        else queueOp s d .read (.host cid) (locOf o.chan.val (groupNum o.ce o.lun o.block) o.page 0 o.slc) c.funded none false o.cws
      else match c.ra with
        | none => s
        | some r => putCmd s d { c with ra := some { r with done := true, ok := ok } }

end Sys2Proof.Machine
end

