-- ==== Sys2Proof/Machine/Roots.lean ====
section
/-! DEFINITION. Root records and checkpoints of MAP (R215 to R218): the anchor region, the governing root, what a root names. -/
namespace Sys2Proof.Machine
open Sys2Proof

/-! ### The anchor region (R217) -/

/-- The good anchor blocks of a die, as (group, channel): blocks 0 to 7 of CE 0, LUN 0 on the channels in service. -/
def anchorList (x : Die) : List (Nat × Nat) :=
  (x.groups.filter (fun g => g.st == .anchor)).flatMap (fun g =>
    ((chanList g.good).filter (fun c => !(deadChans x g).contains c)).map (fun c => (g.num, c)))

/-- How many anchor blocks are good. -/
def anchorBlocks (x : Die) : Nat := (anchorList x).length

/-- Erases of an anchor block. -/
def anchorErases (x : Die) (b : Nat × Nat) : Nat := (assocGet (b.1 * 8 + b.2) x.map.anchorWear).getD 0

/-- The least-worn good anchor block other than one. -/
def nextAnchor (x : Die) (cur : Option (Nat × Nat)) : Option (Nat × Nat) :=
  argMin (fun b : Nat × Nat => anchorErases x b * 1024 + b.1 * 8 + b.2) ((anchorList x).filter (fun b => some b != cur))

/-- Erases an anchor block under R214. -/
def eraseAnchor (x : Die) (b : Nat × Nat) : Die :=
  let y := jAppendTo (jAppendTo x 0 0 (.eraseIntent b.1 (2 ^ b.2))) 0 0 (.eraseDone b.1 (2 ^ b.2))
  { y with map := { y.map with
      roots := y.map.roots.filter (fun p => !(p.group == b.1 && p.chan == b.2))
      anchorWear := assocSet (b.1 * 8 + b.2) (anchorErases x b + 1) y.map.anchorWear } }

/-- The place of the next root: the next page of the current anchor block, else page 0 of the least-worn other one, erased when
it has been programmed. None when no anchor block takes it. -/
def rootPlace (s : State) (d : DieId) : Option (Nat × Nat × Nat × Die) :=
  let x := s.die d
  let cur := x.map.roots.getLast?
  let here := match cur with
    | none => none
    | some p =>
      if (anchorList x).contains (p.group, p.chan) && decide (p.page + 1 < blockPages s d false) then
        some (p.group, p.chan, p.page + 1, x) else none
  match here with
  | some r => some r
  | none => (nextAnchor x (cur.map (fun p => (p.group, p.chan)))).map (fun b =>
      (b.1, b.2, 0, if x.map.roots.any (fun p => p.group == b.1 && p.chan == b.2) then eraseAnchor x b else x))

/-! ### The governing root (R218) -/

/-- Whether a location that a root names holds a page; 0 names none. -/
def namesPage (x : Die) (l : BitVec 56) : Bool := l == 0 || x.map.pages.any (fun p => p.loc == l)

/-- Whether a root record is valid: every location that it names holds a page (R218). What the model programs has a good CRC. -/
def rootValid (x : Die) (r : Root) : Bool := namesPage x r.nstab && namesPage x r.bgtab

/-- The newest valid root record of a die's flash, the one with the highest ROOT_SEQ (R218, R219). -/
def newestRoot (x : Die) : Option Root :=
  argMax (fun r : Root => r.seq) ((x.map.roots.map (fun p => p.root)).filter (rootValid x))

/-! ### Placement entries -/

/-- A placement entry of a root, with OFFLINE in bit 7, from one of CMB_PLACE, with OFFLINE in bit 3 (R177, R216). -/
def toRootPlace (e : Nat) : Nat := e % 8 + (if 8 ≤ e then 128 else 0)

/-- The entry of CMB_PLACE of a root's placement entry. -/
def toCombPlace (e : Nat) : Nat := e % 8 + (if 128 ≤ e then 8 else 0)

/-! ### Writing roots -/

/-- The root record of a die's present state that names given tables and replays from a JSEQ (R216). -/
def rootOf (s : State) (d : DieId) (j : Nat) (jhead nstab bgtab : BitVec 56) (loss : Bool) : Root :=
  let x := s.die d
  { die := d.val
    seq := ((x.map.root).map (fun r => r.seq)).getD 0 + 1
    ckptJseq := j
    jhead := jhead
    wseqBound := x.map.wbound
    formatId := x.map.formatId
    mapMode := x.map.mapMode
    loss := loss
    readOnly := x.map.readOnly || decide (anchorBlocks x < 2)
    placement := if d = 0 then s.pkg.placement else x.comb.placement.map toRootPlace
    epoch := s.pkg.epoch
    nstab := nstab
    opPct := x.map.opPct
    policy := x.map.policy
    shrinkGb := x.fgr.shrinkGb
    bgtab := bgtab }

/-- FGR_SPACE: 0 normal, 1 space stop, 2 read-only (R258). -/
def spaceCode (x : Die) : Nat := if x.map.readOnly then 2 else if x.map.spaceStop then 1 else 0

/-- FGR INT bit 4 marks a change of FGR_SPACE (R259). -/
def spaceChanged (was : Nat) (s : State) (d : DieId) : State :=
  if spaceCode (s.die d) = was then s else raiseInt s (dreg d Page.fgr 0) 4

/-- Writes a root record: it governs from now on; the journal records that it and the root before it need are kept (R217, R218).
Fewer than 2 good anchor blocks make the die read-only, and the fault names the channel of the last root (R217, R223, log 165).
Without an anchor block the root is not written. -/
def writeRoot (s : State) (d : DieId) (r : Root) : State :=
  match rootPlace s d with
  | none => s
  | some (g, c, page, y) =>
    let prev := ((s.die d).map.root.map (fun o => o.ckptJseq)).getD r.ckptJseq
    let s1 := s.setDie d { y with map := { y.map with
        roots := y.map.roots ++ [{ group := g, chan := c, page := page, root := r }]
        root := some r
        rootAt := y.mon.devTime
        journal := y.map.journal.filter (fun q => decide (prev < q.jseq))
        journalAt := 0
        ckpt := false
        readOnly := r.readOnly } }
    let s2 := spaceChanged (spaceCode (s.die d)) (raiseInt s1 (dreg d Page.map 0) 1) d
    if anchorBlocks (s.die d) < 2 then recordErr s2 (dreg d Page.map 0) 0x82 c else s2

/-- A root that names the tables of the governing one and replays from the same JSEQ (R209, R218). -/
def reRoot (s : State) (d : DieId) (loss : Bool) : State :=
  match (s.die d).map.root with
  | none => writeRoot s d (rootOf s d (s.die d).map.jseq 0 0 0 loss)
  | some r => writeRoot s d (rootOf s d r.ckptJseq r.jhead r.nstab r.bgtab loss)

/-- A checkpoint in the order of R215: CKPT_BEGIN, the dirty pages and the directories over them, the tables, the root. Without
a group for its pages only a root with the new flags is written (log 166). -/
def checkpoint (s : State) (d : DieId) : State :=
  let s0 := ensureJournal s d
  let j := (s0.die d).map.jseq
  let s1 := s0.updDie d (fun x => jAppendTo x 0 0 (.ckptBegin j))
  match writeMap s1 d with
  | none => reRoot s d false
  | some s2 =>
    let x := s2.die d
    let s3 := writeRoot s2 d (rootOf s2 d j (jpageLoc s2 d (jpageOf (j + 1))) (topOf x d .nstab) (topOf x d .bgtab) false)
    dropJournal (dropPages s3 d) d (j + 1)

/-- Whether a checkpoint is due: CKPT_JMB MiB of journal since the last root, CKPT_S seconds, or MAP_CMD.CKPT_NOW (R215, R222).
An orderly shutdown takes its own. -/
def ckptDue (s : State) (d : DieId) : Bool :=
  let m := (s.die d).map
  m.ckpt || decide (dfld s d Page.map 0x48 10 0 * 2 ^ 20 ≤ m.journalAt)
    || decide (dfld s d Page.map 0x48 31 16 * 1000000000 ≤ (s.die d).mon.devTime - m.rootAt)

/-- CHECKPOINT. -/
def execCheckpoint (d : DieId) (s : State) : Out :=
  .next (onDie s d (fun s => if (s.die d).map.mounted && ckptDue s d then checkpoint s d else s))

/-- MAP_CKPT_NOW: CKPT_NOW reads 1 until the checkpoint's root is written (R222). -/
def execMapCkptNow (r : Requester) (d : DieId) (s : State) : Out :=
  .next (byReq s r (fun s => rowWrite s (dreg d Page.map 0x54) 1 (fun s => s.updDie d (fun x => { x with map := { x.map with ckpt := true } }))))

end Sys2Proof.Machine
end

