-- ==== Sys2Proof/Machine/Forager.lean ====
section
/-! DEFINITION. The Forager (chapter 6): scores and victims (R233 to R236, R293), pacing modes (R242), relocation (R229 to
R232, R239 to R241), retirement (R247 to R249), the VALID recount (R228), read-only mode (R254), and the SLC cache target
(R210) of MAP. -/
namespace Sys2Proof.Machine
open Sys2Proof

/-! ### Modes (R242, R293) -/

/-- GC_START, GC_STOP, GC_URGENT and GC_CRIT. -/
def gcStart (s : State) (d : DieId) : Nat := dfld s d Page.fgr 0x4C 15 0
def gcStop (s : State) (d : DieId) : Nat := dfld s d Page.fgr 0x4C 31 16
def gcUrgent (s : State) (d : DieId) : Nat := dfld s d Page.fgr 0x50 15 8
def gcCrit (s : State) (d : DieId) : Nat := dfld s d Page.fgr 0x50 7 0

/-- Whether a rebuild victim remains (R291, R293). -/
def rebuildDue (x : Die) : Bool := x.groups.any (fun g => g.rebuild && (g.st == .closed || g.st == .erasePending))

/-- Whether reclaim runs: it starts when F falls below GC_START and stops when F reaches GC_STOP (R242). -/
def reclaimNow (s : State) (d : DieId) : Bool :=
  let f := (freeGroups (s.die d)).length
  if f < gcStart s d then true else if gcStop s d ≤ f then false else (s.die d).fgr.reclaim

/-- The Forager's mode (R242, R293). -/
def fgrModeNow (s : State) (d : DieId) : FgrMode :=
  let f := (freeGroups (s.die d)).length
  if rebuildDue (s.die d) then (if f < gcCrit s d then .stall else .paced)
  else if !reclaimNow s d then .rest
  else if gcUrgent s d ≤ f then .background
  else if gcCrit s d ≤ f then .paced
  else .stall

/-- Re-evaluates the mode, at every change of F; entering Stall sets FGR INT bit 1 (R242, R259). -/
def fgrReval (s : State) (d : DieId) : State :=
  let m := fgrModeNow s d
  let s1 := s.updDie d (fun x => { x with fgr := { x.fgr with mode := m, reclaim := reclaimNow s d } })
  if m = .stall ∧ (s.die d).fgr.mode ≠ .stall then raiseInt s1 (dreg d Page.fgr 0) 1 else s1

/-! ### Scores and victims -/

/-- floor(n × max(0, wear_mean − wear) / d), wear_mean being the mean WEAR of the groups that are not RETIRED or ANCHOR
(R233): only the result is rounded. -/
def wearGap (x : Die) (wear n d : Nat) : Nat :=
  let l := x.groups.filter (fun g => g.st != .retired && g.st != .anchor)
  n * (sumBy (fun g : Group => g.wear) l - wear * l.length) / max 1 (d * l.length)

/-- Device time of a die in seconds. -/
def secondsNow (x : Die) : Nat := x.mon.devTime / 1000000000

/-- The score of a CLOSED group (R233). -/
def fgrScore (s : State) (d : DieId) (g : Group) : Nat :=
  let units := (members g.good - 1) * blockPages s d g.qlc * pageUnits s d
  let free := 1024 - 1024 * g.valid / max 1 units
  let cap := max 1 (dfld s d Page.fgr 0x44 31 16)
  let age := 1024 * min (secondsNow (s.die d) - g.closedS) cap / cap
  let cold := min 1024 (wearGap (s.die d) g.wear 1024 (dfld s d Page.fgr 0x48 31 16))
  dfld s d Page.fgr 0x40 7 0 * free + dfld s d Page.fgr 0x44 7 0 * age + dfld s d Page.fgr 0x48 7 0 * cold

/-- The CLOSED groups in ascending number. -/
def closedGroups (x : Die) : List Group := x.groups.filter (fun g => g.st == .closed)

/-- The group with the highest score, the lowest number among equals (R234). -/
def bestByScore (s : State) (d : DieId) (l : List Group) : Option Group :=
  argMax (fun g : Group => fgrScore s d g * 2 ^ 20 + (2 ^ 20 - 1 - g.num)) l

/-- Whether the SLC cache holds more than its target (R235). -/
def slcOver (x : Die) : Bool := decide (x.map.slcTarget < slcUsed x)

/-- The forced victim of R236, when the wear of the FREE and CLOSED groups is spread beyond WEAR_SPAN. -/
def forcedVictim (s : State) (d : DieId) : Option Group :=
  let l := (s.die d).groups.filter (fun g => g.st == .free || g.st == .closed)
  match argMax (fun g : Group => g.wear) l, argMin (fun g : Group => g.wear) l with
  | some hi, some lo =>
    if dfld s d Page.fgr 0x48 31 16 < hi.wear - lo.wear then
      argMin (fun g : Group => g.wear * 2 ^ 20 + g.num) (closedGroups (s.die d))
    else none
  | _, _ => none

/-- The next victim, and whether it is forced: a group with a failed program, then rebuild victims in ascending number,
then a forced victim, then by score; SLC and QLC victims alternate while both are due (R235, R236, R248, R293). -/
def nextVictim (s : State) (d : DieId) : Option (Group × Bool) :=
  let x := s.die d
  let closed := closedGroups x
  match argMin (fun g : Group => g.num) (closed.filter (fun g => g.failed)) with
  | some g => some (g, false)
  | none =>
    match argMin (fun g : Group => g.num) (closed.filter (fun g => g.rebuild)) with
    | some g => some (g, false)
    | none =>
      match forcedVictim s d with
      | some g => some (g, true)
      | none =>
        let slc := closed.filter (fun g => !g.qlc)
        let qlc := closed.filter (fun g => g.qlc)
        if slcOver x && x.fgr.reclaim then
          (bestByScore s d (if x.fgr.slcTurn && !slc.isEmpty || qlc.isEmpty then slc else qlc)).map (fun g => (g, false))
        else if slcOver x then (bestByScore s d slc).map (fun g => (g, false))
        else if x.fgr.reclaim then (bestByScore s d closed).map (fun g => (g, false))
        else none

/-- FGR_SCORE: the mode is re-evaluated and a victim is chosen when one is needed and none stands (R234). -/
def execFgrScore (d : DieId) (s : State) : Out :=
  .next (onDie s d (fun s =>
    let s1 := fgrReval s d
    if (s1.die d).fgr.victim.isSome || !takesWork s (dreg d Page.fgr 0) then s1
    else match nextVictim s1 d with
      | none => s1
      | some (g, f) => s1.updDie d (fun x => { x with fgr := { x.fgr with
          victim := some g.num
          forced := f
          step := .chosen
          moves := []
          lost := []
          slcTurn := g.qlc
          toQlc := !g.qlc && slcOver x
          counted := [] } })))

/-! ### Relocation -/

/-- Whether an extent list has an extent in a group. -/
def touches (n : Nat) (es : List Extent) : Bool := es.any (fun e => e.group == n)

/-- Whether what lies at a location is live (R230). -/
def liveAt (x : Die) (q : Stored) : Bool :=
  match q.payload with
  | .record r _ _ _ => x.map.kv.any (fun e => e.valid && !e.nectar && e.tenant == r.tenant && e.nsid == r.nsid && e.loc == q.loc
      && e.version == r.version)
  | .blocks (b :: _) => ((denseAt x b.tenant b.nsid b.unit).map (fun e => e.nectar.isNone && e.entry == locDense q.loc)).getD false
  | _ => false

/-- The live items of a victim, in the order in which they were stored. -/
def liveItems (x : Die) (n : Nat) : List Stored := x.map.stored.filter (fun q => touches n q.extents && liveAt x q)

/-- What a copy of an item holds (R231): a record is decrypted, verified and encrypted again under the current key; one
that fails verification, or for which no key can encrypt (log 43), is copied byte for byte. None: the copy waits for a
counter bound. The flags say whether the record was unreadable and whether a new encryption was made. -/
inductive CopyOf where
  | fresh (p : Payload) (x : Die)
  | same (unreadable : Bool)
  | wait (k : DataSlot)
deriving DecidableEq, Repr

/-- The copy of one live item; `lost` says that a page of it could not be read. -/
def copyItem (x : Die) (d : DieId) (q : Stored) (lost : Bool) : CopyOf :=
  match q.payload with
  | .record r key htag bucket =>
    match (if q.poison || !q.verOk || lost then none else openRec x.cry r) with
    | none => .same true
    | some p =>
      match askEncrypt x r.tenant with
      | .exhausted => .same false
      | .wait k => .wait k
      | .ready k =>
        .fresh (.record (sealRec x.cry d k r.tenant r.nsid r.version p.1 p.2) key htag bucket)
          { x with cry := putSlot x.cry (afterEncrypt (limitLog2 x r.tenant) k) }
  | _ => .same (q.poison || !q.verOk || lost)

/-- Copies made of a list of items, until one has to wait for a counter bound; `bad` are the records among them that failed
their verification. -/
structure Copies where
  die   : Die
  moves : List Move
  bad   : List (BitVec 56)
  wait  : Option DataSlot
deriving DecidableEq, Repr

/-- Makes the copies of a victim's items. -/
def copyItems (s : State) (d : DieId) (c : Copies) (q : Stored) : Copies :=
  if c.wait.isSome then c
  else match copyItem c.die d q ((pagesOf s d q.extents).any (fun p => (s.die d).fgr.lost.contains p.1)) with
    | .wait k => { c with wait := some k }
    | .same bad => { c with
        die := (match q.payload with
          | .record r _ _ _ => if bad then c.die else retireSpent c.die r.tenant
          | _ => c.die)
        moves := c.moves ++ [{ old := q.loc, placed := [], payload := q.payload, poison := q.poison, verOk := q.verOk && !bad }]
        bad := if bad && !isBlocks q.payload then c.bad ++ [q.loc] else c.bad }
    | .fresh p x => { c with
        die := x
        moves := c.moves ++ [{ old := q.loc, placed := [], payload := p, poison := false, verOk := true }] }

/-- The mode of the group that a victim's data is copied into: QLC data stays in QLC, SLC data goes to QLC when its victim was
taken under R235, when the cache is at its target, or when the record is larger than DIRECT_KB (R208, R235, log 42). -/
def copyQlc (s : State) (d : DieId) (g : Group) (p : Payload) : Bool :=
  g.qlc || (s.die d).fgr.toQlc || decide ((s.die d).map.slcTarget ≤ slcUsed (s.die d)) || direct s d p

/-- A move as the packer's entry, numbered by its place. -/
def moveEntry (i : Nat) (m : Move) : RingEntry :=
  { wid := i, addr := 0, payload := m.payload, dirty := 0, placed := m.placed, stripes := [], through := none, poison := m.poison }

/-- Places copies into copy groups stripe by stripe and queues their programs, with fuel; none when no group can be
opened (R243). -/
def placeCopies (qlcOf : RingEntry → Bool) : Nat → State → DieId → List RingEntry → Option (State × List RingEntry)
  | 0, s, _, l => some (s, l)
  | n + 1, s, d, l =>
    match l.find? (fun r => !fullyPlaced r) with
    | none => some (s, l)
    | some head =>
      match openFor s d (qlcOf head) true with
      | none => none
      | some (g, s1) =>
        let stop := g.used + stripeRun s d g * stripeUnits s d g
        let r := packInto (fun e => qlcOf e == qlcOf head) g.num (s1.die d).flash.nextSid stop (2 * l.length + stop - g.used + 2) g.used l
        let s2 := s1.updDie d (fun x => updGroup x g.num (fun g => { g with used := stop }))
        if stop = g.used then none
        else placeCopies qlcOf n (addStripe s2 d g g.used (r.2 - g.used) r.1 true) d r.1

/-- The pages that the Forager reads of a victim: its data pages in stripe order, then the pages in other groups of the
live records that reach into it (R230, R239 step 2, R293). -/
def victimPages (s : State) (d : DieId) (g : Group) : List (BitVec 56) :=
  (List.range (ceilDiv g.used (max 1 (pageUnits s d)))).map (fun k => unitLoc s d g (k * pageUnits s d))
    ++ ((pagesOf s d (((liveItems (s.die d) g.num).flatMap (fun q => q.extents)).filter (fun e => e.group != g.num))).map (fun p => p.1))

/-- Step 2 of R239: the reads of the victim's codewords are queued; they spend tokens as other reads do (R242). -/
def readVictim (s : State) (d : DieId) (g : Group) : State :=
  ((victimPages s d g).foldl (fun s l => queueOp s d .read .forager l false none false (pageCw s d)) s).updDie d (fun x =>
    { x with fgr := { x.fgr with step := .reading, lost := [] } })

/-- Whether reads of the Forager are outstanding. -/
def victimReading (x : Die) : Bool := x.flash.ops.any (fun o => o.kind == .read && o.src == .forager)

/-- The requests of the copies to CRY (R231, R355): a record is decrypted, and encrypted again where the copy is new. -/
def copyBlocks (s : State) (d : DieId) (m : Move) : State :=
  match m.payload with
  | .record r _ _ _ =>
    let n := gcmBlocks (r.keyLen + r.valueLen)
    if m.verOk then cryBlocks (cryBlocks s d n) d n else if m.poison then s else cryBlocks s d n
  | _ => s

/-- Step 3 of R239: the live items are copied and the copies' programs queued. -/
def copyVictim (s : State) (d : DieId) (g : Group) : State :=
  let x := s.die d
  let items := liveItems x g.num
  let c := items.foldl (copyItems s d) { die := x, moves := [], bad := [], wait := none }
  match c.wait with
  | some k => reserveWait s d k
  | none =>
    let s1 := c.moves.foldl (fun s m => copyBlocks s d m) (s.setDie d c.die)
    let entries := c.moves.mapIdx (fun i m => moveEntry i m)
    let mode (r : RingEntry) : Bool := match r.placed.getLast?.bind (fun e => groupOf (s.die d) e.group) with
      | some q => q.qlc
      | none => copyQlc s d g r.payload
    match placeCopies mode (sumBy (fun r : RingEntry => payloadUnits r.payload) entries + 1) s1 d entries with
    | none => recordErr s (dreg d Page.fgr 0) 0x80 (g.num % 65536)
    | some (s2, l) =>
      let moves := (c.moves.zip l).map (fun p => { p.1 with placed := p.2.placed })
      let bad := c.bad.filter (fun l => !x.fgr.counted.contains l)
      let s3 := s2.updDie d (fun x => { x with fgr := { x.fgr with
        moves := moves
        step := .copying
        counted := x.fgr.counted ++ bad } })
      fgrReval (if bad.isEmpty then s3
        else recordErr (regBump s3 (dreg d Page.fgr 0xBC) bad.length) (dreg d Page.fgr 0) 0x81 (g.num % 65536)) d

/-- The copies of a die that are in stripes not yet programmed. -/
def copiesPending (x : Die) : Bool := x.flash.stripes.any (fun t => t.forager)

/-- Whether the entry of a record still names its old location with its version (R213). -/
def stillAt (e : BEntry) (r : Rec) (old : BitVec 56) : Bool :=
  e.tenant == r.tenant && e.nsid == r.nsid && e.valid && !e.nectar && e.loc == old && e.version == r.version

/-- The durable form of an entry after a move. -/
def moveDurable (old new : BitVec 56) (version : Nat) : Option (Nat × BitVec 56 × Nat) → Option (Nat × BitVec 56 × Nat)
  | some (v, l, n) => if v = version ∧ l = old then some (v, new, n) else some (v, l, n)
  | none => none

/-- The payload of a copy with the extents that it has been given; one copied byte for byte keeps its own (R190, R231). -/
def movedPayload (s : State) (d : DieId) (m : Move) : Payload :=
  match m.payload with
  | .record r key htag bucket =>
    if m.verOk then .record (finishRec (s.die d).cry r r.version (extentTable s d m.placed)) key htag bucket else m.payload
  | p => p

/-- Commits a record's move with MAP_MOVE (R213, R239 steps 4 and 5). The entry keeps its STORED_LEN, which the record does not
carry (log 168). -/
def commitRecord (s : State) (d : DieId) (m : Move) (r : Rec) (htag : BitVec 64) (bucket : Nat) : State :=
  let new := placedLoc s d m.placed
  let payload := movedPayload s d m
  let takes := (s.die d).map.kv.any (fun e => stillAt e r m.old)
  let s1 := s.updDie d (fun x =>
    let y := addStored (jAppendTo x r.tenant r.nsid (.mapMove htag r.version m.old new bucket))
      { loc := new, extents := m.placed, payload := payload, poison := m.poison, verOk := m.verOk }
    let z := if takes then retain (release y m.old) new else y
    { z with
      map := { z.map with kv := z.map.kv.map (fun e =>
        let e1 := if e.tenant == r.tenant && e.nsid == r.nsid then { e with durable := moveDurable m.old new r.version e.durable } else e
        if stillAt e r m.old then { e1 with loc := new } else e1) }
      comb := let c := hotRewriteTag z.comb r.tenant r.nsid htag
                (fun e => resKind e.res == 0 && resVersion e.res == r.version && resLoc e.res == m.old) r.version 0 new
              { c with slots := c.slots.map (fun v => if v.loc == m.old then { v with loc := new } else v) } })
  if takes then s1 else regBump s1 (dreg d Page.fgr 0xB8) 1

/-- Commits a unit's move with LBA_MOVE. -/
def commitBlock (s : State) (d : DieId) (m : Move) (b : Blk) : State :=
  let new := placedLoc s d m.placed
  let e := denseGet (s.die d) b.tenant b.nsid b.unit
  let takes := e.nectar.isNone && e.entry == locDense m.old
  let s1 := s.updDie d (fun x =>
    let y := addStored (jAppendTo x b.tenant b.nsid (.lbaMove b.unit 1 (locDense m.old) (locDense new)))
      { loc := new, extents := m.placed, payload := m.payload, poison := m.poison, verOk := m.verOk }
    let z := if takes then retain (release y m.old) new else y
    densePut z { e with
      entry := if takes then locDense new else e.entry
      durable := if e.durable == locDense m.old then locDense new else e.durable })
  if takes then s1 else regBump s1 (dreg d Page.fgr 0xB8) 1

/-- Commits one move. -/
def commitMove (s : State) (d : DieId) (m : Move) : State :=
  match m.payload with
  | .record r _ htag bucket => commitRecord s d m r htag bucket
  | .blocks (b :: _) => commitBlock s d m b
  | _ => s

/-- Run-ahead reads of a die that have neither stood, been squashed nor completed (R174). -/
def raOpen (x : Die) : List Nat :=
  x.csq.cmds.filterMap (fun c => match c.ra with
    | some r => if c.phase = .lookup ∧ r.done = false then some r.op else none
    | none => none)

/-- Steps 4 to 6 of R239: the moves are committed, INV_MASKED runs on the victim's BLK_TAG and the drain fence begins. -/
def commitVictim (s : State) (d : DieId) (n : Nat) : State :=
  let s1 := (s.die d).fgr.moves.foldl (fun s m => commitMove s d m) s
  s1.updDie d (fun x =>
    { x with
      comb := { invMasked x.comb (tagInv (n % 2 ^ 18)).1 (tagInv (n % 2 ^ 18)).2 with fence := raOpen x }
      fgr := { x.fgr with step := .fencing, moves := [] } })

/-- FGR_RECLAIM: the reads of a chosen victim are queued; read, it is copied; copied and programmed, it is committed (R239
to R241). -/
def execFgrReclaim (d : DieId) (s : State) : Out :=
  .next (onDie s d (fun s =>
    match (s.die d).fgr.victim with
    | none => s
    | some n =>
      if s.guard.losing then s
      else match groupOf (s.die d) n with
        | none => s
        | some g =>
          if (s.die d).fgr.step = .chosen then readVictim s d g
          else if (s.die d).fgr.step = .reading ∧ victimReading (s.die d) = false then copyVictim s d g
          else if (s.die d).fgr.step = .copying ∧ copiesPending (s.die d) = false then commitVictim s d n
          else s))

/-- CMB_DRAIN_FENCE (R174). -/
def execCmbDrainFence (d : DieId) (s : State) : Out :=
  .next (onDie s d (fun s =>
    if (s.die d).fgr.step = .fencing ∧ (s.die d).fgr.victim.isSome = true
        ∧ (s.die d).comb.fence.any (fun o => (raOpen (s.die d)).contains o) = false then
      s.updDie d (fun x => { x with comb := { x.comb with fence := [] }, fgr := { x.fgr with step := .waiting } })
    else s))

/-! ### Retirement (R247) -/

/-- Retires a block: BLOCK_RETIRE, its GOOD bit, and the group whole when fewer than 4 good blocks remain; the policy is
applied to the new margin (R227, R247, R250). -/
def retireBlock (s : State) (d : DieId) (n chan : Nat) : State :=
  let s1 := s.updDie d (fun x =>
    updGroup (jAppendTo { x with fgr := { x.fgr with retired := x.fgr.retired + 1 } } 0 0 (.blockRetire n chan)) n
      (fun g => { g with good := g.good - (if g.good.testBit chan then 2 ^ chan else 0), badCh := g.badCh.filter (· != chan) }))
  let s2 := raiseInt (recordEvent (regBump s1 (dreg d Page.fgr 0xA8) 1) d 0x0B 0) (dreg d Page.fgr 0) 2
  let s3 := match groupOf (s2.die d) n with
    | none => s2
    | some g =>
      if members g.good < 4 ∧ g.st ≠ .retired then
        (regBump s2 (dreg d Page.fgr 0xAC) 1).updDie d (fun x =>
          updGroup (jAppendTo x 0 0 (.groupRetire n)) n (fun g => { g with st := .retired }))
      else s2
  applyPolicy s3 d

/-- The reclaim of a victim ends. -/
def endVictim (s : State) (d : DieId) : State :=
  fgrReval (s.updDie d (fun x => { x with fgr := { x.fgr with victim := none, forced := false, step := .chosen, moves := [], lost := [] } })) d

/-- Whether a reader holds a location fixed in a group (R123, R239 step 7), or a program runs in it still (R283). -/
def readersIn (x : Die) (n : Nat) : Bool :=
  x.csq.cmds.any (fun c => c.phase == .reading && ((match c.fixed with
    | some f => touches n (extentsAt x f.loc)
    | none => false) || c.holds.any (fun l => touches n (extentsAt x l))))
  || x.flash.ops.any (fun o => groupNum o.ce o.lun o.block == n && (o.kind == .program || (o.kind == .read && !o.drop)))

/-- Queues the erases of a group's good blocks (R239 step 9). -/
def queueErases (s : State) (d : DieId) (g : Group) : State :=
  (chanList g.good).foldl (fun s c => queueOp s d .erase .forager (locOf c g.num 0 0 (!g.qlc)) false none false 0) s

/-- Steps 8 and 9 of R239 on a group: ERASE_INTENT, the retirement of its failed blocks, and the erases. -/
def eraseGroup (s : State) (d : DieId) (n : Nat) : State :=
  let s1 := s.updDie d (fun x =>
    let y := jAppendTo x 0 0 (.eraseIntent n (((groupOf x n).map (fun g => g.good)).getD 0))
    let z := updGroup y n (fun g => { g with st := .erasePending, valid := 0 })
    { z with map := { z.map with
        stored := z.map.stored.filter (fun q => !touches n q.extents)
        tags := z.map.tags.filter (fun t => t.group != n) } })
  let s2 := match groupOf (s1.die d) n with
    | none => s1
    | some g => g.badCh.foldl (fun s c => retireBlock s d n c) s1
  let s3 := s2.updDie d (fun x => updGroup x n (fun g =>
    { g with good := g.good - ((deadChans x g).map (2 ^ ·)).sum }))
  match groupOf (s3.die d) n with
  | none => s3
  | some g =>
    if g.st = .retired then s3
    else if members g.good < 4 then
      applyPolicy ((regBump s3 (dreg d Page.fgr 0xAC) 1).updDie d (fun x =>
        updGroup (jAppendTo x 0 0 (.groupRetire n)) n (fun g => { g with st := .retired }))) d
    else queueErases s3 d g

/-- FGR_ERASE_START: once no reader holds a location in the victim (R214, R239 steps 7 to 9). -/
def execFgrEraseStart (d : DieId) (s : State) : Out :=
  .next (onDie s d (fun s =>
    match (s.die d).fgr.victim with
    | none => s
    | some n =>
      if (s.die d).fgr.step = .waiting ∧ readersIn (s.die d) n = false ∧ s.guard.losing = false then
        let s1 := eraseGroup s d n
        if ((groupOf (s1.die d) n).map (fun g => g.st)) = some .retired then endVictim s1 d
        else s1.updDie d (fun x => { x with fgr := { x.fgr with step := .erasing } })
      else s))

/-- FGR_WEAR_PCT (R258). -/
def wearPct (s : State) (d : DieId) : Nat :=
  100 * ((argMax (fun g : Group => g.wear) ((s.die d).groups.filter (fun g => g.st != .retired))).map (fun g => g.wear)).getD 0
    / max 1 (dfld s d Page.fgr 0x58 31 8)

/-- The erase of a group is over: ERASE_DONE, its WEAR, FREE (R226, R237, R239 step 10). -/
def eraseDone (s : State) (d : DieId) (g : Group) : State :=
  let w := if g.qlc then dfld s d Page.fgr 0x58 7 0 else 1
  let s1 := s.updDie d (fun x =>
    updGroup (jAppendTo x 0 0 (.eraseDone g.num g.good)) g.num (fun g => { g with
      st := .free
      qlc := false
      copy := false
      wear := g.wear + w
      valid := 0
      used := 0
      rebuild := false
      failed := false
      badCh := []
      purpose := 0 }))
  let s2 := if wearPct s d < 90 ∧ 90 ≤ wearPct s1 d then raiseInt s1 (dreg d Page.fgr 0) 5 else s1
  let s3 := fillRescue s2 d
  if (s.die d).fgr.victim = some g.num then endVictim s3 d else fgrReval s3 d

/-! ### PACKER_STRIPE -/

/-- PACKER_STRIPE: in Stall the packer holds its stripes (R243); else it assembles its next stripes and drains what needs
none. -/
def execPackerStripe (d : DieId) (s : State) : Out :=
  .next (onDie s d (fun s =>
    if (s.die d).fgr.mode = .stall then drainRing ((s.die d).map.ring.length) s d
    else drainRing ((s.die d).map.ring.length) (fgrReval (packStripe s d) d) d))

/-! ### VALID recount (R228) -/

/-- FGR_RECOUNT: a write of RECOUNT. -/
def execFgrRecount (r : Requester) (d : DieId) (s : State) : Out :=
  .next (byReq s r (fun s => rowWrite s (dreg d Page.fgr 0x60) 1 (fun s => s.updDie d (fun x => { x with fgr := { x.fgr with recount := true } }))))

/-- VALID counted again from the map. -/
def recounted (x : Die) : Die :=
  let y : Die := { x with groups := x.groups.map (fun g : Group => { g with valid := 0 }) }
  (y.map.stored.filter (liveAt y)).foldl (fun z q => q.extents.foldl validAdd z) y

/-- Whether some die holds a live record, on flash or in its ring, of a tenant's data key generation. -/
def genLive (s : State) (tenant gen : Nat) : Bool :=
  allDies.any (fun e =>
    let x := s.die e
    x.map.stored.any (fun q => match q.payload with
      | .record r _ _ _ => r.tenant == tenant && r.keygen == gen && liveAt x q
      | _ => false)
    || x.map.ring.any (fun q => match q.payload with
      | .record r _ _ _ => r.tenant == tenant && r.keygen == gen
      | _ => false))

/-- Erases a generation on every die and drops its record (R349). -/
def dropGen (s : State) (tenant gen : Nat) : State :=
  journalDel (overDies (fun s e => s.updDie e (fun x =>
    { x with cry := eraseData x.cry (fun k => k.tenant == tenant && k.gen == gen && k.xts.isNone) })) s allDies)
    (.keyData tenant gen [] .decryptOnly)

/-- Whether the configuration journal holds a generation as one that a newer one has followed (R345, R349): a generation
that is CURRENT there and exhausted on one die only is none. -/
def genFollowed (s : State) (tenant gen : Nat) : Bool :=
  (cjLive s.nor.journal).any (fun b => match b with
    | .keyData t g _ .decryptOnly => t == tenant && g == gen
    | _ => false)

/-- FGR_RECOUNT_DONE: VALID is exact, and DECRYPT_ONLY generations without a live record on any die are erased (R228,
R259, R349). -/
def execFgrRecountDone (d : DieId) (s : State) : Out :=
  .next (onDie s d (fun s =>
    if (s.die d).fgr.recount then
      let s1 := s.updDie d (fun x => recounted { x with fgr := { x.fgr with recount := false } })
      let dead := (s1.die d).cry.data.filter (fun k => k.st == .decryptOnly && k.xts.isNone
        && genFollowed s1 k.tenant k.gen && !genLive s1 k.tenant k.gen)
      raiseInt (dead.foldl (fun s k => dropGen s k.tenant k.gen) s1) (dreg d Page.fgr 0) 6
    else s))

/-! ### The SLC cache target (R210) -/

/-- The die's valid data in bytes (U of R210). -/
def validBytes (x : Die) : Nat := kvBytes x + 4096 * (x.map.dense.filter (fun e => e.entry != 0 || e.nectar.isSome)).length

/-- S of R210. -/
def slcTargetOf (s : State) (d : DieId) : Nat :=
  let free := exported s d - validBytes (s.die d)
  max (min (free * dfld s d Page.map 0x4C 7 0 / 256 / 4) (dfld s d Page.map 0x4C 31 16 * 1000000000))
    (dfld s d Page.map 0x4C 15 8 * 1000000000)

/-- SLC_TARGET_RECOMPUTE. -/
def execSlcTargetRecompute (d : DieId) (s : State) : Out :=
  .next (onDie s d (fun s => s.updDie d (fun x => { x with map := { x.map with slcTarget := slcTargetOf s d } })))

/-! ### Read-only mode (R254) -/

/-- A die enters read-only mode and writes a root with READ_ONLY set. -/
def enterReadOnly (s : State) (d : DieId) : State :=
  if (s.die d).map.readOnly then s.updDie d (fun x => { x with fgr := { x.fgr with roReport := false } })
  else
    let s1 := s.updDie d (fun x =>
      { x with fgr := { x.fgr with roReport := false }, map := { x.map with readOnly := true } })
    raiseInt (checkpoint s1 d) (dreg d Page.fgr 0) 4

/-- READ_ONLY_ENTER: die 0 makes every die read-only. -/
def execReadOnlyEnter (d : DieId) (s : State) : Out :=
  .next (onDie s d (fun s => if (s.die d).fgr.roReport then overDies enterReadOnly s (upDies s) else s))

end Sys2Proof.Machine
end

