-- ==== Sys2Proof/Machine/Nand.lean ====
section
/-! DEFINITION. The NAND bus of an FCH (chapter 7): the interface mode in use and the ready/busy lines (R260, R261), the commands
that it issues (R262, R264), and its identification and training (R263, R290). -/
namespace Sys2Proof.Machine
open Sys2Proof

/-- A register of an FCH. -/
def fchReg (d : DieId) (c : ChanId) (off : Nat) : Nat := dreg d (Page.fch c) off
/-- Changes a channel of a die. -/
def updChan (x : Die) (c : ChanId) (f : Chan → Chan) : Die :=
  { x with flash := { x.flash with chans := vset x.flash.chans c (f (x.flash.chans.get c)) } }

/-- The code of a command (R262). -/
def NandCmd.codes : NandCmd → List Nat
  | .reset => [0xFF]
  | .resetLun => [0xFA]
  | .readId => [0x90]
  | .readParam => [0xEC]
  | .statusEnhanced => [0x78]
  | .status => [0x70]
  | .read => [0x00, 0x30]
  | .column => [0x06, 0xE0]
  | .program => [0x80, 0x10]
  | .erase => [0x60, 0xD0]
  | .getFeatures => [0xEE]
  | .setFeatures => [0xEF]
  | .getFeaturesLun => [0xD4]
  | .setFeaturesLun => [0xD5]
  | .zqLong => [0xF9]
  | .zqShort => [0xD9]
  | .odt => [0xE2]
  | .readTraining => [0x62]
  | .writeTrainingTx => [0x63]
  | .writeTrainingRx => [0x64]
  | .opc n => [n]

/-- The FCH issues commands on a channel. -/
def sendNand (s : State) (d : DieId) (c : ChanId) (l : List NandCmd) : State :=
  s.updDie d (fun x => updChan x c (fun q => { q with sent := l }))

/-- Whether CE c's R/B line shows busy: an array operation runs behind it (R260, R283). -/
def rbBusy (x : Die) (c : ChanId) (ce : Nat) : Bool := x.flash.ops.any (fun o => o.chan == c && o.ce == ce && o.running && !o.paused)

/-- The status command of a channel: Read Status where a CE has one LUN, else Read Status Enhanced (R262). -/
def statusCmd (s : State) (d : DieId) (c : ChanId) : NandCmd :=
  if fld (regGet s (fchReg d c 0x44)) 27 24 = 0 then .status else .statusEnhanced

/-- The SLC-mode prefix before an operation on a block in SLC mode (R264). -/
def slcPrefix (s : State) (d : DieId) (o : FlashOp) : List NandCmd :=
  if o.slc then [.opc (fld (regGet s (fchReg d o.chan 0x58)) 15 8)] else []

/-- The commands that start an operation (R262, R264). -/
def startCmds (s : State) (d : DieId) (o : FlashOp) : List NandCmd :=
  slcPrefix s d o ++ [match o.kind with
    | .read => .read
    | .program => .program
    | .erase => .erase]

/-- The commands that end an operation: its status, and a read's codewords (R262). -/
def endCmds (s : State) (d : DieId) (o : FlashOp) : List NandCmd :=
  statusCmd s d o.chan :: (if o.kind = .read then List.replicate o.cws .column else [])

/-- The commands of one read at other levels: the offsets, the read, its end (R262, R278). -/
def levelRead (s : State) (d : DieId) (o : FlashOp) : List NandCmd :=
  .setFeaturesLun :: startCmds s d o ++ endCmds s d o

/-- The reset of a LUN that has timed out: Reset LUN when it is advertised, else Reset (R262, R287). -/
def timeoutCmd (d : DieId) (o : FlashOp) : NandCmd :=
  if Config.advertises d.val o.chan.val (o.ce * 16 + o.lun) 0 then .resetLun else .reset

/-- The LUNs of a channel, CE × 16 + LUN. -/
def chanLuns (s : State) (d : DieId) (c : ChanId) : List Nat :=
  ((List.range 4).filter (fun ce => bitAt (regGet s (fchReg d c 0x44)) (28 + ce))).flatMap (fun ce =>
    (List.range (fld (regGet s (fchReg d c 0x44)) 27 24 + 1)).map (fun l => ce * 16 + l))

/-- Identification and training of a channel: Reset, each LUN's ID and parameter page in SDR mode, the timing mode, ZQ
calibration and termination, then the training patterns (R262, R263, R290 steps 3 and 4, log 171). -/
def trainCmds (s : State) (d : DieId) (c : ChanId) : List NandCmd :=
  let mode := fld (regGet s (fchReg d c 0x40)) 19 16
  let luns := (chanLuns s d c).filter (fun k => !lunRetired (s.die d) c (k / 16) (k % 16))
  let zq (k : Nat) : List NandCmd := if mode = 2 ∨ (mode = 3 ∧ Config.advertises d.val c.val k 2 = true) then [.zqLong] else []
  let odt (k : Nat) : List NandCmd := if Config.advertises d.val c.val k 1 then [.odt] else []
  .reset :: luns.flatMap (fun _ => [.readId, .readParam])
    ++ [.setFeatures, .getFeatures] ++ luns.flatMap (fun k => zq k ++ odt k) ++ [.readTraining]
    ++ (if mode = 1 ∨ mode = 2 then [.writeTrainingTx, .writeTrainingRx] else [])

/-- A reset of a channel: SDR at 10 MT/s until training ends (R260, R290 step 3). -/
def channelReset (x : Die) (c : ChanId) : Die := updChan x c (fun q => { q with mode := 0, rate := 10 })

/-- Training has ended well: the channel runs in the mode and at the rate of FCH_IF until its next reset (R261). -/
def channelTrained (s : State) (d : DieId) (c : ChanId) : State :=
  let w := regGet s (fchReg d c 0x40)
  s.updDie d (fun x => updChan x c (fun q => { q with mode := fld w 19 16, rate := fld w 15 0 }))

/-- The channels of a die are identified and trained at a start; a retired one is held retired (R260, R263, R291). -/
def trainChannels (s : State) (d : DieId) : State :=
  (List.range 8).foldl (fun s i =>
    let c := chanOf i
    if ((s.die d).flash.chans.get c).st = .retired then s
    else channelTrained (sendNand s d c (trainCmds s d c)) d c) s

end Sys2Proof.Machine
end

