-- ==== Sys2Proof/Machine/FlashChannels.lean ====
section
/-! DEFINITION. FCH and LDC (chapter 7): issue, order and suspension of flash operations (R244, R265, R274, R283, R286),
the ends of reads, programs and erases (R247 to R249, R277 to R282, R284, R287), retraining and retirement (R288 to R292);
the power tokens (R242, R505 to R509). -/
namespace Sys2Proof.Machine
open Sys2Proof

/-! ### Operations -/

/-- An operation of a die. -/
def opOf (x : Die) (n : Nat) : Option FlashOp := x.flash.ops.find? (fun o => o.op == n)
/-- Changes an operation of a die. -/
def updOp' (x : Die) (n : Nat) (f : FlashOp → FlashOp) : Die :=
  { x with flash := { x.flash with ops := updWhere (fun o => o.op == n) f x.flash.ops } }
/-- Removes an operation of a die. -/
def dropOp (x : Die) (n : Nat) : Die := { x with flash := { x.flash with ops := x.flash.ops.filter (fun o => o.op != n) } }
/-- Whether two operations are on one LUN. -/
def sameLun (a b : FlashOp) : Bool := a.chan == b.chan && a.ce == b.ce && a.lun == b.lun
/-- Whether two operations are on one block. -/
def sameBlock (a b : FlashOp) : Bool := sameLun a b && a.block == b.block
/-- The block group of an operation. -/
def opGroup (o : FlashOp) : Nat := groupNum o.ce o.lun o.block

/-- The class of a read: its command's class in R118's sense, 8 for an operation of no command. -/
def opClass (x : Die) (o : FlashOp) : Nat :=
  match o.src with
  | .host cid => ((cmdOf x cid).map (fun c => c.chgCls)).getD 7
  | .runAhead cid => ((cmdOf x cid).map (fun c => c.chgCls)).getD 7
  | .mapPage cid _ => ((cmdOf x cid).map (fun c => c.chgCls)).getD 7
  | _ => 8

/-- The operation that runs on an operation's LUN and is not suspended. -/
def lunBusy (x : Die) (o : FlashOp) : Option FlashOp := x.flash.ops.find? (fun p => sameLun p o && p.running && !p.paused)
/-- The suspended operation of an operation's LUN. -/
def lunPaused (x : Die) (o : FlashOp) : Option FlashOp := x.flash.ops.find? (fun p => sameLun p o && p.paused)

/-- Whether an operation is next in the order of R283: in its block, and among the queued reads of its LUN, class 0
first. -/
def inOrder (x : Die) (o : FlashOp) : Bool :=
  let before := x.flash.ops.filter (fun p => decide (p.op < o.op))
  if o.kind = .read then
    !before.any (fun p => sameBlock p o && p.kind != .read)
      && !x.flash.ops.any (fun p => sameLun p o && p.kind == .read && !p.running && p.op != o.op
          && (if opClass x o = 0 then opClass x p == 0 && decide (p.op < o.op)
              else opClass x p == 0 || decide (p.op < o.op)))
  else !before.any (fun p => sameBlock p o)

/-- Whether an operation may be suspended by a read (R244, R286). -/
def suspends (s : State) (d : DieId) (o p : FlashOp) : Bool :=
  let x := s.die d
  let m := x.fgr.mode
  let limit := if p.kind = .erase then fld (regGet s (fchReg d p.chan 0x54)) 23 16 else fld (regGet s (fchReg d p.chan 0x54)) 31 24
  o.kind == .read && decide (opClass x o ≤ 7)
    && (p.kind == .erase || (p.kind == .program && p.src == .forager))
    && (decide (opClass x o = 0) || ((m == .rest || m == .background) && decide (dfld s d Page.fgr 0x54 16 16 = 1)))
    && bitAt (regGet s (fchReg d p.chan 0x58)) 0
    && decide (fld (regGet s (fchReg d p.chan 0x54)) 15 0 * 1000 ≤ x.mon.devTime - p.since)
    && decide (p.susp < limit)

/-- Whether MOV's pulse lets a parity program go (R274). -/
def pulseOk (x : Die) (o : FlashOp) : Bool :=
  !o.parity || (match o.stripe with
    | none => true
    | some t => x.flash.stripes.any (fun q => q.sid == t && q.pulsed.contains o.chan.val))

/-- Whether a LUN is free for an operation, or is to be freed by a suspension (R244, R283, R286). -/
def lunFree (s : State) (d : DieId) (o : FlashOp) : Bool :=
  match lunPaused (s.die d) o with
  | some p => p.serve.contains o.op
  | none => match lunBusy (s.die d) o with
    | none => true
    | some p => o.late.isNone && suspends s d o p

/-- Whether an operation could be issued now but for its tokens; the reads of a rebuild go to other LUNs (R277). -/
def eligible (s : State) (d : DieId) (o : FlashOp) : Bool :=
  let x := s.die d
  !o.running && ((o.late.map (fun l => l.fin == .rebuild)).getD false
    || (inService x o.chan o.ce o.lun && inOrder x o && pulseOk x o && lunFree s d o))

/-! ### Tokens (R242, R505, R506) -/

/-- Whether some program of the packer waits and could go but for its tokens. -/
def packerWaits (s : State) (d : DieId) : Bool :=
  (s.die d).flash.ops.any (fun o => o.kind == .program && o.src == .packer && eligible s d o)

/-- The cost of the first Forager program or erase that waits and could go but for its tokens. -/
def foragerWaits (s : State) (d : DieId) : Option Nat :=
  ((s.die d).flash.ops.find? (fun o => o.kind != .read && o.src == .forager && eligible s d o)).map (fun o => o.cost)

/-- Dirty bytes exceed the budget (R319). -/
def overBudget (s : State) (d : DieId) : Bool := decide (budgetOf s d < dirtyBytes (s.die d))

/-- Whether the Forager has a share in Rest: its victim is one of R235 or R236, or of R248, or its work has no victim (R242, R245,
log 167). -/
def restWork (x : Die) : Bool :=
  x.fgr.forced || x.fgr.toQlc || (match x.fgr.victim with
    | none => true
    | some n => ((groupOf x n).map (fun g => g.failed)).getD true)

/-- Whether the split of R242 lets a program or erase take tokens. -/
def splitAllows (s : State) (d : DieId) (o : FlashOp) : Bool :=
  let x := s.die d
  let credit := x.flash.credit
  if o.kind = .read then true
  else if o.src = .forager then
    match x.fgr.mode with
    | .stall => true
    | .rest => restWork x && decide ((16 * o.cost : Nat) ≤ credit) && !(overBudget s d && packerWaits s d)
    | .background => (decide ((16 * o.cost : Nat) ≤ credit) && !(overBudget s d && packerWaits s d)) || !packerWaits s d
    | .paced => (decide ((16 * o.cost : Nat) ≤ credit) && !(overBudget s d && packerWaits s d))
        || (rebuildDue x && !packerWaits s d)
  else
    match x.fgr.mode with
    | .stall => false
    | .paced => overBudget s d || (match foragerWaits s d with
        | none => true
        | some c => decide (credit < (16 * c : Nat)))
    | _ => true

/-- Whether an operation takes tokens before every other that waits (R506). -/
def tokenTurn (s : State) (d : DieId) (o : FlashOp) : Bool :=
  !(s.die d).flash.ops.any (fun p => decide (p.op < o.op) && !p.urgent && eligible s d p && splitAllows s d p)

/-- r of R242 in sixteenths. -/
def ratio16 (s : State) (d : DieId) : Nat :=
  let cap := 16 * dfld s d Page.fgr 0x54 15 8
  match (s.die d).fgr.victim.bind (groupOf (s.die d)) with
  | none => 0
  | some g =>
    let units := groupUnits s d g
    if units ≤ g.valid then cap else min cap (16 * g.valid / (units - g.valid))

/-- The Forager's credit after an issue (R242). -/
def creditAfter (s : State) (d : DieId) (o : FlashOp) : Int :=
  let x := s.die d
  if o.kind = .read then x.flash.credit
  else if o.src = .forager then max 0 (x.flash.credit - (16 * o.cost : Nat))
  else if x.fgr.mode = .paced then x.flash.credit + (ratio16 s d * o.cost : Nat)
  else x.flash.credit

/-- Whether an operation may take its tokens now: a read of a funded dispatch always, any other in its turn, as the split of R242
lets it, once the balance covers it (R118, R506). -/
def mayTake (s : State) (d : DieId) (o : FlashOp) : Bool :=
  o.urgent || (splitAllows s d o && tokenTurn s d o && decide ((o.cost : Int) ≤ (s.die d).flash.balance))

/-- An operation's tokens are spent (R506, R507). -/
def takeTokens (s : State) (d : DieId) (o : FlashOp) : State :=
  let c := creditAfter s d o
  s.updDie d (fun x => { x with flash := { x.flash with
    balance := x.flash.balance - o.cost
    spent := x.flash.spent + o.cost
    credit := c } })

/-- An operation's further reads and its erase are issued in order as far as the tokens go; those left wait (R118, R506). -/
def takeDues (d : DieId) (o : FlashOp) : State → List (OpKind × Nat) → State × List (OpKind × Nat)
  | s, [] => (s, [])
  | s, q :: rest =>
    let p := { o with kind := q.1, cost := q.2 }
    if mayTake s d p then takeDues d o (takeTokens s d p) rest else (s, q :: rest)

/-- The reads that a LUN's suspension serves: those queued for it, class 0 first, up to 8 (R286). -/
def serveList (x : Die) (o : FlashOp) : List Nat :=
  let q := x.flash.ops.filter (fun p => sameLun p o && p.kind == .read && !p.running)
  ((q.filter (fun p => opClass x p == 0) ++ q.filter (fun p => opClass x p != 0)).map (fun p => p.op)).take 8

/-- A read suspends the program or erase that runs on its LUN, by the suspend opcode (R286). -/
def suspendLun (s : State) (d : DieId) (o : FlashOp) : State :=
  if (lunPaused (s.die d) o).isSome then s
  else match lunBusy (s.die d) o with
    | none => s
    | some p =>
      regBump (s.updDie d (fun x => updOp' x p.op (fun q => { q with paused := true, susp := q.susp + 1, serve := serveList x o })))
        (fchReg d p.chan 0x94) 1

/-- The suspend opcode, when an operation suspends another one (R262, R286). -/
def suspendCmds (s : State) (d : DieId) (o : FlashOp) : List NandCmd :=
  if (lunPaused (s.die d) o).isNone && (lunBusy (s.die d) o).isSome then [.opc (fld (regGet s (fchReg d o.chan 0x58)) 31 24)] else []

/-- An operation goes to its LUN: its tokens are spent (R506). -/
def issueOp (s : State) (d : DieId) (o : FlashOp) : State :=
  let s1 := sendNand (takeTokens s d o) d o.chan (suspendCmds s d o ++ startCmds s d o)
  (suspendLun s1 d o).updDie d (fun x => updOp' x o.op (fun q => { q with running := true, since := x.mon.devTime }))

/-! ### Ends of operations: the LUN -/

/-- A LUN's suspended operation resumes once the reads it serves have ended (R286). -/
def resumeLun (x : Die) (o : FlashOp) : Die :=
  match lunPaused x o with
  | none => x
  | some p =>
    let left := p.serve.filter (fun n => n != o.op && x.flash.ops.any (fun q => q.op == n))
    updOp' x p.op (fun q => if left.isEmpty then { q with paused := false, serve := [], since := x.mon.devTime } else { q with serve := left })

/-- The resume opcode, when the end of a read lets a suspended operation go on (R262, R286). -/
def resumeCmds (s : State) (d : DieId) (x : Die) (o : FlashOp) : List NandCmd :=
  if (lunPaused x o).isSome && (lunPaused (resumeLun x o) o).isNone then [.opc (fld (regGet s (fchReg d o.chan 0x58)) 23 16)] else []

/-- An operation has ended on its LUN: its status and data are fetched, and what it had suspended goes on. -/
def opGone (s : State) (d : DieId) (o : FlashOp) : State :=
  let x := dropOp (s.die d) o.op
  (sendNand s d o.chan (endCmds s d o ++ resumeCmds s d x o)).updDie d (fun y => resumeLun (dropOp y o.op) o)

/-- An operation that has ended on its LUN waits with what it has still to issue (R118, R284, R506, log 169). -/
def parkOp (s : State) (d : DieId) (o : FlashOp) (l : Late) : State :=
  s.updDie d (fun x => { x with flash := { x.flash with
    ops := (x.flash.ops.filter (fun p => decide (p.op < o.op))) ++ [{ o with running := false, late := some l }]
      ++ x.flash.ops.filter (fun p => decide (o.op < p.op)) } })

/-- The LUN has answered in time: its run of timeouts is broken (R287). -/
def lunAnswered (s : State) (d : DieId) (o : FlashOp) : State :=
  s.updDie d (fun x => updChan x o.chan (fun c => { c with timeouts := assocDel (o.ce * 16 + o.lun) c.timeouts }))

/-! ### Stripes -/

/-- A die's stripe. -/
def stripeOf (x : Die) (n : Nat) : Option Stripe := x.flash.stripes.find? (fun t => t.sid == n)

/-- A program has succeeded: its units count for the tenants of their unit tags, whatever becomes of its stripe (R232, R379). -/
def meterProgram (s : State) (d : DieId) (o : FlashOp) : State :=
  let s1 := o.fills.foldl (fun s q => meterAdd s d q.1 (fun m =>
    if o.src = .forager then { m with progGc := m.progGc + 64 * q.2 } else { m with progHost := m.progHost + 64 * q.2 })) s
  if o.src = .forager then
    s1.updDie d (fun x => { x with fgr := { x.fgr with copied := x.fgr.copied + 64 * sumBy (fun q : Nat × Nat => q.2) o.fills } })
  else s1

/-- An OPEN group that takes no more stripes is CLOSED when its last stripe is programmed (R226, R249, R291). -/
def closeFull (s : State) (d : DieId) (n : Nat) : State :=
  match groupOf (s.die d) n with
  | none => s
  | some g =>
    if g.st = .opened ∧ (groupUnits s d g ≤ g.used ∨ g.failed = true ∨ g.rebuild = true) ∧ (s.die d).flash.stripes.any (fun t => t.group == n) = false then
      s.updDie d (fun x => updGroup x n (fun g => { g with st := .closed, closedS := secondsNow x }))
    else s

/-- Every member of a stripe has programmed: its staging is free, its unit tags are on flash, its writes no longer wait for it, and
the ring drains (R207, R229, R274). -/
def stripeDone (s : State) (d : DieId) (t : Stripe) : State :=
  let s1 := s.updDie d (fun x => { x with
    flash := { x.flash with stripes := x.flash.stripes.filter (fun q => q.sid != t.sid) }
    map := { x.map with
      tags := x.map.tags ++ t.tags.map (fun p => { group := t.group, cw := p.1, tag := p.2 })
      ring := x.map.ring.map (fun e => if t.forager then e else { e with stripes := e.stripes.filter (· != t.sid) }) } })
  let s2 := closeFull s1 d t.group
  drainRing ((s2.die d).map.ring.length) s2 d

/-- A member of a stripe has programmed. -/
def memberDone (s : State) (d : DieId) (o : FlashOp) : State :=
  match o.stripe.bind (stripeOf (s.die d)) with
  | none => s
  | some t =>
    if t.left ≤ 1 then stripeDone s d t
    else s.updDie d (fun x => { x with flash := { x.flash with
      stripes := updWhere (fun q => q.sid == t.sid) (fun q => { q with left := q.left - 1 }) x.flash.stripes } })

/-- Takes a stripe and its queued programs away; a program that runs ends without it. -/
def dropStripe (x : Die) (sid : Nat) : Die :=
  { x with flash := { x.flash with
    stripes := x.flash.stripes.filter (fun t => t.sid != sid)
    ops := (x.flash.ops.filter (fun o => !(o.stripe == some sid && !o.running))).map (fun o =>
      if o.stripe == some sid then { o with stripe := none } else o) } }

/-- A group in which a program has failed takes no more stripes and is the next victim; its failing block is retired at
its erase (R248). -/
def failGroup (s : State) (d : DieId) (n chan : Nat) : State :=
  s.updDie d (fun x => updGroup x n (fun g => { g with
    failed := true
    badCh := if g.badCh.contains chan then g.badCh else g.badCh ++ [chan] }))

/-- A host stripe that cannot be programmed goes into a newly opened group: its writes are packed again from staging, each
whole (R248, log 44). -/
def repack (x : Die) (t : Stripe) : Die :=
  let y := dropStripe x t.sid
  { y with map := { y.map with ring := y.map.ring.map (fun e =>
      if e.stripes.contains t.sid then { e with placed := [], stripes := [] } else e) } }

/-- A copy stripe that cannot be programmed: every record and unit of the victim is copied again (R249). -/
def recopy (x : Die) : Die :=
  let y := (x.flash.stripes.filter (fun t => t.forager)).foldl (fun x t => dropStripe x t.sid) x
  { y with fgr := { y.fgr with step := if y.fgr.step = .copying then .reading else y.fgr.step, moves := [] } }

/-- A stripe that cannot be programmed. -/
def loseStripe (s : State) (d : DieId) (t : Stripe) : State := s.updDie d (fun x => if t.forager then recopy x else repack x t)

/-- A member program has failed: its group closes once its stripes in flight have programmed, and its stripe, when another
member has not failed it before, goes elsewhere (R248, R249). -/
def programFail (s : State) (d : DieId) (o : FlashOp) : State :=
  let s1 := failGroup s d (opGroup o) o.chan.val
  let s2 := match o.stripe.bind (stripeOf (s.die d)) with
    | none => s1
    | some t => loseStripe s1 d t
  let s3 := closeFull s2 d (opGroup o)
  if o.src = .forager then regBump s3 (dreg d Page.fgr 0xC0) 1 else s3

/-- FLASH_PROGRAM_COMPLETE. -/
def execFlashProgramComplete (d : DieId) (op : Nat) (pass : Bool) (s : State) : Out :=
  .next (onDie s d (fun s =>
    match opOf (s.die d) op with
    | none => s
    | some o =>
      if o.kind = .program ∧ o.running = true ∧ o.paused = false then
        let s1 := lunAnswered (opGone s d o) d o
        if pass then memberDone (meterProgram s1 d o) d o else programFail s1 d o
      else s))

/-! ### Erases -/

/-- Takes away the queued erases of a group that has been retired whole (R227, R247). -/
def dropErases (x : Die) (n : Nat) : Die :=
  if ((groupOf x n).map (fun g => g.st)) = some .retired then
    { x with flash := { x.flash with ops := x.flash.ops.filter (fun p => !(p.kind == .erase && opGroup p == n && !p.running)) } }
  else x

/-- An erase of a group has ended, well or not; the last one ends the group's erase (R239 steps 9 and 10, R247). -/
def eraseEnded (s : State) (d : DieId) (o : FlashOp) (ok : Bool) : State :=
  let n := opGroup o
  let s1 := (if ok then s else retireBlock s d n o.chan.val).updDie d (fun x => dropErases x n)
  if (s1.die d).flash.ops.any (fun p => p.kind == .erase && opGroup p == n) then s1
  else match groupOf (s1.die d) n with
    | none => s1
    | some g =>
      if g.st = .retired then (if (s1.die d).fgr.victim = some n then endVictim s1 d else fgrReval s1 d)
      else if g.st = .erasePending then eraseDone s1 d g
      else s1

/-- The page reads of one erased-page check: every page of the first and the last wordline (R285). -/
def checkReads (s : State) (d : DieId) (o : FlashOp) : List (OpKind × Nat) :=
  List.replicate (2 * (if o.slc then 1 else wlPages s d)) (.read, opCost s d .read o.slc)

/-- What follows an erase: the check, and when it fails the erase once more with its check (R284). -/
def afterErase (s : State) (d : DieId) (o : FlashOp) (pass check1 : Bool) : List (OpKind × Nat) :=
  if !pass then []
  else if check1 then checkReads s d o
  else checkReads s d o ++ (.erase, o.cost) :: checkReads s d o

/-! ### Reads -/

/-- Records an unrecoverable codeword (R278 stage 5, R282, R298). -/
def unrecoverable (s : State) (d : DieId) (o : FlashOp) : State :=
  let s1 := raiseInt (regBump s (dreg d Page.ldc 0x94) o.cws) (dreg d Page.ldc 0) 2
  recordErr s1 (dreg d Page.ldc 0) 0x80 (o.chan.val * 2 ^ 13 + o.ce * 2 ^ 11 + o.lun * 2 ^ 7)

/-- The sticky entry of a LUN and mode (R280). -/
def stickyOf (x : Die) (o : FlashOp) : Nat :=
  (((x.flash.chans.get o.chan).sticky.find? (fun q => q.1 == o.ce * 16 + o.lun && q.2.1 == !o.slc)).map (fun q => q.2.2)).getD 1

/-- Sets the sticky entry. -/
def setSticky (x : Die) (o : FlashOp) (e : Nat) : Die :=
  updChan x o.chan (fun c => { c with sticky :=
    (o.ce * 16 + o.lun, !o.slc, e) :: c.sticky.filter (fun q => !(q.1 == o.ce * 16 + o.lun && q.2.1 == !o.slc)) })

/-- The retry reads up to an entry, from the sticky entry on, wrapping from 31 to 1 (R279). -/
def retryReads (first last : Nat) : Nat := if first ≤ last then last - first + 1 else 31 - first + last + 1

/-- The other layout members of a read's stripe. -/
def otherMembers (x : Die) (o : FlashOp) : List Nat :=
  ((groupOf x (opGroup o)).map (fun g => (chanList g.layout).filter (· != o.chan.val))).getD []

/-- Those out of service (R277). -/
def missingMembers (x : Die) (o : FlashOp) : Nat :=
  if (groupOf x (opGroup o)).isNone then 8
  else ((otherMembers x o).filter (fun c => !inService x (chanOf c) o.ce o.lun)).length

/-- The reads of a rebuild: one of every other member in service (R277, R505). -/
def memberReads (x : Die) (o : FlashOp) : Nat := (otherMembers x o).length - missingMembers x o

/-- The reads of stages 2 to 4 that a read went through (R278, R279, R505). -/
def stageReads (s : State) (d : DieId) (o : FlashOp) (r : ReadOutcome) : Nat :=
  let rr := dfld s d Page.ldc 0x44 5 0
  let soft := dfld s d Page.ldc 0x44 11 8
  match r with
  | .hard => 0
  | .retry e => retryReads (stickyOf (s.die d) o) e.val
  | .soft => rr + soft
  | .rebuilt _ => rr + soft + memberReads (s.die d) o
  | .failed => rr + soft + memberReads (s.die d) o
  | .checkFault => 0

/-- The commands of stages 2 and 3: a channel check, then each read at its own levels (R262, R278). -/
def stageCmds (s : State) (d : DieId) (o : FlashOp) (r : ReadOutcome) : List NandCmd :=
  let n := match r with
    | .retry e => retryReads (stickyOf (s.die d) o) e.val
    | _ => dfld s d Page.ldc 0x44 5 0 + dfld s d Page.ldc 0x44 11 8
  .readTraining :: (List.range n).flatMap (fun _ => levelRead s d o)

/-- Counters, interrupts and the sticky entry of the stages that a read went through (R278, R280, R282). -/
def readStages (s : State) (d : DieId) (o : FlashOp) (r : ReadOutcome) : State :=
  let ldc (s : State) (off : Nat) : State := regBump s (dreg d Page.ldc off) o.cws
  match r with
  | .hard => s
  | .retry e => (ldc (ldc s 0x80) 0x84).updDie d (fun x => setSticky x o e.val)
  | .soft => ldc (ldc s 0x80) 0x88
  | .rebuilt joint =>
    let s1 := raiseInt (ldc (ldc s 0x80) 0x8C) (dreg d Page.ldc 0) 1
    if joint then regBump s1 (dreg d Page.ldc 0x98) 1 else s1
  | .failed => unrecoverable (ldc s 0x80) d o
  | .checkFault => s

/-- Whether a rebuild yields a failed member: always with every other member in service, by the device's joint decode with
one more missing, never with two (R277, log 9). -/
def rebuild (s : State) (d : DieId) (o : FlashOp) : Bool × State :=
  match missingMembers (s.die d) o with
  | 0 => (true, s)
  | 1 =>
    let ok := Config.jointDecode s.draws
    let s1 := { s with draws := s.draws + 1 }
    (ok, if ok then regBump s1 (dreg d Page.ldc 0x98) 1 else s1)
  | _ => (false, s)

/-- A read of a map page has ended: the page is in the cache once all its reads have; a page that is lost fails the command that
waits for it (R197). -/
def pageEnded (s : State) (d : DieId) (cid : Nat) (page : PageId) (ok : Bool) : State :=
  if !ok then ((cmdOf (s.die d) cid).map (fun c => putCmd s d { c with failed := true })).getD s
  else if pageRead (s.die d) page then s
  else match page.tree with
    | .ns t n => pageIn s d t n page.index
    | _ => s

/-- A read's data is at hand, or is lost: the command that issued it goes on and is charged (R115, R173); of the Forager's
reads the pages that are lost are kept (R231). -/
def readResult (s : State) (d : DieId) (o : FlashOp) (ok : Bool) : State :=
  match o.src with
  | .host cid => match cmdOf (s.die d) cid with
    | none => s
    | some c => readEnded (chargeRead s d c o.cws) d cid ok
  | .runAhead cid =>
    if o.drop then s
    else match cmdOf (s.die d) cid with
      | none => s
      | some c => runAheadEnded (chargeRead s d c o.cws) d cid o ok
  | .mapPage cid page => pageEnded s d cid page ok
  | .forager =>
    if ok then s
    else s.updDie d (fun x => { x with fgr := { x.fgr with
      lost := locOf o.chan.val (opGroup o) o.page 0 o.slc :: x.fgr.lost } })
  | _ => s

/-- The end of a read that rebuild serves (R277): unrecoverable when the rebuild fails. -/
def rebuildEnded (s : State) (d : DieId) (o : FlashOp) : State :=
  let r := rebuild s d o
  readResult (if r.1 then r.2 else unrecoverable r.2 d o) d o r.1

/-- An operation ends as its last read or erase leaves it. -/
def endOp (s : State) (d : DieId) (o : FlashOp) : Ending → State
  | .stages r => readResult (readStages s d o r) d o (r != .failed)
  | .rebuild => rebuildEnded s d o
  | .erase ok => eraseEnded s d o ok

/-- What an operation has still to issue is issued as far as its tokens go; then it ends, or the rest waits (R118, R284, R506,
log 169). -/
def endLater (s : State) (d : DieId) (o : FlashOp) (dues : List (OpKind × Nat)) (fin : Ending) : State :=
  let r := takeDues d o s dues
  if r.2.isEmpty then endOp r.1 d o fin else parkOp r.1 d o { dues := r.2, fin := fin }

/-- A read is served by rebuild (R277). A run-ahead read that has not stood is not rebuilt (R281). -/
def servedByRebuild (s : State) (d : DieId) (o : FlashOp) : State :=
  match o.src with
  | .runAhead _ => readResult s d o false
  | _ => endLater s d o (List.replicate (memberReads (s.die d) o) (.read, o.cost)) .rebuild

/-- FLASH_OP_ISSUE: once the LUN is free and the balance covers the operation; a class-0 read of a funded dispatch goes at
once (R118, R506). Not during a power loss, when only the flush programs (R322). An operation that waits with further reads
issues them. -/
def execFlashOpIssue (d : DieId) (op : Nat) (s : State) : Out :=
  .next (onDie s d (fun s =>
    match opOf (s.die d) op with
    | none => s
    | some o =>
      if takesWork s (fchReg d o.chan 0) && eligible s d o && !s.guard.losing then
        match o.late with
        | some l =>
          if (l.dues.head?.map (fun q => mayTake s d { o with kind := q.1, cost := q.2 })).getD true then
            endLater (s.updDie d (fun x => dropOp x o.op)) d { o with late := none } l.dues l.fin
          else s
        | none => if mayTake s d o then issueOp s d o else s
      else s))

/-- FLASH_ERASE_COMPLETE: the erased-page check follows; a failed check makes FCH erase once more (R284). -/
def execFlashEraseComplete (d : DieId) (op : Nat) (pass check1 check2 : Bool) (s : State) : Out :=
  .next (onDie s d (fun s =>
    match opOf (s.die d) op with
    | none => s
    | some o =>
      if o.kind = .erase ∧ o.running = true ∧ o.paused = false then
        endLater (lunAnswered (opGone s d o) d o) d o (afterErase s d o pass check1) (.erase (pass && (check1 || check2)))
      else s))

/-- A channel check fault: the channel is held for retraining and its suspended operations resume (R289, R290). -/
def checkFault (s : State) (d : DieId) (o : FlashOp) : State :=
  let s1 := (sendNand s d o.chan [.readTraining, .reset]).updDie d (fun x =>
    let y := updOp' (channelReset x o.chan) o.op (fun q => { q with running := false })
    let z := { y with flash := { y.flash with ops := y.flash.ops.map (fun q =>
      if q.chan == o.chan && q.paused then { q with paused := false, serve := [], since := x.mon.devTime } else q) } }
    updChan z o.chan (fun c => { c with st := .training, heldOp := some o.op }))
  raiseInt (regBump s1 (fchReg d o.chan 0x8C) 1) (fchReg d o.chan 0) 1

/-- A read completes without a channel check fault. -/
def readDone (s : State) (d : DieId) (o : FlashOp) (r : ReadOutcome) : State :=
  let early : Bool := match o.src with
    | .runAhead cid => ((cmdOf (s.die d) cid).map (fun c : Cmd => c.phase == .lookup)).getD true
    | _ => false
  if o.drop then s
  else if early then readResult s d o (r == .hard)
  else endLater (if r = .hard then s else sendNand s d o.chan (stageCmds s d o r)) d o
    (List.replicate (stageReads s d o r) (.read, o.cost)) (.stages r)

/-- FLASH_READ_COMPLETE. A channel check fault after three retrainings of one episode counts as a media fault of the page,
which is rebuilt (R289). -/
def execFlashReadComplete (d : DieId) (op : Nat) (r : ReadOutcome) (s : State) : Out :=
  .next (onDie s d (fun s =>
    match opOf (s.die d) op with
    | none => s
    | some o =>
      if o.kind = .read ∧ o.running = true then
        if r = .checkFault then
          (if o.retries < 3 then checkFault s d o
           else servedByRebuild (raiseInt (regBump (opGone s d o) (fchReg d o.chan 0x8C) 1) (fchReg d o.chan 0) 1) d o)
        else readDone (lunAnswered (opGone s d o) d o) d o r
      else s))

/-- DEGRADED_READ_TIMEOUT: a read that waits on a channel or LUN out of service is served by rebuild (R290, R291). -/
def execDegradedReadTimeout (d : DieId) (op : Nat) (s : State) : Out :=
  .next (onDie s d (fun s =>
    match opOf (s.die d) op with
    | none => s
    | some o =>
      if o.kind = .read ∧ o.running = false ∧ inService (s.die d) o.chan o.ce o.lun = false then
        servedByRebuild (regBump (opGone s d o) (dreg d Page.ldc 0x90) 1) d o
      else s))

/-! ### Retirement of channels and LUNs (R291, R292) -/

/-- Whether a group uses a channel, on a CE and LUN when one is named. -/
def groupUses (g : Group) (c : ChanId) (lun : Option (Nat × Nat)) : Bool :=
  match lun with
  | none => true
  | some (ce, l) => groupCe g.num == ce && groupLun g.num == l && decide (c.val < 8)

/-- Whether an operation is on a channel, on a CE and LUN when one is named. -/
def opOn (o : FlashOp) (c : ChanId) (lun : Option (Nat × Nat)) : Bool :=
  o.chan == c && (match lun with
    | none => true
    | some (ce, l) => o.ce == ce && o.lun == l)

/-- What the retirement of a channel or LUN does to one group: FREE and ERASE_PENDING groups lose the block at once and are
retired with fewer than 4, and so does a RESCUE group that is still erased (log 170); every other group loses it at its erase;
OPEN and CLOSED groups that hold data there become rebuild victims (R227, R291). -/
def narrowGroup (c : ChanId) (lun : Option (Nat × Nat)) (g : Group) : Group :=
  if !groupUses g c lun then g
  else
    let good := if g.good.testBit c.val then g.good - 2 ^ c.val else g.good
    match g.st with
    | .free => { g with good := good, st := if members good < 4 then .retired else .free }
    | .erasePending => { g with good := good, st := if members good < 4 then .retired else .erasePending }
    | .rescue => if g.used = 0 then { g with good := good, layout := good, st := if members good < 4 then .retired else .rescue } else g
    | .opened => if g.layout.testBit c.val then { g with rebuild := true } else g
    | .closed => if g.layout.testBit c.val then { g with rebuild := true } else g
    | _ => g

/-- The groups of a die after a retirement; each retired whole is recorded and counted (R227, R247). -/
def narrowGroups (s : State) (d : DieId) (c : ChanId) (lun : Option (Nat × Nat)) : State :=
  let old := (s.die d).groups
  let s1 := s.updDie d (fun x => { x with groups := x.groups.map (narrowGroup c lun) })
  let gone := (s1.die d).groups.filter (fun g => g.st == .retired && old.any (fun q => q.num == g.num && q.st != .retired))
  gone.foldl (fun s g => (regBump s (dreg d Page.fgr 0xAC) 1).updDie d (fun x => jAppendTo x 0 0 (.groupRetire g.num))) s1

/-- OPEN groups that have become rebuild victims close once their stripes in flight have programmed (R291). -/
def closeUsers (s : State) (d : DieId) (c : ChanId) (lun : Option (Nat × Nat)) : State :=
  let open_ := (s.die d).groups.filter (fun g => g.st == .opened && groupUses g c lun && g.layout.testBit c.val)
  open_.foldl (fun s g => closeFull s d g.num) s

/-- The groups and operations of a die after the retirement of a channel or LUN. -/
def afterRetire (s : State) (d : DieId) (c : ChanId) (lun : Option (Nat × Nat)) : State :=
  let lost := (s.die d).flash.stripes.filter (fun t => (s.die d).flash.ops.any (fun o => opOn o c lun && o.stripe == some t.sid))
  let s1 := lost.foldl (fun s t => loseStripe s d t) s
  let s2 := (narrowGroups s1 d c lun).updDie d (fun x => { x with
    flash := { x.flash with ops := (x.flash.ops.filter (fun o => !(opOn o c lun && o.kind != .read))).map (fun o =>
      if opOn o c lun then { o with running := false } else o) } })
  let erases := (s1.die d).flash.ops.filter (fun o => o.kind == .erase
    && (opOn o c lun || ((groupOf (s2.die d) (opGroup o)).map (fun g => g.st)) == some .retired))
  let s3 := erases.foldl (fun s o => eraseEnded s d o true) s2
  let s4 := closeUsers s3 d c lun
  if (s4.die d).map.mounted then fgrReval (applyPolicy s4 d) d else s4

/-- A channel is retired (R291). -/
def retireChannel (s : State) (d : DieId) (c : ChanId) : State :=
  if ((s.die d).flash.chans.get c).st = .retired then s
  else
    let s1 := s.updDie d (fun x => updChan x c (fun q => { q with st := .retired, heldOp := none }))
    let s2 := recordEvent (raiseInt (journalPut s1 (.chanRetired d.val c.val)) (fchReg d c 0) 3) d 0x0B 2
    afterRetire s2 d c none

/-- A LUN is retired (R292). -/
def retireLun (s : State) (d : DieId) (c : ChanId) (ce lun : Nat) : State :=
  if lunRetired (s.die d) c ce lun then s
  else
    let s1 := s.updDie d (fun x => updChan x c (fun q => { q with retired := q.retired ++ [ce * 16 + lun] }))
    let s2 := recordEvent (raiseInt (journalPut s1 (.lunRetired d.val c.val (ce * 16 + lun))) (fchReg d c 0) 4) d 0x0B 1
    afterRetire s2 d c (some (ce, lun))

/-- A LUN whose parameter page fails its CRC on all copies, or disagrees with the geometry of the channel, is retired as the
FCH identifies it; a LUN already retired, and one of a retired channel, is not identified (R263, R292, R296). -/
def refuseLun (s : State) (d : DieId) (c : ChanId) (k : Nat) : State :=
  if ((s.die d).flash.chans.get c).st = .retired || lunRetired (s.die d) c (k / 16) (k % 16) then s
  else retireLun (recordErr s (fchReg d c 0) 0x83 k) d c (k / 16) (k % 16)

/-- A die's FCH identifies its LUNs at a start, and its channels are trained (R260, R263). -/
def identifyLuns (s : State) (d : DieId) : State :=
  trainChannels (s.pkg.lunsBad.foldl (fun s p => if p.1 = d then refuseLun s d p.2.1 p.2.2 else s) s) d

/-- An operation fails by a timeout: a read is a failed member, a program or erase fails (R287). -/
def timedOut (s : State) (d : DieId) (o : FlashOp) : State :=
  match o.kind with
  | .read => if o.drop then s else servedByRebuild s d o
  | .program => programFail s d o
  | .erase => eraseEnded s d o false

/-- LUN_TIMEOUT: the LUN is reset, by Reset LUN or Reset, and the operation fails; the third timeout in a row retires the LUN (R287). -/
def execLunTimeout (d : DieId) (op : Nat) (s : State) : Out :=
  .next (onDie s d (fun s =>
    match opOf (s.die d) op with
    | none => s
    | some o =>
      if o.running then
        let k := o.ce * 16 + o.lun
        let n := (assocGet k ((s.die d).flash.chans.get o.chan).timeouts).getD 0 + 1
        let s1 := (sendNand (opGone s d o) d o.chan [timeoutCmd d o]).updDie d (fun x =>
          updChan x o.chan (fun c => { c with timeouts := assocSet k n c.timeouts }))
        let s2 := raiseInt (regBump s1 (fchReg d o.chan 0x90) 1) (fchReg d o.chan 0) 5
        let s3 := timedOut (recordErr s2 (fchReg d o.chan 0) 0x82 k) d o
        if 3 ≤ n then retireLun s3 d o.chan o.ce o.lun else s3
      else s))

/-- RB_STUCK: the R/B line of a CE is stuck, and the channel is retired (R260, R288, R296); the line is no one LUN's, and
ERR_INFO.OFFSET names LUN 0 (log 45). -/
def execRbStuck (d : DieId) (l : RbLine) (s : State) : Out :=
  .next (onDie s d (fun s =>
    if ((s.die d).flash.chans.get l.chan).st = .retired then s
    else retireChannel (recordErr s (fchReg d l.chan 0) 0x81 (l.ce.val * 16)) d l.chan))

/-- The held operation is repeated after a retraining; one that must wait for its tokens is issued when they come (R118,
R289). -/
def repeatHeld (s : State) (d : DieId) (c : ChanId) : State :=
  match ((s.die d).flash.chans.get c).heldOp with
  | none => s
  | some n =>
    match opOf (s.die d) n with
    | none => s
    | some o =>
      if lunRetired (s.die d) c o.ce o.lun then s
      else
        let s1 := s.updDie d (fun x => updOp' x n (fun q => { q with retries := q.retries + 1 }))
        if mayTake s1 d o then
          (sendNand (takeTokens s1 d o) d c (startCmds s1 d o)).updDie d (fun x =>
            updOp' x n (fun q => { q with running := true, since := x.mon.devTime }))
        else s1

/-- CHANNEL_RETRAIN_DONE, once no operation runs on the channel: the LUNs whose parameter page fails its check are retired; the
channel runs in the mode of FCH_IF, returns to service and repeats its held operation, or counts a failed training, the third of
which in a row retires it (R260, R263, R288 to R290). -/
def execChannelRetrainDone (d : DieId) (c : ChanId) (ok : Bool) (bad : List Nat) (s : State) : Out :=
  .next (onDie s d (fun s =>
    let q := (s.die d).flash.chans.get c
    if q.st = .training ∧ (List.range 4).any (rbBusy (s.die d) c) = false then
      let s0 := bad.foldl (fun s k => refuseLun s d c k) s
      let s1 := raiseInt (regBump (sendNand s0 d c (trainCmds s0 d c)) (fchReg d c 0x98) 1) (fchReg d c 0) 2
      if ok then
        (repeatHeld (channelTrained s1 d c) d c).updDie d (fun x => updChan x c (fun q => { q with st := .inService, failed := 0, heldOp := none }))
      else
        let s2 := recordErr (s1.updDie d (fun x => updChan x c (fun q => { q with failed := q.failed + 1 }))) (fchReg d c 0) 0x80 0
        if 3 ≤ q.failed + 1 then retireChannel s2 d c else s2
    else s))

/-! ### TOKEN_PERIOD and TOKEN_ALLOCATE (R507 to R509) -/

/-- The cost of the operations that wait. -/
def waitingCost (x : Die) : Nat := sumBy (fun o : FlashOp => o.cost) (x.flash.ops.filter (fun o => !o.running))

/-- TOKEN_PERIOD: the demand of the period that ends is reported, and the balance starts anew; without an allocation the
die uses its reserved share and counts the period, with INT bit 2 (R507 to R509, R517). -/
def execTokenPeriod (d : DieId) (s : State) : Out :=
  .next (onDie s d (fun s =>
    let x := s.die d
    let alloc := if x.flash.gotAlloc then x.flash.alloc else x.flash.lastRsv
    let share := match x.fgr.mode with
      | .rest => (16 * (alloc * dfld s d Page.fgr 0x54 7 0 / 256) : Nat)
      | .background => (16 * (alloc * dfld s d Page.fgr 0x54 7 0 / 256) : Nat)
      | _ => x.flash.credit
    let s1 := if x.flash.gotAlloc then s else raiseInt (regBump s (dreg d Page.pwr 0x98) 1) (dreg d Page.pwr 0) 2
    let s2 := { s1 with pkg := { s1.pkg with demand := s1.pkg.demand.set d.val (x.flash.spent + waitingCost x) } }
    s2.updDie d (fun y => { y with flash := { y.flash with
      balance := min y.flash.balance 0 + (alloc : Int)
      alloc := alloc
      spent := 0
      credit := share
      gotAlloc := false } })))

/-- The dies that are present and not fenced. -/
def unfencedDies (s : State) : List DieId := allDies.filter (fun e => present s e && decide ((s.die e).phase ≠ .fenced))

/-- Whether a thermal state is THROTTLE or above. -/
def throttled (t : ThmState) : Bool := t == .throttle || t == .shutdown

/-- lim of a die after this period (R508); none while it is at the cap. -/
def limNext (s : State) (cap base floor step : Nat) (e : DieId) : Option Nat :=
  let lim := ((s.pkg.lims.getD e.val none).getD cap)
  if throttled (s.die e).thm.st then some (max (base * floor / 256) (lim * (256 - step) / 256))
  else if lim < cap then
    (let n := min cap (lim * (256 + step) / 256)
     if cap ≤ n then none else some n)
  else none

/-- pkg_f after this period (R508). -/
def pkgFNext (s : State) (floor step : Nat) : Nat :=
  if throttled s.guard.thm.st then max floor (s.pkg.pkgF * (256 - step) / 256)
  else min 256 (s.pkg.pkgF * (256 + step) / 256)

/-- The allocations of R508: first each die's reserved or wanted share, then the spare in proportion to what is short. -/
def allocations (lims : List (Option Nat)) (demand : List Nat) (cap base rsv : Nat) (ds : List DieId) : List (DieId × Nat) :=
  let lim (e : DieId) : Nat := (lims.getD e.val none).getD cap
  let want (e : DieId) : Nat := min (demand.getD e.val 0) (lim e)
  let first (e : DieId) : Nat := min (lim e) (max (min (want e) base) rsv)
  let spare := cap - sumBy first ds
  let short := sumBy (fun e => want e - first e) ds
  ds.map (fun e => (e, if short = 0 then first e else first e + min (want e - first e) (spare * (want e - first e) / short)))

/-- TOKEN_ALLOCATE, on die 0. -/
def execTokenAllocate (s : State) : Out :=
  .next (onDie s 0 (fun s =>
    let floor := dfld s 0 Page.pwr 0x4C 7 0
    let step := dfld s 0 Page.pwr 0x4C 15 8
    let f := pkgFNext s floor step
    let cap := dfld s 0 Page.pwr 0x48 31 16 * 1000 * f / 256
    let ds := unfencedDies s
    let base := cap / max 1 ds.length
    let rsv := base * dfld s 0 Page.pwr 0x48 15 8 / 256
    let lims := allDies.map (limNext s cap base floor step)
    let s1 := { s with pkg := { s.pkg with pkgF := f, lims := lims } }
    (allocations lims s.pkg.demand cap base rsv ds).foldl (fun s p =>
      s.updDie p.1 (fun x => { x with flash := { x.flash with alloc := p.2, gotAlloc := true, lastRsv := rsv } })) s1))

end Sys2Proof.Machine
end

