-- ==== Sys2Proof/Machine/Idle.lean ====
section
/-! DEFINITION. When a die is idle (R136, R245), and its idle timer (R137, R496). -/
namespace Sys2Proof.Machine
open Sys2Proof

/-- The Forager reports work due at once (R136, R245): it is in Paced or Stall, the SLC cache holds more than its target, a
group is ERASE_PENDING, a forced victim is set, or a program failure awaits its reclaim (R248). -/
def foragerDue (x : Die) : Bool :=
  x.fgr.mode == .paced || x.fgr.mode == .stall || slcOver x || x.groups.any (fun g => g.st == .erasePending)
    || x.fgr.forced || x.groups.any (fun g => g.failed && g.st != .retired)

/-- A die is idle (R136): nothing arrives, is queued, dispatched or granted, nothing awaits flush, no Forager work is due. -/
def dieIdle (x : Die) : Bool :=
  x.out.isEmpty && x.csq.inbox.isEmpty && x.csq.controls.isEmpty && x.csq.cmds.isEmpty && x.csq.barriers.isEmpty && x.map.ring.isEmpty
    && !foragerDue x

/-- Device time comes to a die: it never decreases (R373); the idle timer of a die that is not idle restarts (R136). -/
def tickDie (t : Nat) (x : Die) : Die :=
  let now := max x.mon.devTime t
  { x with
    mon := { x.mon with devTime := now }
    csq := { x.csq with idleFrom := if dieIdle x then x.csq.idleFrom else now } }

/-- Whether a die's idle timer has run for some µs. -/
def idleFor (x : Die) (us : Nat) : Bool := decide (us * 1000 ≤ x.mon.devTime - x.csq.idleFrom)

/-- Idle time before IDLE, SLEEP and a DEEP request, in µs (R137). -/
def idleUs (s : State) (d : DieId) : Nat := dfld s d Page.csq 0x64 15 0
def sleepUs (s : State) (d : DieId) : Nat := idleUs s d + dfld s d Page.csq 0x64 31 16 * 1000
def deepUs (s : State) (d : DieId) : Nat := sleepUs s d + dfld s d Page.csq 0x68 31 16 * 1000000

end Sys2Proof.Machine
end

