-- ==== Sys2Proof/Machine/Metering.lean ====
section
/-! DEFINITION. Chapter 10: device time and wall time (R373 to R376), Uzoari minutes, their records, chain and seal (R377
to R390), the latency and level monitors (R393 to R396) and the event recorder (R397 to R400). -/
namespace Sys2Proof.Machine
open Sys2Proof

/-! ### Clocks -/

/-- Wall time at the guard die's device time (R375). -/
def wallGuard (s : State) : Int := (s.guard.devTime : Int) + s.guard.offset

/-- DEVTIME_SYNC: the die's copy of device time is slewed to the guard die's count; neither ever decreases (R373). -/
def execDevtimeSync (d : DieId) (guardNow : Nat) (s : State) : Out :=
  let t := max s.guard.devTime guardNow
  .next (({ s with guard := { s.guard with devTime := t } } : State).updDie d (tickDie t))

/-- The wall mark of now, with the offset, goes into the configuration journal (R376). -/
def wallMark (s : State) : State := journalPut s (.clockOffset s.guard.offset (wallGuard s))

/-- WALL_MARK, on die 0. -/
def execWallMark (s : State) : Out := .next (onDie s 0 wallMark)

/-! ### Counters -/

/-- The sum of two counters' values, saturating at w bits (R383). -/
def satAdd (w a b : Nat) : Nat := min (a + b) (2 ^ w - 1)

/-- Adds lists of counters position by position. -/
def addLists (a b : List Nat) : List Nat := List.zipWith (satAdd 32) a b

/-- The sum of one tenant's counters on two dies (R388). -/
def meterSum (a b : Meter) : Meter :=
  { tenant := a.tenant
    ops := addLists a.ops b.ops
    bytesIn := satAdd 64 a.bytesIn b.bytesIn
    bytesOut := satAdd 64 a.bytesOut b.bytesOut
    progHost := satAdd 64 a.progHost b.progHost
    progGc := satAdd 64 a.progGc b.progGc
    capBs := satAdd 64 a.capBs b.capBs
    qosViol := satAdd 32 a.qosViol b.qosViol
    hist := addLists a.hist b.hist
    refused := satAdd 32 a.refused b.refused
    delayed := satAdd 32 a.delayed b.delayed
    reads4k := a.reads4k + b.reads4k }

/-- Adds a die's partial records to the sums. -/
def addMeters (sums part : List Meter) : List Meter :=
  part.foldl (fun l m => meterPut (meterSum (meterOf m.tenant l) m) l) sums

/-- Whether some counter is not 0 (R386). -/
def meterUsed (m : Meter) : Bool := m != { tenant := m.tenant }

/-! ### Records (R382 to R385) -/

/-- What the common bytes of a minute's records need. -/
structure MinuteHead where
  minute : Nat
  wall   : Int
  dev    : Nat
  boot   : Nat
  ms     : Nat
  flags  : Nat
deriving DecidableEq, Repr

/-- Bytes 0 to 39 of a record (R382). -/
def commonBytes (h : MinuteHead) (rtype tenant seq : Nat) : Bytes :=
  leBytes 2 0x5A55 ++ leBytes 1 rtype ++ leBytes 1 h.flags ++ leBytes 2 tenant ++ leBytes 2 seq ++ leBytes 8 h.minute
    ++ leBytes 8 (BitVec.ofInt 64 h.wall).toNat ++ leBytes 8 h.dev ++ leBytes 4 h.boot ++ leBytes 4 h.ms

/-- A record of 256 bytes: the fields, zeros to byte 251, the CRC32C. -/
def closeRecord (b : Bytes) : Bytes :=
  let p := padTo 252 b
  p ++ leBytes 4 (Hash.crc32c p).toNat

/-- The energy estimate of a tenant in pJ (R381), with the coefficients of die 0. -/
def energyPj (s : State) (carry : Nat) (m : Meter) : Nat :=
  carry + m.ops.sum * dfld s 0 Page.mtr 0x40 31 16 * 1000 + m.reads4k * dfld s 0 Page.mtr 0x40 15 0 * 1000
    + (m.progHost + m.progGc) / 4096 * dfld s 0 Page.mtr 0x44 31 16 * 1000
    + (m.bytesIn + m.bytesOut) * dfld s 0 Page.mtr 0x44 15 0

/-- A tenant record (R383). -/
def tenantRecord (h : MinuteHead) (seq energy : Nat) (m : Meter) : Bytes :=
  closeRecord (commonBytes h 1 m.tenant seq ++ (m.ops.flatMap (leBytes 4)) ++ leBytes 8 m.bytesIn ++ leBytes 8 m.bytesOut
    ++ leBytes 8 m.progHost ++ leBytes 8 m.progGc ++ leBytes 8 m.capBs ++ leBytes 4 (min energy 0xFFFFFFFF)
    ++ leBytes 4 m.qosViol ++ (m.hist.flatMap (leBytes 4)) ++ leBytes 4 m.refused ++ leBytes 4 m.delayed)

/-- A clock-step record (R384): old wall time, new wall time, device time. -/
def stepRecord (h : MinuteHead) (seq : Nat) (c : Int × Int × Nat) : Bytes :=
  closeRecord (commonBytes h 2 0xFFFF seq ++ leBytes 8 (BitVec.ofInt 64 c.1).toNat
    ++ leBytes 8 (BitVec.ofInt 64 c.2.1).toNat ++ leBytes 8 c.2.2)

/-- The chain head after a minute's records (R387). -/
def chainHead (prev : Bytes) (recs : List Bytes) : Bytes :=
  recs.foldl (fun h r => Crypto.sha384 (h ++ Crypto.sha384 r)) prev

/-- Bytes 0 to 143 of a seal (R385). -/
def sealBody (h : MinuteHead) (count dies : Nat) (prev head : Bytes) : Bytes :=
  commonBytes h 3 0xFFFF count ++ leBytes 2 count ++ leBytes 1 dies ++ leBytes 1 0 ++ zeros 4 ++ prev ++ head

/-- A bit mask of dies. -/
def dieMask (l : List DieId) : Nat := sumBy (fun d : DieId => if l.contains d then 2 ^ d.val else 0) allDies

/-! ### The minute -/

/-- The tenants that a die has enabled. -/
def enabledTenants (x : Die) : List Nat := (x.tenants.filter (fun t => t.enable)).map (fun t => t.id)

/-- Each die swaps its counter banks (R378). -/
def swapBanks (s : State) (d : DieId) : State :=
  s.updDie d (fun x => { x with mon := { x.mon with prev := x.mon.bank, bank := [], prevSent := false } })

/-- The open minute ends and waits for its seal; the next one opens (R377, R378). -/
def nextMinute (s : State) (loss : Bool) : State :=
  let m := s.mtr
  { s with mtr := { m with
      minute := m.minute + 1
      wallStart := wallGuard s
      devStart := s.guard.devTime
      steps := []
      enabledIn := enabledTenants (s.die 0)
      lost := []
      closing := some m.minute
      cWall := m.wallStart
      cDev := m.devStart
      cMs := if loss then (m.cutAt.getD s.guard.devTime - m.devStart) / 1000000 else 60000
      cSteps := m.steps
      cLoss := loss
      cUnset := if loss then m.cutUnset else s.guard.wallUnset
      cEnabled := m.enabledIn
      got := []
      missing := m.lost
      sums := [] } }

/-- The common head of the minute that is sealed. -/
def closingHead (s : State) (minute : Nat) : MinuteHead :=
  { minute := minute, wall := s.mtr.cWall, dev := s.mtr.cDev, boot := s.mtr.boot, ms := s.mtr.cMs
    flags := (if s.mtr.cLoss then 1 else 0) + (if s.mtr.missing.isEmpty then 0 else 2)
      + (if s.mtr.cSteps.isEmpty then 0 else 4) + (if s.mtr.cUnset then 8 else 0) }

/-- The tenants that a minute has a record for, in ascending order (R386). -/
def minuteTenants (m : Metering) : List Nat :=
  (List.range 4096).filter (fun t => m.cEnabled.contains t || m.sums.any (fun q => q.tenant == t && meterUsed q))

/-- The records of a minute before its seal (R386), numbered from 0. -/
def minuteRecords (s : State) (h : MinuteHead) : List Bytes :=
  let steps := (s.mtr.cSteps.zipIdx).map (fun p => stepRecord h p.2 p.1)
  let n := s.mtr.cSteps.length
  steps ++ ((minuteTenants s.mtr).zipIdx).map (fun p =>
    let m := meterOf p.1 s.mtr.sums
    tenantRecord h (n + p.2) (energyPj s ((assocGet p.1 s.mtr.carry).getD 0) m / 10 ^ 9) m)

/-- The energy carried into the next minute (R381). -/
def nextCarry (s : State) : List (Nat × Nat) :=
  (minuteTenants s.mtr).foldl (fun l t =>
    assocSet t (energyPj s ((assocGet t l).getD 0) (meterOf t s.mtr.sums) % 10 ^ 9) l) s.mtr.carry

/-- Bytes of the metering log. -/
def logBytes (l : List Sealed) : Nat := sumBy (fun q : Sealed => 256 * q.records.length) l

/-- The oldest whole minutes are dropped until the log fits (R390). -/
def trimLog (limit : Nat) : List Sealed → List Sealed
  | [] => []
  | q :: rest => if logBytes (q :: rest) ≤ limit then q :: rest else trimLog limit rest

/-- HEAD of the last sealed minute, 48 zero bytes before the first (R385). -/
def prevHead (m : Metering) : Bytes := ((m.log.getLast?).map (fun q => q.head)).getD (zeros 48)

/-- The minute with its records, chain and signature (R385 to R387). -/
def sealedMinute (s : State) (minute : Nat) : Sealed :=
  let h := closingHead s minute
  let recs := minuteRecords s h
  let head := chainHead (prevHead s.mtr) recs
  let body := sealBody h recs.length (dieMask s.mtr.got) (prevHead s.mtr) head
  { minute := minute
    dies := dieMask s.mtr.got
    records := recs ++ [closeRecord (body ++ Config.sealSign s.draws (Crypto.sha384 body))]
    head := head }

/-- Milliseconds from a minute's boundary to now. -/
def sealMs (s : State) : Nat := (s.guard.devTime - (s.mtr.cDev + s.mtr.cMs * 1000000)) / 1000000

/-- Die 0 writes the records and the seal of the minute that waits (R388, R390, R403). -/
def sealMinute (s : State) (minute : Nat) : State :=
  let limit := dfld s 0 Page.mtr 0x48 15 0 * 10 ^ 9
  let full := s.mtr.log ++ [sealedMinute s minute]
  let log := trimLog limit full
  let ms := sealMs s
  let s1 := { s with draws := s.draws + 1, mtr := { s.mtr with log := log, closing := none, sums := [], carry := nextCarry s } }
  let s2 := raiseInt (regSet s1 (dreg 0 Page.mtr 0xA8) (satWord ms)) (dreg 0 Page.mtr 0) 1
  let s3 := if s.mtr.missing.isEmpty then s2 else raiseInt s2 (dreg 0 Page.mtr 0) 2
  let s4 := if log.length < full.length then raiseInt s3 (dreg 0 Page.mtr 0) 3 else s3
  let s5 := if 2000 < ms then recordErr s4 (dreg 0 Page.mtr 0) 0x80 (minute % 65536) else s4
  recordEvent s5 0 0x0D ms

/-- Seals the minute that waits, if there is one, whatever dies have reported. -/
def sealPending (s : State) : State :=
  match s.mtr.closing with
  | none => s
  | some m => sealMinute s m

/-- MINUTE_BOUNDARY: die 0 signals every die, and each swaps its banks (R377, R378). A minute still waiting for its seal is
sealed first (log 50). -/
def execMinuteBoundary (s : State) : Out :=
  .next (onDie s 0 (fun s => overDies swapBanks (nextMinute (sealPending s) false) (upDies s)))

/-- METER_PARTIAL: a die's partial records of the minute that ended reach die 0 (R388). -/
def execMeterPartial (d : DieId) (s : State) : Out :=
  .next (onDie s d (fun s =>
    if s.mtr.closing.isSome && !(s.die d).mon.prevSent && !s.mtr.got.contains d && !s.mtr.missing.contains d then
      let part := (s.die d).mon.prev
      ({ s with mtr := { s.mtr with sums := addMeters s.mtr.sums part, got := s.mtr.got ++ [d] } } : State).updDie d (fun x =>
        { x with mon := { x.mon with prev := [], prevSent := true } })
    else s))

/-- METER_DIE_TIMEOUT: a die has not reported within 1 s and is left out (R388). -/
def execMeterDieTimeout (d : DieId) (s : State) : Out :=
  .next (if s.mtr.closing.isSome && present s d && !s.mtr.got.contains d && !s.mtr.missing.contains d then
      ({ s with mtr := { s.mtr with missing := s.mtr.missing ++ [d] } } : State).updDie d (fun x =>
        { x with mon := { x.mon with prev := [], prevSent := true } })
    else s)

/-- Whether every die that can report has reported or has been left out. -/
def allReported (s : State) : Bool :=
  allDies.all (fun d => !present s d || (s.die d).phase == .fenced || s.mtr.got.contains d || s.mtr.missing.contains d)

/-- METER_SEAL. -/
def execMeterSeal (s : State) : Out :=
  .next (onDie s 0 (fun s => if allReported s then sealPending s else s))

/-! ### Spilled minutes (R389) -/

/-- The open minute is cut short now (R389). -/
def cutMinute (s : State) : State :=
  if s.mtr.opened then
    { s with mtr := { s.mtr with opened := false, cutAt := some s.guard.devTime, cutUnset := s.guard.wallUnset } }
  else s

/-- A die writes the partial records of every minute not yet sealed to flash. -/
def spillMeters (s : State) (d : DieId) : State :=
  s.updDie d (fun x => { x with mon := { x.mon with
    spill := x.mon.spill ++ (if x.mon.prevSent then [] else
        match s.mtr.closing with
        | none => []
        | some m => [(m, x.mon.prev)]) ++ [(s.mtr.minute, x.mon.bank)]
    prev := []
    prevSent := true
    bank := [] } })

/-- The counts of a die that is fenced, or whose rail fails, are lost for the minutes not yet sealed (R388, R389). -/
def loseCounts (s : State) (d : DieId) : State :=
  let m := s.mtr
  ({ s with mtr := { m with
      lost := d :: m.lost.filter (· != d)
      missing := if m.closing.isSome && !m.got.contains d then d :: m.missing.filter (· != d) else m.missing } } : State).updDie d
    (fun x => { x with mon := { x.mon with bank := [], prev := [], prevSent := true, spill := [] } })

/-- A die that comes back from a reset of its own takes its spilled counts of the minutes not yet sealed back (R389). -/
def takeSpill (s : State) (d : DieId) : State :=
  s.updDie d (fun x =>
    let late := match s.mtr.closing with
      | none => none
      | some m => assocGet m x.mon.spill
    { x with mon := { x.mon with
        bank := (assocGet s.mtr.minute x.mon.spill).getD []
        prev := late.getD []
        prevSent := late.isNone
        spill := [] } })

/-- The spilled records of a minute on every die that the package has. -/
def spilled (s : State) (minute : Nat) : List (DieId × List Meter) :=
  (allDies.filter (present s)).filterMap (fun d => (assocGet minute (s.die d).mon.spill).map (fun l => (d, l)))

/-- Die 0 collects the spilled records of the minute that waits. -/
def collectSpill (s : State) : State :=
  match s.mtr.closing with
  | none => s
  | some m =>
    (spilled s m).foldl (fun s p =>
      if s.mtr.got.contains p.1 then s
      else { s with mtr := { s.mtr with sums := addMeters s.mtr.sums p.2, got := s.mtr.got ++ [p.1] } }) s

/-- Dies that have neither reported nor spilled the minute that waits are missing from it. -/
def markMissing (s : State) : State :=
  { s with mtr := { s.mtr with
      missing := s.mtr.missing ++ allDies.filter (fun d => present s d && !s.mtr.got.contains d && !s.mtr.missing.contains d) } }

/-- Forgets spilled records once their minutes are sealed or summed. -/
def dropSpill (s : State) (d : DieId) : State := s.updDie d (fun x => { x with mon := { x.mon with spill := [] } })

/-- At a restart, die 0 seals the minute that waited and then the minute cut short, with LOSS and ACTIVE_MS up to the loss,
from the spilled records (R389); a new minute starts (R377). Where no minute was open, only the new one starts. -/
def restartMinutes (s : State) : State :=
  let s1 := sealPending (markMissing (collectSpill s))
  if s1.mtr.cutAt.isSome then
    let s2 := sealPending (markMissing (collectSpill (nextMinute s1 true)))
    overDies dropSpill { s2 with mtr := { s2.mtr with cutAt := none } } allDies
  else { s1 with mtr := { s1.mtr with wallStart := wallGuard s1, devStart := s1.guard.devTime } }

/-- After a cold start, once the spilled minutes are sealed, wall time goes on from the latest wall mark and the minute index
one above the highest of the log (R376, R377, R389). -/
def coldMinutes (s : State) (marks : List Int) : State :=
  let logMark := (s.mtr.log.getLast?).map (fun q => leNat (slice (q.records.getLastD []) 16 8) + leNat (slice (q.records.getLastD []) 36 4) * 1000000)
  let best := (marks ++ (match logMark with
    | none => []
    | some n => [(n : Int)])).foldl max 0
  let top := (s.mtr.log.map (fun q => q.minute)).foldl max 0
  let s1 := { s with guard := { s.guard with offset := best - (s.guard.devTime : Int), wallUnset := true } }
  { s1 with mtr := { s1.mtr with
      minute := if s.mtr.log.isEmpty then 0 else top + 1
      wallStart := best
      devStart := s.guard.devTime
      carry := []
      steps := [] } }

/-! ### CAP_SAMPLE -/

/-- The bytes of a tenant that CAP_BS counts on a die: its live records, and its share of the block namespaces, so that
the dies' sum is BLOCKS × LBA_SIZE (R379, log 51). -/
def capOf (x : Die) (d : DieId) (t : Nat) : Nat :=
  sumBy (fun e : BEntry => e.stLen) (x.map.kv.filter (fun e => e.valid && e.tenant == t))
    + sumBy (blockShare x d) (x.map.nstab.filter (fun n => n.tenant == t && n.ntype == 1))

/-- CAP_SAMPLE: once per second, CAP_BS of every tenant with a namespace (R379). -/
def execCapSample (d : DieId) (s : State) : Out :=
  .next (onDie s d (fun s =>
    ((s.die d).map.nstab.map (fun n => n.tenant)).eraseDups.foldl (fun s t =>
      meterAdd s d t (fun m => { m with capBs := satAdd 64 m.capBs (capOf (s.die d) d t) })) s))

/-! ### Level monitors (R395) -/

/-- The hottest reading of a die's good sensors (R511, R516), in 1/16 °C; −64 °C without one. -/
def hottest (t : Thm) : Int :=
  (t.temps.zipIdx.filter (fun p => !t.bad.contains p.2)).foldl (fun m p => max m p.1) (-1024)

/-- LUNs on which an operation runs. -/
def busyLuns (x : Die) : Nat :=
  ((x.flash.ops.filter (fun o => o.running && !o.paused)).map (fun o => (o.chan, o.ce, o.lun))).eraseDups.length

/-- Run-ahead reads outstanding. -/
def runAheads (x : Die) : Nat := (x.flash.ops.filter (fun o => match o.src with
  | .runAhead _ => true
  | _ => false)).length

/-- The level of a channel. -/
def levelOf (s : State) (d : DieId) (k : Nat) : Nat :=
  let x := s.die d
  match k with
  | 8 => sumBy (fun p : Pool => if p.pen then p.free else 0) x.bpm.pools.toList
  | 9 => dirtyBytes x / 1024
  | 10 => s.guard.psu.vbank
  | 11 => (hottest x.thm + 1024).toNat
  | 12 => 0
  | 13 => runAheads x
  | 14 => busyLuns x
  | 15 => (freeGroups x).length
  | c => (queuedIn x c).length

/-- A sample of one level channel. -/
def levelApply (s : State) (d : DieId) (m : Monitor) (k : Nat) : Monitor :=
  { m with levels := evtPut (eventApply (evtOf k m.levels) (levelOf s d k) m.devTime (wallNow s d)) m.levels }

/-- LEVEL_SAMPLE: each of the 16 channels takes one sample. -/
def execLevelSample (d : DieId) (s : State) : Out :=
  .next (onDie s d (fun s => s.updDie d (fun x => { x with mon := (List.range 16).foldl (levelApply s d) x.mon })))

/-! ### Windows -/

/-- A byte string as the words of a window. -/
def windowWords (b : Bytes) : List Word := (List.range 32).map (fun i => BitVec.ofNat 32 (leNat (slice b (4 * i) 4)))

/-- A latency record's bytes (R394). -/
def latBytes (r : LatRec) : Bytes :=
  leBytes 1 r.kind ++ [0] ++ leBytes 2 r.index ++ leBytes 4 r.count ++ leBytes 4 r.min ++ leBytes 4 r.max
    ++ leBytes 8 r.minDev ++ leBytes 8 r.maxDev ++ r.hist.flatMap (leBytes 4)

/-- An event record's bytes (R397). -/
def evtBytes (r : EvtRec) : Bytes :=
  leBytes 1 r.code ++ [if r.seen then 1 else 0, 0, 0] ++ leBytes 4 r.count ++ leBytes 4 r.limited ++ leBytes 4 r.min
    ++ leBytes 4 r.max ++ zeros 4 ++ leBytes 8 r.minDev ++ leBytes 8 (BitVec.ofInt 64 r.minWall).toNat ++ leBytes 8 r.maxDev
    ++ leBytes 8 (BitVec.ofInt 64 r.maxWall).toNat ++ r.hist.flatMap (leBytes 4) ++ zeros 8

/-- The bytes of a monitor. -/
def monitorBytes (m : Monitor) (kind index : Nat) : Bytes :=
  if kind = 2 then evtBytes (evtOf index m.levels) else latBytes (latOf kind index m.lat)

/-- A monitor cleared. -/
def monitorClear (m : Monitor) (kind index : Nat) : Monitor :=
  if kind = 2 then { m with levels := m.levels.filter (fun r => r.code != index) }
  else { m with lat := m.lat.filter (fun r => !(r.kind == kind && r.index == index)) }

/-- A write of LAT_SEL (R396, R404). -/
def latSelWrite (s : State) (d : DieId) (v : Word) : State :=
  let a := dreg d Page.lat 0x50
  let kind := fld v 29 28
  let index := fld v 11 0
  rowWrite s a v (fun s =>
    if !latIndexOk kind index then badValue s a
    else (storeReg s a v).updDie d (fun x =>
      let m := { x.mon with latWin := windowWords (monitorBytes x.mon kind index) }
      { x with mon := if bitAt v 16 then monitorClear m kind index else m }))

/-- LAT_SEL. -/
def execLatSel (r : Requester) (d : DieId) (v : Word) (s : State) : Out := .next (byReq s r (fun s => latSelWrite s d v))

/-! ### The event recorder's rows -/

/-- EVENT_RECORD: an event of a code with a value (R397, R398). -/
def execEventRecord (d : DieId) (code : Byte) (value : Nat) (s : State) : Out :=
  .next (onDie s d (fun s => recordEvent s d code.toNat value))

/-- EVR_REFILL: each code's bucket gains RATE tokens per second, every 1 ms (R398). -/
def execEvrRefill (d : DieId) (s : State) : Out :=
  .next (onDie s d (fun s => s.updDie d (fun x => { x with mon := { x.mon with
    rates := x.mon.rates.map (fun r => { r with tokens := min (r.burst * 1000) (r.tokens + r.rate) }) } })))

/-- A write of EVR_SEL (R400). -/
def evrSelWrite (s : State) (d : DieId) (v : Word) : State :=
  let a := dreg d Page.evr 0x40
  let code := fld v 7 0
  rowWrite s a v (fun s => (storeReg s a v).updDie d (fun x =>
    { x with mon := { x.mon with
        evrWin := windowWords (evtBytes (evtOf code x.mon.events))
        events := if bitAt v 8 then x.mon.events.filter (fun r => r.code != code) else x.mon.events } }))

/-- EVR_SEL. -/
def execEvrSel (r : Requester) (d : DieId) (v : Word) (s : State) : Out := .next (byReq s r (fun s => evrSelWrite s d v))

/-- A write of EVR_CMD.CLEAR_ALL clears every record (R405). -/
def evrClear (s : State) (d : DieId) : State :=
  rowWrite s (dreg d Page.evr 0x48) 1 (fun s => s.updDie d (fun x => { x with mon := { x.mon with events := [] } }))

/-- EVR_CLEAR_ALL. -/
def execEvrClearAll (r : Requester) (d : DieId) (s : State) : Out := .next (byReq s r (fun s => evrClear s d))

end Sys2Proof.Machine
end

