-- ==== Sys2Proof/Machine/Flush.lean ====
section
/-! DEFINITION. The flush of a power loss, a warm reset or a die fault (steps 4 to 8 of R322, R209, R389) and what of a
controller die outlasts its reset (R11, R175, R345, R396, R400). -/
namespace Sys2Proof.Machine
open Sys2Proof

/-! ### The flush -/

/-- The first group of the rescue reserve that is not full. -/
def rescueRoom (s : State) (d : DieId) : Option Group :=
  (s.die d).groups.find? (fun g => g.st == .rescue && decide (g.used < groupUnits s d g))

/-- The codewords that a run of a rescue group takes: their unit tags, and the units that count for each tenant (R229, R379). -/
def rescueTags (s : State) (d : DieId) (g : Group) (stop : Nat) (l : List RingEntry) : State :=
  let tags := unitTags s d g.num g.used (ceilDiv (stop - g.used) 64 * 64) l
  let s1 := (tags.filter (fun t => tagKind t.2 != 0)).foldl (fun s t =>
    meterAdd s d (tagTenant t.2) (fun m => { m with
      progHost := m.progHost + 64 * sumBy (fun e : RingEntry => unitsWithin e.placed g.num (64 * t.1) 64) l })) s
  s1.updDie d (fun x => { x with map := { x.map with
    tags := x.map.tags ++ tags.map (fun t => { group := g.num, cw := t.1, tag := t.2 }) } })

/-- Packs writes into the rescue reserve, group after group, as the packer packs a stripe (R182, R191, R209), with fuel: a
write that a group does not take whole goes on in the next one. -/
def packRescue (d : DieId) : Nat → State → List RingEntry → List RingEntry × State
  | 0, s, l => (l, s)
  | n + 1, s, l =>
    if l.all fullyPlaced then (l, s)
    else match rescueRoom s d with
      | none => (l, s)
      | some g =>
        let stop := groupUnits s d g
        let r := packInto (fun _ => true) g.num 0 stop (2 * l.length + stop - g.used + 2) g.used l
        let s1 := rescueTags s d g r.2 r.1
        let used := if r.1.all fullyPlaced then ceilDiv r.2 64 * 64 else stop
        packRescue d n (s1.updDie d (fun x => updGroup x g.num (fun q => { q with used := used }))) r.1

/-- An acknowledged write is left off flash: its journal record is missing (R220, R325). -/
def tearWrite (s : State) (d : DieId) : State :=
  s.updDie d (fun x => { x with map := { x.map with
    journal := x.map.journal ++ [{ jseq := x.map.jseq + 1, tenant := 0, nsid := 0, body := .ckptBegin 0, torn := true }]
    jseq := x.map.jseq + 1 } })

/-- Puts one packed write of the ring on flash with its journal record (R209); one that the reserve has not taken whole is left
off flash. -/
def flushWrite (s : State) (d : DieId) (e : RingEntry) : State :=
  if fullyPlaced e then (drainWrite s d { e with stripes := [] }).1 else tearWrite s d

/-- KiB of the writes that a die's flush puts on flash. -/
def flushKb (x : Die) : Nat := dirtyBytes x / 1024

/-- The Forager and the flash channels stop (step 4 of R322): queued and running operations leave no further effect. -/
def stopFlash (s : State) (d : DieId) : State :=
  s.updDie d (fun x => { x with
    flash := { x.flash with ops := [], stripes := [] }
    fgr := { x.fgr with moves := [], lost := [], victim := none, step := .chosen, forced := false } })

/-- Step 4 of R322 on a die: what has been admitted stays, and a write written through whose record is not yet on flash
is absent (R323). -/
def haltDie (s : State) (d : DieId) : State :=
  if (s.die d).map.mounted then
    (stopFlash s d).updDie d (fun x => { x with map := { x.map with ring := x.map.ring.filter (fun e => e.through.isNone) } })
  else s

/-- The first n admitted writes of a die's ring go into the rescue reserve with their journal records; the others are left off
flash (R322 steps 5 to 7, R325). A write written through whose record is not yet on flash is absent (R323). -/
def flushFirst (s : State) (d : DieId) (n : Nat) : State :=
  let ring := ((s.die d).map.ring.filter (fun e => e.through.isNone)).map (fun e => { e with placed := [], stripes := [] })
  let p := packRescue d ((s.die d).groups.length + 1) s (ring.take n)
  let s1 := p.1.foldl (fun s e => flushWrite s d e) p.2
  let s2 := (ring.drop n).foldl (fun s _ => tearWrite s d) s1
  s2.updDie d (fun x => { x with map := { x.map with ring := [] } })

/-- Steps 4 to 7 of R322 on a die: the whole ring into the rescue reserve, then the journal tail. -/
def flushRing (s : State) (d : DieId) : State :=
  if (s.die d).map.mounted then flushFirst (haltDie s d) d (s.die d).map.ring.length else s

/-- Step 8 of R322 on a die: the metering records not yet sealed (R389) and a root with LOSS set. The root replays from where the
governing one does, so that a write left off flash shows as a journal break (R220, R325). -/
def flushRoot (s : State) (d : DieId) : State :=
  if (s.die d).map.mounted then reRoot (spillMeters s d) d true else spillMeters s d

/-- Steps 4 to 8 of R322 on a die. -/
def flushDie (s : State) (d : DieId) : State := flushRoot (flushRing s d) d

/-- A die whose core rail has failed flushes nothing: the writes of its ring are left off flash (R220, R465). -/
def loseRing (s : State) (d : DieId) : State := if (s.die d).map.mounted then flushFirst (haltDie s d) d 0 else s

/-! ### What outlasts a reset of a die -/

/-- How far each group of a die is programmed (R219): its units in use, as they stood when the die last knew its groups. -/
def groupEnds (x : Die) : List (Nat × Nat) :=
  if x.groups.isEmpty then x.map.ends
  else (x.groups.filter (fun g => decide (0 < g.used))).map (fun g => (g.num, g.used))

/-- A die after its reset: what is on its flash, its retired channels and LUNs (kept in the configuration journal), the
tenants' hash keys (R143, log 52), the share of the last cap received (R509), its copy of device time, its event records and rates (R400), the spilled metering
records, its sensors and DRAM contents (log 53). -/
def freshDie (x : Die) : Die :=
  { ({} : Die) with
    map := { ({} : MapEng) with
      roots := x.map.roots
      anchorWear := x.map.anchorWear
      pages := x.map.pages
      journal := x.map.journal
      jgroups := x.map.jgroups
      stored := x.map.stored
      tags := x.map.tags
      ends := groupEnds x }
    flash := { ({} : Flash) with
      chans := x.flash.chans.map (fun c =>
        { ({} : Chan) with retired := c.retired, st := if c.st = .retired then .retired else .inService })
      lastRsv := x.flash.lastRsv }
    hashKeys := x.hashKeys
    mon := { ({} : Monitor) with events := x.mon.events, rates := x.mon.rates, spill := x.mon.spill, devTime := x.mon.devTime }
    thm := { ({} : Thm) with temps := x.thm.temps }
    cores := Vector.replicate 8 { kickAt := x.mon.devTime }
    ports := x.ports.map (fun p => { ({} : EthPort) with lastTx := p.lastTx, lastBad := p.lastBad })
    mem := x.mem }

/-- Registers of a die that a warm or die reset keeps (RWS): CRY_ALARM_LAST, CRY_ALARM_COUNT and EVR_LIMITED (R370, R400). -/
def keptReg (a : Nat) : Bool :=
  (pageOf a == 0x060 && (offOf a == 0x94 || offOf a == 0x98)) || (pageOf a == 0x003 && offOf a == 0x100)

/-- Whether a latched or held value belongs to a window. -/
def inWindow (w : Nat) (p : Requester × Nat × Word) : Bool := winOf p.2.1 == w

/-- A die and its window go through a reset (R8, R11). -/
def resetDie (s : State) (d : DieId) (phase : DiePhase) : State :=
  let s1 := s.setDie d { freshDie (s.die d) with phase := phase }
  { regsDrop s1 (fun a => winOf a == d.val && !keptReg a) with
    latch := s.latch.filter (fun p => !inWindow d.val p)
    heldLo := s.heldLo.filter (fun p => !inWindow d.val p) }

end Sys2Proof.Machine
end

