-- ==== Sys2Proof/Machine/Mount.lean ====
section
/-! DEFINITION. Mount (R218 to R221, R257): what the governing root names is read from its pages, the journal is replayed,
interrupted erases are done again, and a checkpoint is taken. -/
namespace Sys2Proof.Machine
open Sys2Proof

/-! ### Reading the tables and trees of a root -/

/-- The locations that a page names. -/
def bodyLocs : MapBody → List (BitVec 56)
  | .bucket _ next => if next = 0 then [] else [next]
  | .dir es => es.map (fun p => denseLoc p.2)
  | _ => []

/-- The pages that are reached from a location, each before those that it names, with fuel. -/
def walk (pages : List FlashPage) : Nat → BitVec 56 → List FlashPage
  | 0, _ => []
  | n + 1, l =>
    match pages.find? (fun p => p.loc == l) with
    | none => []
    | some p => p :: (bodyLocs p.body).flatMap (walk pages n)

/-- The pages of a tree. -/
def treePages (x : Die) (top : BitVec 56) : List FlashPage := walk x.map.pages (x.map.pages.length + 1) top

/-- The rows of the namespace table. -/
def tableRows (l : List FlashPage) : List NsRow := l.flatMap (fun p => match p.body with
  | .nstab rows => rows
  | _ => [])
/-- The entries of the block-group table. -/
def tableGroups (l : List FlashPage) : List Group := l.flatMap (fun p => match p.body with
  | .bgtab gs => gs
  | _ => [])
/-- The bucket entries of a tree's pages. -/
def pageKv (l : List FlashPage) : List BEntry := l.flatMap (fun p => match p.body with
  | .bucket es _ => es
  | _ => [])
/-- The dense entries of a tree's pages. -/
def pageDense (l : List FlashPage) : List DEntry := l.flatMap (fun p => match p.body with
  | .dense es => es
  | _ => [])

/-- Where the map pages lie: the pages of one place are one chain. -/
def placesOf (l : List FlashPage) : List PageAt :=
  ((l.map (fun p => p.id)).eraseDups).map (fun id =>
    let mine := l.filter (fun p => p.id == id)
    { id := id, locs := mine.map (fun p => p.loc), jseq := (mine.head?.map (fun p => p.jseq)).getD 0, dirty := false })

/-- A group as its table entry gives it (R224): the rest of its state follows from the entry, from the pages programmed in it
(R219) and from the channels in service (R291, R292). -/
def loadGroup (x : Die) (g : Group) : Group :=
  let y : Group := { g with
    layout := g.good
    used := if g.st = .free then 0 else (assocGet g.num x.map.ends).getD 0
    failed := false
    badCh := []
    purpose := if x.map.jgroups.any (fun p => p.1 == g.num) then 2 else if g.st = .rescue then 3 else if g.st = .sys then 1 else 0 }
  { y with rebuild := (g.st == .opened || g.st == .closed) && !(deadChans x y).isEmpty }

/-- The die with what a root names (R216, R218). -/
def loadRoot (x : Die) (r : Root) : Die :=
  let rows := tableRows (treePages x r.nstab)
  let trees := rows.flatMap (fun n => treePages x n.top)
  { x with
    groups := (tableGroups (treePages x r.bgtab)).map (loadGroup x)
    fgr := { x.fgr with shrinkGb := r.shrinkGb, roReport := false }
    comb := { x.comb with placement := r.placement.map toCombPlace, epoch := r.epoch }
    map := { x.map with
      root := some r
      rootAt := x.mon.devTime
      formatId := r.formatId
      kv := pageKv trees
      dense := pageDense trees
      nstab := rows.map (fun n => n.ns)
      places := placesOf (trees ++ treePages x r.nstab ++ treePages x r.bgtab)
      jseq := r.ckptJseq
      wbound := r.wseqBound
      readOnly := r.readOnly
      mapMode := r.mapMode
      opPct := r.opPct
      policy := r.policy } }

/-! ### Applying the journal -/

/-- Whether a group is one of the anchor region, which the records of its blocks leave as it is (R217, R226). -/
def isAnchor (g : Group) : Bool := g.st == .anchor

/-- Applies a record to the block-group table: what it says of a group (R212, R226, R256, R257). -/
def applyGroups (w : Nat) (b : JBody) (g : Group) : Group :=
  match b with
  | .eraseIntent n _ => if g.num = n ∧ isAnchor g = false then { g with st := .erasePending, valid := 0 } else g
  | .eraseDone n _ =>
    if g.num = n ∧ isAnchor g = false then
      { g with
        st := .free
        wear := g.wear + (if g.qlc then w else 1)
        qlc := false
        copy := false
        valid := 0
        used := 0
        rebuild := false
        failed := false
        badCh := []
        purpose := 0 }
    else g
  | .bgOpen n mode purpose =>
    if g.num = n then
      { g with
        st := if purpose = 0 then .opened else if purpose = 3 then .rescue else .sys
        qlc := mode == 1
        layout := g.good
        used := 0
        purpose := purpose }
    else g
  | .blockRetire n chan =>
    if g.num = n ∧ g.good.testBit chan = true then { g with good := g.good - 2 ^ chan } else g
  | .groupRetire n => if g.num = n then { g with st := .retired } else g
  | _ => g

/-- Applies a record to the bucket entries. -/
def applyKv (r : JRec) (l : List BEntry) : List BEntry :=
  match r.body with
  | .mapPut key htag version loc stLen keyLen bucket =>
    let e : BEntry := { tenant := r.tenant, nsid := r.nsid, bucket := bucket, key := key, htag := htag, version := version,
                        loc := loc, valid := true, nectar := false, stLen := stLen, keyLen := keyLen,
                        durable := some (version, loc, stLen) }
    l.filter (fun q => !sameKey e q) ++ [e]
  | .mapDelete htag _ loc _ =>
    l.filter (fun q => !(q.tenant == r.tenant && q.nsid == r.nsid && q.htag == htag && q.loc == loc))
  | .mapMove htag version old new _ =>
    l.map (fun q =>
      if q.tenant = r.tenant ∧ q.nsid = r.nsid ∧ q.htag = htag ∧ q.version = version ∧ q.loc = old then
        { q with loc := new, durable := some (version, new, q.stLen) }
      else q)
  | _ => l

/-- The dense entry of the i-th unit of a run whose first entry is given: the later ones follow in stripe order (R181, R212). -/
def runEntry (s : State) (d : DieId) (x : Die) (first : BitVec 40) (i : Nat) : BitVec 40 :=
  match groupOf x (locGroup (denseLoc first)) with
  | none => first
  | some g => locDense (unitLoc s d g (locIndex s d g (denseLoc first) + 64 * i))

/-- Sets, moves or clears one unit's entry. -/
def putUnit (x : Die) (tenant nsid unit : Nat) (entry : BitVec 40) : Die :=
  densePut x { tenant := tenant, nsid := nsid, unit := unit, entry := entry, nectar := none, durable := entry }

/-- Applies a record to one unit's dense entry. -/
def applyUnit (s : State) (d : DieId) (r : JRec) (x : Die) (i : Nat) : Die :=
  match r.body with
  | .lbaMap unit _ first => putUnit x r.tenant r.nsid (unit + i) (runEntry s d x first i)
  | .lbaTrim unit _ => putUnit x r.tenant r.nsid (unit + i) 0
  | .lbaMove unit _ old new =>
    if (denseGet x r.tenant r.nsid (unit + i)).entry = runEntry s d x old i then
      putUnit x r.tenant r.nsid (unit + i) (runEntry s d x new i)
    else x
  | _ => x

/-- The units that a record names: the first and how many. -/
def recUnits : JBody → Nat × Nat
  | .lbaMap unit count _ => (unit, count)
  | .lbaTrim unit count => (unit, count)
  | .lbaMove unit count _ _ => (unit, count)
  | _ => (0, 0)

/-- Whether a leaf page reflects a record already (R219). -/
def reflects (x : Die) (r : JRec) (index : Nat) : Bool :=
  decide (r.jseq ≤ (placeAt x { tree := .ns r.tenant r.nsid, level := 0, index := index }).jseq)

/-- Applies a record to the map pages that do not reflect it yet; they reflect it then (R219). -/
def applyMap (s : State) (d : DieId) (x : Die) (r : JRec) : Die :=
  let leaves := (recLeaves r.body).filter (fun i => !reflects x r i)
  let units := ((List.range (recUnits r.body).2).filter (fun i => leaves.contains (((recUnits r.body).1 + i) / 806)))
  let y := units.foldl (applyUnit s d r) x
  let z := if leaves.isEmpty then y else { y with map := { y.map with kv := applyKv r y.map.kv } }
  leaves.foldl (markLeaf r.tenant r.nsid r.jseq) z

/-- Applies one record of the journal at mount (R219). READ_ONLY_ENTER stands, and the die reports it again (R257). -/
def applyRec (s : State) (d : DieId) (w : Nat) (x : Die) (r : JRec) : Die :=
  let y := applyMap s d { x with groups := x.groups.map (applyGroups w r.body) } r
  { y with
    fgr := match r.body with
      | .capShrink gb => { y.fgr with shrinkGb := gb }
      | .readOnlyEnter _ => { y.fgr with roReport := true }
      | _ => y.fgr
    map := { y.map with
      jseq := r.jseq
      readOnly := match r.body with
        | .readOnlyEnter _ => true
        | _ => y.map.readOnly
      wbound := match r.body with
        | .wseqReserve b => max y.map.wbound b
        | _ => y.map.wbound } }

/-- The records of the journal that mount applies: those that follow CKPT_JSEQ one by one up to the first missing or
damaged one (R219, R220). -/
def goodRecords : Nat → List JRec → List JRec
  | _, [] => []
  | j, r :: rest =>
    if r.jseq ≤ j then goodRecords j rest
    else if r.torn || r.jseq != j + 1 then []
    else r :: goodRecords (j + 1) rest

/-- A journal break before the record of an acknowledged write (R220, R325): a record, missing itself or not, stands behind
those that mount applies. -/
def journalBroken (j : Nat) (l : List JRec) : Bool := l.any (fun r => decide (j + (goodRecords j l).length < r.jseq))

/-- Groups that hold flushed data leave the rescue reserve (R226). -/
def releaseRescue (sec : Nat) (g : Group) : Group :=
  if g.st = .rescue ∧ 0 < g.used then { g with st := .closed, closedS := sec } else g

/-- A group goes on behind its last programmed page (R219, log 136). -/
def pastEnd (ends : List (Nat × Nat)) (g : Group) : Group :=
  if g.st = .opened ∨ g.st = .rescue ∨ g.st = .sys then { g with used := max g.used ((assocGet g.num ends).getD 0) } else g

/-- Whether a record shows that the stop before the mount was not a clean one (R228): more than the checkpoint's own. -/
def afterClean (r : JRec) : Bool := match r.body with
  | .ckptBegin _ => true
  | _ => false

/-- The die with the journal applied, before interrupted erases are done again (R219). -/
def replay (s : State) (d : DieId) (r : Root) : Die :=
  let x := s.die d
  let recs := goodRecords r.ckptJseq x.map.journal
  let broken := journalBroken r.ckptJseq x.map.journal
  let y := recs.foldl (applyRec s d (dfld s d Page.fgr 0x58 7 0)) (loadRoot x r)
  { y with
    groups := y.groups.map (fun g => releaseRescue (secondsNow x) (pastEnd x.map.ends g))
    fgr := { y.fgr with recount := r.loss || !recs.all afterClean }
    map := { y.map with
      journal := x.map.journal.filter (fun q => decide (q.jseq ≤ r.ckptJseq)) ++ recs
      journalAt := 64 * recs.length
      mounted := true
      readOnly := y.map.readOnly || broken
      wseq := y.map.wbound } }

/-! ### After the journal -/

/-- Erases a block of a group again: one whose first or last wordline stays programmed is retired (R219, R257, R285). Which do is
the flash's own (log 54). -/
def redoBlock (d : DieId) (n : Nat) (s : State) (c : Nat) : State :=
  let s1 := { s with draws := s.draws + 1 }
  if Config.wordlineErased s.draws then s1 else retireBlock s1 d n c

/-- An interrupted erase is done again: its good blocks are erased and checked; the group is erased with those that pass, or is
retired (R219, R247, R257). -/
def redoErase (d : DieId) (s : State) (g : Group) : State :=
  let s1 := s.updDie d (fun x => { x with map := { x.map with
    stored := x.map.stored.filter (fun q => !touches g.num q.extents)
    tags := x.map.tags.filter (fun t => t.group != g.num)
    pages := x.map.pages.filter (fun p => locGroup p.loc != g.num) } })
  let s2 := (chanList g.good).foldl (redoBlock d g.num) s1
  match groupOf (s2.die d) g.num with
  | none => s2
  | some q => if q.st = .erasePending then eraseDone s2 d q else s2

/-- Interrupted erases are done again (R219). -/
def redoErases (s : State) (d : DieId) : State :=
  ((s.die d).groups.filter (fun g => g.st == .erasePending)).foldl (redoErase d) s

/-- OPEN groups whose last stripe was programmed before the stop are CLOSED (R226). -/
def closeOpen (s : State) (d : DieId) : State := (s.die d).groups.foldl (fun s g => closeFull s d g.num) s

/-- Mount stops at a journal break: READ_ONLY, a media event, and JOURNAL_BREAK with the channel of the journal page (R220, R223). -/
def reportBreak (s : State) (d : DieId) : State :=
  raiseInt (recordErr s (dreg d Page.map 0) 0x81 (locCh (jpageLoc s d (jpageOf ((s.die d).map.jseq + 1))))) (dreg d Page.map 0) 4

/-- Die 0's master placement table and the format after its mount (R144, R145, R216). -/
def takeMaster (s : State) (d : DieId) (r : Root) : State :=
  if d = 0 then { s with pkg := { s.pkg with placement := r.placement, epoch := r.epoch, formatId := r.formatId } } else s

/-- How long the mount took, in ms: the device's own (R222, log 114). -/
def timeMount (s : State) (d : DieId) : State :=
  let r := drawChoice s
  r.2.updDie d (fun x => { x with map := { x.map with mountMs := r.1 } })

/-- Mount with a root that governs (R219). -/
def mountRoot (s : State) (d : DieId) (r : Root) : State :=
  let broken := journalBroken r.ckptJseq (s.die d).map.journal
  let s1 := (takeMaster s d r).setDie d (replay s d r)
  let s2 := redoErases (if broken then reportBreak s1 d else s1) d
  let s3 := ensureJournal (fillRescue (checkpoint (closeOpen s2 d) d) d) d
  let s4 := timeMount (fgrReval (applyPolicy s3 d) d) d
  recordEvent s4 d 0x0C (s4.die d).map.mountMs

/-- The format that die 0 mounts. -/
def formatOf (s : State) : Option Nat := (newestRoot (s.die 0)).map (fun r => r.formatId)

/-- No valid root: MOUNT_NO_ROOT; of the anchor region's channels the error names one, the device's choice (R219, R223, log 165). -/
def noRoot (s : State) (d : DieId) : State :=
  let r := drawChoice s
  recordErr r.2 (dreg d Page.map 0) 0x80 (r.1 % 8)

/-- Mount of a die (R219): without a root, or with a root of another format than die 0's, the die stays unmounted and
answers with MEDIA_ERROR. -/
def mountDie (s : State) (d : DieId) : State :=
  match newestRoot (s.die d) with
  | none => noRoot s d
  | some r => if formatOf s = some r.formatId then mountRoot s d r else s

/-! ### Rebuilding a page (R199, R429) -/

/-- A leaf page is read again: what its chain on flash holds, then every journal record of the page whose JSEQ exceeds the
page's (R199). Entries whose value is still in the Nectar buffer, and keys deleted there, keep what the ring says of them. -/
def reloadPage (s : State) (d : DieId) (id : PageId) (t n : Nat) : Die :=
  let x := s.die d
  let p := placeAt x id
  let pages := x.map.pages.filter (fun q => p.locs.contains q.loc)
  let onPage (e : BEntry) : Bool := e.tenant == t && e.nsid == n && e.bucket == id.index
  let inPage (e : DEntry) : Bool := e.tenant == t && e.nsid == n && e.unit / 806 == id.index
  let held := x.map.kv.filter (fun e => onPage e && (e.nectar || !e.valid))
  let heldUnits := x.map.dense.filter (fun e => inPage e && e.nectar.isSome)
  let base := putPlace { x with map := { x.map with
      kv := x.map.kv.filter (fun e => !onPage e) ++ pageKv pages
      dense := x.map.dense.filter (fun e => !inPage e) ++ pageDense pages } }
    { p with jseq := (pages.head?.map (fun q => q.jseq)).getD 0, dirty := false }
  let y := (x.map.journal.filter (fun r => r.tenant == t && r.nsid == n && (recLeaves r.body).contains id.index)).foldl (applyMap s d) base
  heldUnits.foldl densePut (held.foldl kvPut y)

/-- A cached leaf page is discarded, read from flash and brought up to date by the journal (R199, R429); each page read of its chain
counts in MAP_PAGE_READS. -/
def rebuildLeaf (s : State) (d : DieId) (tenant nsid index : Nat) : State :=
  let p : MapPage := (tenant, nsid, index, false)
  let x := reloadPage s d (pageIdOf p) tenant nsid
  let s1 := s.setDie d { x with map := { x.map with
      l0 := x.map.l0.filter (fun q => !samePage p q)
      cache := x.map.cache.filter (fun q => !samePage p q) } }
  pageIn (regBump s1 (dreg d Page.map 0xA0) (placeAt (s.die d) (pageIdOf p)).locs.length) d tenant nsid index

end Sys2Proof.Machine
end

