-- ==== Sys2Proof/Machine/HoldUp.lean ====
section
/-! DEFINITION. Chapter 8: HCE's control loops and trace buffers (R305 to R310, R328, R329), the bank health test (R311 to
R314), the package dirty limit (R315 to R319), and power loss (R321 to R327). -/
namespace Sys2Proof.Machine
open Sys2Proof

/-! ### Registers of HCE and PSU -/

/-- A field of a PSU register. -/
def pfld (s : State) (off hi lo : Nat) : Nat := gfld s Page.psu off hi lo
/-- PSU's page. -/
def psuBase : Nat := greg Page.psu 0
/-- HCE's page. -/
def hceBase : Nat := greg Page.hce 0
/-- Changes PSU's state. -/
def updPsu (s : State) (f : Psu → Psu) : State := { s with guard := { s.guard with psu := f s.guard.psu } }
/-- An HCE slot. -/
def hceSlot (s : State) (n : SlotId) : HceSlot := s.guard.hce.get n
/-- Changes an HCE slot. -/
def updHce (s : State) (n : SlotId) (f : HceSlot → HceSlot) : State :=
  { s with guard := { s.guard with hce := vset s.guard.hce n (f (s.guard.hce.get n)) } }
/-- Changes the state of a controller die's flash, map and Forager is not its business: the guard die runs unless the
package is in OFF. -/
def guardRuns (s : State) (f : State → State) : State := if s.guard.off then s else f s

/-- SLOT_EN of a slot. -/
def slotOn (s : State) (n : SlotId) : Bool := bitAt (regGet s (hreg n 0)) 0
/-- V_SET and V_MIN, in 10 mV. -/
def vSet (s : State) : Nat := pfld s 0x48 15 0
def vMin (s : State) : Nat := pfld s 0x48 31 16
/-- DV in 10 mV. -/
def testDv (s : State) : Nat := pfld s 0x58 23 16 * 10
/-- C_used of R315, in 10 µF. -/
def cUsed (s : State) : Nat :=
  if s.guard.psu.tested then min s.guard.psu.cMeas (pfld s 0x4C 15 0) else pfld s 0x4C 31 16

/-! ### The stage of R306 -/

/-- A number kept in 32-bit signed arithmetic (R306, log 55). -/
def wrap32 (i : Int) : Int := (BitVec.ofInt 32 i).toInt

/-- Arithmetic right shift by 12. -/
def asr12 (i : Int) : Int := i / 4096

/-- What a stage reads: coefficients, scale, limits, its integrator, the error. -/
structure StageIn where
  kp    : Nat
  ki    : Nat
  scale : Nat
  lo    : Int
  hi    : Int
  integ : Int
  err   : Int
deriving DecidableEq, Repr

/-- A stage at a sample (R306): its integrator and its output. -/
def stage (q : StageIn) : Int × Int :=
  let kp := asr12 (wrap32 ((q.kp : Int) * q.scale))
  let ki := asr12 (wrap32 ((q.ki : Int) * q.scale))
  let integ := clampI q.lo q.hi (wrap32 (q.integ + asr12 (wrap32 (ki * q.err))))
  (integ, clampI q.lo q.hi (wrap32 (asr12 (wrap32 (kp * q.err)) + integ)))

/-- A ratio as a scale in Q4.12, clamped to 0.25 to 4.0 (R307). -/
def scaleOf (num den : Nat) : Nat := if den = 0 then 0x4000 else max 0x400 (min 0x4000 (num * 4096 / den))

/-- The outer scale of a slot (R307). -/
def outerScale (s : State) (n : SlotId) : Nat :=
  if bitAt (regGet s (hreg n 0)) 1 && n.val == 0 then scaleOf (cUsed s) (pfld s 0x4C 15 0) else 0x1000

/-- The inner scale of a slot (R307). -/
def innerScale (s : State) (n : SlotId) : Nat :=
  if !bitAt (regGet s (hreg n 0)) 1 then 0x1000
  else if n.val = 0 then scaleOf (hfld s n 0 31 16) s.guard.psu.vin
  else if n.val = 1 then scaleOf (hfld s n 0 31 16) s.guard.psu.vbank
  else 0x1000

/-- The outer reference in force (R302, R312, R328). -/
def outerRef (s : State) (n : SlotId) : Int :=
  if n.val = 0 then ((if s.guard.psu.test = .discharge then vSet s - testDv s else vSet s : Nat) : Int)
  else if n.val = 1 then (if s.guard.losing then (hfld s n 4 31 16 : Int) else (hfld s n 4 15 0 : Int))
  else (hfld s n 4 15 0 : Int)

/-- A stage limit: OUT_MIN or OUT_MAX, signed 16 bits. -/
def outMin (s : State) (n : SlotId) (off : Nat) : Int := signed 16 (hfld s n off 15 0)
def outMax (s : State) (n : SlotId) (off : Nat) : Int := signed 16 (hfld s n off 31 16)

/-- The measurement of the sample is PSU's as well: V_bank of slot 0, VHOLD of slot 1. -/
def noteSample (n : SlotId) (meas : Int) (p : Psu) : Psu :=
  if n.val = 0 then { p with vbank := meas.toNat } else if n.val = 1 then { p with vhold := meas.toNat } else p

/-- The outer stage of a slot at a sample (R305, R306). -/
def outerSample (s : State) (n : SlotId) (meas : Int) : State :=
  let s1 := updPsu s (noteSample n meas)
  if slotOn s n then
    let k := hceSlot s n
    let ref := outerRef s n
    let sc := outerScale s1 n
    let r := stage { kp := hfld s n 8 31 16, ki := hfld s n 0xC 31 16, scale := sc, lo := outMin s n 0x10, hi := outMax s n 0x10,
                     integ := k.oint, err := if 2 ≤ n.val then meas - ref else ref - meas }
    updHce s1 n (fun k => { k with omeas := meas, oint := r.1, oout := r.2, oscale := sc })
  else updHce s1 n (fun k => { k with omeas := meas, oint := 0, oout := 0 })

/-- HCE_OUTER_SAMPLE. -/
def execHceOuterSample (n : SlotId) (meas : Int) (s : State) : Out := .next (guardRuns s (fun s => outerSample s n meas))

/-! ### Trace buffers (R309, R310) -/

/-- A node's value (R309). -/
def nodeVal (s : State) (n : SlotId) (code : Nat) : Int :=
  let k := hceSlot s n
  match code with
  | 0x0 => outerRef s n
  | 0x1 => k.omeas
  | 0x2 => k.oint
  | 0x3 => k.oout
  | 0x4 => k.imeas
  | 0x5 => k.iint
  | 0x6 => k.iout
  | 0x7 => s.guard.psu.vin
  | 0x8 => s.guard.psu.vbank
  | 0x9 => s.guard.psu.vhold
  | 0xA => k.iscale
  | 0xB => k.oscale
  | _ => 0

/-- The row of eight nodes that a sample records. -/
def traceRow (s : State) (n : SlotId) : List Int :=
  (List.range 8).map (fun i => nodeVal s n (hfld s n 0x18 (4 * i + 3) (4 * i)))

/-- Whether a buffer records now: armed, and after a trigger only its remaining samples. -/
def tracing (k : HceSlot) : Bool := k.armed && (!k.trig || decide (0 < k.left))

/-- Records a trace sample when one is due, every DIV + 1 inner samples. -/
def traceSample (s : State) (n : SlotId) : State :=
  let k := hceSlot s n
  if k.divCnt < hfld s n 0x1C 11 0 then updHce s n (fun k => { k with divCnt := k.divCnt + 1 })
  else if tracing k then
    updHce s n (fun k => { k with
      divCnt := 0
      traced := (k.traced ++ [traceRow s n]).drop (k.traced.length - 4095)
      left := if k.trig then k.left - 1 else k.left })
  else updHce s n (fun k => { k with divCnt := 0 })

/-- A trigger of an armed buffer: PRE samples from before it are kept, 4,096 − PRE are still to come (R310). -/
def traceTrigger (s : State) (n : SlotId) : State :=
  let k := hceSlot s n
  if k.armed && !k.trig then
    let pre := hfld s n 0x1C 23 12
    raiseInt (updHce s n (fun k => { k with
      trig := true
      traced := k.traced.drop (k.traced.length - pre)
      left := 4096 - pre })) hceBase 1
  else s

/-- TRIG of a slot: 0 manual, 1 power loss, 2 inner clamp (log 56). -/
def trigSource (s : State) (n : SlotId) : Nat := hfld s n 0x1C 29 28

/-- The inner stage of a slot at a sample (R303, R305, R306, R312). -/
def innerSample (s : State) (n : SlotId) (meas : Int) : State :=
  let k := hceSlot s n
  let s1 := if slotOn s n then
      let ref := match k.fixedIn with
        | some r => r
        | none => k.oout
      let sc := innerScale s n
      let r := stage { kp := hfld s n 8 15 0, ki := hfld s n 0xC 15 0, scale := sc, lo := outMin s n 0x14, hi := outMax s n 0x14,
                       integ := k.iint, err := ref - meas }
      updHce s n (fun k => { k with imeas := meas, iint := r.1, iout := if k.forced0 then 0 else r.2, iscale := sc })
    else updHce s n (fun k => { k with imeas := meas, iint := 0, iout := 0 })
  traceSample s1 n

/-- HCE_INNER_SAMPLE. -/
def execHceInnerSample (n : SlotId) (meas : Int) (s : State) : Out := .next (guardRuns s (fun s => innerSample s n meas))

/-- HCE_CLAMP_TIMEOUT: an inner output held at a limit (R310, R329). -/
def execHceClampTimeout (n : SlotId) (s : State) : Out :=
  .next (guardRuns s (fun s =>
    let k := hceSlot s n
    if slotOn s n && (k.iout == outMin s n 0x14 || k.iout == outMax s n 0x14) then
      let s1 := raiseInt s hceBase 2
      if trigSource s n = 2 then traceTrigger s1 n else s1
    else s))

/-- FAN_FAULT: a fan slot commands more than 20% duty and its tach reads 0 (R329, R504). -/
def execFanFault (n : SlotId) (s : State) : Out :=
  .next (guardRuns s (fun s =>
    let k := hceSlot s n
    if 2 ≤ n.val ∧ slotOn s n = true ∧ 32768 < 5 * k.iout ∧ k.imeas = 0 then
      raiseInt { s with guard := { s.guard with fanFault := true } } hceBase 3
    else s))

/-- A write of HCE_Sn_TRCTL: its fields, then ARM, then FIRE (R310, R328). -/
def trctlWrite (s : State) (n : SlotId) (v : Word) : State :=
  let a := hreg n 0x1C
  rowWrite s a v (fun s =>
    let s1 := storeReg s a v
    let s2 := if bitAt v 31 then
        updHce s1 n (fun k => { k with armed := true, trig := false, trigd := false, traced := [], left := 0, divCnt := 0 })
      else s1
    if bitAt v 27 && trigSource s2 n == 0 then traceTrigger s2 n else s2)

/-- HCE_TRACE_ARM. -/
def execHceTraceArm (r : Requester) (n : SlotId) (v : Word) (s : State) : Out :=
  .next (byReq s r (fun s => if bitAt v 31 then trctlWrite s n v else s))

/-- HCE_TRACE_FIRE. -/
def execHceTraceFire (r : Requester) (n : SlotId) (v : Word) (s : State) : Out :=
  .next (byReq s r (fun s => if bitAt v 27 then trctlWrite s n v else s))

/-- TRACE_STOP: a triggered buffer has recorded its 4,096 − PRE further samples (R310). -/
def execTraceStop (n : SlotId) (s : State) : Out :=
  .next (guardRuns s (fun s =>
    if (hceSlot s n).trig && (hceSlot s n).left == 0 then
      updHce s n (fun k => { k with armed := false, trig := false, trigd := true })
    else s))

/-- The sample that HCE_TR_ADDR selects, oldest first; 0 where the buffer holds none. -/
def traceValue (s : State) : Int :=
  let a := regGet s (greg Page.hce 0x140)
  let k := s.guard.hce.get ⟨fld a 17 16 % 4, Nat.mod_lt _ (by decide)⟩
  (k.traced.getD (fld a 15 3) []).getD (fld a 2 0) 0

/-- A read of HCE_TR_DATA: the sample, then COL and SAMPLE advance (R328). Past sample 4,095 the spec states no next SAMPLE:
a free value (log 57). -/
def trDataRead (s : State) : State :=
  let addr := greg Page.hce 0x140
  let a := regGet s addr
  let s1 := { s with answer := { s.answer with data := BitVec.ofNat 32 ((BitVec.ofInt 16 (traceValue s)).toNat) } }
  if fld a 2 0 < 7 then regSet s1 addr (setFld a 2 0 (fld a 2 0 + 1))
  else if fld a 15 3 < 4095 then regSet s1 addr (setFld (setFld a 2 0 0) 15 3 (fld a 15 3 + 1))
  else
    let r := drawChoice s1
    regSet r.2 addr (setFld (setFld a 2 0 0) 15 3 (r.1 % 4096))

/-- HCE_TR_DATA_READ. -/
def execHceTrDataRead (r : Requester) (s : State) : Out := .next (byReq s r (fun s => guardRuns s trDataRead))

/-! ### The charger -/

/-- BANK_OV: V_bank above 42 V stops the charger (R303, R331). -/
def execBankOv (vbank : Nat) (s : State) : Out :=
  .next (guardRuns s (fun s =>
    if 4200 < vbank ∧ s.guard.psu.ovStop = false then
      recordErr (updHce (updPsu s (fun p => { p with vbank := vbank, ovStop := true, ovRead := false })) 0
        (fun k => { k with forced0 := true, iout := 0 })) psuBase 0x80 vbank
    else s))

/-- CHARGER_RESTART: V_bank below V_SET and ERR_CODE read (R303). -/
def execChargerRestart (s : State) : Out :=
  .next (guardRuns s (fun s =>
    if s.guard.psu.ovStop && s.guard.psu.ovRead && decide (s.guard.psu.vbank < vSet s) then
      updHce (updPsu s (fun p => { p with ovStop := false, ovRead := false })) 0 (fun k => { k with forced0 := false })
    else s))

/-! ### The dirty limit (R315, R316) -/

/-- The package dirty limit in bytes at a bank voltage (R316): picojoules over picojoules per byte, exact before rounding. -/
def limitAt (s : State) (vadm : Nat) : Nat :=
  if s.guard.psu.verdict = .fault then 0
  else
    let energy := cUsed s * (vadm ^ 2 - vMin s ^ 2)          -- units of 0.5 nJ
    let num := energy * 500 * pfld s 0x50 7 0 * (256 - pfld s 0x50 15 8)
    let ckpt := pfld s 0x50 31 16 * 10 ^ 9 * 65536
    (num - ckpt) / (pfld s 0x54 15 0 * 65536) / 4096 * 4096

/-- E_usable in mJ (R315). -/
def usableAt (s : State) (vadm : Nat) : Nat := cUsed s * (vadm ^ 2 - vMin s ^ 2) / 2000000

/-- The dies among which die 0 divides the limit (R203). -/
def limitDies (s : State) : List DieId := allDies.filter (fun d => present s d && (s.die d).phase != .fenced)

/-- The package's dirty bytes. -/
def packageDirty (s : State) : Nat := sumBy (fun d => dirtyBytes (s.die d)) allDies

/-- V_adm from a lowest sample: at most V_SET, and at most V_SET − DV while a test holds the lowered limit (R312, R315). -/
def vAdm (s : State) (low : Nat) : Nat :=
  min low (if s.guard.psu.test = .none then vSet s else vSet s - testDv s)

/-- Each die's share of the limit (R203), and its rescue reserve with it (R209, R319). -/
def shareLimit (s : State) (limit : Nat) : State :=
  let ds := limitDies s
  overDies (fun s d =>
    let s1 := s.updDie d (fun x => { x with map := { x.map with limShare := limit / max 1 ds.length } })
    if (s1.die d).map.mounted then fillRescue s1 d else s1) s ds

/-- Publishes the limit of a V_adm (R317); INT bit 4 when it falls below the package's dirty bytes (R331). -/
def publishLimit (s : State) (vadm : Nat) : State :=
  let limit := limitAt s vadm
  let s1 := shareLimit (updPsu s (fun p => { p with vadm := vadm, limit := limit, eUsable := usableAt s vadm })) limit
  if limit < packageDirty s ∧ packageDirty s ≤ s.guard.psu.limit then raiseInt s1 psuBase 4 else s1

/-- PSU_STATE changes; INT bit 3 when it enters DEGRADED or FAULT (R331). -/
def setBank (s : State) (b : BankState) : State :=
  let s1 := updPsu s (fun p => { p with bank := b })
  if (b == .degraded || b == .fault) && s.guard.psu.bank != b then raiseInt s1 psuBase 3 else s1

/-- A recharged bank has the state of its last test again (log 58). -/
def recharged (s : State) : State :=
  if s.guard.psu.bank = .charging ∧ s.guard.psu.verdict ≠ .charging ∧ vSet s ≤ s.guard.psu.vbank then
    setBank s s.guard.psu.verdict
  else s

/-- DIRTY_LIMIT_UPDATE: the measurements of the moment and the lowest V_bank sample of the last 1 ms (R315 to R317). -/
def execDirtyLimitUpdate (vin vbank vhold vLow : Nat) (s : State) : Out :=
  .next (guardRuns s (fun s =>
    let s1 := recharged (updPsu s (fun p => { p with vin := vin, vbank := vbank, vhold := vhold }))
    publishLimit s1 (vAdm s1 vLow)))

/-! ### The bank health test (R311 to R314) -/

/-- A test may begin: no power loss, none running (R311). -/
def testFree (s : State) : Bool := !s.guard.losing && s.guard.psu.test == .none

/-- Step 1 of R312: the lowered limit is published. -/
def beginTest (s : State) : State :=
  let s1 := updPsu s (fun p => { p with test := .waitFit, testDue := false, begun := true })
  publishLimit (setBank s1 .testing) (vAdm s1 s.guard.psu.vbank)

/-- BANK_TEST_START: a test that is due, or the first after a cold reset once V_bank has reached V_SET (R311). -/
def execBankTestStart (s : State) : Out :=
  .next (guardRuns s (fun s =>
    if testFree s && (s.guard.psu.testDue || (!s.guard.psu.begun && decide (vSet s ≤ s.guard.psu.vbank))) then beginTest s else s))

/-- BANK_TEST_DUE (R311, R314). -/
def execBankTestDue (s : State) : Out :=
  .next (guardRuns s (fun s => if testFree s then updPsu s (fun p => { p with testDue := true }) else s))

/-- A write of PSU_CMD.TEST_NOW (R311, R330). -/
def testNow (s : State) : State :=
  rowWrite s (greg Page.psu 0x60) 1 (fun s => if testFree s then beginTest s else s)

/-- PSU_TEST_NOW. -/
def execPsuTestNow (r : Requester) (s : State) : Out := .next (byReq s r (fun s => guardRuns s testNow))

/-- Every die's dirty bytes lie within its share of the limit. -/
def diesFit (s : State) : Bool := (limitDies s).all (fun d => decide (dirtyBytes (s.die d) ≤ (s.die d).map.limShare))

/-- BANK_TEST_DISCHARGE: steps 2 and 3 of R312. The steps are in 10 µV and 10 mA, so that their ratio is in mΩ; the ESR is
kept in 0.1 mΩ. -/
def execBankTestDischarge (vStep iStep : Nat) (s : State) : Out :=
  .next (guardRuns s (fun s =>
    if s.guard.psu.test = .waitFit ∧ diesFit s = true ∧ 0 < iStep ∧ s.guard.losing = false then
      let s1 := updPsu s (fun p => { p with test := .discharge, esr := vStep * 10 / iStep })
      updHce s1 1 (fun k => { k with fixedIn := some (pfld s 0x58 31 24 : Int) })
    else s))

/-- BANK_TEST_LOW_REACHED: steps 4 and 5 of R312. -/
def execBankTestLowReached (s : State) : Out :=
  .next (guardRuns s (fun s =>
    if s.guard.psu.test = .discharge then
      let s1 := updPsu s (fun p => { p with test := .recharge, vbank := vSet s - testDv s })
      let s2 := updHce s1 1 (fun k => { k with fixedIn := none })
      updHce s2 0 (fun k => { k with fixedIn := some (pfld s 0x58 31 24 : Int) })
    else s))

/-- Both slots return to their loops. -/
def testLoops (s : State) : State :=
  updHce (updHce s 0 (fun k => { k with fixedIn := none })) 1 (fun k => { k with fixedIn := none })

/-- The bank state that R313 gives. -/
def verdictOf (s : State) (c esr : Nat) : BankState :=
  if c < pfld s 0x4C 31 16 ∨ pfld s 0x5C 15 0 < esr then .fault
  else if 10 * c < 8 * pfld s 0x4C 15 0 then .degraded
  else .ready

/-- BANK_TEST_DONE: V_bank has returned to V_SET; the charge is in µC, so that C_meas in 10 µF is the charge over DV in
100 mV (R312, R313). -/
def execBankTestDone (charge : Nat) (s : State) : Out :=
  .next (guardRuns s (fun s =>
    if s.guard.psu.test = .recharge then
      let c := charge / max 1 (pfld s 0x58 23 16)
      let b := verdictOf s c s.guard.psu.esr
      let s1 := updPsu (testLoops s) (fun p => { p with
        test := .none
        tested := true
        cMeas := c
        verdict := b
        vbank := vSet s
        testAt := some s.guard.devTime })
      recordEvent (raiseInt (setBank s1 b) psuBase 2) 0 0x08 c
    else s))

/-- A test ends early: TEST_ABORT, and C_meas keeps its value (R314). -/
def abortTest (s : State) : State :=
  raiseInt (recordErr (updPsu (testLoops s) (fun p => { p with test := .none })) psuBase 0x81 s.guard.psu.vbank) psuBase 2

/-- BANK_TEST_TIMEOUT: a ramp has failed, which also sets FAULT (R314). -/
def execBankTestTimeout (s : State) : Out :=
  .next (guardRuns s (fun s =>
    if s.guard.psu.test = .discharge ∨ s.guard.psu.test = .recharge then
      setBank (updPsu (abortTest s) (fun p => { p with verdict := .fault })) .fault
    else s))

/-! ### Power loss -/

/-- Clears or sets SLOT_EN of a slot, as the guard core does; a disabled slot's integrators are 0 (R306, R328). -/
def slotSwitch (s : State) (n : SlotId) (on : Bool) : State :=
  let s1 := regFld s (hreg n 0) 0 0 (if on then 1 else 0)
  if on then s1 else updHce s1 n (fun k => { k with oint := 0, iint := 0, oout := 0, iout := 0 })

/-- The regulators' outputs. -/
def railsOff (s : State) : State :=
  { s with guard := { s.guard with rails := s.guard.rails.map (fun r => { r with on := false }) } }

/-- ½ × C_used × (V_start² − V_end²) in mJ (R330). -/
def drawnMj (s : State) : Nat := cUsed s * (s.guard.psu.vStart ^ 2 - s.guard.psu.vbank ^ 2) / 2000000

/-- The controller dies lose their rails: they hold nothing until the next start. -/
def diesDown (s : State) : State := overDies (fun s d => if present s d then resetDie s d .reset else s) s allDies

/-- A NOR operation that loses its rail leaves its page or sector undefined (R525, R543): free bytes. -/
def norCut (s : State) : State :=
  match s.nor.op with
  | none => s
  | some o =>
    let r := drawBytes s o.len
    { r.2 with nor := { cjReload (norWrite r.2.nor o.addr r.1) with op := none } }

/-- Step 9 of R322: regulators off, slot 1 stopped, the package waits for VIN; the figures of the flush are kept. -/
def lossEnd (s : State) : State :=
  let s1 := slotSwitch (railsOff (norCut s)) 1 false
  let s2 := regSet (regSet s1 (greg Page.psu 0xA4) (satWord s.guard.psu.flushKb)) (greg Page.psu 0xA8) (satWord (drawnMj s))
  let s3 := diesDown s2
  { s3 with guard := { s3.guard with lossDone := true, deep := false, entry := 0 } }

/-- The dies that flush in a power loss. -/
def flushers (s : State) : List DieId := allDies.filter (fun d => present s d && (s.die d).phase == .up)

/-- Triggers every trace buffer whose source is a power loss (R310). -/
def lossTraces (s : State) : State :=
  ([0, 1, 2, 3] : List SlotId).foldl (fun s n => if trigSource s n = 1 then traceTrigger s n else s) s

/-- Steps 1 to 4 of R322; an entry to DEEP in progress ends (R496). The rings are flushed by the time the dies report (step 8). -/
def powerLoss (s : State) : State :=
  let s := abandonDeep s
  let s0 := if s.guard.psu.test = .none then s else abortTest s
  let ds := flushers s
  let kb := sumBy (fun d => flushKb (s.die d)) ds
  let s1 := updPsu (slotSwitch s0 0 false) (fun p => { p with
    orOn := false
    bank := .loss
    flushed := []
    flushKb := kb
    vStart := p.vbank })
  let s2 := lossTraces { cutMinute s1 with guard := { s1.guard with losing := true, lossDone := false, shutting := false } }
  let s3 := raiseInt (regBump s2 (greg Page.psu 0xA0) 1) psuBase 1
  let s4 := regFld s3 (greg Page.psu 0xAC) 0 0 1
  let s5 := overDies (if s.guard.deep then flushRing else haltDie) s4 ds
  if s.guard.deep || ds.isEmpty then lossEnd s5 else s5

/-- POWER_LOSS (R321). -/
def execPowerLoss (s : State) : Out := .next (guardRuns s (fun s => if s.guard.losing then s else powerLoss s))

/-- DIE_FLUSH_DONE: steps 5 to 8 of R322 on a die, and step 9 once every die has reported. -/
def execDieFlushDone (d : DieId) (s : State) : Out :=
  .next (if s.guard.losing && !s.guard.lossDone && (flushers s).contains d && !s.guard.psu.flushed.contains d then
      let s1 := updPsu (flushDie s d) (fun p => { p with flushed := p.flushed ++ [d] })
      if (flushers s1).all (fun e => s1.guard.psu.flushed.contains e) then lossEnd s1 else s1
    else s)

/-- FLUSH_SHORT: V_bank below V_MIN before every die has reported (R325). -/
def execFlushShort (s : State) : Out :=
  .next (if s.guard.losing && !s.guard.lossDone then regFld s (greg Page.psu 0xAC) 1 1 1 else s)

/-- The bank runs out before a die has reported: how many of its writes are on flash by then is a free value (R325, log
137). -/
def cutFlush (s : State) (d : DieId) : State :=
  let r := drawChoice s
  if (s.die d).map.mounted then flushFirst r.2 d (r.1 % ((s.die d).map.ring.length + 1)) else s

/-- What die 0 has collected of the minute that waits for its seal goes with die 0, unless it had reported by then (R389). -/
def forgetSums (s : State) : State :=
  if s.guard.psu.flushed.contains 0 then s
  else { s with mtr := { s.mtr with got := [], sums := [] } }

/-- BANK_EXHAUSTED: the always-on domain loses its supply and the package is in OFF (R324, R325). -/
def execBankExhausted (s : State) : Out :=
  .next (if s.guard.losing then
      let s0 := overDies cutFlush s ((flushers s).filter (fun d => !s.guard.psu.flushed.contains d))
      let s1 := forgetSums (diesDown (norCut s0))
      { s1 with guard := { s1.guard with off := true, losing := false, lossDone := false } }
    else s)

/-- A read of PSU_LOSS_INFO clears it (R330). -/
def lossInfoRead (s : State) : State :=
  let a := greg Page.psu 0xAC
  regSet { s with answer := { s.answer with data := regGet s a } } a 0

/-- PSU_LOSS_INFO_READ. -/
def execPsuLossInfoRead (r : Requester) (s : State) : Out := .next (byReq s r (fun s => guardRuns s lossInfoRead))

end Sys2Proof.Machine
end

