-- ==== Sys2Proof/Machine/Pools.lean ====
section
/-! DEFINITION. Frames leaving a port (R418, R420, R421), the buffer pools of BPM and its reference table (R437 to
R443), and what a pool's thresholds do to KTP and to the ports (R79, R86, R418). -/
namespace Sys2Proof.Machine
open Sys2Proof

/-! ### Frames leaving a port -/

/-- The page of a port. -/
def ethBase (d : DieId) (p : PortId) : Nat := dreg d (Page.eth p) 0

/-- A port of a die. -/
def portOf (x : Die) (p : PortId) : EthPort := x.ports.get p

/-- Changes a port of a die. -/
def updPort (s : State) (d : DieId) (p : PortId) (f : EthPort → EthPort) : State :=
  s.updDie d (fun x => { x with ports := vset x.ports p (f (x.ports.get p)) })

/-- Adds to a counter of a port, named by the offset of its shadow register; saturating at 64 bits (R424). -/
def ethCount (s : State) (d : DieId) (p : PortId) (off k : Nat) : State :=
  updPort s d p (fun q => { q with live := assocSet off (min ((assocGet off q.live).getD 0 + k) (2 ^ 64 - 1)) q.live })

/-- The bytes of what a frame carries after its Ethernet header. -/
def txBody (t : TxPkt) : Nat :=
  match t.kind with
  | .kocel b => (if t.v6 then 40 else 20) + 8 + b.length
  | .arpReply _ => 28
  | .gratuitousArp _ => 28
  | .neighbourAdv _ => 72
  | .unsolicitedNa _ => 72
  | .pfc _ _ => 46

/-- The length of a frame with its FCS, at least 64 bytes. -/
def txLen (t : TxPkt) : Nat := max 64 (14 + (if t.vlan.isSome then 4 else 0) + txBody t + 4)

/-- The frame is the last one on the wire. -/
def onWire (s : State) (d : DieId) (p : PortId) (t : TxPkt) (bad : Bool) : State :=
  updPort s d p (fun q => { q with lastTx := some t, lastBad := bad })

/-- A PFC frame leaves the port for every priority whose TX_EN bit is 1 (R418), each counted in TX_PFC0 to TX_PFC7;
on a link that is down it is discarded (R421). -/
def sendPfc (s : State) (d : DieId) (p : PortId) (quanta : Nat) : State :=
  let en := fld (regGet s (ethBase d p + 0x50)) 7 0
  if en = 0 then s
  else if !(portOf (s.die d) p).up then ethCount s d p 0x2A0 1
  else
    let t : TxPkt := { pcp := 0, dscp := 0, vlan := none, dstMac := 0x0180C2000001, v6 := false, dstIp := 0, dstUdp := 0,
                       kind := .pfc en quanta }
    ((List.range 8).filter en.testBit).foldl (fun s n => ethCount s d p (0x2B0 + 8 * n) 1) (onWire s d p t false)

/-- A frame leaves its port, or is discarded on a link that is down (R421). -/
def sendFrame (s : State) (d : DieId) (p : PortId) (t : TxPkt) (bad : Bool) : State :=
  if !(portOf (s.die d) p).up then ethCount s d p 0x2A0 1
  else
    let s1 := onWire s d p t bad
    if bad then s1 else ethCount (ethCount s1 d p 0x288 1) d p 0x290 (txLen t)

/-- Everything that a port holds to send leaves it. -/
def drainPort (s : State) (d : DieId) (p : PortId) : State :=
  let l := (portOf (s.die d) p).txq
  l.foldl (fun s t => sendFrame s d p t false) (updPort s d p (fun q => { q with txq := [] }))

/-- Every session of a die ends with TERMINATE reason DEVICE_RESET, sent from its own ports (R21, R101, R465). -/
def endAll (s : State) (d : DieId) : State :=
  drainPort (drainPort (terminateWhere s d (fun _ => true) 0x05) d 0) d 1

/-- QUANTA of a port. -/
def pfcQuanta (s : State) (d : DieId) (p : PortId) : Nat := fld (regGet s (ethBase d p + 0x50)) 31 16

/-- The pools that the die's receive queues use (R412). -/
def queuePools (s : State) (d : DieId) : List Nat :=
  (List.range 64).map (fun q => fld (regGet s (dreg d (Page.eth 0) (0x100 + 4 * q))) 3 0)

/-- The condition of R418: a pool that the queues use is in CRIT (R443). -/
def pfcWanted (s : State) (d : DieId) : Bool :=
  (s.die d).bpm.pools.toList.zipIdx.any (fun p => p.1.pen && p.1.bpKtp && p.1.inCrit && (queuePools s d).contains p.2)

/-- A port sends PFC when the condition of R418 begins and a frame with a time of 0 when it ends. -/
def pfcPort (s : State) (d : DieId) (p : PortId) : State :=
  let want := pfcWanted s d
  if want = (portOf (s.die d) p).sending then s
  else updPort (sendPfc s d p (if want then pfcQuanta s d p else 0)) d p (fun q => { q with sending := want })

/-- Both ports after a change of a pool. -/
def pfcUpdate (s : State) (d : DieId) : State := pfcPort (pfcPort s d 0) d 1

/-- An ACK at once for every session whose window edge advances again after a pool held it or kept its credit low
(R79). -/
def openWindows (s : State) (d : DieId) : State :=
  (s.die d).ktp.sessions.foldl (fun s k =>
    match sessOf (s.die d) k.slot with
    | none => s
    | some q => if nextEdge s d q != q.edge then sendAck s d k.slot else s) s

/-! ### Pools -/

/-- The page of BPM. -/
def bpmBase (d : DieId) : Nat := dreg d Page.bpm 0

/-- A pool of a die. -/
def poolAt (s : State) (d : DieId) (p : Fin 16) : Pool := (s.die d).bpm.pools.get p

/-- All pools. -/
def allPools : List (Fin 16) := (List.range 16).filterMap (fun n => if h : n < 16 then some ⟨n, h⟩ else none)

/-- Stores a pool. -/
def setPool (s : State) (d : DieId) (p : Fin 16) (q : Pool) : State :=
  s.updDie d (fun x => { x with bpm := { x.bpm with pools := vset x.bpm.pools p q } })

/-- The CRIT state of a pool (R443): entered at F_p ≤ CRIT, left above CRIT_OFF. -/
def critNext (q : Pool) : Bool :=
  q.pen && q.bpKtp && (if q.inCrit then decide (q.free ≤ q.critOff) else decide (q.free ≤ q.crit))

/-- Whether the last pool at critical, or at low water, has left it between two states of a die (R79, R86). -/
def edgesFreed (s t : State) (d : DieId) : Bool :=
  (poolCrit (s.die d) && !poolCrit (t.die d)) || (poolLow (s.die d) && !poolLow (t.die d))

/-- A pool after a change: its lowest free count, its CRIT state with INT bit 1, PFC, and the windows that open (R79,
R86, R418, R443, R454). -/
def settlePool (s : State) (d : DieId) (p : Fin 16) (q : Pool) : State :=
  let crit := critNext q
  let s1 := setPool s d p { q with
    inCrit := crit
    minFree := some (match q.minFree with
      | none => q.free
      | some m => min m q.free) }
  let s2 := if crit && !(poolAt s d p).inCrit then raiseInt s1 (bpmBase d) 1 else s1
  let s3 := pfcUpdate s2 d
  if edgesFreed s s3 d then openWindows s3 d else s3

/-- Whether an address is the start of a buffer of a pool. -/
def isBuffer (q : Pool) (a : Nat) : Bool :=
  q.pen && decide (q.base ≤ a) && decide (a < q.base + q.count * 2 ^ q.sizeLog2) && decide ((a - q.base) % 2 ^ q.sizeLog2 = 0)

/-- A failed allocation (R438, R454). -/
def allocFail (s : State) (d : DieId) : State := raiseInt (regBump s (bpmBase d + 0x8C) 1) (bpmBase d) 3

/-- A BPM error, with what ERR_INFO.OFFSET holds (R454). -/
def bpmErr (s : State) (d : DieId) (code off : Nat) : State := recordErr s (bpmBase d) code off

/-- Takes the head of a pool's free list: its address, 0 when there is none (R438); a bad next pointer corrupts the pool
(R439). -/
def popBuf (s : State) (d : DieId) (p : Fin 16) : Nat × State :=
  let q := poolAt s d p
  if q.corrupt then (0, raiseInt s (bpmBase d) 3)
  else if !q.pen || q.head == 0 then (0, allocFail s d)
  else
    let next := leNat (memRead s d q.head 8)
    if next != 0 && !isBuffer q next then
      (0, raiseInt (bpmErr (setPool s d p { q with corrupt := true }) d 0x81 p.val) (bpmBase d) 3)
    else (q.head, settlePool s d p { q with head := next, free := q.free - 1 })

/-- The level of a receive queue's source has fallen once its queue is empty (R466). -/
def queueFall (x : Die) (q : IcuSrc) : IcuSrc :=
  if 384 ≤ q.num ∧ q.num < 448 ∧ x.rxq.any (fun r => r.queue == q.num - 384) = false then { q with raised := false } else q

/-- The receive queues after frames have gone. -/
def rxqFall (x : Die) : Die := { x with icu := { x.icu with srcs := x.icu.srcs.map (queueFall x) } }

/-- Returns a buffer to the head of its pool's free list (R438); an address that is no start of a buffer is BAD_FREE
(R439). A frame that lay in the buffer is gone from its queue. -/
def pushBuf (s : State) (d : DieId) (p : Fin 16) (a : Nat) : State :=
  let q := poolAt s d p
  if isBuffer q a then
    let s1 := (memWrite s d a (leBytes 8 q.head)).updDie d (fun x =>
      rxqFall { x with rxq := x.rxq.filter (fun r => !r.bufs.contains a) })
    settlePool s1 d p { q with head := a, free := q.free + 1 }
  else bpmErr s d 0x82 p.val

/-- The pool that a buffer belongs to. -/
def poolOfBuf (x : Die) (a : Nat) : Option (Fin 16) := allPools.find? (fun p => isBuffer (x.bpm.pools.get p) a)

/-! ### References -/

/-- Entries of the reference table (R440). -/
def refCap : Nat := 262144

/-- Replaces the reference table. -/
def setRefs (s : State) (d : DieId) (l : List (Nat × Nat)) : State :=
  s.updDie d (fun x => { x with bpm := { x.bpm with refs := l } })

/-- A buffer's reference count. -/
def refCount (l : List (Nat × Nat)) (a : Nat) : Nat := (l.filter (fun r => r.1 == a)).length

/-- Removes one entry. -/
def refDel (l : List (Nat × Nat)) (a owner : Nat) : List (Nat × Nat) := l.erase (a, owner)

/-- Whether an owner is fenced (R442). -/
def ownerFenced (s : State) (d : DieId) (owner : Nat) : Bool := (s.die d).bpm.fenced.contains owner

/-- ALLOC (R440): the first entry, for the allocating owner; while BPM takes no work it fails (log 61). -/
def allocBuf (s : State) (d : DieId) (p : Fin 16) (owner : Nat) : Nat × State :=
  if ownerFenced s d owner then (0, bpmErr s d 0x85 owner)
  else if refCap ≤ (s.die d).bpm.refs.length ∨ takesWork s (bpmBase d) = false then (0, allocFail s d)
  else
    let r := popBuf s d p
    if r.1 = 0 then r else (r.1, setRefs r.2 d ((r.1, owner) :: (r.2.die d).bpm.refs))

/-- Frees a buffer whose last entry is gone (R440). -/
def freeBuf (s : State) (d : DieId) (a : Nat) : State :=
  match poolOfBuf (s.die d) a with
  | none => s
  | some p => pushBuf s d p a

/-- Removes one entry of an owner and frees the buffer at its last (R440). -/
def dropRef (s : State) (d : DieId) (a owner : Nat) : State :=
  let l := refDel (s.die d).bpm.refs a owner
  let s1 := setRefs s d l
  if refCount l a = 0 then freeBuf s1 d a else s1

/-- Marks an owner fenced and removes every entry of it (R442): the state and the number of entries removed. -/
def sweepOwner (s : State) (d : DieId) (owner : Nat) : State :=
  let mine := (s.die d).bpm.refs.filter (fun r => r.2 == owner)
  let s1 := s.updDie d (fun x => { x with bpm := { x.bpm with fenced := owner :: x.bpm.fenced.filter (· != owner) } })
  let s2 := mine.foldl (fun s r => dropRef s d r.1 r.2) s1
  regSet s2 (bpmBase d + 0xB4) (BitVec.ofNat 32 mine.length)

/-- The sweep is over: START clears and INT bit 2 is set (R442, R454). -/
def sweepDone (s : State) (d : DieId) : State :=
  let s1 := s.updDie d (fun x => { x with bpm := { x.bpm with sweep := none } })
  raiseInt (regFld s1 (bpmBase d + 0x58) 31 31 0) (bpmBase d) 2

/-- Hands the references of one owner to another (R461). -/
def moveRefs (s : State) (d : DieId) (src dst : Nat) : State :=
  setRefs s d ((s.die d).bpm.refs.map (fun r => if r.2 == src then (r.1, dst) else r))

end Sys2Proof.Machine
end

