-- ==== Sys2Proof/Machine/Boot.lean ====
section
/-! DEFINITION. Chapter 15: the NOR controller (R518 to R525), the option area (R526 to R528), slots, manifests and boot
control (R529 to R533, R366, R368), the start sequence of cold and warm resets (R535 to R537, R568), die 0's faults (R16),
the package watchdog (R542) and the configuration journal's compaction (R545). -/
namespace Sys2Proof.Machine
open Sys2Proof

/-! ### The array -/

/-- A sector of a NOR address, coded as in R522: parameter sector k as k, main sector n as 32 + n; none where no sector
is (R518). -/
def norSector (a : Nat) : Option Nat :=
  if a < 0x20000 then some (a / 0x1000)
  else if a < 0x40000 then none
  else if a < 0x8000000 then some (32 + a / 0x40000)
  else none

/-- Whether a coded sector may be programmed or erased (R518, R524). -/
def sectorOpen (n : Nor) (k : Nat) : Bool :=
  n.pe && !(decide (6 ≤ k ∧ k < 32)) && k != 32 + 511 && (n.optWe || !(k == 0 || k == 5))

/-- The status word of R522, 0 while idle. -/
def norStatus (n : Nor) : Word :=
  match n.op with
  | none => 0
  | some o => BitVec.ofNat 32 (0xB5A7 * 65536 + 0x8000 + (if o.erase then 2 else 1) * 0x2000 + o.sector % 1024)

/-! ### NOR_OP and NOR_UNLOCK (R521, R524) -/

/-- The requesters that may write NOR_OP and NOR_UNLOCK. -/
def norRequester (r : Requester) : Bool :=
  match r with
  | .cores d => d == 0
  | .waggle => true
  | _ => false

/-- Starts the operation that NOR_OP names at NADDR. -/
def norStart (s : State) (v : Word) : State :=
  let a := fld (regGet s (nreg 0x44)) 26 0
  let len := fld v 8 0 + 1
  let erase := fld v 30 29 == 2
  match norSector a with
  | none => recordErr s (nreg 0) 0x81 0
  | some k =>
    if s.nor.op.isSome then recordErr s (nreg 0) 0x80 k
    else if s.guard.losing then s
    else if !sectorOpen s.nor k then recordErr s (nreg 0) 0x81 k
    else if !erase && decide (512 < a % 512 + len) then recordErr s (nreg 0) 0x82 k
    else
      let data := ((List.range 128).flatMap (fun i => leBytes 4 (regGet s (nreg (0x100 + 4 * i))).toNat)).take len
      let o : NorOp := if erase then { erase := true, addr := (sectorSpan k).1, len := (sectorSpan k).2, sector := k, data := [] }
        else { erase := false, addr := a, len := len, sector := k, data := data }
      { s with nor := { s.nor with op := some o } }

/-- A write of NOR_OP (R521, R524, R546). -/
def norOpWrite (s : State) (r : Requester) (v : Word) : State :=
  let a := nreg 0x40
  rowWrite s a v (fun s =>
    if !norRequester r then s
    else if bitAt v 31 then
      (if fld v 30 29 = 0 ∨ fld v 30 29 = 3 then badValue s a else norStart (storeReg s a v) v)
    else storeReg s a v)

/-- NOR_PROGRAM: START with OP 1. -/
def execNorProgram (r : Requester) (v : Word) (s : State) : Out :=
  .next (byReq s r (fun s => if bitAt v 31 && fld v 30 29 == 1 then norOpWrite s r v else s))

/-- NOR_ERASE: START with OP 2. -/
def execNorErase (r : Requester) (v : Word) (s : State) : Out :=
  .next (byReq s r (fun s => if bitAt v 31 && fld v 30 29 == 2 then norOpWrite s r v else s))

/-- The effect of a finished operation: a program clears bits only (R521). -/
def norApply (n : Nor) (o : NorOp) : Nor :=
  cjReload (if o.erase then norEraseSpan n o.sector else norProgram n o.addr o.data)

/-- A running operation ends (R522, R547). -/
def norOpDone (s : State) : State :=
  match s.nor.op with
  | none => s
  | some o =>
    let s1 := { s with nor := { norApply s.nor o with op := none } }
    raiseInt (regBump s1 (nreg (if o.erase then 0x88 else 0x84)) 1) (nreg 0) 1

/-- NOR_OP_DONE. During a power loss a running operation ends only while the rail holds, which norCut decides (R525). -/
def execNorOpDone (s : State) : Out := .next (norOpDone s)

/-- A write of NOR_UNLOCK (R524). -/
def norUnlock (s : State) (r : Requester) (v : Word) : State :=
  rowWrite s (nreg 0x48) v (fun s =>
    let pe := bitAt v 0 && (r == .cores 0 || (r == .waggle && s.nor.bootFault))
    let we := bitAt v 1 && r == .waggle
    { s with nor := { s.nor with pe := s.nor.pe || pe, optWe := s.nor.optWe || we } })

/-- NOR_UNLOCK_PE. -/
def execNorUnlockPe (r : Requester) (s : State) : Out := .next (byReq s r (fun s => norUnlock s r 1))

/-- NOR_UNLOCK_OPT_WE. -/
def execNorUnlockOptWe (r : Requester) (s : State) : Out := .next (byReq s r (fun s => norUnlock s r 2))

/-! ### The option area (R526) -/

/-- Whether a copy of the option area passes its checks. -/
def optGood (b : Bytes) : Bool := leAt b 0 4 == 0x4F504B53 && leAt b 4092 4 == (Hash.crc32c (b.take 4092)).toNat

/-- Loads the shadow from parameter sector 0, else from sector 5; with neither good, OPT_BAD and BOOT_FAULT. -/
def optLoad (s : State) : State :=
  let b0 := norRead s.nor 0 4096
  let b5 := norRead s.nor 0x5000 4096
  if optGood b0 then { s with nor := { s.nor with shadow := b0, optOk := true } }
  else if optGood b5 then { s with nor := { s.nor with shadow := b5, optOk := true } }
  else recordErr { s with nor := { s.nor with shadow := b5, optOk := false, bootFault := true } } (nreg 0) 0x83 5

/-- A little-endian word of the option area. -/
def optWord (s : State) (off : Nat) : Word := BitVec.ofNat 32 (leAt s.nor.shadow off 4)

/-- Firmware writes a register from the option area; a value that a field does not define, or that breaks a
condition, is refused (R566). -/
def putWord (s : State) (a : Nat) (v : Word) : State :=
  match blockAt a with
  | none => s
  | some b => match regSpec b (offOf a) with
    | none => s
    | some r => if valuesOk r v && condOk s b a v then regSet s a (mergeFields false (regGet s a) v r) else badValue s a

/-- PSU's registers in the option area's order. -/
def psuOptRegs : List Nat := [0x40, 0x44, 0x48, 0x4C, 0x50, 0x54, 0x58, 0x5C, 0x180, 0x1C0, 0x100, 0x104]

/-- Sets a page's lock (R47). -/
def setLock (s : State) (base : Nat) : State := regFld s (base + 8) 31 31 1

/-- Step 5 of a cold start: the PSU and HCE words, then the locks of both pages (R535). -/
def guardWords (s : State) : State :=
  let s1 := (psuOptRegs.zipIdx).foldl (fun s p => putWord s (greg Page.psu p.1) (optWord s (16 + 4 * p.2))) s
  let s2 := ([0, 1, 2, 3] : List SlotId).foldl (fun s n =>
    (List.range 8).foldl (fun s i =>
      if n.val = 0 ∧ i = 1 then s else putWord s (hreg n (4 * i)) (optWord s (80 + 32 * n.val + 4 * i))) s) s1
  let s3 := ([0, 1, 2, 3] : List SlotId).foldl (fun s n =>
    if bitAt (optWord s (80 + 32 * n.val + 28)) 31 then updHce s n (fun k => { k with armed := true }) else s) s2
  setLock (setLock s3 psuBase) hceBase

/-- A trim table of the option area: 16 signed words of 2 bytes. -/
def trimTable (s : State) (off : Nat) : List Int := (List.range 16).map (fun i => signed 16 (leAt s.nor.shadow (off + 2 * i) 2))

/-! ### Slots and boot control (R529 to R532) -/

/-- The first address of a slot: A or B. -/
def slotBase (b : Bool) : Nat := if b then 0x3040000 else 0x40000

/-- The slot record's sector. -/
def slotRecAddr (b : Bool) : Nat := if b then 0x2000 else 0x1000

/-- A slot's record. -/
def slotRecord (n : Nor) (b : Bool) : Bytes := norRead n (slotRecAddr b) 96

/-- A slot's manifest. -/
def manifest (n : Nor) (b : Bool) : Bytes := norRead n (slotBase b) 4096

/-- Whether a slot's record is valid (R530). -/
def recordValid (n : Nor) (b : Bool) : Bool :=
  let r := slotRecord n b
  leAt r 0 4 == 0x44524C53 && leAt r 4 1 == (if b then 1 else 0) && leAt r 92 4 == (Hash.crc32c (r.take 92)).toNat
    && slice r 16 48 == Crypto.sha384 ((manifest n b).take 288)

/-- The checks of R366 on a slot's manifest and image. -/
def imageOk (n : Nor) (b : Bool) : Bool :=
  let m := manifest n b
  let key := leAt m 6 1
  let len := leAt m 24 4
  leAt m 0 4 == 0x464D4B53 && leAt m 4 2 == 1 && decide (key < 4) && !n.revoke.testBit key && decide (1 ≤ len ∧ len ≤ 50327552)
    && n.rootHash.getD key [] == Crypto.sha384 (slice m 80 97)
    && Crypto.ecdsaVerify (slice m 80 97) (Crypto.sha384 (m.take 192)) (slice m 192 96)
    && slice m 32 48 == Crypto.sha384 (norRead n (slotBase b + 4096) len)
    && decide (n.svn ≤ leAt m 8 1)

/-- A valid slot (R530). -/
def slotValid (n : Nor) (b : Bool) : Bool := recordValid n b && imageOk n b

/-- Reads a boot-control entry: its SEQ and what it says; none for a bad CRC or another type (R531). -/
def bootEntryOf (b : Bytes) : Option (Nat × BootEntry) :=
  if leAt b 0 1 = 0 ∨ 3 < leAt b 0 1 then none
  else if leAt b 12 4 ≠ (Hash.crc32c (b.take 12)).toNat then none
  else
    let slot := leAt b 1 1 == 1
    some (leAt b 4 4, match leAt b 0 1 with
      | 1 => .active slot
      | 2 => .start slot (leAt b 2 1)
      | _ => .confirm slot)

/-- The bytes of a boot-control entry. -/
def bootEntryBytes (seq : Nat) (e : BootEntry) : Bytes :=
  let f := match e with
    | .active b => (1, b, 0)
    | .start b c => (2, b, c)
    | .confirm b => (3, b, 0)
  let b := leBytes 1 f.1 ++ leBytes 1 (if f.2.1 then 1 else 0) ++ leBytes 1 f.2.2 ++ [0] ++ leBytes 4 seq ++ zeros 4
  b ++ leBytes 4 (Hash.crc32c b).toNat

/-- The entries of a boot-control sector, with their places. -/
def bootEntriesIn (n : Nor) (base : Nat) : List (Nat × Nat × BootEntry) :=
  (List.range 256).filterMap (fun i => (bootEntryOf (norRead n (base + 16 * i) 16)).map (fun e => (i, e.1, e.2)))

/-- All entries of boot control, with their SEQ. -/
def bootEntries (n : Nor) : List (Nat × BootEntry) :=
  (bootEntriesIn n 0x3000 ++ bootEntriesIn n 0x4000).map (fun e => e.2)

/-- Whether an entry is ACTIVE. -/
def isActive : BootEntry → Bool
  | .active _ => true
  | _ => false

/-- The newest ACTIVE entry. -/
def newestActive (n : Nor) : Option (Nat × BootEntry) :=
  argMax (fun p : Nat × BootEntry => p.1) ((bootEntries n).filter (fun p => isActive p.2))

/-- The slot that an entry names. -/
def entrySlot : BootEntry → Bool
  | .active b => b
  | .start b _ => b
  | .confirm b => b

/-- Whether a CONFIRM for a slot follows a SEQ. -/
def confirmedAfter (n : Nor) (seq : Nat) (slot : Bool) : Bool :=
  (bootEntries n).any (fun p => decide (seq < p.1) && p.2 == .confirm slot)

/-- Whether a START for a slot follows a SEQ. -/
def startedAfter (n : Nor) (seq : Nat) (slot : Bool) : Bool :=
  (bootEntries n).any (fun p => decide (seq < p.1) && (match p.2 with
    | .start b _ => b == slot
    | _ => false))

/-- The next SEQ. -/
def bootSeq (n : Nor) : Nat := ((bootEntries n).map (fun p => p.1 + 1)).foldl max 0

/-- The sector that entries are appended in: the one with the newest entry. -/
def bootSector (n : Nor) : Nat :=
  let top (b : Nat) : Nat := ((bootEntriesIn n b).map (fun e => e.2.1 + 1)).foldl max 0
  if top 0x3000 < top 0x4000 then 0x4000 else 0x3000

/-- The first erased place of a sector. -/
def bootRoom (n : Nor) (base : Nat) : Option Nat :=
  (List.range 256).find? (fun i => (norRead n (base + 16 * i) 16).all (· == 0xFF))

/-- Writes one entry at a place. -/
def bootPut (n : Nor) (base i : Nat) (e : BootEntry) : Nor := norWrite n (base + 16 * i) (bootEntryBytes (bootSeq n) e)

/-- Appends a boot-control entry; a full sector gives way to the other one, erased, with the newest ACTIVE entry and the
CONFIRM that follows it (R531). -/
def bootAppend (n : Nor) (e : BootEntry) : Nor :=
  let base := bootSector n
  match bootRoom n base with
  | some i => bootPut n base i e
  | none =>
    let other := if base = 0x3000 then 0x4000 else 0x3000
    let m := norEraseSpan n (other / 0x1000)
    match newestActive n with
    | none => bootPut m other 0 e
    | some (seq, a) =>
      let m1 := bootPut m other 0 a
      if confirmedAfter n seq (entrySlot a) then bootPut (bootPut m1 other 1 (.confirm (entrySlot a))) other 2 e
      else bootPut m1 other 1 e

/-- The running slot of the newest ACTIVE entry is on trial (R532, R546). -/
def onTrial (n : Nor) : Bool :=
  match newestActive n with
  | none => !(bootEntries n).any (fun p => p.2 == .confirm false)
  | some (seq, a) => !confirmedAfter n seq (entrySlot a)

/-- What choose_slot comes to. -/
structure Chosen where
  nor  : Nor
  slot : Option Bool
  fell : Bool
deriving DecidableEq, Repr

/-- choose_slot(cause) of R532. -/
def chooseSlot (n : Nor) (cause : Nat) : Chosen :=
  let act := newestActive n
  let a := (act.map (fun p => entrySlot p.2)).getD false
  let seq := (act.map (fun p => p.1)).getD 0
  let trial := match act with
    | none => !(bootEntries n).any (fun p => p.2 == .confirm a)
    | some _ => !confirmedAfter n seq a
  let started := match act with
    | none => (bootEntries n).any (fun p => match p.2 with
      | .start b _ => b == a
      | _ => false)
    | some _ => startedAfter n seq a
  let back := trial && (started || cause == 3) && slotValid n (!a)
  let a1 := if back then !a else a
  let n1 := if back then bootAppend (bootAppend n (.active a1)) (.confirm a1) else n
  if slotValid n1 a1 then { nor := bootAppend n1 (.start a1 cause), slot := some a1, fell := back }
  else if slotValid n1 (!a1) then
    let n2 := bootAppend (bootAppend n1 (.active (!a1))) (.confirm (!a1))
    { nor := bootAppend n2 (.start (!a1) cause), slot := some (!a1), fell := true }
  else { nor := n1, slot := none, fell := back }

/-! ### Settings of a die at a start -/

/-- The live records of the configuration journal. -/
def live (s : State) : List CjBody := cjLive s.nor.journal

/-- Erases key records (R364, R545): those of types 0x02 to 0x05. -/
def isKeyRecord : CjBody → Bool
  | .keyAuth _ _ => true
  | .keyData _ _ _ _ => true
  | .keyXts _ _ _ => true
  | .ctrBound _ _ _ _ => true
  | _ => false

/-- Whether a record governs its key (R544). -/
def governs (l : List CjRec) (r : CjRec) : Bool := !r.deleted && !l.any (fun q => decide (r.seq < q.seq) && cjSame q.body r.body)

/-- The journal sectors that hold key records. -/
def keySectors (n : Nor) : List Nat := ((n.journal.filter (fun r => isKeyRecord r.body)).map (fun r => r.sector)).eraseDups

/-- The governing records of those sectors that a purge keeps. -/
def purgeCopies (n : Nor) : List CjRec :=
  n.journal.filter (fun r => (keySectors n).contains r.sector && !isKeyRecord r.body && governs n.journal r)

/-- A purge copies the other records to a fresh sector and erases every sector that holds a key record (R545). -/
def purgeJournal (n : Nor) : Nor :=
  if (keySectors n).isEmpty then n
  else
    let m := { cjOpen n (cjNext n.cjHead) with cjErased := n.cjErased - 1 }
    let k := (purgeCopies n).foldl (fun m r => cjAppend m r.body false) m
    (keySectors n).foldl (fun m k => { norEraseSpan m (32 + k) with cjErased := m.cjErased + 1 }) k

/-- A purge: the key records are gone, PURGE is cleared, and only tenant 0 can open a session until a FORMAT (R364). -/
def purgeKeys (s : State) : State :=
  norCount { s with
    nor := purgeJournal s.nor
    guard := { s.guard with purge := false }
    pkg := { s.pkg with purged := true } } (purgeCopies s.nor).length (keySectors s.nor).length

/-- The provisioning key of R334, unwrapped. -/
def provisioningKey (s : State) : Option Bytes :=
  let w := slice s.nor.shadow 2416 40
  Crypto.kwUnwrap (storeKey s) (if w.all (· == 0) then s.nor.mfgKey else w)

/-- Loads one key record into a die (R344). -/
def loadKeyRec (s : State) (d : DieId) (c : Cry) (b : CjBody) : Cry :=
  match b with
  | .keyAuth t w => match Crypto.kwUnwrap (storeKey s) w with
    | some k => loadAuth c t k
    | none => c
  | .keyData t g w st => match Crypto.kwUnwrap (storeKey s) w with
    | some k => loadDataAs c t g k (ctrBoundOf s d t g) st
    | none => c
  | .keyXts t n w => match Crypto.kwUnwrap (storeKey s) w with
    | some k => loadXts c t n k (ctrBoundOf s d t (256 + n))
    | none => c
  | _ => c

/-- Loads every key of the journal into a die under a fresh K_MASK, and the provisioning key when tenant 0 has no key of its
own (R334, R343, R344). -/
def loadKeys (s : State) (d : DieId) : State :=
  let r := drawBytes s 32
  let c1 := (live s).foldl (loadKeyRec s d) { (r.2.die d).cry with kmask := r.1 }
  let c2 := if (live s).any (fun b => match b with
      | .keyAuth t _ => t == 0
      | _ => false) then c1
    else match provisioningKey s with
      | some k => loadAuth c1 0 k
      | none => c1
  r.2.updDie d (fun x => { x with cry := c2 })

/-- Tenants of the journal; tenant 0 has its default without a record (R333, R334). -/
def loadTenants (s : State) : List Tenant :=
  let l := (live s).filterMap (fun b => match b with
    | .tenantCtx t => some t
    | _ => none)
  if l.any (fun t => t.id == 0) then l else tenantZero :: l

/-- Rule entries of the journal that lie on a die (R175, R544): the global index is die × 65,536 + index. -/
def loadRules (s : State) (d : DieId) : List CombEntry :=
  (live s).filterMap (fun b => match b with
    | .rule i v c p r => if i / 65536 = d.val then
        some { idx := i % 65536, val := v, care := c, prio := p, res := r, valid := true, refd := false } else none
    | _ => none)

/-- The address slots of a port: from the journal, and the bootstrap address for die 0 port 0 without a slot-0 record
(R527). -/
def loadSlots (s : State) (d : DieId) (p : PortId) : List AddrSlot :=
  let mk (k : Nat) (cfg : Word) (data : BitVec 128) : AddrSlot :=
    { slot := k, valid := bitAt cfg 31, v6 := bitAt cfg 30, tagged := bitAt cfg 29, vid := fld cfg 11 0, data := data, next := data }
  let l := (live s).filterMap (fun b => match b with
    | .portAddr e q k cfg data => if e = d.val ∧ q = p.val then some (mk k cfg data) else none
    | _ => none)
  if d = 0 ∧ p = 0 ∧ l.any (fun a => a.slot == 0) = false then
    mk 0 (optWord s 1768)
      (BitVec.ofNat 128 (leAt s.nor.shadow 1752 4 * 2 ^ 96 + leAt s.nor.shadow 1756 4 * 2 ^ 64 + leAt s.nor.shadow 1760 4 * 2 ^ 32
        + leAt s.nor.shadow 1764 4)) :: l
  else l

/-- The receive filters of the option area (R526, R527). -/
def loadFilters (s : State) : List Filter :=
  (List.range 32).map (fun i =>
    { idx := i, matchA := optWord s (1776 + 12 * i), matchB := optWord s (1780 + 12 * i), act := optWord s (1784 + 12 * i) })

/-- A port's settings: MAC, addresses, filters, queues (R526, R527). -/
def portSettings (s : State) (d : DieId) (p : PortId) : State :=
  let mac := leAt s.nor.shadow 1744 6 + d.val * 2 + p.val
  let base := dreg d (Page.eth p) 0
  let s1 := regSet (regSet s (base + 0x44) (BitVec.ofNat 32 mac)) (base + 0x48) (BitVec.ofNat 32 (mac / 2 ^ 32 % 65536))
  let s2 := (List.range 64).foldl (fun s i => putWord s (base + 0x100 + 4 * i) (optWord s (2160 + 4 * i))) s1
  s2.updDie d (fun x =>
    let q := x.ports.get p
    { x with ports := vset x.ports p { q with slots := loadSlots s d p, filters := loadFilters s } })

/-- The retry tables of the option area: the last 1,024 bytes of the NAND descriptor, one mode after the other (log 60). -/
def retryTable (s : State) : List (Nat × Word) :=
  ((List.range 256).map (fun i =>
    (i / 128 * 256 + i % 128 / 4 * 8 + i % 4, optWord s (720 + 4 * i)))).filter (fun p => p.2 != 0)

/-- The flash interface words of the option area on every channel, and the LDC rates with their lock (R271, R526). -/
def flashSettings (s : State) (d : DieId) : State :=
  let s1 := ([0, 1, 2, 3, 4, 5, 6, 7] : List ChanId).foldl (fun s c =>
    ([(0x40, 464), (0x44, 468), (0x48, 472), (0x58, 476)] : List (Nat × Nat)).foldl (fun s p =>
      putWord s (dreg d (Page.fch c) p.1) (optWord s p.2)) s) s
  let s2 := (live s).foldl (fun s b => match b with
    | .ldcRates v => regSet s (dreg d Page.ldc 0x40) v
    | _ => s) s1
  (setLock s2 (dreg d Page.ldc 0)).updDie d (fun x => { x with flash := { x.flash with retry := retryTable s } })

/-- The pages of a controller die whose blocks take work. -/
def workPages : List Nat :=
  [Page.pwr, Page.thm, Page.icu, Page.evr, Page.lat, Page.mtr, Page.eth 0, Page.eth 1, Page.ktp, Page.csq, Page.cmb, Page.map,
   Page.fgr, Page.fch 0, Page.fch 1, Page.fch 2, Page.fch 3, Page.fch 4, Page.fch 5, Page.fch 6, Page.fch 7, Page.ldc, Page.mov,
   Page.cry, Page.dmc, Page.bpm, Page.wrk, Page.swm 0, Page.swm 1, Page.swm 2, Page.fwu, Page.wgl]

/-- Firmware enables the blocks of a die that starts (R48, log 61). -/
def enableBlocks (s : State) (d : DieId) : State := workPages.foldl (fun s p => regFld s (dreg d p 8) 0 0 1) s

/-- A die loads its settings (step 8 of R535): keys, tenants, rules, trims, DRAM, flash, ports. -/
def dieSettings (s : State) (d : DieId) : State :=
  let s1 := (loadKeys s d).updDie d (fun x => { x with
    phase := .up
    tenants := loadTenants s
    comb := { x.comb with entries := loadRules s d }
    dmc := { x.dmc with st := 2 }
    swm := Vector.ofFn (fun k => { st := if partnerOf d k < partDies s.part then .training else .down })
    thm := { x.thm with oscTab := trimTable s 208, bgTab := trimTable s 240, loaded := true } })
  let s2 := flashSettings (putWord s1 (dreg d Page.dmc 0x40) (optWord s 336)) d
  enableBlocks (portSettings (portSettings s2 d 0) d 1) d

/-! ### Starting the controller dies -/

/-- The dies that a start releases from reset: not one fenced during the start (R568). -/
def startDies (s : State) : List DieId := allDies.filter (fun d => present s d && decide ((s.die d).phase ≠ .fenced))

/-- Counts BOOT at a cold start (R374). -/
def countBoot (s : State) : State :=
  let n := ((live s).foldl (fun n b => match b with
    | .boot k => k
    | _ => n) 0) + 1
  let s1 := journalPut s (.boot n)
  { s1 with mtr := { s1.mtr with boot := n } }

/-- Wall marks of the configuration journal. -/
def wallMarks (s : State) : List Int := (live s).filterMap (fun b => match b with
  | .clockOffset _ m => some m
  | _ => none)

/-- The event number of a warm reset's cause (R399). -/
def causeNum : WarmCause → Nat
  | .resetN => 1
  | .resetDevice => 2
  | .die0Fault => 3
  | .alarm => 4
  | .lossRestart => 5

/-- Every die's copy of die 0's master placement table (R144, R216). -/
def takePlacement (s : State) : State :=
  overDies (fun s d => s.updDie d (fun x => { x with comb := { x.comb with
    placement := s.pkg.placement.map toCombPlace
    epoch := s.pkg.epoch } })) s (startDies s)

/-- Minutes at a start: the spilled ones are sealed, under the BOOT in which they were counted (log 140); a cold start then
takes the minute and the wall time from what is recorded, any other goes on from device time (R376, R377, R389). -/
def startMinutes (s : State) (cold : Bool) (was : Nat) : State :=
  let s1 := restartMinutes { s with mtr := { s.mtr with boot := was } }
  let s2 : State := { s1 with mtr := { s1.mtr with boot := s.mtr.boot } }
  let s3 := if cold then coldMinutes s2 (wallMarks s2) else s2
  { s3 with mtr := { s3.mtr with enabledIn := enabledTenants (s3.die 0), opened := true } }

/-- What a start records: as events on die 0 its cause and the KiB flushed after a loss (R399), and after an alarm CRY INT bit
1 of every die (R371). -/
def startEvents (s : State) (cause : Nat) : State :=
  let s1 := if cause = 0 then s else recordEvent s 0 0x05 cause
  if cause = 5 then recordEvent s1 0 0x02 s.guard.psu.flushKb
  else if cause = 4 then overDies (fun s d => raiseInt s (dreg d Page.cry 0) 1) s1 (startDies s1)
  else s1

/-- Steps 6 to 9 of R535 once a slot has been chosen. -/
def startUp (s : State) (cold : Bool) (cause : Nat) (slot fell : Bool) : State :=
  let s1 := { s with nor := { s.nor with running := slot, pe := true, bootFault := false, cause := cause, kicked := false } }
  let s2 := if fell then raiseInt s1 (dreg 0 Page.fwu 0) 3 else s1
  let s3 := if cold then countBoot s2 else s2
  let s4 := overDies dieSettings s3 (startDies s)
  let s5 := overDies identifyLuns (overDies mountDie s4 (startDies s)) (startDies s)
  let s6 := startEvents (startMinutes (takePlacement s5) cold s.mtr.boot) cause
  let s7 := { s6 with draws := s6.draws + 1, pkg := { s6.pkg with
    starting := false
    clockFault := Config.clockFails s6.draws
    mountedAt := if (startDies s).all (fun d => (s6.die d).map.mounted) then some s.guard.devTime else none } }
  shareLimit s7 s7.guard.psu.limit

/-- BOOT_FAULT: die 0's boot ROM has set it and stops; dies 1 and up stay in reset (R526, R532). -/
def bootStop (s : State) : State :=
  let s1 := s.updDie 0 (fun x => { x with phase := .refused })
  { s1 with nor := { s1.nor with bootFault := true }, pkg := { s1.pkg with starting := false } }

/-- The start from step 4 of R535: the option area, on a cold start the guard's words, its trims and locks, a pending purge, the slot,
and then the dies. A bad option area or no valid slot sets BOOT_FAULT and stops (R526, R532). -/
def startPackage (s : State) (cold : Bool) (cause : Nat) : State :=
  let s1 := optLoad s
  if !s1.nor.optOk then bootStop s1
  else
    let s2 := if cold then guardWords s1 else s1
    let s3 := if s2.guard.purge then purgeKeys s2 else s2
    let s4 := if cold then
        { s3 with guard := { s3.guard with thm := { s3.guard.thm with bgTab := trimTable s3 272, loaded := true } } }
      else s3
    let c := chooseSlot s4.nor cause
    match c.slot with
    | none => bootStop { s4 with nor := c.nor }
    | some b => startUp { s4 with nor := c.nor } cold cause b c.fell

/-- The controller dies and the NOR controller enter reset: windows 0 to 7 and 0xE take their reset values, a running NOR
operation has finished before (R11, R525). NOR_PROGS and NOR_ERASES count since the cold reset (R546, log 84). -/
def enterReset (s : State) : State :=
  let s1 := overDies (fun s d => resetDie s d .reset) (norOpDone (cutMinute s)) allDies
  let s2 := regsDrop s1 (fun a => winOf a == 0xE && a != nreg 0x84 && a != nreg 0x88)
  { s2 with
    nor := { s2.nor with pe := false, optWe := false, dlOn := false, dlGot := 0, dlLen := 0 }
    latch := s2.latch.filter (fun p => !inWindow 0xE p)
    heldLo := s2.heldLo.filter (fun p => !inWindow 0xE p)
    pkg := { s2.pkg with
      act := {}
      keysOut := false
      resetPend := false
      lims := List.replicate 8 none
      demand := List.replicate 8 0
      pkgF := 256
      entropyFail := false
      starting := true }
    wgl := { ({} : Waggle) with lockout := s2.wgl.lockout, fails := s2.wgl.fails } }

/-- Leaves step 5 of R536 unless RESET_N is held low (R537, R568). -/
def leaveReset (s : State) (cold : Bool) (cause : Nat) : State :=
  let s1 := { s with pkg := { s.pkg with starting := true, startCold := cold, startWhy := cause } }
  if s.guard.resetLow then s1 else startPackage s1 cold cause

/-- Whether a warm reset trigger has no effect: in OFF, under the holds of R16 and R363, in a power-loss sequence
(R324, R537). -/
def resetBlocked (s : State) : Bool :=
  s.guard.off || s.guard.die0Hold || s.guard.alarmHold || s.guard.losing

/-- Steps 2 and 3 of R536 on every die that runs: the sessions end, writes past the media point finish, and the rings are flushed
(R101, R131, R326). -/
def stopAll (s : State) : State :=
  overDies (fun s d => flushDie (finishWrites s d) d) (overDies endAll s (upDies s)) (upDies s)

/-- A warm reset (R536): the sessions end (R101), flush, reset, start. A trigger while a start is held at step 4 is absorbed (R568). -/
def warmReset (s : State) (cause : Nat) : State :=
  if resetBlocked s || s.pkg.starting then s
  else
    let s := { s with guard := { s.guard with deep := false, entry := 0 } }
    let s1 := stopAll s
    leaveReset (enterReset { s1 with guard := { s1.guard with deep := false, shutting := false, thermHold := false, alarmSrc := [] } })
      false cause

/-- A trigger on RESET_N: a pulse below 100 ns is ignored, one of 1 µs or more resets; between them the spec leaves the
device free (R536, R537, log 62). -/
def resetPulse (s : State) (lowNs : Nat) : State :=
  if lowNs < 100 then s
  else
    let r := if lowNs < 1000 then drawChoice s else (1, s)
    if r.1 % 2 = 0 then r.2
    else warmReset { r.2 with guard := { r.2.guard with resetLow := true } } 1

/-- WARM_RESET: the pin, RESET_DEVICE once it has replied, and the other triggers of R536. -/
def execWarmReset (cause : WarmCause) (lowNs : Nat) (s : State) : Out :=
  .next (match cause with
    | .resetN => if resetBlocked s then s else resetPulse s lowNs
    | .resetDevice => if s.pkg.resetPend then warmReset s 2 else s
    | .lossRestart => s
    | c => warmReset s (causeNum c))

/-- RESET_N_RELEASE: the start goes on from step 4 of R535 (R537). -/
def execResetNRelease (s : State) : Out :=
  .next (if s.guard.resetLow then
      let s1 := { s with guard := { s.guard with resetLow := false } }
      if s.pkg.starting then startPackage s1 s.pkg.startCold s.pkg.startWhy else s1
    else s)

/-- Rails that the part has: the shared ones and a core rail for each present die (R548). -/
def railUsed (s : State) (n : Fin 16) : Bool := decide (n.val < 5) || (decide (8 ≤ n.val) && decide (n.val - 8 < partDies s.part))

/-- Step 3 of R535: the outputs are on (R549). -/
def railsOn (s : State) : State :=
  { s with guard := { s.guard with rails := Vector.ofFn (fun n => { s.guard.rails.get n with on := railUsed s n }) } }

/-- A loss that ends in a hold of R16 or R363: VIN is back, the rails are on again and the bank charges, and the controller dies
stay in reset, for only a cold reset ends such a hold (R16, R363, R537). -/
def endLoss (s : State) : State :=
  let s1 := { s with guard := { s.guard with losing := false, lossDone := false } }
  slotSwitch (slotSwitch (updPsu (railsOn s1) (fun p => { p with orOn := true, bank := .charging })) 0 true) 1 true

/-- LOSS_RESTART: VIN has stayed above VIN_OK after step 9; the warm reset sequence runs from step 3, slot 0 recharges the
bank (R324, R536). -/
def lossRestart (s : State) : State :=
  leaveReset (enterReset (endLoss s)) false 5

/-- LOSS_RESTART. -/
def execLossRestart (s : State) : Out :=
  .next (if s.guard.losing && s.guard.lossDone && !s.guard.off then
      (if s.guard.die0Hold || s.guard.alarmHold then endLoss s else lossRestart s)
    else s)

/-- What of a die outlasts the loss of every supply: its flash, the tenants' hash keys (log 52), spilled metering records. -/
def coldDie (x : Die) : Die :=
  let y := freshDie x
  { y with
    mon := { ({} : Monitor) with spill := x.mon.spill }
    mem := []
    flash := { y.flash with lastRsv := 0 }
    thm := {}
    cores := Vector.replicate 8 {} }

/-- The state at power-on: State.reset with what is stored on flash, in the NOR and in the fuses; PURGE outlasts until the
boot ROM has erased the keys (R364, log 63). -/
def powerOn (s : State) : State :=
  { State.reset with
    part := s.part
    dies := s.dies.map coldDie
    nor := { ({} : Nor) with
      array := s.nor.array
      journal := s.nor.journal
      cjSeq := s.nor.cjSeq
      cjHead := s.nor.cjHead
      cjAt := s.nor.cjAt
      cjSectors := s.nor.cjSectors
      cjErased := s.nor.cjErased
      rootHash := s.nor.rootHash
      revoke := s.nor.revoke
      svn := s.nor.svn
      secret := s.nor.secret
      dbgLock := s.nor.dbgLock
      mfgKey := s.nor.mfgKey
      unitId := s.nor.unitId }
    guard := { State.reset.guard with purge := s.guard.purge, resetLow := s.guard.resetLow }
    pkg := { State.reset.pkg with purged := s.pkg.purged, nextCid := s.pkg.nextCid, partBlocks := s.pkg.partBlocks,
                                  lunsBad := s.pkg.lunsBad }
    mtr := { (cutMinute s).mtr with carry := [] }
    draws := s.draws
    pending := s.pending }

/-- COLD_RESET: power-on, the rails, the start (R535). -/
def execColdReset (s : State) : Out := .next (leaveReset (railsOn (powerOn s)) true 0)

/-! ### Die 0's faults and the package watchdog (R16, R542, R568) -/

/-- A fault of die 0: a warm reset, or the hold when the last one lies less than 10 minutes back (R16). -/
def die0Fault (s : State) : State :=
  if resetBlocked s then s
  else
    let s1 := { s with guard := { s.guard with die0At := some s.guard.devTime } }
    let again := match s.guard.die0At with
      | none => false
      | some t => decide (s.guard.devTime - t < 600000000000)
    if again then
      let s2 := enterReset (stopAll s1)
      { s2 with guard := { s2.guard with die0Hold := true }, pkg := { s2.pkg with starting := false } }
    else warmReset { s1 with pkg := { s1.pkg with starting := false } } 3

/-- DIE0_FAULT. -/
def execDie0Fault (s : State) : Out := .next (die0Fault s)

/-- Whether the package watchdog runs: not while a core of die 0 is halted, in DEEP or its entry, in an orderly shutdown
(R542). -/
def wdtRuns (s : State) : Bool :=
  !s.guard.deep && !s.guard.shutting && (s.die 0).phase == .up && (s.die 0).cores.toList.all (fun c => c.st != .halted)

/-- PACKAGE_WDT_EXPIRY: a die 0 fault. -/
def execPackageWdtExpiry (s : State) : Out := .next (if wdtRuns s then die0Fault s else s)

/-- A kick of the package watchdog: only die 0's worker cores kick (R542). -/
def wdtKick (s : State) (r : Requester) : State :=
  if r = .cores 0 then updPsu { s with nor := { s.nor with kicked := true } } (fun p => { p with wdog := true }) else s

/-- PSU_WDT_KICK. -/
def execPsuWdtKick (r : Requester) (s : State) : Out := .next (byReq s r (fun s => rowWrite s (greg Page.psu 0x1C4) 1 (fun s => wdtKick s r)))

/-! ### Confirmation, SVN and the journal -/

/-- FW_CONFIRM: 10 minutes of device time after every die has mounted, without a fault of die 0 (R533). -/
def execFwConfirm (s : State) : Out :=
  .next (onDie s 0 (fun s =>
    match s.pkg.mountedAt with
    | none => s
    | some t =>
      let since := match s.guard.die0At with
        | none => t
        | some u => max t u
      if onTrial s.nor && decide (600000000000 ≤ s.guard.devTime - since) then
        norCount { s with nor := bootAppend s.nor (.confirm s.nor.running) } 1 0
      else s))

/-- SVN_COMMIT: a COMMIT manifest whose firmware has mounted on every die (R368). -/
def execSvnCommit (s : State) : Out :=
  .next (onDie s 0 (fun s =>
    let m := manifest s.nor s.nor.running
    if s.pkg.mountedAt.isSome && (leAt m 7 1).testBit 0 then
      { s with nor := { s.nor with svn := max s.nor.svn (min 64 (leAt m 8 1)) } }
    else s))

/-- The oldest journal sector in use: the first after the erased ones that follow the head. -/
def cjOldest (n : Nor) : Nat := 385 + (n.cjHead - 385 + n.cjErased + 1) % 126

/-- The oldest sector's governing records go to the head, and the sector is erased (R545). -/
def journalCompact (n : Nor) : Nor :=
  let k := cjOldest n
  let m := (n.journal.filter (fun r => r.sector == k && governs n.journal r)).foldl (fun m r => cjAppend m r.body false) n
  { norEraseSpan m (32 + k) with cjErased := m.cjErased + 1 }

/-- JOURNAL_COMPACT: with fewer than 4 erased sectors, and not during an activation (R541, R545). -/
def execJournalCompact (s : State) : Out :=
  .next (onDie s 0 (fun s => if s.nor.cjErased < 4 ∧ s.pkg.act.on = false then
      norCount { s with nor := journalCompact s.nor }
        (s.nor.journal.filter (fun r => r.sector == cjOldest s.nor && governs s.nor.journal r)).length 1
    else s))

end Sys2Proof.Machine
end

