-- ==== Sys2Proof/Machine/Faults.lean ====
section
/-! DEFINITION. Worker cores and their fencing (R459 to R462), die faults, die resets and the fencing of a die (R21, R145,
R463 to R465, R568), and broken map-page locks (R199). -/
namespace Sys2Proof.Machine
open Sys2Proof

/-! ### Stopping a die -/

/-- The commands that other dies have sent to a die. -/
def foreignCmds (x : Die) (d : DieId) : List Cmd := (x.csq.inbox ++ x.csq.cmds).filter (fun c => c.home != d)

/-- The commands that other dies have for a die: sent to it, waiting to go to it, or done there with the reply held back. -/
def sentTo (s : State) (d : DieId) : List Cmd :=
  foreignCmds (s.die d) d ++ (allDies.flatMap (fun e => outCmds (s.die e))).filter (fun c => c.owner == d)
    ++ (outReplies (s.die d)).filter (fun c => c.home != d)

/-- The barriers that wait to go to a die. -/
def barriersFor (s : State) (d : DieId) : List Barrier :=
  allDies.flatMap (fun e => (s.die e).out.filterMap (fun m => match m with
    | .barrier f b => if f = d then some b else none
    | _ => none))

/-- The barriers of a die that stops reach the others over the guard link (R21). -/
def guardBarriers (s : State) (d : DieId) : State :=
  (s.die d).out.foldl (fun s m => match m with
    | .barrier e b => if e = d then s else giveBarrier s e b
    | _ => s) s

/-- The arrival dies answer the commands that they have sent to a die that stops (R465), and nothing waits to go to it or from
it. -/
def handBack (s : State) (d : DieId) (status : Cmd → Nat) : State :=
  let l := sentTo s d
  let s1 := (guardBarriers s d).updDie d (fun x => { x with
    out := []
    csq := { x.csq with
      inbox := []
      cmds := x.csq.cmds.filter (fun c => c.home == d) } })
  let s2 := overDies (fun s e => s.updDie e (fun x => { x with out := x.out.filter (fun m => crossTo m != d) })) s1 allDies
  l.foldl (fun s c => finish s c (status c) 0 0 0 []) s2

/-- How a die that stops settles a FLUSH that waits for it (R129, R464, R513): it has flushed, its marked writes are lost, or it is
fenced before it confirms. -/
inductive FlushEnd where
  | flushed
  | lost
  | offline
deriving DecidableEq, Repr

/-- A FLUSH that waits for a die, as the die leaves it: one that has nothing marked loses nothing. -/
def endFlush (how : FlushEnd) (wids : List Nat) (c : Cmd) : Cmd :=
  match how with
  | .flushed => c
  | .lost => { c with failed := c.failed || !wids.isEmpty }
  | .offline => { c with offline := true }

/-- A FLUSH counts as settled by a die. -/
def settleFlush (s : State) (d home : DieId) (cid : Nat) (how : FlushEnd) (wids : List Nat) : State :=
  match cmdOf (s.die home) cid with
  | none => s
  | some c => flushConfirmed (putCmd s home (endFlush how wids c)) home cid d

/-- One barrier counts as acted on by a die. -/
def confirmBarrier (d : DieId) (how : FlushEnd) (wids : List Nat) (s : State) (b : Barrier) : State :=
  match b with
  | .terminate home slot gen => actTerminate s d home slot gen
  | .reset home slot gen cid => actReset s d home slot gen cid
  | .flush home cid => settleFlush s d home cid how wids

/-- Every barrier at a die that stops counts as acted on; a flush barrier not yet acted on would have marked every write that
the die has acknowledged (R128, R513). -/
def confirmBarriers (s : State) (d : DieId) (how : FlushEnd) (acked : List Nat) (due : List Barrier) : State :=
  let x := s.die d
  let s1 := s.updDie d (fun x => { x with csq := { x.csq with barriers := [], marks := [] } })
  x.csq.marks.foldl (fun s m => settleFlush s d m.1 m.2.1 how (m.2.2.filter (fun w => x.map.ring.any (fun r => r.wid == w)))) ((x.csq.barriers ++ due).foldl (confirmBarrier d how acked) s1)

/-! ### Holding links -/

/-- A credit reclaim of a link (R477, R491): every credit is back, and the link is held. -/
def reclaimLink (s : State) (d : DieId) (k : SwmId) : State :=
  raiseInt (regBump (updLink s d k (fun q => { q with reqCred := 64, rspCred := 64, held := true })) (swmBase d k + 0x90) 1)
    (swmBase d k) 2

/-- Step 4 of R464: a neighbour holds its link to a die, reclaims the credits and sweeps the port's owner. -/
def holdLink (d : DieId) (s : State) (k : SwmId) : State :=
  let e := dieOf (partnerOf d k)
  if running s e then sweepDone (sweepOwner (reclaimLink s e k) e (Owner.swarm k).id) e else s

/-- The neighbours of a die hold their links to it. -/
def holdLinks (s : State) (d : DieId) : State := allLinks.foldl (holdLink d) s

/-- Steps 2 to 4 of R464: the die stops, its sessions end, the commands sent to it are answered, it flushes unless its core
rail has failed, when the writes of its ring are left off flash (R220, R465), and the neighbours hold their links. -/
def stopDie (s : State) (d : DieId) (status : Cmd → Nat) (flush fence : Bool) : State :=
  let s0 := endAll s d
  let s1 := handBack s0 d status
  let s2 := if flush then flushDie s1 d else loseRing s1 d
  holdLinks (confirmBarriers s2 d (if fence then .offline else if flush then .flushed else .lost) (unflushed (s.die d))
    (barriersFor s0 d)) d

/-! ### Fencing a die -/

/-- OFFLINE in the entries of a placement table that name a die: bit 7 in the master table, bit 3 in a die's copy
(R144, R145, R216). -/
def offline (mark : Nat) (d : DieId) (l : List Nat) : List Nat :=
  l.map (fun e => if e % 8 = d.val ∧ e < 8 then e + mark else e)

/-- R145: OFFLINE in every copy, and a new epoch. -/
def placeOffline (s : State) (d : DieId) : State :=
  let s1 := { s with pkg := { s.pkg with placement := offline 128 d s.pkg.placement, epoch := s.pkg.epoch + 1 } }
  overDies (fun s e => s.updDie e (fun x => { x with comb := { x.comb with
    placement := offline 8 d x.comb.placement
    epoch := s1.pkg.epoch } })) s1 allDies

/-- A neighbour's link to a fenced die counts as retired (R18). -/
def retireFacing (d : DieId) (s : State) (k : SwmId) : State :=
  let e := dieOf (partnerOf d k)
  if running s e && (linkOf (s.die e) k).st != .retired then
    raiseInt (updLink s e k (fun q => { q with st := .retired })) (swmBase e k) 1
  else s

/-- A waiting message reaches its die. -/
def deliverOut (s : State) (m : Crossing) : State :=
  match m with
  | .command c => giveCmd s c
  | .barrier e b => giveBarrier s e b
  | .reply c status aux version objLen data => finish s c status aux version objLen data

/-- A waiting message goes when its route is clear and no older one for the same die waits (R19). -/
def releaseOne (d : DieId) (s : State) (m : Crossing) : State :=
  if waitsOut s d (crossTo m) then holdOut s d m else deliverOut s m

/-- The messages that wait at a die go, in order, as far as their routes are clear. -/
def releaseOut (s : State) (d : DieId) : State :=
  (s.die d).out.foldl (releaseOne d) (s.updDie d (fun x => { x with out := [] }))

/-- The waiting messages of every die. -/
def releaseAll (s : State) : State := overDies releaseOut s (upDies s)

/-- Step 5b of R464: the die is fenced. Its counts for the open minute are lost (R388). -/
def fenceDie (s : State) (d : DieId) : State :=
  let s1 := resetDie (placeOffline s d) d .fenced
  let s2 := allLinks.foldl (retireFacing d) s1
  let s3 := releaseAll (loseCounts s2 d)
  shareLimit (recordEvent (entropyUpdate s3) 0 0x04 d.val) s3.guard.psu.limit

/-! ### Die faults -/

/-- Whether a fault is a second one: within 10 minutes of the previous one, or during the die reset of the first (R464). -/
def secondFault (s : State) (d : DieId) : Bool :=
  (s.die d).phase == .dieReset ||
    (match assocGet d s.guard.faultAt with
      | none => false
      | some t => decide (s.guard.devTime - t ≤ 600000000000))

/-- Whether a die fault can be taken: the die is there, not fenced, and the package neither off, held nor losing power. -/
def faultable (s : State) (d : DieId) : Bool :=
  present s d && decide ((s.die d).phase ≠ .fenced) && !resetBlocked s

/-- A die that no route from die 0 reaches is fenced at once (R21). -/
def cutOff (s : State) (d : DieId) : State :=
  if d = 0 ∨ !faultable s d then s
  else fenceDie (if running s d then stopDie s d (fun _ => Stat.dieOffline) true true else s) d

/-- The dies that no route from die 0 reaches. -/
def unreached (s : State) : List DieId :=
  allDies.filter (fun d => present s d && (s.die d).phase != .fenced && !routeEnds s 0 d)

/-- They are fenced, and then those that this cuts off (R21). -/
def cutUnreached (s : State) : State := (List.range 8).foldl (fun s _ => overDies cutOff s (unreached s)) s

/-- A die fault (R464): a die reset, or fencing for a second one. A die held in a start or in the hold of R513 has nothing to
stop (R568). -/
def dieFault (s : State) (d : DieId) (cause : DieFaultCause) : State :=
  if d = 0 then die0Fault s
  else if !faultable s d then s
  else
    let again := secondFault s d
    let s1 := { s with guard := { s.guard with faultAt := assocSet d s.guard.devTime s.guard.faultAt } }
    let rail := cause == .rail
    let s2 := if rail then loseCounts (regFld s1 (greg Page.psu 0xAC) 1 1 1) d else s1
    let s3 := if running s2 d then stopDie s2 d (fun _ => if again then Stat.dieOffline else Stat.busyRetry) (!rail) again else s2
    if again then cutUnreached (fenceDie s3 d)
    else if (s.die d).phase = .reset then s3
    else entropyUpdate (resetDie s3 d .dieReset)

/-- DIE_FAULT. -/
def execDieFault (d : DieId) (cause : DieFaultCause) (s : State) : Out := .next (dieFault s d cause)

/-! ### Restarting a die -/

/-- A link retrains with its die, unless it is retired (R464, R475). -/
def retrainFacing (d : DieId) (s : State) (k : SwmId) : State :=
  let e := dieOf (partnerOf d k)
  if (linkOf (s.die e) k).st = .retired then updLink s d k (fun q => { q with st := .retired, switching := false })
  else if running s e then updLink s e k (fun q => { q with st := .training, held := false })
  else s

/-- Step 5a of R464: firmware, settings, mount and links, and the die takes commands again. -/
def restartDie (s : State) (d : DieId) : State :=
  let s1 := (dieSettings s d).updDie d (fun x => { x with comb := { x.comb with
    placement := s.pkg.placement.map toCombPlace
    epoch := s.pkg.epoch } })
  let s2 := takeSpill (identifyLuns (mountDie s1 d) d) d
  let s3 := s2.updDie d (fun x => { x with
    comb := { x.comb with placement := s.pkg.placement.map toCombPlace, epoch := s.pkg.epoch }
    cry := if s.pkg.keysOut then eraseSlots x.cry else x.cry })
  let s4 := entropyUpdate (allLinks.foldl (retrainFacing d) s3)
  shareLimit s4 s4.guard.psu.limit

/-- DIE_RESET_DONE: the die reset of R464 comes to its end; a package reset has absorbed it (R568). -/
def execDieResetDone (d : DieId) (s : State) : Out :=
  .next (if present s d && decide ((s.die d).phase = .dieReset) && !resetBlocked s && !s.pkg.starting then restartDie s d else s)

/-! ### Worker cores -/

/-- The page of WRK. -/
def wrkBase (d : DieId) : Nat := dreg d Page.wrk 0

/-- A worker core. -/
def coreAt (s : State) (d : DieId) (c : CoreId) : Core := (s.die d).cores.get c

/-- Changes a worker core. -/
def updCore (s : State) (d : DieId) (c : CoreId) (f : Core → Core) : State :=
  s.updDie d (fun x => { x with cores := vset x.cores c (f (x.cores.get c)) })

/-- All worker cores. -/
def allCores : List CoreId := [0, 1, 2, 3, 4, 5, 6, 7]

/-- Whether a core is enabled: its bit in WRK_CORE_EN is 1 and it is not fenced. A halted core counts as enabled
(R468). -/
def coreOn (s : State) (d : DieId) (c : CoreId) : Bool :=
  bitAt (regGet s (wrkBase d + 0x40)) c.val && decide ((coreAt s d c).st ≠ .fenced)

/-- The enabled cores, the lowest number first. -/
def coresOn (s : State) (d : DieId) : List CoreId := allCores.filter (coreOn s d)

/-- Steps 1 to 3 of R461: the core is held in reset, its commands and their references go to the lowest-numbered enabled
core, and the references that it still holds are swept. -/
def fenceCore (s : State) (d : DieId) (c : CoreId) : State :=
  let s1 := regFld (updCore s d c (fun q => { q with st := .fenced, reason := 0 })) (wrkBase d + 0x40) c.val c.val 0
  let s2 := regFld s1 (wrkBase d + 0x88) c.val c.val 1
  let busy := (s.die d).csq.cmds.any (fun q => q.core == c && q.phase != .queued)
  let s3 := match (coresOn s2 d).head? with
    | none => s2
    | some n =>
      let s' := s2.updDie d (fun x => { x with csq := { x.csq with cmds := x.csq.cmds.map (fun q =>
        if q.core == c then { q with core := n } else q) } })
      if busy then moveRefs s' d (Owner.core c).id (Owner.core n).id else s'
  let s4 := sweepDone (sweepOwner s3 d (Owner.core c).id) d
  raiseInt s4 (wrkBase d) 1

/-- A core is fenced, and a die with fewer than two enabled cores takes a die fault (R462). -/
def loseCore (s : State) (d : DieId) (c : CoreId) : State :=
  let s1 := fenceCore s d c
  if (coresOn s1 d).length < 2 then dieFault s1 d .cores else s1

/-- WDT_MS of a die, in ns. -/
def wdtNs (s : State) (d : DieId) : Nat := fld (regGet s (wrkBase d + 0x44)) 15 0 * 1000000

/-- CORE_WDT_EXPIRY: an enabled core that is not halted has not kicked for WDT_MS (R459). -/
def execCoreWdtExpiry (d : DieId) (core : CoreId) (s : State) : Out :=
  .next (onDie s d (fun s =>
    if coreOn s d core && decide ((coreAt s d core).st ≠ .halted)
        && decide ((coreAt s d core).kickAt + wdtNs s d ≤ (s.die d).mon.devTime) then
      loseCore (recordErr s (wrkBase d) 0x80 core.val) d core
    else s))

/-- The cores whose bits are written have kicked (R459). -/
def kickCores (s : State) (d : DieId) (v : Word) : State :=
  allCores.foldl (fun s c =>
    if bitAt v c.val then updCore s d c (fun q => { q with kickAt := (s.die d).mon.devTime }) else s) s

/-- WRK_KICK. -/
def execWrkKick (r : Requester) (d : DieId) (v : Word) (s : State) : Out :=
  .next (byReq s r (fun s => rowWrite s (wrkBase d + 0x48) v (fun s => kickCores s d v)))

/-- MAP_LOCK_TIMEOUT: a lock held longer than MAP_LOCK_MS by a core that is not halted is broken, with INTERNAL_TIMEOUT: the
cached page is discarded and read again, commands that waited on it go on, and the core is fenced (R54, R199, R459, R460,
log 112). -/
def execMapLockTimeout (d : DieId) (core : CoreId) (tenant nsid index heldMs : Nat) (s : State) : Out :=
  .next (onDie s d (fun s =>
    if coreOn s d core && decide ((coreAt s d core).st ≠ .halted) && decide (dfld s d Page.map 0x50 7 0 < heldMs) then
      let s2 := rebuildLeaf s d tenant nsid index
      let s3 := recordErr (raiseInt (regBump s2 (dreg d Page.map 0xA4) 1) (dreg d Page.map 0) 3) (dreg d Page.map 0) 0x05 0
      loseCore (recordEvent s3 d 0x0E heldMs) d core
    else s))

end Sys2Proof.Machine
end

