-- ==== Sys2Proof/Machine/Memory.lean ====
section
/-! DEFINITION. Chapter 12: the DRAM controller (R428 to R435), the rows of the buffer pools (R437 to R443), and the reshuffle
mover (R444 to R450). -/
namespace Sys2Proof.Machine
open Sys2Proof

/-! ### Addresses (R426, R427) -/

/-- The first address of DRAM. -/
def dramBase : Nat := 0x8000000000

/-- The die's SRAM, 40 MiB. -/
def sramSize : Nat := 0x2800000

/-- Whether a run of bytes lies wholly in SRAM. -/
def inSram (a n : Nat) : Bool := decide (a + n ≤ sramSize)

/-- Whether a run of bytes lies wholly in DRAM. -/
def inDram (s : State) (d : DieId) (a n : Nat) : Bool := decide (dramBase ≤ a) && decide (a + n ≤ dramBase + dramSize s d)

/-- Whether a run of bytes lies at valid addresses. -/
def addrOk (s : State) (d : DieId) (a n : Nat) : Bool := inSram a n || inDram s d a n

/-- Writes bytes; a burst that is written whole is poisoned no more. -/
def memStore (s : State) (d : DieId) (a : Nat) (b : Bytes) : State :=
  (memWrite s d a b).updDie d (fun x => { x with dmc := { x.dmc with
    poison := x.dmc.poison.filter (fun p => !(decide (a ≤ p) && decide (p + 64 ≤ a + b.length))) } })

/-- Whether a run of bytes holds a poisoned word. -/
def poisoned (x : Die) (a n : Nat) : Bool := x.dmc.poison.any (fun p => decide (p < a + n) && decide (a < p + 64))

/-! ### DMC -/

/-- The page of DMC. -/
def dmcBase (d : DieId) : Nat := dreg d Page.dmc 0

/-- Changes DMC. -/
def updDmc (s : State) (d : DieId) (f : Dmc → Dmc) : State := s.updDie d (fun x => { x with dmc := f x.dmc })

/-- The subchannel of a burst: the parity of its bank. -/
def dmcSub (d : DieId) (a : Nat) : Nat := (Config.dramPlace d.val a).1 % 2

/-- The accesses of the queue that issue now, by the bits of a number, and those that stay. One to the burst of an earlier access
that stays does not issue (R431), nor one behind such an access in a subchannel in in-order mode (R432). -/
def dmcPick (ordered : List Nat) (d : DieId) : Nat → List Nat → List (Bool × Nat) → List (Bool × Nat) × List (Bool × Nat)
  | _, _, [] => ([], [])
  | r, stay, e :: q =>
    let stuck := stay.any (fun a => a == e.2 || (ordered.contains (dmcSub d e.2) && dmcSub d a == dmcSub d e.2))
    let go := r % 2 == 1 && !stuck
    let p := dmcPick ordered d (r / 2) (if go then stay else e.2 :: stay) q
    if go then (e :: p.1, p.2) else (p.1, e :: p.2)

/-- A list of at most n elements in the order that a number picks. -/
def pickOrder : Nat → Nat → List (Bool × Nat) → List (Bool × Nat)
  | 0, _, l => l
  | n + 1, r, l => (l.drop (r % max 1 l.length)).take 1 ++ pickOrder n (r / max 1 l.length) (l.eraseIdx (r % max 1 l.length))

/-- Some accesses of the queue issue and open their rows (R432): in any order, and in acceptance order in
a subchannel in in-order mode, which ends with the write that began it. -/
def Dmc.issue (d : DieId) (which order : Nat) (m : Dmc) : Dmc :=
  let ordered := m.inorder.map (fun o => o.1)
  let p := dmcPick ordered d which [] m.queue
  let inOrder (e : Bool × Nat) : Bool := ordered.contains (dmcSub d e.2)
  let goes := p.1.filter inOrder ++ pickOrder p.1.length order (p.1.filter (fun e => !inOrder e))
  { m with
    queue := p.2
    openRows := goes.foldl (fun l e => assocSet (Config.dramPlace d.val e.2).1 (Config.dramPlace d.val e.2).2 l) m.openRows
    inorder := (m.inorder.map (fun o => (o.1, o.2 - (p.1.filter (fun e => dmcSub d e.2 == o.1)).length))).filter
      (fun o => decide (0 < o.2)) }

/-- The accesses of a read's subchannel up to the last write to its row, 0 when that row is not open or no such write waits (R432). -/
def rowWriteAhead (d : DieId) (m : Dmc) (a : Nat) : Nat :=
  let p := Config.dramPlace d.val a
  if assocGet p.1 m.openRows == some p.2 then
    ((m.queue.filter (fun e => dmcSub d e.2 == dmcSub d a)).reverse.dropWhile
      (fun e => !(e.1 && Config.dramPlace d.val e.2 == p))).length
  else 0

/-- A read that finds n accesses up to such a write begins in-order mode in its subchannel, which DMC_INORDER counts, or prolongs it
(R432). -/
def inOrderMode (s : State) (d : DieId) (c n : Nat) : State :=
  let set (k : Nat) (s : State) : State := updDmc s d (fun m => { m with inorder := assocSet c k m.inorder })
  if n = 0 then s
  else match assocGet c (s.die d).dmc.inorder with
    | none => regBump (set n s) (dmcBase d + 0xB8) 1
    | some k => set (max k n) s

/-- DMC accepts an access to a burst (R431, R432). Which earlier ones have issued by then, and in which order, are free values (log
133). -/
def dmcAccept (write : Bool) (d : DieId) (s : State) (a : Nat) : State :=
  let which := drawChoice s
  let order := drawChoice which.2
  let s1 := if (s.die d).dmc.queue.isEmpty then s else updDmc order.2 d (Dmc.issue d which.1 order.1)
  let m := (s1.die d).dmc
  let s2 := updDmc s1 d (fun m => { m with queue := m.queue ++ [(write, a)] })
  if write then s2 else inOrderMode s2 d (dmcSub d a) (rowWriteAhead d m a)

/-- The accesses to the bursts of a run of bytes, when it lies in DRAM. -/
def dmcRun (write : Bool) (s : State) (d : DieId) (a n : Nat) : State :=
  if inDram s d a n then ((List.range (ceilDiv n 64)).map (fun i => a / 64 * 64 + 64 * i)).foldl (dmcAccept write d) s else s

/-- DMC_REFRESH: each rank is refreshed at the JEDEC interval, or at half of it above 85 °C, while the channel runs (R433);
in self-refresh the devices refresh themselves. -/
def execDmcRefresh (d : DieId) (_hot : Bool) (s : State) : Out :=
  .next (onDie s d (fun s =>
    if (s.die d).dmc.st = 2 then updDmc s d (fun m => { m with refreshes := m.refreshes + 1, openRows := [] }) else s))

/-- The rows within DIST of a row, other than that row itself (R434). -/
def neighbours (dist row : Nat) : List Nat :=
  ((List.range (2 * dist + 1)).filter (fun i => decide (dist ≤ row + i) && i != dist)).map (fun i => row + i - dist)

/-- NEIGHBOUR_REFRESH: a draw of the subchannel's LFSR has hit, and the rows around the activated one are refreshed (R434).
Each row counts in DMC_NREF (log 71). -/
def execNeighbourRefresh (d : DieId) (sub : Fin 2) (bank row : Nat) (s : State) : Out :=
  .next (onDie s d (fun s =>
    if (s.die d).dmc.st = 2 then
      let rows := neighbours (fld (regGet s (dmcBase d + 0x44)) 9 8) row
      let r := drawChoice s
      regBump (updDmc r.2 d (fun m => { m with
        neighbours := rows.map (fun n => (sub.val, bank, n))
        lfsr := m.lfsr.set sub.val (r.1 % 2 ^ 32) })) (dmcBase d + 0xBC) rows.length
    else s))

/-- DMC_LFSR_RESEED: both LFSRs take output of the CTR_DRBG (R434). -/
def execDmcLfsrReseed (d : DieId) (s : State) : Out :=
  .next (onDie s d (fun s =>
    let r := drawBytes s 8
    updDmc r.2 d (fun m => { m with lfsr := [leNat (r.1.take 4), leNat (r.1.drop 4)] })))

/-- A corrected error (R428, R452). -/
def dramCorrected (s : State) (d : DieId) : State := raiseInt (regBump s (dmcBase d + 0xA8) 1) (dmcBase d) 1

/-- An uncorrectable error is counted, its address recorded and the data poisoned (R428, R452). -/
def dramUncorrectable (s : State) (d : DieId) (a : Nat) : State :=
  let s1 := regBump s (dmcBase d + 0xAC) 1
  let s2 := regSet (regSet s1 (dmcBase d + 0xB0) (BitVec.ofNat 32 a)) (dmcBase d + 0xB4) (BitVec.ofNat 32 (a / 2 ^ 32))
  let s3 := updDmc s2 d (fun m => { m with poison := a :: m.poison.filter (· != a) })
  recordErr (raiseInt s3 (dmcBase d) 2) (dmcBase d) 0x80 0

/-- A write of the ring holds a poisoned word from now on (R429). -/
def poisonWrite (x : Die) (n : Nat) : Die :=
  let i := n % max 1 x.map.ring.length
  { x with map := { x.map with ring := x.map.ring.zipIdx.map (fun p => if p.2 == i then { p.1 with poison := true } else p.1) } }

/-- A cached map page is discarded and rebuilt (R199, R429). -/
def rebuildPage (s : State) (d : DieId) (n : Nat) : State :=
  let l := (s.die d).map.cache
  match l[n % max 1 l.length]? with
  | none => s
  | some p => rebuildLeaf s d p.1 p.2.1 p.2.2.1

/-- R429: an uncorrectable error by the region it falls in. Where firmware has laid the regions out is free (log 70). -/
def dramRegionHit (s : State) (d : DieId) (a : Nat) : State :=
  match Config.dramRegion d.val a with
  | 0 => s.updDie d (fun x => poisonWrite x (Config.dramItem d.val a))
  | 1 => rebuildPage s d (Config.dramItem d.val a)
  | _ => dieFault s d .dram

/-- The end of a scrub pass (R452). -/
def scrubEnd (s : State) (d : DieId) : State :=
  raiseInt (updDmc s d (fun m => { m with scrubAt := some (s.die d).mon.devTime })) (dmcBase d) 4

/-- DMC_SCRUB: the patrol reads one burst (R430); its last burst ends the pass. -/
def execDmcScrub (d : DieId) (addr : Nat) (b : BurstState) (s : State) : Out :=
  .next (onBlock s d Page.dmc (fun s =>
    if fld (regGet s (dmcBase d + 0x48)) 7 0 ≠ 0 ∧ (s.die d).dmc.st = 2 ∧ inDram s d addr 64 = true ∧ addr % 64 = 0 then
      let s0 := dmcRun false s d addr 64
      let s1 := match b with
        | .good => s0
        | .single => dramCorrected s0 d
        | .uncorrectable => dramUncorrectable s0 d addr
      let s2 := if addr + 64 = dramBase + dramSize s d then scrubEnd s1 d else s1
      if b = .uncorrectable then dramRegionHit s2 d addr else s2
    else s))

/-- DMC_TRAIN_OP: a write of DMC_TRN_CTRL; START runs COUNT bursts and reads 1 until they are done (R435, R451). -/
def trainWrite (s : State) (d : DieId) (v : Word) : State :=
  let s1 := storeReg s (dmcBase d + 0x4C) v
  if bitAt v 31 && takesWork s (dmcBase d) && !(s.die d).dmc.training then
    updDmc (regFld s1 (dmcBase d + 0x4C) 31 31 1) d (fun m => { m with training := true })
  else s1

/-- DMC_TRAIN_OP. -/
def execDmcTrainOp (r : Requester) (d : DieId) (v : Word) (s : State) : Out :=
  .next (byReq s r (fun s => rowWrite s (dmcBase d + 0x4C) v (fun s => trainWrite s d v)))

/-- The compare errors of DMC_TRN_ERR0 to 9: 8 bits for each lane (R451). -/
def trainErrors (s : State) (d : DieId) (l : List Nat) : State :=
  (List.range 10).foldl (fun s n =>
    regSet s (dmcBase d + 0x80 + 4 * n) (BitVec.ofNat 32 (leNat ((List.range 4).map (fun i =>
      BitVec.ofNat 8 (min 255 (l.getD (4 * n + i) 0))))))) s

/-- DMC_TRAIN_DONE: a training operation ends (R452); a lane without a passing window is TRAIN_FAIL, and the die does not
start (R435). -/
def execDmcTrainDone (d : DieId) (errors : List Nat) (failLane : Option Nat) (s : State) : Out :=
  .next (onDie s d (fun s =>
    if (s.die d).dmc.training then
      let s1 := updDmc (regFld (trainErrors s d errors) (dmcBase d + 0x4C) 31 31 0) d (fun m => { m with training := false })
      let s2 := raiseInt s1 (dmcBase d) 3
      match failLane with
      | none => s2
      | some l => (recordErr (handBack s2 d (fun _ => Stat.busyRetry)) (dmcBase d) 0x81 l).updDie d (fun x => { x with phase := .refused })
    else s))

/-! ### BPM: pool settings -/

/-- The pool that BPM_SEL names. -/
def selPool (s : State) (d : DieId) : Fin 16 := ⟨fld (regGet s (bpmBase d + 0x40)) 3 0 % 16, Nat.mod_lt _ (by decide)⟩

/-- BPM_POOL_CFG of a pool. -/
def poolCfgWord (q : Pool) : Word :=
  BitVec.ofNat 32 ((if q.pen then 2 ^ 31 else 0) + (if q.bpKtp then 2 ^ 30 else 0) + q.sizeLog2 * 2 ^ 20 + q.count)

/-- The order of R443. -/
def thrOk (q : Pool) : Bool := decide (q.crit < q.critOff) && decide (q.critOff ≤ q.low) && decide (q.low < q.count)

/-- The bytes of a pool. -/
def poolBytes (q : Pool) : Nat := q.count * 2 ^ q.sizeLog2

/-- The conditions of R437. -/
def poolOk (s : State) (d : DieId) (p : Fin 16) (q : Pool) : Bool :=
  decide (1 ≤ q.count) && decide (q.base % 2 ^ q.sizeLog2 = 0) && addrOk s d q.base (poolBytes q)
    && allPools.all (fun o => o == p || !(poolAt s d o).pen
      || decide (q.base + poolBytes q ≤ (poolAt s d o).base)
      || decide ((poolAt s d o).base + poolBytes (poolAt s d o) ≤ q.base))

/-- Threads the free list through a pool's buffers (R438). -/
def threadPool (s : State) (d : DieId) (q : Pool) : State :=
  (List.range q.count).foldl (fun s i =>
    memStore s d (q.base + i * 2 ^ q.sizeLog2)
      (leBytes 8 (if i + 1 < q.count then q.base + (i + 1) * 2 ^ q.sizeLog2 else 0))) s

/-- Enables a pool (R437, R438), or refuses with POOL_BAD. -/
def enablePool (s : State) (d : DieId) (p : Fin 16) (q : Pool) : State :=
  if poolOk s d p q then
    settlePool (threadPool s d q) d p { q with pen := true, head := q.base, free := q.count, minFree := none }
  else bpmErr (setPool s d p { q with pen := false }) d 0x80 p.val

/-- Disables a pool; a window edge that it held advances again (R79). -/
def disablePool (s : State) (d : DieId) (p : Fin 16) (q : Pool) : State :=
  let s1 := pfcUpdate (setPool s d p { q with pen := false, head := 0, free := 0, minFree := none, inCrit := false }) d
  if edgesFreed s s1 d then openWindows s1 d else s1

/-- The RegSpec of a BPM register. -/
def bpmSpec (off : Nat) : RegSpec := (regSpec .bpm off).getD ⟨off, 1, []⟩

/-- Records LOCKED_WRITE where R565 says so. -/
def lockNote (s : State) (base off : Nat) (old v : Word) (r : RegSpec) : State :=
  if lockedChange (locked s base) old v r then recordErr s base 0x01 off else s

/-- A write of BPM_POOL_CFG (R437, R443, R453): refused whole when it changes SIZE_LOG2 or COUNT of an enabled pool, or sets
BP_KTP without the order of R443. -/
def poolCfgWrite (s : State) (d : DieId) (v : Word) : State :=
  let p := selPool s d
  let q := poolAt s d p
  let old := poolCfgWord q
  let new := mergeFields (locked s (bpmBase d)) old v (bpmSpec 0x44)
  let q1 := { q with bpKtp := bitAt new 30, sizeLog2 := fld new 24 20, count := fld new 19 0 }
  if q.pen && fld v 24 0 != fld old 24 0 then badValue s (bpmBase d + 0x44)
  else if q1.bpKtp && !q.bpKtp && !thrOk q1 then badValue s (bpmBase d + 0x44)
  else
    let s1 := lockNote s (bpmBase d) 0x44 old v (bpmSpec 0x44)
    if bitAt v 31 && !q.pen then enablePool s1 d p q1
    else if !bitAt v 31 && q.pen then disablePool s1 d p q1
    else if q.pen then settlePool s1 d p q1
    else setPool s1 d p q1

/-- A write of BPM_POOL_THR or BPM_POOL_THR2: the order of R443 is checked once BP_KTP is set (R453). -/
def poolThrWrite (s : State) (d : DieId) (off : Nat) (v : Word) : State :=
  let p := selPool s d
  let q := poolAt s d p
  let q1 := if off = 0x50 then { q with low := fld v 31 16, crit := fld v 15 0 } else { q with critOff := fld v 15 0 }
  if q.bpKtp && !thrOk q1 then badValue s (bpmBase d + off)
  else if q.pen then settlePool s d p q1
  else setPool s d p q1

/-- BPM_POOL_BASE takes effect (R8, R453): both halves are RWL, and a write while PEN is 1 is refused. -/
def poolBaseWrite (s : State) (d : DieId) (lo : Option Word) (hi : Word) : State :=
  let p := selPool s d
  let q := poolAt s d p
  let b := (match lo with
    | none => q.base % 2 ^ 32
    | some v => v.toNat) + fld hi 7 0 * 2 ^ 32
  if q.pen then badValue s (bpmBase d + 0x4C)
  else if locked s (bpmBase d) then (if b = q.base then s else recordErr s (bpmBase d) 0x01 0x4C)
  else setPool s d p { q with base := b }

/-- BPM_POOL_ENABLE. -/
def execBpmPoolEnable (r : Requester) (d : DieId) (v : Word) (s : State) : Out :=
  .next (byReq s r (fun s => rowWrite s (bpmBase d + 0x44) v (fun s => poolCfgWrite s d v)))

/-! ### BPM: allocations and references -/

/-- BPM_ALLOC: the address goes to the requester; a corrupted list is a die fault (R439, R440). -/
def execBpmAlloc (d : DieId) (pool : Fin 16) (owner : Nat) (s : State) : Out :=
  .next (onDie s d (fun s =>
    let r := allocBuf s d pool owner
    let s1 := { r.2 with answer := { r.2.answer with addr := r.1 } }
    if (poolAt s1 d pool).corrupt && !(poolAt s d pool).corrupt then dieFault s1 d .pool else s1))

/-- BPM_ADD (R440, R442). -/
def execBpmAdd (d : DieId) (addr actor owner : Nat) (s : State) : Out :=
  .next (onDie s d (fun s =>
    if ownerFenced s d actor then bpmErr s d 0x85 actor
    else if ownerFenced s d owner then bpmErr s d 0x85 owner
    else if 255 ≤ refCount (s.die d).bpm.refs addr then bpmErr s d 0x84 owner
    else if refCap ≤ (s.die d).bpm.refs.length then regBump s (bpmBase d + 0x8C) 1
    else setRefs s d ((addr, owner) :: (s.die d).bpm.refs)))

/-- BPM_MOVE (R440, R442). -/
def execBpmMove (d : DieId) (addr src dst : Nat) (s : State) : Out :=
  .next (onDie s d (fun s =>
    if ownerFenced s d src then bpmErr s d 0x85 src
    else if ownerFenced s d dst then bpmErr s d 0x85 dst
    else if !(s.die d).bpm.refs.contains (addr, src) then bpmErr s d 0x83 src
    else setRefs s d ((addr, dst) :: refDel (s.die d).bpm.refs addr src)))

/-- BPM_DROP (R440, R442). -/
def execBpmDrop (d : DieId) (addr owner : Nat) (s : State) : Out :=
  .next (onDie s d (fun s =>
    if ownerFenced s d owner then bpmErr s d 0x85 owner
    else if !(s.die d).bpm.refs.contains (addr, owner) then bpmErr s d 0x83 owner
    else dropRef s d addr owner))

/-- BPM_FREE (R438, R439). -/
def execBpmFree (d : DieId) (pool : Fin 16) (addr : Nat) (s : State) : Out := .next (onDie s d (fun s => pushBuf s d pool addr))

/-- A write of BPM_SWEEP (R442, R453): START fences OWNER and removes its entries, UNFENCE ends the fence of a swept owner;
neither acts while a sweep runs. -/
def sweepWrite (s : State) (d : DieId) (v : Word) : State :=
  let busy := (s.die d).bpm.sweep.isSome
  let owner := fld v 7 0
  let s1 := storeReg s (bpmBase d + 0x58) v
  if busy then s1
  else if bitAt v 31 then
    let s2 := (sweepOwner s1 d owner).updDie d (fun x => { x with bpm := { x.bpm with sweep := some owner } })
    regFld s2 (bpmBase d + 0x58) 31 31 1
  else if bitAt v 30 then s1.updDie d (fun x => { x with bpm := { x.bpm with fenced := x.bpm.fenced.filter (· != owner) } })
  else s1

/-- BPM_SWEEP. -/
def execBpmSweep (r : Requester) (d : DieId) (v : Word) (s : State) : Out :=
  .next (byReq s r (fun s => rowWrite s (bpmBase d + 0x58) v (fun s => sweepWrite s d v)))

/-- BPM_SWEEP_DONE (R442, R454). -/
def execBpmSweepDone (d : DieId) (s : State) : Out :=
  .next (onDie s d (fun s => if (s.die d).bpm.sweep.isSome then sweepDone s d else s))

/-- BPM_UNFENCE. -/
def execBpmUnfence (r : Requester) (d : DieId) (v : Word) (s : State) : Out :=
  .next (byReq s r (fun s => rowWrite s (bpmBase d + 0x58) v (fun s => sweepWrite s d v)))

/-- A read of BPM_MIN_FREE returns the lowest free count since the last read and clears it (R10, R453). -/
def minFreeRead (s : State) (d : DieId) : Word × State :=
  let p := selPool s d
  (BitVec.ofNat 32 ((poolAt s d p).minFree.getD 0), setPool s d p { poolAt s d p with minFree := none })

/-- BPM_MIN_FREE_READ. -/
def execBpmMinFreeRead (r : Requester) (d : DieId) (s : State) : Out :=
  .next (byReq s r (fun s => if windowOpen s (bpmBase d + 0x84) then
      let r := minFreeRead s d
      { r.2 with answer := { r.2.answer with data := r.1 } }
    else s))

/-! ### MOV -/

/-- The page of MOV. -/
def movBase (d : DieId) : Nat := dreg d Page.mov 0

/-- Changes MOV. -/
def updMov (s : State) (d : DieId) (f : Mov → Mov) : State := s.updDie d (fun x => { x with mov := f x.mov })

/-- Entries of the ring. -/
def ringSize (s : State) (d : DieId) : Nat := 2 ^ fld (regGet s (movBase d + 0x48)) 3 0

/-- The ring's address (R444, R455). -/
def ringBase (s : State) (d : DieId) : Nat :=
  (regGet s (movBase d + 0x40)).toNat + fld (regGet s (movBase d + 0x44)) 7 0 * 2 ^ 32

/-- A descriptor (R445). -/
structure Desc where
  op     : Nat
  target : Nat
  resv   : Bool            -- a reserved bit or byte that is not 0
  chan   : Nat
  tag    : Nat
  m      : Nat
  pj     : Nat
  cw     : Nat
  lin    : Nat
  stage  : Nat
  tags   : Nat
  len    : Nat
deriving DecidableEq, Repr

/-- Reads a descriptor (R445). -/
def parseDesc (b : Bytes) : Desc where
  op := byteAt b 0
  target := byteAt b 1 / 16
  resv := (byteAt b 1).testBit 3 || byteAt b 7 != 0 || !(slice b 36 28).all (· == 0)
  chan := byteAt b 1 % 8
  tag := leAt b 2 2
  m := byteAt b 4
  pj := byteAt b 5
  cw := byteAt b 6
  lin := leAt b 8 8
  stage := leAt b 16 8
  tags := leAt b 24 8
  len := leAt b 32 4

/-- Data codewords of a descriptor's stripe. -/
def Desc.dataCws (e : Desc) : Nat := (e.m - 1) * e.cw

/-- Bytes of the stripe in staging. -/
def Desc.stageLen (e : Desc) : Nat := e.m * e.cw * 4116

/-- A descriptor with a field outside its range or a reserved byte that is not 0 (R449). -/
def Desc.bad (e : Desc) : Bool :=
  !(decide (1 ≤ e.op) && decide (e.op ≤ 3)) || decide (3 < e.target) || e.resv
    || (if e.op = 3 then decide (e.len % 64 ≠ 0)
        else !(decide (4 ≤ e.m) && decide (e.m ≤ 8) && decide (e.pj < e.m) && [2, 4, 8].contains e.cw && decide (e.len = 0)))

/-- A descriptor's addresses lie within R426. -/
def Desc.addrsOk (e : Desc) (s : State) (d : DieId) : Bool :=
  if e.op = 3 then addrOk s d e.lin e.len && addrOk s d e.stage e.len
  else addrOk s d e.lin (e.dataCws * 4096) && addrOk s d e.stage e.stageLen
    && (e.op != 1 || addrOk s d e.tags (e.dataCws * 16))

/-- The descriptor at an entry of the ring. -/
def descAt (s : State) (d : DieId) (i : Nat) : Desc := parseDesc (memRead s d (ringBase s d + 64 * i) 64)

/-- MOV stops at a descriptor that it refuses, and leaves MOV_CONSUMED at it (R449, R456). -/
def movRefuse (s : State) (d : DieId) (code : Nat) : State :=
  recordErr (updMov s d (fun m => { m with stopped := true, running := false })) (movBase d) code (s.die d).mov.consumed

/-- MOV looks at the next entry: it refuses a bad one and rests when none is left. -/
def movLook (s : State) (d : DieId) : State :=
  let m := (s.die d).mov
  if m.consumed = m.tail then updMov s d (fun m => { m with running := false })
  else
    let e := descAt s d m.consumed
    if e.bad then movRefuse s d 0x80
    else if !e.addrsOk s d then movRefuse s d 0x81
    else s

/-- A write of TAIL starts MOV, also at an entry at which it has stopped (R444, R449); with EN at 0 it accepts no new work
(R48). -/
def doorbell (s : State) (d : DieId) (v : Word) : State :=
  let s1 := storeReg s (movBase d + 0x4C) v
  let s2 := updMov s1 d (fun m => { m with tail := fld v 7 0 % ringSize s d })
  if takesWork s (movBase d) then movLook (updMov s2 d (fun m => { m with running := true, stopped := false })) d else s2

/-- MOV_DOORBELL. -/
def execMovDoorbell (r : Requester) (d : DieId) (v : Word) (s : State) : Out :=
  .next (byReq s r (fun s => rowWrite s (movBase d + 0x4C) v (fun s => doorbell s d v)))

/-- The staging slot of data page n: the layout position, with the parity page's position left out. -/
def Desc.slotOf (e : Desc) (n : Nat) : Nat := if n < e.pj then n else n + 1

/-- The staging address of codeword k of layout position n. -/
def Desc.cwAddr (e : Desc) (n k : Nat) : Nat := e.stage + (n * e.cw + k) * 4116

/-- The info part of a codeword (R266): data, unit tag and CRC32C, inverted for poisoned data (R429). -/
def infoPart (data tag : Bytes) (bad : Bool) : Bytes :=
  let c := (Hash.crc32c (data ++ tag)).toNat
  data ++ tag ++ leBytes 4 (if bad then 0xFFFFFFFF - c else c)

/-- The info part that GATHER builds for data codeword i, in stripe order (R181, R446). -/
def gatherInfo (s : State) (d : DieId) (e : Desc) (i : Nat) : Bytes :=
  infoPart (memRead s d (e.lin + i * 4096) 4096) (memRead s d (e.tags + i * 16) 16)
    (poisoned (s.die d) (e.lin + i * 4096) 4096 || poisoned (s.die d) (e.tags + i * 16) 16)

/-- The parity of codeword k: the XOR of the info parts of codeword k of every data page (R273). -/
def gatherParity (infos : List Bytes) (e : Desc) (k : Nat) : Bytes :=
  (List.range (e.m - 1)).foldl (fun a n => xorBytes a (infos.getD (n * e.cw + k) [])) (zeros 4116)

/-- What GATHER writes (R446): the data pages' codewords and the parity page. -/
def gatherRun (s : State) (d : DieId) (e : Desc) : State :=
  let infos := (List.range e.dataCws).map (gatherInfo s d e)
  let s1 := (List.range e.dataCws).foldl (fun s i =>
    memStore s d (e.cwAddr (e.slotOf (i / e.cw)) (i % e.cw)) (infos.getD i [])) s
  (List.range e.cw).foldl (fun s k => memStore s d (e.cwAddr e.pj k) (gatherParity infos e k)) s1

/-- What SCATTER writes (R446): the data bytes of the data slots, in stripe order. -/
def scatterRun (s : State) (d : DieId) (e : Desc) : State :=
  let data := (List.range e.dataCws).map (fun i => memRead s d (e.cwAddr (e.slotOf (i / e.cw)) (i % e.cw)) 4096)
  (List.range e.dataCws).foldl (fun s i => memStore s d (e.lin + i * 4096) (data.getD i [])) s

/-- What COPY writes (R446). -/
def copyRun (s : State) (d : DieId) (e : Desc) : State := memStore s d e.stage (memRead s d e.lin e.len)

/-- The runs that a descriptor reads, and those that it writes (R446). -/
def Desc.readRuns (e : Desc) : List (Nat × Nat) :=
  if e.op = 1 then [(e.lin, e.dataCws * 4096), (e.tags, e.dataCws * 16)] else if e.op = 2 then [(e.stage, e.stageLen)] else [(e.lin, e.len)]
def Desc.writeRuns (e : Desc) : List (Nat × Nat) :=
  if e.op = 1 then [(e.stage, e.stageLen)] else if e.op = 2 then [(e.lin, e.dataCws * 4096)] else [(e.stage, e.len)]

/-- The accesses of a descriptor: its own entry, what it reads, what it writes (R431, R432). -/
def descTraffic (s : State) (d : DieId) (e : Desc) : State :=
  let s1 := dmcRun false s d (ringBase s d + 64 * (s.die d).mov.consumed) 64
  let s2 := e.readRuns.foldl (fun s p => dmcRun false s d p.1 p.2) s1
  e.writeRuns.foldl (fun s p => dmcRun true s d p.1 p.2) s2

/-- Bytes that a descriptor writes. -/
def Desc.written (e : Desc) : Nat := if e.op = 1 then e.stageLen else if e.op = 2 then e.dataCws * 4096 else e.len

/-- Runs the descriptor at the head of the ring when it has the row's OP: MOV_CONSUMED moves past it, its writes take place,
its pulse waits to be sent, and MOV looks at the next one (R444, R447, R448). -/
def movRun (s : State) (d : DieId) (op : Nat) (run : State → DieId → Desc → State) : State :=
  let m := (s.die d).mov
  if m.running && !m.stopped && m.consumed != m.tail && takesWork s (movBase d) then
    let e := descAt s d m.consumed
    if e.op = op ∧ e.bad = false ∧ e.addrsOk s d = true then
      let s1 := updMov (descTraffic (run s d e) d e) d (fun m => { m with
        consumed := (m.consumed + 1) % ringSize s d
        bytes := min (m.bytes + e.written) (2 ^ 64 - 1)
        pulses := if e.target = 0 then m.pulses else m.pulses ++ [(e.target, e.chan, e.tag)] })
      movLook s1 d
    else s
  else s

/-- MOV runs with its die, and goes on in a power-loss sequence until the die's rail goes (R450). -/
def onMov (s : State) (d : DieId) (f : State → State) : State :=
  if present s d && (s.die d).phase == .up && !s.guard.deep then f s else s

/-- GATHER. -/
def execGather (d : DieId) (s : State) : Out := .next (onMov s d (fun s => movRun s d 1 gatherRun))

/-- SCATTER. -/
def execScatter (d : DieId) (s : State) : Out := .next (onMov s d (fun s => movRun s d 2 scatterRun))

/-- COPY. -/
def execCopy (d : DieId) (s : State) : Out := .next (onMov s d (fun s => movRun s d 3 copyRun))

/-- The oldest stripe whose parity program on a channel waits for MOV's pulse. -/
def waitingStripe (x : Die) (chan : Nat) : Option Stripe :=
  x.flash.stripes.find? (fun q => !q.pulsed.contains chan &&
    x.flash.ops.any (fun o => o.parity && o.chan.val == chan && o.stripe == some q.sid))

/-- A pulse at its target (R447): FCH issues the parity program of the stripe (R274); a tag at CRY or MAP is kept for that
block's firmware. -/
def pulseAt (x : Die) (target chan tag : Nat) : Die :=
  if target = 1 then
    match waitingStripe x chan with
    | none => x
    | some q => { x with flash := { x.flash with
        stripes := updWhere (fun t => t.sid == q.sid) (fun t => { t with pulsed := chan :: t.pulsed }) x.flash.stripes } }
  else { x with mov := { x.mov with tagsSeen := x.mov.tagsSeen ++ [(target, tag)] } }

/-- MOV_PULSE: the first pulse that waits leaves (R447). -/
def execMovPulse (d : DieId) (s : State) : Out :=
  .next (onMov s d (fun s =>
    match (s.die d).mov.pulses with
    | [] => s
    | p :: rest =>
      let s1 := updMov s d (fun m => { m with pulses := rest })
      (regBump s1 (movBase d + 0x90) 1).updDie d (fun x => pulseAt x p.1 p.2.1 p.2.2)))

end Sys2Proof.Machine
end

