-- ==== Sys2Proof/Machine/Power.lean ====
section
/-! DEFINITION. The power states of dies and package (R24, R136 to R138, R493 to R502), and the management sideband (R503,
R504, R562). -/
namespace Sys2Proof.Machine
open Sys2Proof

/-! ### IDLE and SLEEP -/

/-- MAX_STATE of CSQ (R137). -/
def maxState (s : State) (d : DieId) : Nat := dfld s d Page.csq 0x68 1 0

/-- A running core whose clock is stopped. -/
def coreStop (c : Core) : Core := if c.st = .run then { c with st := .idle } else c

/-- Changes CSQ of a die. -/
def updCsq (x : Die) (f : Csq → Csq) : Die := { x with csq := f x.csq }

/-- A die has reached a power state: CSQ_PS_STATE changes, with CSQ INT bit 3 (R140). -/
def reachState (s : State) (d : DieId) (p : PowerState) (f : Die → Die) : State :=
  raiseInt (s.updDie d (fun x => updCsq (f x) (fun q => { q with ps := p, stage := 0 }))) (dreg d Page.csq 0) 3

/-- A step of a die's entry: the state in between is an abort point (R494, R496). -/
def entryStep (s : State) (d : DieId) (f : Die → Die) : State :=
  s.updDie d (fun x => updCsq (f x) (fun q => { q with stage := q.stage + 1 }))

/-- IDLE_ENTRY: after IDLE_US of idle time the cores stop at an instruction boundary; then their clock is gated. Each IDLE_ENTRY is
one step (R137, R494, log 173). -/
def execIdleEntry (d : DieId) (s : State) : Out :=
  .next (onDie s d (fun s =>
    if (s.die d).csq.ps = .run ∧ dieIdle (s.die d) = true ∧ 1 ≤ maxState s d then
      if (s.die d).csq.stage = 0 then
        (if idleFor (s.die d) (idleUs s d) then entryStep s d (fun x => { x with cores := x.cores.map coreStop }) else s)
      else reachState s d .idle id
    else s))

/-- SLEEP_ENTRY: after a further SLEEP_MS the DRAM goes into active power-down, then the SerDes into low-power listen, then the PLL
stops. Each SLEEP_ENTRY is one step (R137, R436, R494, log 173). -/
def execSleepEntry (d : DieId) (s : State) : Out :=
  .next (onDie s d (fun s =>
    if (s.die d).csq.ps = .idle ∧ dieIdle (s.die d) = true ∧ 2 ≤ maxState s d then
      match (s.die d).csq.stage with
      | 0 => if idleFor (s.die d) (sleepUs s d) then entryStep s d (fun x => { x with dmc := { x.dmc with pdown := true } }) else s
      | 1 => entryStep s d id
      | _ => reachState s d .sleep (fun x => { x with pll := false, pllCores := false })
    else s))

/-- DEEP_REQUEST: after a further DEEP_S (R137). -/
def execDeepRequest (d : DieId) (s : State) : Out :=
  .next (onDie s d (fun s =>
    if (s.die d).csq.ps = .sleep ∧ dieIdle (s.die d) = true ∧ 3 ≤ maxState s d ∧ idleFor (s.die d) (deepUs s d) = true then
      s.updDie d (fun x => { x with csq := { x.csq with deepReq := true } })
    else s))

/-! ### DEEP -/

/-- The page of the package sequencer. -/
def pkgBase : Nat := greg Page.pkg 0

/-- A port that goes link-down: counted, with INT bit 1 (R422, R425). -/
def portDown (s : State) (d : DieId) (p : PortId) : State :=
  if (portOf (s.die d) p).up then
    raiseInt (ethCount (updPort s d p (fun q => { q with up := false, anDone := false })) d p 0x310 1) (ethBase d p) 1
  else s

/-- A Swarm link that goes down for DEEP; a retired one stays retired. -/
def linkSleep (q : Swm) : Swm := if q.st = .up ∨ q.st = .training then { q with st := .down, held := true } else q

/-- Step 3 of R495 on a die: its ports and Swarm links go down. -/
def linksDown (s : State) (d : DieId) : State :=
  (portDown (portDown s d 0) d 1).updDie d (fun x => { x with swm := x.swm.map linkSleep })

/-- Step 4 of R495 on a die: DRAM enters self-refresh (R436). -/
def selfRefresh (s : State) (d : DieId) : State :=
  s.updDie d (fun x => { x with dmc := { x.dmc with pdown := false, st := if x.dmc.st = 2 then 3 else x.dmc.st } })

/-- Step 6 of R495 on a die. -/
def deepDie (s : State) (d : DieId) : State :=
  reachState s d .deep (fun x => updCsq x (fun q => { q with deepReq := false }))

/-- Whether every credit of a die's Swarm links has returned (R495 step 3). -/
def creditsHome (x : Die) : Bool := x.swm.toList.all (fun q => q.st != .up || (q.reqCred == 64 && q.rspCred == 64))

/-- The dies that must have requested DEEP: present and not fenced. -/
def deepDies (s : State) : List DieId := allDies.filter (fun d => present s d && (s.die d).phase != .fenced)

/-- The core rails' VOUT_COMMAND (R558). -/
def coreRails (s : State) (mv : Nat) : State :=
  { s with guard := { s.guard with
    rails := Vector.ofFn (fun n => if 8 ≤ n.val then { s.guard.rails.get n with vset := mv } else s.guard.rails.get n) } }

/-- The dies that refuse or abandon an entry because they have work are woken by it (R495 step 2, R496, R497). -/
def refuseDeep (s : State) (ds : List DieId) : State :=
  let s1 := if s.guard.entry = 0 then raiseInt (regBump s (pkgBase + 0x84) 1) pkgBase 1 else abandonDeep s
  overDies (fun s d => wakeAt s d) s1 (ds.filter (fun d => !dieIdle (s.die d)))

/-- The next step of R495 on dies that are idle. -/
def deepStep (s : State) (ds : List DieId) : State :=
  let at_ (n : Nat) (s : State) : State := { s with guard := { s.guard with entry := n } }
  match s.guard.entry with
  | 0 => at_ 2 s
  | 2 => if ds.all (fun d => creditsHome (s.die d)) then at_ 3 (overDies linksDown s ds) else s
  | 3 => at_ 4 (overDies selfRefresh s ds)
  | _ =>
    let s1 := coreRails (overDies deepDie s ds) (gfld s Page.psu 0x104 15 0)
    { s1 with guard := { s1.guard with deep := true, entry := 0 } }

/-- DEEP_ENTRY: every die has requested DEEP; each DEEP_ENTRY takes the sequence to its next abort point or its end, and one that
finds a die with work abandons the entry (R495, R496, R517, log 173). -/
def execDeepEntry (s : State) : Out :=
  .next (
    let ds := deepDies s
    if s.guard.off || s.guard.deep || s.guard.losing || s.guard.shutting || s.pkg.starting || ds.isEmpty then s
    else if !ds.all (fun d => decide ((s.die d).phase = .up) && (s.die d).csq.deepReq) then abandonDeep s
    else if !ds.all (fun d => dieIdle (s.die d)) then refuseDeep s ds
    else deepStep s ds)

/-! ### Waking -/

/-- A die in IDLE or SLEEP, or on its way there, wakes. -/
def wakeDie (s : State) (d : DieId) : State := onDie s d (fun s => wakeAt s d)

/-- Every die in IDLE or SLEEP wakes. -/
def wakeAll (s : State) : State := overDies wakeDie s allDies

/-- Whether an address match on an MGT port wakes the package (R501, R516). -/
def smbusWakes (s : State) (i : Fin 2) : Bool :=
  gfld s Page.pkg 0x44 0 0 == 1 && gfld s (Page.mgt i) 0x40 10 10 == 1

/-- WAKE: what each source wakes (R497). -/
def wake (s : State) (w : WakeSource) : State :=
  match w with
  | .frame d => wakeDie s d
  | .sigdet d p =>
    if present s d && bitAt (regGet s (pkgBase + 0x44)) (16 + d.val * 2 + p.val) then wakePackage s (some 2) else s
  | .access d => if s.guard.deep then (if present s d then wakePackage s (some 3) else s) else wakeDie s d
  | .icu d => wakeDie s d
  | .work d => wakeDie s d
  | .smbus i => if smbusWakes s i then wakePackage s (some 6) else s
  | .wakeN => if s.guard.deep then wakePackage s (some 7) else wakeAll s
  | .rtc => if gfld s Page.pkg 0x44 1 1 = 1 then wakePackage s (some 9) else s
  | .alarm => if s.guard.deep then wakePackage s (some 10) else wakeAll s

/-- WAKE. -/
def execWake (w : WakeSource) (s : State) : Out := .next (if s.guard.off then s else wake s w)

/-- PLL_LOCK: the core PLL reports lock; firmware switches the cores to it, and the clock monitor compares from now on (R24,
R26). In SLEEP and DEEP the PLL is stopped. The clock fault of R25 ends with die 0's lock. -/
def execPllLock (d : DieId) (s : State) : Out :=
  .next (onDie s d (fun s =>
    if (s.die d).csq.ps = .sleep then s
    else
      let s1 := s.updDie d (fun x => { x with pll := true, pllCores := true })
      if d = 0 then { s1 with pkg := { s1.pkg with clockFault := false } } else s1))

/-- CLOCK_DOMAIN_REGATE (R498). -/
def execClockDomainRegate (d : DieId) (page : Nat) (s : State) : Out :=
  .next (onDie s d (fun s => s.updDie d (fun x => { x with gated := x.gated.filter (· != page) })))

/-! ### OFF -/

/-- The orderly shutdown of R500: the sessions end, intake stops, every die flushes, takes a checkpoint and so writes a root
(R215), the wall mark is recorded (R376), and regulators and converters go off. -/
def shutDown (s : State) : State :=
  let s0 := wakePackage s none
  let s1 := overDies (fun s d => if (s.die d).map.mounted then checkpoint s d else s) (stopAll s0) (upDies s0)
  let s2 := if running s1 0 then wallMark s1 else s1
  let s3 := railsOff (slotSwitch (slotSwitch (norCut s2) 0 false) 1 false)
  let s4 := diesDown (cutMinute s3)
  { s4 with guard := { s4.guard with off := true, deep := false, entry := 0, shutting := false } }

/-- Writes of PWR_PKG_CMD (R516): OFF and WAKE. -/
def pkgCmdWrite (s : State) (v : Word) : State :=
  let s1 := if bitAt v 1 then wakePackage s none else s
  if bitAt v 0 && !s1.guard.losing && !s1.guard.off then shutDown s1 else s1

/-- PKG_OFF. -/
def execPkgOff (r : Requester) (s : State) : Out := .next (byReq s r (fun s => rowWrite s (pkgBase + 0x40) 1 (fun s => pkgCmdWrite s 1)))

/-- PKG_WAKE. -/
def execPkgWake (r : Requester) (s : State) : Out := .next (byReq s r (fun s => rowWrite s (pkgBase + 0x40) 2 (fun s => pkgCmdWrite s 2)))

/-- RTC_ALARM: device time has come to ALARM_S, which 0 disables (R497, R516). -/
def execRtcAlarm (s : State) : Out :=
  .next (if s.guard.off = false ∧ (regGet s (pkgBase + 0x48)).toNat ≠ 0 ∧
      (regGet s (pkgBase + 0x48)).toNat * 1000000000 ≤ s.guard.devTime then wake s .rtc else s)

/-- WAKE_N_LOW: 10 µs wake the dies or the package, 1 ms in OFF starts a cold boot (R497, R500). -/
def execWakeNLow (us : Nat) (s : State) : Out :=
  .next (if s.guard.off then (if 1000 ≤ us then leaveReset (railsOn (powerOn s)) true 0 else s)
    else if 10 ≤ us then wake s .wakeN
    else s)

/-! ### The management sideband -/

/-- The PEC of an SMBus transaction: the CRC-8 of its bytes. -/
def pecOf (b : Bytes) : Byte := BitVec.ofNat 8 (Hash.crc8 (b.flatMap (fun x => Hash.msbBits 8 x.toNat)))

/-- The 7-bit address of an MGT port. -/
def mgtAddr (s : State) (i : Fin 2) : Nat := gfld s (Page.mgt i) 0x40 6 0

/-- PEC of an MGT port. -/
def mgtPec (s : State) (i : Fin 2) : Bool := gfld s (Page.mgt i) 0x40 9 9 == 1

/-- An MGT port's response; an empty one stands for NACK. -/
def mgtSend (s : State) (i : Fin 2) (b : Bytes) : State :=
  { s with guard := { s.guard with mgtOut := s.guard.mgtOut.set i.val b } }

/-- A transaction that matches the port's address: in DEEP the match wakes the package when WAKE_ANY is 1 (R501). -/
def mgtMatch (s : State) (i : Fin 2) : State := if smbusWakes s i then wakePackage s (some 6) else s

/-- A read of a command code, answered with its content and the PEC (R503); nothing answers in OFF. -/
def mgtRead (s : State) (i : Fin 2) (code : Nat) (content : State → Bytes) : State :=
  if s.guard.off then s
  else
    let b := content s
    let a := mgtAddr s i
    let pec := if mgtPec s i then [pecOf ([BitVec.ofNat 8 (a * 2), BitVec.ofNat 8 code, BitVec.ofNat 8 (a * 2 + 1)] ++ b)] else []
    mgtSend (mgtMatch s i) i (b ++ pec)

/-- The number of a thermal state. -/
def thmCode : ThmState → Nat
  | .normal => 0
  | .warn => 1
  | .throttle => 2
  | .shutdown => 3

/-- The dies whose THM runs. -/
def thmDies (s : State) : List DieId :=
  allDies.filter (fun d => present s d && ((s.die d).phase == .up || (s.die d).phase == .hot))

/-- The highest thermal state of any die or the guard die. -/
def thmWorst (s : State) : Nat := ((thmDies s).map (fun d => thmCode (s.die d).thm.st)).foldl max (thmCode s.guard.thm.st)

/-- A bit list as a number, the first bit at position 0. -/
def flags (l : List Bool) : Nat := (l.zipIdx.map (fun p => if p.1 then 2 ^ p.2 else 0)).sum

/-- HEALTH (R504). -/
def health (s : State) : Nat :=
  flags [s.pkg.clockFault, s.guard.die0Hold, s.guard.alarmHold, s.pkg.entropyFail,
    s.guard.psu.bank == .degraded, s.guard.psu.bank == .fault,
    decide (1 ≤ thmWorst s), decide (2 ≤ thmWorst s),
    s.guard.thermHold || allDies.any (fun d => present s d && (s.die d).phase == .hot),
    allDies.any (fun d => present s d && ((s.die d).map.readOnly || (s.die d).map.spaceStop)),
    allDies.any (fun d => present s d && (s.die d).phase == .fenced),
    s.nor.bootFault, s.guard.fanFault]

/-- The number of a power state, as MAX_STATE (R137). -/
def psCode : PowerState → Nat
  | .run => 0
  | .idle => 1
  | .sleep => 2
  | .deep => 3

/-- The shallowest state of the present, unfenced dies, and 4 in an orderly shutdown (R503). -/
def shallowest (s : State) : Nat :=
  if s.guard.shutting then 4 else ((deepDies s).map (fun d => psCode (s.die d).csq.ps)).foldl min 3

/-- The good sensors' readings. -/
def goodTemps (t : Thm) : List Int := (t.temps.zipIdx.filter (fun p => !t.bad.contains p.2)).map (fun p => p.1)

/-- The hottest of some readings. -/
def hottestOf (l : List Int) : Option Int :=
  match l with
  | [] => none
  | a :: r => some (r.foldl max a)

/-- The hottest valid sensor of the package, in °C rounded down (log 72); free when no sensor is valid. -/
def hotPackage (s : State) : Int :=
  match hottestOf ((thmDies s).flatMap (fun d => goodTemps (s.die d).thm) ++ goodTemps s.guard.thm) with
  | some t => t / 16
  | none => (Config.choice s.draws % 256 : Nat)

/-- The number of a bank state in PSU_STATE (R329). -/
def bankCode : BankState → Nat
  | .charging => 0
  | .ready => 1
  | .testing => 2
  | .degraded => 3
  | .fault => 4
  | .loss => 5

/-- Dies present, and dies fenced (R503). -/
def diesWord (s : State) : Nat :=
  flags (allDies.map (fun d => present s d)) + 256 * flags (allDies.map (fun d => present s d && (s.die d).phase == .fenced))

/-- MGT_HEALTH: a block read of 4 bytes (R503, R504). -/
def execMgtHealth (i : Fin 2) (s : State) : Out := .next (mgtRead s i 0x01 (fun s => [4] ++ leBytes 4 (health s)))

/-- MGT_STATE (R503). -/
def execMgtState (i : Fin 2) (s : State) : Out := .next (mgtRead s i 0x02 (fun s => leBytes 1 (shallowest s)))

/-- MGT_TEMP (R503). -/
def execMgtTemp (i : Fin 2) (s : State) : Out :=
  .next (mgtRead { s with draws := s.draws + 1 } i 0x03 (fun _ => [BitVec.ofInt 8 (hotPackage s)]))

/-- MGT_VIN (R503). -/
def execMgtVin (i : Fin 2) (s : State) : Out := .next (mgtRead s i 0x04 (fun s => leBytes 2 s.guard.psu.vin))

/-- MGT_VBANK (R503). -/
def execMgtVbank (i : Fin 2) (s : State) : Out := .next (mgtRead s i 0x05 (fun s => leBytes 2 s.guard.psu.vbank))

/-- MGT_BANK (R503). -/
def execMgtBank (i : Fin 2) (s : State) : Out := .next (mgtRead s i 0x06 (fun s => leBytes 1 (bankCode s.guard.psu.bank)))

/-- MGT_DIES (R503). -/
def execMgtDies (i : Fin 2) (s : State) : Out := .next (mgtRead s i 0x07 (fun s => leBytes 2 (diesWord s)))

/-- MGT_WAKE: 0x01 wakes the package from DEEP; a write with a bad PEC is ignored (R501, R503). -/
def execMgtWake (i : Fin 2) (v : Byte) (pec : Option Byte) (s : State) : Out :=
  .next (if s.guard.off then s
    else
      let good := match pec with
        | none => true
        | some p => !mgtPec s i || p == pecOf [BitVec.ofNat 8 (mgtAddr s i * 2), 0x10, v]
      let s1 := mgtSend (mgtMatch s i) i []
      if good && v == 1 && gfld s Page.pkg 0x44 0 0 == 1 then wakePackage s1 (some 6) else s1)

/-- MGT_UNKNOWN_CODE: a code that the port does not serve gets NACK (R503). -/
def execMgtUnknownCode (i : Fin 2) (_code : Byte) (s : State) : Out :=
  .next (if s.guard.off then s else mgtSend (mgtMatch s i) i [])

/-- MGT_BUS_TIMEOUT: the port releases the bus; the transaction that held it is over without a response (R562). -/
def execMgtBusTimeout (i : Fin 2) (s : State) : Out := .next (if s.guard.off then s else mgtSend s i [])

end Sys2Proof.Machine
end

