-- ==== Sys2Proof/Machine/Thermal.lean ====
section
/-! DEFINITION. Thermal management (R510 to R517): samples and bad sensors, the thermal states, stage 2, the thermal
shutdowns of a die and of the package, and the trims. -/
namespace Sys2Proof.Machine
open Sys2Proof

/-- The THM page of a site (R38). -/
def thmBase : Site → Nat
  | .die d => dreg d Page.thm 0
  | .guard => greg Page.gthm 0

/-- A site's THM. -/
def thmAt (s : State) : Site → Thm
  | .die d => (s.die d).thm
  | .guard => s.guard.thm

/-- Changes a site's THM. -/
def updThm (s : State) (w : Site) (f : Thm → Thm) : State :=
  match w with
  | .die d => s.updDie d (fun x => { x with thm := f x.thm })
  | .guard => { s with guard := { s.guard with thm := f s.guard.thm } }

/-- THM of a die runs while the die does and in the hold of R513; the guard die's runs unless the package is off. -/
def thmRuns (s : State) : Site → Bool
  | .die d => present s d && ((s.die d).phase == .up || (s.die d).phase == .hot) && !s.guard.off && !s.guard.losing && !s.guard.deep
  | .guard => !s.guard.off

/-- How many sensors a site has (R510). -/
def sensorsOf : Site → Nat
  | .die _ => 12
  | .guard => 2

/-- A threshold of THM_LIMITS in 1/16 °C; hi is its top bit. -/
def thmLimit (s : State) (w : Site) (hi : Nat) : Int := (fld (regGet s (thmBase w + 0x40)) hi (hi - 7) * 16 : Nat)
/-- WARN, THROTTLE and SHUTDOWN. -/
def limWarn (s : State) (w : Site) : Int := thmLimit s w 7
def limThrottle (s : State) (w : Site) : Int := thmLimit s w 15
def limShutdown (s : State) (w : Site) : Int := thmLimit s w 23
/-- HYST. -/
def limHyst (s : State) (w : Site) : Int := thmLimit s w 31

/-! ### Samples and bad sensors (R510) -/

/-- Inserts a reading into a rising list. -/
def insertInt (a : Int) : List Int → List Int
  | [] => [a]
  | b :: r => if a ≤ b then a :: b :: r else b :: insertInt a r

/-- The middle reading of a list. -/
def medianOf (l : List Int) : Int := (l.foldr insertInt []).getD (l.length / 2) 0

/-- Whether a reading marks its sensor bad: outside −50 °C to 160 °C, or more than 25 °C from the median of the other
sensors. -/
def readsBad (l : List Int) (n : Nat) : Bool :=
  let t := l.getD n 0
  let m := medianOf (l.eraseIdx n)
  decide (t < -800) || decide (2560 < t) || decide (t - m < -400) || decide (400 < t - m)

/-- The sensors that a sample marks bad. -/
def badIn (l : List Int) : List Nat := (List.range l.length).filter (readsBad l)

/-- How many sensors are good. -/
def goodCount (t : Thm) : Nat := (goodTemps t).length

/-! ### Thermal states (R511) -/

/-- The state that a number stands for. -/
def thmState (n : Nat) : ThmState :=
  match n with
  | 0 => .normal
  | 1 => .warn
  | 2 => .throttle
  | _ => .shutdown

/-- The state that the number of good sensors alone gives (R510). -/
def countState (w : Site) (good : Nat) : Nat :=
  match w with
  | .die _ => if good = 0 then 3 else if good < 6 then 2 else 0
  | .guard => if good = 0 then 2 else 0

/-- The highest threshold that a good sensor has reached. -/
def reachedState (s : State) (w : Site) (good : List Int) : Nat :=
  if good.any (fun t => decide (limShutdown s w ≤ t)) then 3
  else if good.any (fun t => decide (limThrottle s w ≤ t)) then 2
  else if good.any (fun t => decide (limWarn s w ≤ t)) then 1
  else 0

/-- Every good sensor reads below a threshold less HYST. -/
def belowAll (s : State) (w : Site) (lim : Int) : Bool :=
  (goodTemps (thmAt s w)).all (fun t => decide (t < lim - limHyst s w))

/-- The state after those have been left that every good sensor is below. -/
def exitState (s : State) (w : Site) : Nat :=
  let n := thmCode (thmAt s w).st
  let m := if 3 ≤ n ∧ belowAll s w (limShutdown s w) = false then 3
    else if 2 ≤ n ∧ belowAll s w (limThrottle s w) = false then 2
    else if 1 ≤ n ∧ belowAll s w (limWarn s w) = false then 1
    else 0
  max m (countState w (goodCount (thmAt s w)))

/-- Event 0x07 for each threshold that the sample crosses, with the hottest good sensor in °C (R399). -/
def thmEvents (s : State) (w : Site) (was now : Nat) : State :=
  match hottestOf (goodTemps (thmAt s w)) with
  | none => s
  | some t =>
    let d : DieId := match w with
      | .die d => d
      | .guard => 0
    if running s d then (List.range (now - was)).foldl (fun s _ => recordEvent s d 0x07 (t / 16).toNat) s else s

/-- lim of R508 at a die's entry to THROTTLE: the last allocation. -/
def enterThrottle (s : State) (d : DieId) : State :=
  { s with pkg := { s.pkg with lims := s.pkg.lims.set d.val (some (s.die d).flash.alloc) } }

/-- Stage 2 of throttling ends (R512, R517). -/
def endStage2 (s : State) (w : Site) : State :=
  match w with
  | .guard => s
  | .die d => if (s.die d).thm.stage2 then
      raiseInt (updThm s w (fun t => { t with stage2 := false })) (dreg d Page.pwr 0) 1
    else s

/-- The thermal state changes: THM INT bit 1, lim at the entry to THROTTLE, the end of stage 2 at its exit. -/
def setThm (s : State) (w : Site) (n : Nat) : State :=
  let was := thmCode (thmAt s w).st
  if was = n then s
  else
    let s1 := raiseInt (updThm s w (fun t => { t with st := thmState n })) (thmBase w) 1
    if was < 2 ∧ 2 ≤ n then (match w with
      | .die d => enterThrottle s1 d
      | .guard => s1)
    else if 2 ≤ was ∧ n < 2 then endStage2 s1 w
    else s1

/-! ### Thermal shutdown (R513, R514) -/

/-- What an arrival die answers a command of a die in thermal shutdown (R513). -/
def hotStatus (c : Cmd) : Nat :=
  if c.hdr.opcode = Op.put ∨ c.hdr.opcode = Op.delete ∨ c.hdr.opcode = Op.write then Stat.thermalStop else Stat.busyRetry

/-- Step 5: the die is held in reset; its THM and PWR pages keep running. -/
def hotDie (s : State) (d : DieId) : State :=
  let x := s.die d
  let s1 := s.setDie d { freshDie x with phase := .hot, thm := x.thm }
  { regsDrop s1 (fun a => winOf a == d.val && !keptReg a && decide (2 ≤ pageOf a)) with
    latch := s.latch.filter (fun p => !inWindow d.val p)
    heldLo := s.heldLo.filter (fun p => !inWindow d.val p) }

/-- Steps 2 to 5 of R513 on a die. -/
def thermalStop (s : State) (d : DieId) : State :=
  let s0 := finishWrites (endAll s d) d
  let s1 := handBack s0 d hotStatus
  hotDie (holdLinks (confirmBarriers (flushDie s1 d) d .flushed [] (barriersFor s0 d)) d) d

/-- R514: every die runs the steps of R513, and the charger stops. -/
def thermalHold (s : State) : State :=
  let s0 := wakePackage s none
  let s1 := overDies endAll s0 (upDies s0)
  let s2 := slotSwitch (overDies thermalStop s1 (upDies s0)) 0 false
  { cutMinute s2 with guard := { s2.guard with thermHold := true } }

/-- What a site at SHUTDOWN does. -/
def thermalAct (s : State) (w : Site) : State :=
  if (thmAt s w).st ≠ .shutdown then s
  else if s.guard.losing || s.guard.thermHold || s.pkg.starting || resetBlocked s then s
  else match w with
    | .guard => thermalHold s
    | .die d => if !running s d then s else if d = 0 then thermalHold s else thermalStop s d

/-- A sample of a site: the readings, new bad sensors, SENSORS_LOW, the state and what it starts. -/
def thmSample (s : State) (w : Site) (readings : List Int) : State :=
  let l := readings.take (sensorsOf w)
  let t := thmAt s w
  let bad := t.bad ++ (badIn l).filter (fun n => !t.bad.contains n)
  let s1 := updThm s w (fun t => { t with temps := l, bad := bad })
  let good := goodCount (thmAt s1 w)
  let s2 := if bad.length ≠ t.bad.length then raiseInt s1 (thmBase w) 2 else s1
  let s3 := if good < 6 ∧ 6 ≤ goodCount t then recordErr s2 (thmBase w) 0x80 good else s2
  let reached := reachedState s3 w (goodTemps (thmAt s3 w))
  let s4 := thmEvents s3 w (thmCode t.st) reached
  thermalAct (setThm s4 w (max (max (thmCode t.st) reached) (countState w good))) w

/-- The guard die's sample carries its 8 external inputs after its 2 sensors (R516). -/
def takeExternal (s : State) (w : Site) (readings : List Int) : State :=
  match w with
  | .die _ => s
  | .guard => { s with guard := { s.guard with
      ext := (List.range 8).map (fun i => (readings.drop 2).getD i (s.guard.ext.getD i 0)) } }

/-- THM_SAMPLE. -/
def execThmSample (at_ : Site) (readings : List Int) (s : State) : Out :=
  .next (if thmRuns s at_ then thmSample (takeExternal s at_ readings) at_ readings else s)

/-- THM_STATE_EXIT: the states whose threshold less HYST every good sensor has been below for 1 ms are left (R511, R512). -/
def execThmStateExit (at_ : Site) (s : State) : Out :=
  .next (if thmRuns s at_ then setThm s at_ (exitState s at_) else s)

/-- SENSOR_RECOVER: a bad sensor that has read good for 1 s is used again (R510). -/
def execSensorRecover (at_ : Site) (n : Fin 12) (s : State) : Out :=
  .next (if thmRuns s at_ && (thmAt s at_).bad.contains n.val && !readsBad (thmAt s at_).temps n.val then
      updThm s at_ (fun t => { t with bad := t.bad.filter (· != n.val) })
    else s)

/-- The floor of lim (R508). -/
def limFloor (s : State) : Nat :=
  let cap := dfld s 0 Page.pwr 0x48 31 16 * 1000 * s.pkg.pkgF / 256
  cap / max 1 (unfencedDies s).length * dfld s 0 Page.pwr 0x4C 7 0 / 256

/-- THM_STAGE2: a throttled die whose lim has been at its floor for STAGE2_MS runs its cores at 1.1 GHz (R511, R517). -/
def execThmStage2 (d : DieId) (s : State) : Out :=
  .next (onDie s d (fun s =>
    if throttled (s.die d).thm.st && !(s.die d).thm.stage2 && (match s.pkg.lims.getD d.val none with
        | none => false
        | some l => decide (l ≤ limFloor s)) then
      raiseInt (updThm s (.die d) (fun t => { t with stage2 := true })) (dreg d Page.pwr 0) 1
    else s))

/-- A site has cooled: some sensor is good and every good one is below SHUTDOWN less HYST. -/
def cooled (s : State) (w : Site) : Bool := 0 < goodCount (thmAt s w) && belowAll s w (limShutdown s w)

/-- The package leaves the hold of R514 by the warm reset sequence. The charger runs again. -/
def packageRestart (s : State) : State :=
  let s1 := slotSwitch s 0 true
  leaveReset (enterReset { s1 with guard := { s1.guard with thermHold := false } }) false 0

/-- THERMAL_RESTART: a held die restarts as in step 5a of R464, or the package by the warm reset sequence (R513, R514). -/
def execThermalRestart (at_ : Site) (s : State) : Out :=
  .next (if s.guard.losing || s.guard.off then s
    else if s.guard.thermHold then
      (if cooled s (.die 0) && cooled s .guard then packageRestart s else s)
    else match at_ with
      | .guard => s
      | .die d => if decide ((s.die d).phase = .hot) && cooled s at_ then
          restartDie (setThm s at_ (exitState s at_)) d
        else s)

/-! ### Trims (R515) -/

/-- A quotient that does not come out even is rounded down or up, as the device does (log 73). -/
def roundFree (s : State) (num : Int) (den : Nat) : Int × State :=
  if num % den = 0 then (num / den, s)
  else
    let r := drawChoice s
    (num / den + (r.1 % 2 : Nat), r.2)

/-- Linear interpolation in a trim table at the mean of n readings; beyond the table the spec states no value (log 74). -/
def trimAt (s : State) (tab : List Int) (sum : Int) (n : Nat) : Int × State :=
  let num := sum + 640 * n
  let den := 160 * n
  let i := num / den
  let rem := num % den
  if i < 0 ∨ 15 < i ∨ (i = 15 ∧ rem ≠ 0) then
    let r := drawChoice s
    (signed 16 r.1, r.2)
  else
    roundFree s (tab.getD i.toNat 0 * (den - rem) + tab.getD (i.toNat + 1) 0 * rem) den

/-- The trims of a site from the mean of its good sensors; the guard die compensates its bandgap alone. -/
def trimUpdate (s : State) (w : Site) : State :=
  let t := thmAt s w
  let good := goodTemps t
  if !t.loaded || good.isEmpty then s
  else
    let b := trimAt s t.bgTab good.sum good.length
    match w with
    | .guard => updThm b.2 w (fun t => { t with bgTrim := b.1 })
    | .die _ =>
      let o := trimAt b.2 t.oscTab good.sum good.length
      updThm o.2 w (fun t => { t with bgTrim := b.1, oscTrim := o.1 })

/-- THM_TRIM_UPDATE. -/
def execThmTrimUpdate (at_ : Site) (s : State) : Out := .next (if thmRuns s at_ then trimUpdate s at_ else s)

/-- The table entry that THM_TRIM_SEL selects. -/
def trimSel (s : State) (w : Site) : Int :=
  let v := regGet s (thmBase w + 0x44)
  (if bitAt v 4 then (thmAt s w).bgTab else (thmAt s w).oscTab).getD (fld v 3 0) 0

/-- Stores the selected table entry. -/
def putTrim (s : State) (w : Site) (x : Int) : State :=
  let v := regGet s (thmBase w + 0x44)
  updThm s w (fun t => if bitAt v 4 then { t with bgTab := t.bgTab.set (fld v 3 0) x } else { t with oscTab := t.oscTab.set (fld v 3 0) x })

/-- A write of THM_TRIM_DATA: TRIM under the lock, then LOADED (R515, R516, R565). -/
def thmDataWrite (s : State) (w : Site) (v : Word) : State :=
  let a := thmBase w + 0x48
  rowWrite s a v (fun s =>
    let x := signed 16 (fld v 15 0)
    let s1 := if locked s (thmBase w) then (if x = trimSel s w then s else recordErr s (thmBase w) 0x01 0x48) else putTrim s w x
    if bitAt v 31 then updThm s1 w (fun t => { t with loaded := true }) else s1)

/-- THM_LOADED: a write of THM_TRIM_DATA with LOADED 1. -/
def execThmLoaded (r : Requester) (at_ : Site) (v : Word) (s : State) : Out :=
  .next (byReq s r (fun s => if bitAt v 31 then thmDataWrite s at_ v else s))

end Sys2Proof.Machine
end

