-- ==== Sys2Proof/Machine/CipherAlarms.lean ====
section
/-! DEFINITION. Alarms and key erasure (R26, R360 to R364, R369, R372), the entropy source and the CTR_DRBG (R358, R359), and
the counter bounds of data slots (R352). -/
namespace Sys2Proof.Machine
open Sys2Proof

/-- The page of CRY. -/
def cryBase (d : DieId) : Nat := dreg d Page.cry 0

/-! ### Alarms -/

/-- The number of an alarm source in CRY_ALARM_LAST (R370). -/
def alarmCode : AlarmSource → Nat
  | .glitch => 1
  | .clock _ => 2
  | .temperature => 3
  | .tamper _ => 4
  | .waggle => 5

/-- The die number of a detecting site in CRY_ALARM_LAST. -/
def siteCode : Site → Nat
  | .die d => d.val
  | .guard => 0xF

/-- MODE of a tamper input (R372). -/
def tamperMode (s : State) (n : Fin 2) : Nat :=
  if n.val = 0 then gfld s Page.psu 0x180 3 2 else gfld s Page.psu 0x180 7 6

/-- A controller die's alarm that CRY_ALARM_EN enables. -/
def alarmEnabled (s : State) (d : DieId) (bit : Nat) : Bool := present s d && bitAt (regGet s (cryBase d + 0x40)) bit

/-- THM compensates the fast oscillator of a die: its tables are loaded and it has a good sensor (R515). -/
def compensated (x : Die) : Bool := x.thm.loaded && !(goodTemps x.thm).isEmpty

/-- What the clock monitor calls an alarm (R26): a lost lock, or more than 5 %, 12 % while THM does not compensate. -/
def clockAlarm (x : Die) (seen : ClockSeen) : Bool :=
  match seen with
  | .lockLost => true
  | .deviation n => decide ((if compensated x then 50 else 120) < n)

/-- The PLL whose lock is lost reports it no more (R26). -/
def lockGone (s : State) (src : AlarmSource) (w : Site) : State :=
  match src, w with
  | .clock .lockLost, .die d => s.updDie d (fun x => { x with pll := false })
  | _, _ => s

/-- A condition is an alarm (R360): an enabled one of a controller die, the clock monitor only while its PLL reports lock
(R26), a watched tamper input of the guard die, or a verified unlock of the Waggle port that asks for MEM or HALT, which its verification raises itself (R483). -/
def isAlarm (s : State) (src : AlarmSource) (w : Site) : Bool :=
  match src, w with
  | .glitch, .die d => alarmEnabled s d 0
  | .clock seen, .die d => alarmEnabled s d 1 && (s.die d).pll && clockAlarm (s.die d) seen
  | .temperature, .die d => alarmEnabled s d 2
  | .tamper n, .guard => tamperMode s n == 1 || tamperMode s n == 2
  | .waggle, .die d => d == 0 && s.wgl.grant.any (fun c => decide (2 ≤ c)) && !s.pkg.keysOut
  | _, _ => false

/-- Every slot of a die is erased, and its CRY records the alarm (step 3 of R361). -/
def alarmDie (src : AlarmSource) (w : Site) (s : State) (d : DieId) : State :=
  if present s d then
    let s1 := s.updDie d (fun x => { x with cry := eraseSlots x.cry })
    let s2 := regSet s1 (cryBase d + 0x94) (BitVec.ofNat 32 (siteCode w * 2 ^ 28 + alarmCode src))
    raiseInt (regBump s2 (cryBase d + 0x98) 1) (cryBase d) 1
  else s

/-- Step 4 of R361 on a die: TERMINATE for unencrypted sessions, no packet for encrypted ones. -/
def alarmSessions (s : State) (d : DieId) : State :=
  let s1 := terminateWhere s d (fun k => !k.enc) 0x05
  ((s1.die d).ktp.sessions).foldl (fun s k => endSession s d k) s1

/-- What a tamper input leaves in the guard die (R364, R372). -/
def noteTamper (s : State) (src : AlarmSource) : State :=
  match src with
  | .tamper n => { s with guard := { s.guard with
      tripped := n :: s.guard.tripped.filter (· != n)
      purge := s.guard.purge || tamperMode s n == 2 } }
  | _ => s

/-- The alarms of the last hour. -/
def alarmHour (s : State) : List Nat := s.guard.alarms.filter (fun t => decide (s.guard.devTime < t + 3600000000000))

/-- ALARM_HOLD (R363): every controller die is held in reset, its acknowledged writes flushed. -/
def alarmHold (s : State) : State :=
  let s1 := enterReset (stopAll s)
  { s1 with guard := { s1.guard with alarmHold := true, thermHold := false }, pkg := { s1.pkg with starting := false } }

/-- Steps 2 to 4 of R361 and the count of R363. -/
def alarm (s : State) (src : AlarmSource) (w : Site) : State :=
  let s0 := noteTamper (lockGone (wake s .alarm) src w) src
  let s1 := overDies (alarmDie src w) s0 allDies
  let s2 := overDies alarmSessions s1 (upDies s1)
  let d : DieId := match w with
    | .die d => d
    | .guard => 0
  let s3 := if running s2 d then recordEvent s2 d 0x03 (alarmCode src) else s2
  let s4 := { s3 with
    guard := { s3.guard with
      alarms := s3.guard.devTime :: alarmHour s3
      alarmSrc := if src = .waggle then s3.guard.alarmSrc else (src, w) :: s3.guard.alarmSrc.filter (fun q => !(alarmCode q.1 == alarmCode src && q.1 == src && q.2 == w)) }
    pkg := { s3.pkg with keysOut := s3.pkg.keysOut || src == .waggle } }
  if gfld s4 Page.psu 0x180 31 24 ≤ s4.guard.alarms.length ∧ s4.guard.losing = false ∧ s4.guard.alarmHold = false then alarmHold s4
  else s4

/-- ALARM: nothing in OFF (R361). -/
def execAlarm (src : AlarmSource) (at_ : Site) (s : State) : Out :=
  .next (if s.guard.off then s else if isAlarm s src at_ then alarm s src at_ else s)

/-- ALARM_RECOVER: the sources have been inactive for 100 ms, and the warm reset of step 5 of R361 runs. -/
def execAlarmRecover (s : State) : Out :=
  .next (if s.guard.alarmSrc.isEmpty || resetBlocked s || s.pkg.starting then s else warmReset s 4)

/-! ### Randomness -/

/-- ENTROPY_HEALTH_FAIL: counted, reported, and after three in a row the die borrows its seeds (R359, R371). -/
def execEntropyHealthFail (d : DieId) (s : State) : Out :=
  .next (onDie s d (fun s =>
    let s1 := recordErr (raiseInt (regBump s (cryBase d + 0x9C) 1) (cryBase d) 2) (cryBase d) 0x80 0
    let n := (s.die d).cry.fails + 1
    entropyUpdate (s1.updDie d (fun x => { x with cry := { x.cry with
      fails := n
      healthy := x.cry.healthy && decide (n < 3) } }))))

/-- ENTROPY_STARTUP_PASS: the die's own source is in use again (R359). -/
def execEntropyStartupPass (d : DieId) (s : State) : Out :=
  .next (onDie s d (fun s =>
    entropyUpdate (s.updDie d (fun x => { x with cry := { x.cry with fails := 0, healthy := true } }))))

/-- DRBG_RESEED: with seed material from the die's own source or a borrowed one (R358, R359). -/
def execDrbgReseed (d : DieId) (s : State) : Out :=
  .next (onDie s d (fun s =>
    if s.pkg.entropyFail then s
    else s.updDie d (fun x => { x with cry := { x.cry with reseeds := x.cry.reseeds + 1 } })))

/-! ### Counter bounds -/

/-- RESV_LOG2. -/
def resvLog2 (s : State) (d : DieId) : Nat := fld (regGet s (cryBase d + 0x4C)) 7 0

/-- CTR_BOUND_REQUEST: die 0 records a higher bound for a data slot that has few values left (R352, R371). -/
def execCtrBoundRequest (d : DieId) (slot : Nat) (s : State) : Out :=
  .next (onDie s d (fun s =>
    match (s.die d).cry.data.find? (fun k => k.num == slot) with
    | none => s
    | some k =>
      if running s 0 && decide (k.bound < k.ctr + 2 ^ (resvLog2 s d - 2)) then
        let bound := k.bound + 2 ^ resvLog2 s d
        let s1 := journalPut s (.ctrBound d.val k.tenant (boundKey k) bound)
        raiseInt (s1.updDie d (fun x => { x with cry := putSlot x.cry { k with bound := bound } })) (cryBase d) 4
      else s))

end Sys2Proof.Machine
end

