-- ==== Sys2Proof/Machine/Ethernet.lean ====
section
/-! DEFINITION. The Ethernet ports (R406 to R425): the receive path, the responder, priority flow control, sending, links,
statistics, filters and addresses. -/
namespace Sys2Proof.Machine
open Sys2Proof

/-- A field of a register of a port. -/
def efld (s : State) (d : DieId) (p : PortId) (off hi lo : Nat) : Nat := fld (regGet s (ethBase d p + off)) hi lo

/-- The port's MAC address (R424). -/
def portMac (s : State) (d : DieId) (p : PortId) : Nat := efld s d p 0x48 15 0 * 2 ^ 32 + efld s d p 0x44 31 0

/-- SPEED of a port. -/
def speedOf (s : State) (d : DieId) (p : PortId) : Nat := efld s d p 0x40 2 0

/-! ### A frame's fields -/

/-- The FCS of a frame: the CRC-32 of IEEE 802.3 (log 75). -/
def fcsBits : Nat → BitVec 32 → BitVec 32
  | 0, c => c
  | n + 1, c => fcsBits n ((c >>> 1) ^^^ (if c.getLsbD 0 then 0xEDB88320#32 else 0#32))

/-- CRC-32 of a byte string. -/
def fcsOf (b : Bytes) : BitVec 32 := ~~~ b.foldl (fun c x => fcsBits 8 (c ^^^ x.setWidth 32)) 0xFFFFFFFF#32

/-- What the receive path reads of a frame. -/
structure RxHead where
  dst    : Nat
  src    : Nat
  tagged : Bool
  vid    : Nat
  pcp    : Nat
  etype  : Nat          -- the type after any one tag
  l3     : Nat          -- where what follows the type begins
deriving DecidableEq, Repr

/-- Reads a frame's head: at most one 802.1Q tag (step 5 of R411). -/
def rxHead (b : Bytes) : RxHead :=
  let tagged := beAt b 12 2 == 0x8100
  { dst := beAt b 0 6, src := beAt b 6 6, tagged := tagged,
    vid := if tagged then beAt b 14 2 % 4096 else 0,
    pcp := if tagged then beAt b 14 2 / 8192 else 0,
    etype := if tagged then beAt b 16 2 else beAt b 12 2,
    l3 := if tagged then 18 else 14 }

/-- Whether a frame carries IPv4, and IPv6. A second tag or a 0x88A8 tag leaves another type here. -/
def isV4 (h : RxHead) : Bool := h.etype == 0x0800
def isV6 (h : RxHead) : Bool := h.etype == 0x86DD

/-- IPv4 Protocol or IPv6 Next Header, none for a frame that is not IP. -/
def ipProto (b : Bytes) (h : RxHead) : Option Nat :=
  if isV4 h then some (byteAt b (h.l3 + 9)) else if isV6 h then some (byteAt b (h.l3 + 6)) else none

/-- Where the IP payload begins. -/
def ipBody (b : Bytes) (h : RxHead) : Nat := if isV4 h then h.l3 + byteAt b h.l3 % 16 * 4 else h.l3 + 40

/-- The type of an ICMPv6 message, none for another frame. -/
def icmp6 (b : Bytes) (h : RxHead) : Option Nat :=
  if isV6 h && byteAt b (h.l3 + 6) == 58 then some (byteAt b (h.l3 + 40)) else none

/-! ### Addresses (R409, R411) -/

/-- The valid slots of a port. -/
def validSlots (s : State) (d : DieId) (p : PortId) : List AddrSlot :=
  (portOf (s.die d) p).slots.filter (fun a => a.valid)

/-- Step 3 of R411. -/
def dstOk (s : State) (d : DieId) (p : PortId) (h : RxHead) : Bool :=
  h.dst == portMac s d p || (h.dst == 0xFFFFFFFFFFFF && h.etype == 0x0806)
    || (validSlots s d p).any (fun a => a.v6 && h.dst == 0x3333FF000000 + slotIp a % 2 ^ 24)

/-- The VLAN of a request is the slot's, or both are untagged (R415). -/
def vlanFits (a : AddrSlot) (h : RxHead) : Bool := a.tagged == h.tagged && (!a.tagged || a.vid == h.vid)

/-! ### The responder (R415, R416) -/

/-- The frame that answers a request. -/
def answerFrame (h : RxHead) (pcp : Nat) (v6 : Bool) (dstIp : Nat) (k : TxKind) : TxPkt :=
  { pcp := pcp, dscp := 0, vlan := if h.tagged then some h.vid else none, dstMac := h.src, v6 := v6, dstIp := dstIp, dstUdp := 0,
    kind := k }

/-- Whether the responder may answer once more in this second of device time, counted from its last second. -/
def mayAnswer (s : State) (d : DieId) (p : PortId) : Bool :=
  let q := portOf (s.die d) p
  q.arpSec != (s.die d).mon.devTime / 1000000000 || decide (q.arpSent < 1000)

/-- Queues one answer, or counts it as limited. -/
def answerOne (s : State) (d : DieId) (p : PortId) (t : Nat → TxPkt) : State :=
  let sec := (s.die d).mon.devTime / 1000000000
  if mayAnswer s d p then
    let r := drawChoice s
    let s1 := updPort r.2 d p (fun q => { q with
      arpSent := if q.arpSec = sec then q.arpSent + 1 else 1
      arpSec := sec })
    queueTx (ethCount s1 d p 0x300 1) d p (t (r.1 % 8))
  else ethCount s d p 0x308 1

/-- An ARP frame at the responder: a request for a valid IPv4 slot. -/
def arpIn (s : State) (d : DieId) (p : PortId) (h : RxHead) (b : Bytes) : State :=
  let ip := beAt b (h.l3 + 24) 4
  if beAt b (h.l3 + 6) 2 = 1 ∧ (validSlots s d p).any (fun a => !a.v6 && slotIp a == ip && vlanFits a h) = true then
    answerOne s d p (fun pcp => answerFrame h pcp false (beAt b (h.l3 + 14) 4) (.arpReply ip))
  else s

/-- A Neighbor Solicitation for a valid IPv6 slot. -/
def nsIn (s : State) (d : DieId) (p : PortId) (h : RxHead) (b : Bytes) : State :=
  let ip := beAt b (h.l3 + 48) 16
  if (validSlots s d p).any (fun a => a.v6 && slotIp a == ip && vlanFits a h) then
    answerOne s d p (fun pcp => answerFrame h pcp true (beAt b (h.l3 + 8) 16) (.neighbourAdv ip))
  else s

/-- One announcement of a slot: a gratuitous ARP, or an unsolicited Neighbor Advertisement to all nodes. -/
def announceSlot (d : DieId) (p : PortId) (s : State) (a : AddrSlot) : State :=
  let r := drawChoice s
  queueTx r.2 d p
    { pcp := r.1 % 8, dscp := 0, vlan := if a.tagged then some a.vid else none,
      dstMac := if a.v6 then 0x333300000001 else 0xFFFFFFFFFFFF, v6 := a.v6,
      dstIp := if a.v6 then 0xFF02 * 2 ^ 112 + 1 else slotIp a, dstUdp := 0,
      kind := if a.v6 then .unsolicitedNa (slotIp a) else .gratuitousArp (slotIp a) }

/-- The announcements of R416. -/
def announce (s : State) (d : DieId) (p : PortId) : State := (validSlots s d p).foldl (announceSlot d p) s

/-! ### Flow control (R417, R419) -/

/-- A PFC frame for one priority: a time pauses it when RX_EN is 1, a time of 0 ends the pause. -/
def pfcPrio (d : DieId) (p : PortId) (b : Bytes) (l3 : Nat) (s : State) (n : Nat) : State :=
  if (beAt b (l3 + 2) 2).testBit n then
    let s1 := ethCount s d p (0x248 + 8 * n) 1
    if (efld s d p 0x50 15 8).testBit n then
      updPort s1 d p (fun q =>
        if beAt b (l3 + 4 + 2 * n) 2 = 0 then { q with paused := q.paused.filter (· != n), discard := q.discard.filter (· != n) }
        else { q with paused := n :: q.paused.filter (· != n) })
    else s1
  else s

/-- A MAC control frame: PFC is acted on, PAUSE is counted and dropped (step 2 of R411). -/
def macControl (s : State) (d : DieId) (p : PortId) (h : RxHead) (b : Bytes) : State :=
  if beAt b h.l3 2 = 0x0101 then (List.range 8).foldl (pfcPrio d p b h.l3) s
  else if beAt b h.l3 2 = 1 then ethCount s d p 0x240 1
  else s

/-! ### Filters (R413) -/

/-- Whether a filter entry matches a frame. -/
def filterHit (h : RxHead) (b : Bytes) (f : Filter) : Bool :=
  bitAt f.act 31
    && (!bitAt f.act 30 || bitAt f.matchA 0 == h.tagged)
    && (!bitAt f.act 29 || (h.tagged && fld f.matchA 15 4 == h.vid))
    && (!bitAt f.act 28 || (h.tagged && fld f.matchA 3 1 == h.pcp))
    && (!bitAt f.act 27 || fld f.matchA 31 16 == h.etype)
    && (!bitAt f.act 26 || ipProto b h == some (fld f.matchB 15 8))
    && (!bitAt f.act 25 || (ipProto b h == some 17 && fld f.matchB 31 16 == beAt b (ipBody b h + 2) 2))

/-- The queue that a frame goes to: that of the lowest matching entry. -/
def filterQueue (s : State) (d : DieId) (p : PortId) (h : RxHead) (b : Bytes) : Option Nat :=
  (argMin (fun f : Filter => f.idx) ((portOf (s.die d) p).filters.filter (filterHit h b))).map (fun f => fld f.act 5 0)

/-! ### Buffers (steps 7 to 10 of R411) -/

/-- The pool of a queue (R412). -/
def poolOfQueue (s : State) (d : DieId) (q : Nat) : Fin 16 :=
  ⟨efld s d 0 (0x100 + 4 * q) 3 0 % 16, Nat.mod_lt _ (by decide)⟩

/-- Takes up to n buffers, one at a time, for ETH; stops at the first failure. -/
def takeBuffers (d : DieId) (p : Fin 16) : Nat → State → List Nat → List Nat × State
  | 0, s, l => (l, s)
  | n + 1, s, l =>
    let r := allocBuf s d p Owner.eth.id
    if r.1 = 0 then (l, r.2) else takeBuffers d p n r.2 (l ++ [r.1])

/-- Fills buffers with a frame's bytes. -/
def fillBuffers (d : DieId) (size : Nat) : List Nat → Bytes → State → State
  | [], _, s => s
  | a :: r, b, s => fillBuffers d size r (b.drop size) (memWrite s d a (b.take size))

/-- Returns buffers to their pool. -/
def dropBuffers (s : State) (d : DieId) (l : List Nat) : State := l.foldl (fun s a => dropRef s d a Owner.eth.id) s

/-- Steps 7 to 10: buffers, length, FCS, delivery. -/
def rxBody (s : State) (d : DieId) (p : PortId) (h : RxHead) (f : Frame) (queue : Nat) : State :=
  let pool := poolOfQueue s d queue
  let size := 2 ^ (poolAt s d pool).sizeLog2
  let len := f.bytes.length + 4
  let limit := efld s d p 0x4C 13 0 + (if h.tagged then 22 else 18)
  let need := ceilDiv (min len (limit + 1)) size
  let t := takeBuffers d pool need s []
  let fcs := if f.fcsOk then (leBytes 4 (fcsOf f.bytes).toNat, t.2) else drawBytes t.2 4
  let s1 := fillBuffers d size t.1 ((f.bytes ++ fcs.1).take (min len (limit + 1))) fcs.2
  if t.1.length < need then ethCount (dropBuffers s1 d t.1) d p 0x238 1
  else if limit < len then ethCount (dropBuffers s1 d t.1) d p 0x220 1
  else if !f.fcsOk || !f.fecOk then ethCount (dropBuffers s1 d t.1) d p 0x210 1
  else
    let s2 := s1.updDie d (fun x => { x with
      rxq := x.rxq ++ [{ queue := queue, bytes := f.bytes, pool := pool.val, bufs := t.1 }] })
    ethCount (ethCount s2 d p 0x200 1) d p 0x208 len

/-- R411, step by step. -/
def rxSteps (s : State) (d : DieId) (p : PortId) (f : Frame) : State :=
  let b := f.bytes
  let h := rxHead b
  if b.length + 4 < 64 then ethCount s d p 0x218 1
  else if beAt b 12 2 = 0x8808 then macControl s d p { h with l3 := 14 } b
  else if !dstOk s d p h then ethCount s d p 0x228 1
  else if h.etype = 0x0806 then arpIn s d p h b
  else if icmp6 b h = some 135 then nsIn s d p h b
  else if icmp6 b h = some 134 ∨ icmp6 b h = some 137 then s
  else match filterQueue s d p h b with
    | none => ethCount s d p 0x230 1
    | some q =>
      let pool := poolOfQueue s d q
      let s1 := rxBody s d p h f q
      if (poolAt s1 d pool).corrupt && !(poolAt s d pool).corrupt then dieFault s1 d .pool else s1

/-- A frame received while the link is up; it wakes a die in SLEEP (R422). -/
def rxFrame (s : State) (d : DieId) (p : PortId) (f : Frame) : State :=
  if (portOf (s.die d) p).up then
    let s1 := wakeDie s d
    rxSteps (if f.fecOk then s1 else ethCount s1 d p 0x2F8 1) d p f
  else s

/-- RX_FRAME. -/
def execRxFrame (d : DieId) (p : PortId) (f : Frame) (s : State) : Out :=
  .next (onBlock s d (Page.eth p) (fun s => rxFrame s d p f))

/-! ### Flow control rows -/

/-- PFC_PAUSE_EXPIRE: the pause time of a priority has passed (R417, R419). -/
def execPfcPauseExpire (d : DieId) (p : PortId) (prio : Fin 8) (s : State) : Out :=
  .next (onDie s d (fun s => updPort s d p (fun q => { q with
    paused := q.paused.filter (· != prio.val)
    discard := q.discard.filter (· != prio.val) })))

/-- PFC_RESEND: half of QUANTA has passed and the condition still holds (R418). -/
def execPfcResend (d : DieId) (p : PortId) (s : State) : Out :=
  .next (onDie s d (fun s => if (portOf (s.die d) p).sending then sendPfc s d p (pfcQuanta s d p) else s))

/-- One frame discarded by the watchdog (R419, R425). -/
def wdDrop (s : State) (d : DieId) (p : PortId) : State := raiseInt (ethCount s d p 0x2A8 1) (ethBase d p) 3

/-- PFC_WATCHDOG: the priority has stayed paused for PFC_WD_MS, and its queued frames are discarded (R419). -/
def execPfcWatchdog (d : DieId) (p : PortId) (prio : Fin 8) (s : State) : Out :=
  .next (onDie s d (fun s =>
    let q := portOf (s.die d) p
    if efld s d p 0x54 15 0 ≠ 0 ∧ q.paused.contains prio.val = true then
      let s1 := updPort s d p (fun q => { q with
        discard := prio.val :: q.discard.filter (· != prio.val)
        txq := q.txq.filter (fun t => t.pcp != prio.val) })
      (q.txq.filter (fun t => t.pcp == prio.val)).foldl (fun s _ => wdDrop s d p) s1
    else s))

/-! ### Sending (R420, R421) -/

/-- The start threshold of a TX_STEP below 4. -/
def txThreshold (step : Nat) : Nat := 512 * 2 ^ step

/-- Whether data can run out in a frame: its start does not wait for the whole of it. -/
def canUnderrun (s : State) (d : DieId) (p : PortId) (t : TxPkt) : Bool :=
  let step := efld s d p 0x58 2 0
  decide (step < 4) && decide (txThreshold step < txLen t)

/-- An underrun (R420, R425). -/
def underrun (s : State) (d : DieId) (p : PortId) (t : TxPkt) : State :=
  let s1 := raiseInt (ethCount (sendFrame s d p t true) d p 0x298 1) (ethBase d p) 2
  regFld s1 (ethBase d p + 0x58) 2 0 (min 4 (efld s d p 0x58 2 0 + 1))

/-- The first frame that may leave: of no paused priority, or of one whose frames are discarded. -/
def txNext (q : EthPort) : Option TxPkt := q.txq.find? (fun t => !q.paused.contains t.pcp || q.discard.contains t.pcp)

/-- TX_FRAME on a port. -/
def txFrame (s : State) (d : DieId) (p : PortId) (short : Bool) : State :=
  let q := portOf (s.die d) p
  match txNext q with
  | none => s
  | some t =>
    let s1 := updPort s d p (fun q => { q with txq := q.txq.erase t })
    if !q.up then sendFrame s1 d p t false
    else if q.discard.contains t.pcp then wdDrop s1 d p
    else if short && canUnderrun s d p t then underrun s1 d p t
    else sendFrame s1 d p t false

/-- TX_FRAME. -/
def execTxFrame (d : DieId) (p : PortId) (underrun : Bool) (s : State) : Out :=
  .next (onBlock s d (Page.eth p) (fun s => txFrame s d p underrun))

/-! ### Links (R406 to R408) -/

/-- Whether a port is off: its SPEED is 0, or port 0 of the die holds both lanes as a wide port (R406). -/
def portIsOff (s : State) (d : DieId) (p : PortId) : Bool := speedOf s d p == 0 || (p == 1 && speedOf s d 0 == 1)

/-- LINK_UP: negotiated when AN_EN is 1, trained, and announced (R408, R416); no port comes up in a clock fault (R25). -/
def execLinkUp (d : DieId) (p : PortId) (s : State) : Out :=
  .next (onBlock s d (Page.eth p) (fun s =>
    if portIsOff s d p = true ∨ (portOf (s.die d) p).up = true ∨ s.pkg.clockFault = true then s
    else
      let an := efld s d p 0x40 15 15 == 1
      let s1 := updPort s d p (fun q => { q with up := true, anDone := an, attempts := 0 })
      announce (raiseInt s1 (ethBase d p) 1) d p))

/-- LINK_DOWN: loss of signal or block lock (R408, R421). -/
def execLinkDown (d : DieId) (p : PortId) (s : State) : Out := .next (onDie s d (fun s => portDown s d p))

/-- LINK_TRAIN_FAIL: a failed attempt (R408, R425). -/
def execLinkTrainFail (d : DieId) (p : PortId) (s : State) : Out :=
  .next (onBlock s d (Page.eth p) (fun s =>
    let q := portOf (s.die d) p
    if portIsOff s d p = true ∨ q.up = true then s
    else
      let n := min 255 (q.attempts + 1)
      recordErr (updPort s d p (fun q => { q with attempts := n })) (ethBase d p) 0x80 n))

/-! ### Statistics, filters, addresses -/

/-- A snapshot (R423). -/
def snapshot (s : State) (d : DieId) (p : PortId) : State :=
  let clear := efld s d p 0x5C 1 1 == 1
  let s1 := updPort s d p (fun q => { q with shadow := q.live, live := if clear then [] else q.live })
  raiseInt (regBump s1 (ethBase d p + 0x94) 1) (ethBase d p) 4

/-- A write of ETH_STAT_CMD. -/
def statCmdWrite (s : State) (d : DieId) (p : PortId) (v : Word) : State :=
  let a := ethBase d p + 0x5C
  rowWrite s a v (fun s =>
    let s1 := storeReg s a v
    if bitAt v 0 then snapshot s1 d p else s1)

/-- ETH_SNAP: SNAP 1. -/
def execEthSnap (r : Requester) (d : DieId) (p : PortId) (v : Word) (s : State) : Out :=
  .next (byReq s r (fun s => if bitAt v 0 then statCmdWrite s d p v else s))

/-- A write of ETH_FLT_ACT loads the selected entry in one step (R414). -/
def fltActWrite (s : State) (d : DieId) (p : PortId) (v : Word) : State :=
  let base := ethBase d p
  rowWrite s (base + 0x84) v (fun s =>
    let s1 := storeReg s (base + 0x84) v
    let f : Filter := { idx := fld (regGet s (base + 0x78)) 4 0, matchA := regGet s (base + 0x7C), matchB := regGet s (base + 0x80),
                        act := regGet s1 (base + 0x84) }
    updPort s1 d p (fun q => { q with filters := f :: q.filters.filter (fun g => g.idx != f.idx) }))

/-- ETH_FLT_ACT. -/
def execEthFltAct (r : Requester) (d : DieId) (p : PortId) (v : Word) (s : State) : Out := .next (byReq s r (fun s => fltActWrite s d p v))

/-- An address slot of a port, empty until written. -/
def portSlot (q : EthPort) (n : Nat) : AddrSlot :=
  (q.slots.find? (fun a => a.slot == n)).getD
    { slot := n, valid := false, v6 := false, tagged := false, vid := 0, data := 0, next := 0 }

/-- Replaces an address slot. -/
def putSlotAddr (q : EthPort) (a : AddrSlot) : EthPort := { q with slots := a :: q.slots.filter (fun b => b.slot != a.slot) }

/-- The selected slot. -/
def addrSel (s : State) (d : DieId) (p : PortId) : Nat := efld s d p 0x60 2 0

/-- A write of ETH_ADDR_CFG commits the selected slot (R409, R416, R424). -/
def addrCfgWrite (s : State) (d : DieId) (p : PortId) (v : Word) : State :=
  let a := ethBase d p + 0x64
  rowWrite s a v (fun s =>
    if bitAt v 29 && (fld v 11 0 == 0 || fld v 11 0 == 4095) then badValue s a
    else
      let s1 := updPort s d p (fun q =>
        let k := portSlot q (addrSel s d p)
        putSlotAddr q { k with valid := bitAt v 31, v6 := bitAt v 30, tagged := bitAt v 29, vid := fld v 11 0, data := k.next })
      if bitAt v 31 then announce s1 d p else s1)

/-- ETH_ADDR_CFG. -/
def execEthAddrCfg (r : Requester) (d : DieId) (p : PortId) (v : Word) (s : State) : Out := .next (byReq s r (fun s => addrCfgWrite s d p v))

/-- A write of ETH_ADDR_DATA0 to DATA3: the next address of the selected slot. -/
def addrDataWrite (s : State) (d : DieId) (p : PortId) (i : Nat) (v : Word) : State :=
  updPort s d p (fun q =>
    let k := portSlot q (addrSel s d p)
    let w := k.next.toNat
    let lo := 2 ^ (32 * i)
    putSlotAddr q { k with next := BitVec.ofNat 128 (w - w / lo % 2 ^ 32 * lo + v.toNat * lo) })

end Sys2Proof.Machine
end

