-- ==== Sys2Proof/Machine/Interrupts.lean ====
section
/-! DEFINITION. The interrupt controller of a die (R466 to R472, R490). -/
namespace Sys2Proof.Machine
open Sys2Proof

/-- The page of ICU. -/
def icuBase (d : DieId) : Nat := dreg d Page.icu 0

/-- DEST of a receive queue is the worker cores (R412). -/
def queueToCores (s : State) (d : DieId) (q : Nat) : Bool := efld s d 0 (0x100 + 4 * q) 7 7 == 1

/-- Whether a level source is raised now (R466). -/
def icuLevel (s : State) (d : DieId) (n : Nat) : Bool :=
  if n < 256 then (blockAt (dreg d n 0)).isSome && intStat s (dreg d n 0) != 0
  else if n < 384 then false
  else if n < 448 then queueToCores s d (n - 384) && (s.die d).rxq.any (fun r => r.queue == n - 384)
  else if n < 456 then d == 0 && (blockAt (greg (n - 448) 0)).isSome && intStat s (greg (n - 448) 0) != 0
  else n == 456 && d == 0 && intStat s (nreg 0) != 0

/-- A source's record, at reset when nothing is kept of it. -/
def srcAt (x : Die) (n : Nat) : IcuSrc := (x.icu.srcs.find? (fun q => q.num == n)).getD { num := n }

/-- Stores a source's record. -/
def putSrc (s : State) (d : DieId) (q : IcuSrc) : State :=
  s.updDie d (fun x => { x with icu := { x.icu with srcs := q :: x.icu.srcs.filter (fun r => r.num != q.num) } })

/-- Level sources that are no longer raised have fallen: their next rise is an event. -/
def icuFall (s : State) (d : DieId) : State :=
  s.updDie d (fun x => { x with icu := { x.icu with
    srcs := x.icu.srcs.map (fun q => if icuLevel s d q.num then q else { q with raised := false }) } })

/-- Every die's sources after a change of interrupt registers. -/
def icuFallAll (s : State) : State := overDies icuFall s allDies

/-- HOLDOFF of a group. -/
def holdOff (s : State) (d : DieId) (g : Nat) : Nat := fld (regGet s (icuBase d + 0x50 + 4 * g)) 31 16

/-- The core that a source resolves to (R468): its target, its group's fallback, the lowest-numbered enabled core. -/
def resolvedCore (s : State) (d : DieId) (q : IcuSrc) : Option CoreId :=
  let t := coreOf q.target
  let f := coreOf (fld (regGet s (icuBase d + 0x50 + 4 * q.group)) 2 0)
  if coreOn s d t then some t else if coreOn s d f then some f else (coresOn s d).head?

/-- Presents a source that is PENDING and enabled, unless its group's hold-off runs; it starts the hold-off and wakes the
die (R467, R468, R472). -/
def icuShow (d : DieId) (s : State) (n : Nat) : State :=
  let q := srcAt (s.die d) n
  if q.st = 1 ∧ q.en = true ∧ q.shown = false ∧ (s.die d).icu.hold.contains q.group = false then
    let s1 := putSrc s d { q with shown := true }
    let s2 := if holdOff s d q.group = 0 then s1
      else s1.updDie d (fun x => { x with icu := { x.icu with hold := q.group :: x.icu.hold } })
    wakeDie s2 d
  else s

/-- An event of a source (R467): counted, and PENDING while EN is 1. -/
def icuCount (s : State) (d : DieId) (n : Nat) (raised : Bool) : State :=
  let q := srcAt (s.die d) n
  icuShow d (putSrc s d { q with
    count := min 255 (q.count + 1)
    raised := raised
    st := if q.st = 0 ∧ q.en = true then 1 else q.st }) n

/-- ICU_EVENT: a rise of a level source. -/
def execIcuEvent (d : DieId) (src : Nat) (s : State) : Out :=
  .next (onDie s d (fun s =>
    let s1 := icuFall s d
    if icuLevel s1 d src && !(srcAt (s1.die d) src).raised then icuCount s1 d src true else s1))

/-- Sources that are PENDING and not yet presented, those of higher PRIO first and then by number. -/
def icuWaiting (x : Die) : List Nat :=
  (List.range 16).reverse.flatMap (fun p =>
    (List.range 512).filter (fun n => x.icu.srcs.any (fun q => q.num == n && q.prio == p && q.st == 1 && q.en && !q.shown)))

/-- The source that a core claims: of those presented to it, the one of highest PRIO, then of lowest number (R470). -/
def claimOf (s : State) (d : DieId) (c : CoreId) : Option IcuSrc :=
  let l := (s.die d).icu.srcs.filter (fun q => q.st == 1 && q.en && q.shown && resolvedCore s d q == some c)
  argMin (fun q : IcuSrc => (15 - q.prio) * 512 + q.num) l

/-- A read of ICU_CLAIMn by core n (R470). -/
def icuClaim (s : State) (d : DieId) (c : CoreId) : State :=
  match claimOf s d c with
  | none => { s with answer := { s.answer with data := 0 } }
  | some q =>
    let s1 := putSrc s d { q with st := 2, count := 0, shown := false }
    { s1 with answer := { s1.answer with data := BitVec.ofNat 32 (2 ^ 31 + q.count * 65536 + q.num) } }

/-- ICU_CLAIM: a halted or fenced core reads nothing, nor one that takes no interrupt during a step (R485, R486). -/
def execIcuClaim (d : DieId) (core : CoreId) (s : State) : Out :=
  .next (onDie s d (fun s =>
    if coreOn s d core && decide ((coreAt s d core).st ≠ .halted) && !(coreAt s d core).maskIrq then icuClaim s d core else s))

/-- A write of ICU_COMPLETE (R471). -/
def completeWrite (s : State) (d : DieId) (v : Word) : State :=
  rowWrite s (icuBase d + 0xB0) v (fun s0 =>
    let s := icuFall s0 d
    let q := srcAt (s.die d) (fld v 8 0)
    if q.st = 2 then
      (if 0 < q.count ∨ icuLevel s d q.num = true then icuShow d (putSrc s d { q with st := 1 }) q.num
       else putSrc s d { q with st := 0 })
    else raiseInt (regBump s (icuBase d + 0xC4) 1) (icuBase d) 1)

/-- ICU_COMPLETE. -/
def execIcuComplete (r : Requester) (d : DieId) (v : Word) (s : State) : Out := .next (byReq s r (fun s => completeWrite s d v))

/-- ICU_SWSET: an event of a software source (R466, R467). -/
def execIcuSwset (r : Requester) (d : DieId) (v : Word) (s : State) : Out :=
  .next (byReq s r (fun s => rowWrite s (icuBase d + 0xB4) v (fun s => icuCount s d (fld v 8 0) false)))

/-- ICU_HOLDOFF_EXPIRY: the group's next source is presented (R472). -/
def execIcuHoldoffExpiry (d : DieId) (g : Fin 16) (s : State) : Out :=
  .next (onDie s d (fun s =>
    if (s.die d).icu.hold.contains g.val then
      let s1 := s.updDie d (fun x => { x with icu := { x.icu with hold := x.icu.hold.filter (· != g.val) } })
      ((icuWaiting (s1.die d)).filter (fun n => (srcAt (s1.die d) n).group == g.val)).foldl (icuShow d) s1
    else s))

/-- A write of ICU_SRC_CFG acts on the source that ICU_SRC_SEL names; a source that is not delivered is not presented. -/
def srcCfgWrite (s : State) (d : DieId) (v : Word) : State :=
  let n := fld (regGet s (icuBase d + 0x40)) 8 0
  let q := srcAt (s.die d) n
  icuShow d (putSrc s d { q with
    en := bitAt v 31
    prio := fld v 27 24
    group := fld v 23 20
    target := fld v 2 0
    shown := q.shown && bitAt v 31 }) n

end Sys2Proof.Machine
end

