-- ==== Sys2Proof/Machine/Swarm.lean ====
section
/-! DEFINITION. The Swarm links between dies (R17 to R21, R473 to R477, R491). -/
namespace Sys2Proof.Machine
open Sys2Proof

/-- The state of a link changes, with INT bit 1 (R491). -/
def setLink (s : State) (d : DieId) (k : SwmId) (st : LinkState) : State :=
  if (linkOf (s.die d) k).st = st then s else raiseInt (updLink s d k (fun q => { q with st := st })) (swmBase d k) 1

/-! ### Retiring a link (R475, R20) -/

/-- One end of a retired link: LINK_RETIRED, and its unacknowledged flits ahead of the held messages. -/
def retireEnd (s : State) (d : DieId) (k : SwmId) : State :=
  if running s d && (linkOf (s.die d) k).st != .retired then
    let s1 := setLink s d k .retired
    let s2 := updLink s1 d k (fun q => { q with hold := q.replay ++ q.hold, replay := [], rounds := 0, switching := true })
    recordErr s2 (swmBase d k) 0x80 (partnerOf d k)
  else s

/-- A link is retired at both ends. -/
def retireLink (s : State) (d : DieId) (k : SwmId) : State :=
  cutUnreached (retireEnd (retireEnd s d k) (partnerDie d k) k)

/-! ### Replay rounds (R474, R475) -/

/-- RETRY_ROUNDS. -/
def retryRounds (s : State) (d : DieId) (k : SwmId) : Nat := fld (regGet s (swmBase d k + 0x40)) 11 8

/-- A link retrains: both ends train. -/
def retrain (s : State) (d : DieId) (k : SwmId) : State :=
  let s1 := regBump (setLink s d k .training) (swmBase d k + 0x8C) 1
  let e := partnerDie d k
  if running s1 e && (linkOf (s1.die e) k).st == .up then setLink s1 e k .training else s1

/-- A replay round of a sender; RETRY_ROUNDS of them in a row on one flit retrain the link. -/
def replayRound (s : State) (d : DieId) (k : SwmId) (sameFlit : Bool) : State :=
  let n := if sameFlit then (linkOf (s.die d) k).rounds + 1 else 1
  let s1 := regBump (updLink s d k (fun q => { q with rounds := n })) (swmBase d k + 0x88) 1
  if retryRounds s d k ≤ n then retrain (updLink s1 d k (fun q => { q with rounds := 0 })) d k else s1

/-- Whether a flit of a class can leave now: the link is up, and a credit of its class is there (R473). -/
def flitGoes (q : Swm) (f : Flit) : Bool := q.st == .up && !q.held && decide (0 < if f.response then q.rspCred else q.reqCred)

/-- The sender's end when a flit leaves: kept in the replay buffer, one credit spent (R473, R474). -/
def leaveFlit (q : Swm) (f : Flit) : Swm :=
  { q with
    replay := q.replay ++ [f]
    txNext := max q.txNext (f.seq + 1)
    reqCred := if f.response then q.reqCred else q.reqCred - 1
    rspCred := if f.response then q.rspCred - 1 else q.rspCred }

/-- The sender's end of a flit on the link: one that is replayed is in the buffer already. -/
def sendFlit (q : Swm) (f : Flit) : Swm :=
  if q.replay.any (fun g => g.seq == f.seq) then { q with txNext := max q.txNext (f.seq + 1) } else leaveFlit q f

/-- A message takes the next sequence number of a port and leaves, or waits behind those of its class (R473, R475). -/
def queueFlit (q : Swm) (f : Flit) : Swm :=
  if flitGoes q f && !q.hold.any (fun g => g.response == f.response) then leaveFlit q { f with seq := q.txNext, crcOk := true }
  else { q with hold := q.hold ++ [f] }

/-- The messages that wait at a port leave as far as its credits go. -/
def drainLink (q : Swm) : Swm := q.hold.foldl queueFlit { q with hold := [] }

/-- The sender's end when a flit is acknowledged: it leaves the buffer and its credit returns, for the next that waits. -/
def ackFlit (q : Swm) (f : Flit) : Swm :=
  drainLink { q with
    replay := q.replay.filter (fun g => decide (f.seq < g.seq))
    rounds := 0
    reqCred := if f.response then q.reqCred else min 64 (q.reqCred + 1)
    rspCred := if f.response then min 64 (q.rspCred + 1) else q.rspCred }

/-- A die forwards a message on the port of R18; on the old one while a retired link's messages have not gone over (R18, R20). -/
def forwardFlit (s : State) (d : DieId) (f : Flit) : State :=
  match portNow s d f.dst with
  | none => s
  | some j => updLink s d j (fun q => queueFlit q f)

/-- A message at its destination: a number already accepted is a duplicate (R476). Numbers more than half the range old are
forgotten (log 76). -/
def endToEnd (s : State) (d : DieId) (k : SwmId) (f : Flit) : State :=
  let l := (linkOf (s.die d) k).seen
  if allLinks.any (fun j => (linkOf (s.die d) j).seen.contains (f.src, f.dst, f.e2e)) then regBump s (swmBase d k + 0x94) 1
  else
    let mine := l.filter (fun t => t.1 == f.src && t.2.1 == f.dst)
    let rest := l.filter (fun t => !(t.1 == f.src && t.2.1 == f.dst))
    updLink s d k (fun q => { q with seen := (f.src, f.dst, f.e2e) :: mine.take 32767 ++ rest })

/-- SWM_FLIT_RX: a flit that the partner has sent arrives (R473, R474, R476); one for another die is forwarded (R18). -/
def flitRx (s : State) (d : DieId) (k : SwmId) (f : Flit) : State :=
  let e := partnerDie d k
  if (linkOf (s.die d) k).st != .up || !running s e then s
  else
    let s1 := updLink s e k (fun q => sendFlit q f)
    let first := ((linkOf (s1.die e) k).replay.head?).all (fun g => g.seq == f.seq)
    if !f.crcOk then replayRound (regBump s1 (swmBase d k + 0x84) 1) e k first
    else if f.seq ≠ (linkOf (s.die d) k).rxNext then replayRound s1 e k first
    else
      let s2 := updLink (updLink s1 e k (fun q => ackFlit q f)) d k (fun q => { q with rxNext := q.rxNext + 1 })
      if f.dst = d then endToEnd s2 d k f else forwardFlit s2 d f

/-- SWM_FLIT_RX. -/
def execSwmFlitRx (d : DieId) (k : SwmId) (f : Flit) (s : State) : Out := .next (onDie s d (fun s => flitRx s d k f))

/-- SWM_REPLAY_TIMEOUT: REPLAY_NS without an acknowledgement (R474). -/
def execSwmReplayTimeout (d : DieId) (k : SwmId) (s : State) : Out :=
  .next (onDie s d (fun s =>
    if (linkOf (s.die d) k).st = .up ∧ (linkOf (s.die d) k).replay.isEmpty = false then replayRound s d k true else s))

/-- A link that has trained is up at both ends, with all its credits, and what waited for it goes (R475). -/
def linkTrained (s : State) (d : DieId) (k : SwmId) : State :=
  let e := partnerDie d k
  let up (s : State) (d : DieId) : State :=
    if running s d && (linkOf (s.die d) k).st == .training then
      updLink (setLink (updLink s d k (fun q => { q with reqCred := 64, rspCred := 64, rounds := 0, held := false })) d k .up) d k
        drainLink
    else s
  releaseAll (up (up s d) e)

/-- SWM_RETRAIN_DONE (R475). -/
def execSwmRetrainDone (d : DieId) (k : SwmId) (ok : Bool) (s : State) : Out :=
  .next (onDie s d (fun s =>
    if (linkOf (s.die d) k).st = .training then (if ok then linkTrained s d k else retireLink s d k) else s))

/-- A write of SWM_CFG; RETIRE retires the link at once (R475, R491). -/
def swmCfgWrite (s : State) (d : DieId) (k : SwmId) (v : Word) : State :=
  rowWrite s (swmBase d k + 0x40) v (fun s =>
    let s1 := storeReg s (swmBase d k + 0x40) v
    if bitAt v 0 && decide (partnerOf d k < partDies s.part) then retireLink s1 d k else s1)

/-- SWM_RETIRE. -/
def execSwmRetire (r : Requester) (d : DieId) (k : SwmId) (v : Word) (s : State) : Out :=
  .next (byReq s r (fun s => if bitAt v 0 then swmCfgWrite s d k v else s))

/-- SWM_ROUTE_SWITCH: what was in flight on the old route is gone from it, and the held messages go on the new one, the unacknowledged
flits of the replay buffer first (R20, R475). -/
def execSwmRouteSwitch (d : DieId) (k : SwmId) (s : State) : Out :=
  .next (onDie s d (fun s =>
    let q := linkOf (s.die d) k
    if q.st = .retired then
      releaseAll (q.hold.foldl (fun s f => forwardFlit s d f) (updLink s d k (fun q => { q with hold := [], switching := false })))
    else s))

/-- SWM_CREDIT_TIMEOUT: a credit debt that nothing has reduced; the partner is declared unresponsive (R477, R491). -/
def execSwmCreditTimeout (d : DieId) (k : SwmId) (s : State) : Out :=
  .next (onDie s d (fun s =>
    let q := linkOf (s.die d) k
    if q.st = .up ∧ (q.reqCred < 64 ∨ q.rspCred < 64) then
      dieFault (reclaimLink (recordErr s (swmBase d k) 0x81 (partnerOf d k)) d k) (partnerDie d k) .unresponsive
    else s))

end Sys2Proof.Machine
end

