-- ==== Sys2Proof/Machine/PmBus.lean ====
section
/-! DEFINITION. The PMBus master of the guard core (R548, R555 to R560). -/
namespace Sys2Proof.Machine
open Sys2Proof

/-- A regulator output. -/
def railAt (s : State) (n : Fin 16) : Rail := s.guard.rails.get n

/-- Changes a regulator output. -/
def updRail (s : State) (n : Fin 16) (f : Rail → Rail) : State :=
  { s with guard := { s.guard with rails := vset s.guard.rails n (f (s.guard.rails.get n)) } }

/-- Polls run in RUN, IDLE and SLEEP, on outputs that are enabled (R556). -/
def polled (s : State) (n : Fin 16) : Bool := !s.guard.off && !s.guard.deep && !s.guard.losing && (railAt s n).on

/-- The fault bits of STATUS_WORD (R556). -/
def faultBits (w : BitVec 16) : Bool := [15, 11, 6, 5, 4].any (fun i => w.getLsbD i)

/-- How many bits of STATUS_WORD are set. -/
def bitsSet (w : BitVec 16) : Nat := ((List.range 16).filter (fun i => w.getLsbD i)).length

/-- The values of a poll. -/
def takeStatus (st : BitVec 16) (vin vout iout temp : Nat) (r : Rail) : Rail :=
  { r with noAns := 0, status := st, vin := vin, vout := vout, iout := iout, temp := temp }

/-- A transaction without an answer. -/
def noAnswer (s : State) (n : Fin 16) : State :=
  updRail (regBump s (psuBase + 0x154) 1) n (fun r => { r with noAns := r.noAns + 1 })

/-- An output has failed: recorded, and a core rail is a die fault, a shared one a power-loss sequence (R557, R560). -/
def railFail (s : State) (n : Fin 16) : State :=
  let s1 := updRail s n (fun r => { r with failed := true, recheck := false, noAns := 0 })
  let s2 := raiseInt (recordErr s1 psuBase 0x82 n.val) psuBase 5
  if 8 ≤ n.val then dieFault s2 (dieOf (n.val - 8)) .rail else powerLoss s2

/-- PMB_POLL: a fault bit leads to CLEAR_FAULTS and a second look after 1 ms; three polls without an answer are a failure. -/
def execPmbPoll (rail : Fin 16) (a : PmbAnswer) (s : State) : Out :=
  .next (if !polled s rail then s
    else match a with
      | .none =>
        let s1 := noAnswer s rail
        if 3 ≤ (railAt s1 rail).noAns then railFail s1 rail else s1
      | .word st vin vout iout temp =>
        let s1 := regBump (updRail s rail (takeStatus st vin vout iout temp)) (psuBase + 0x158) (bitsSet st)
        updRail s1 rail (fun r => { r with recheck := r.recheck || faultBits st, failed := r.failed && faultBits st }))

/-- PMB_ALERT: the master reads every enabled output at once. Each of its reads is a PMB_POLL. -/
def execPmbAlert (s : State) : Out := .next s

/-- PMB_FAULT_RECHECK: STATUS_WORD 1 ms after CLEAR_FAULTS (R556). -/
def execPmbFaultRecheck (rail : Fin 16) (a : PmbAnswer) (s : State) : Out :=
  .next (if !polled s rail || !(railAt s rail).recheck then s
    else match a with
      | .none =>
        let s1 := noAnswer s rail
        if 3 ≤ (railAt s1 rail).noAns then railFail s1 rail else s1
      | .word st vin vout iout temp =>
        let s1 := updRail s rail (fun r => { takeStatus st vin vout iout temp r with recheck := false })
        if faultBits st then railFail s1 rail else s1)

/-- The rail that PSU_PMB_SEL names. -/
def railSel (s : State) : Fin 16 := ⟨gfld s Page.psu 0x108 3 0 % 16, Nat.mod_lt _ (by decide)⟩

/-- A write of PSU_PMB_CMD sends the margin commands to the selected rail, when the package has it (R549, R559). With CLEAR
it sends CLEAR_FAULTS, which changes nothing until the next poll. -/
def pmbCmdWrite (s : State) (v : Word) : State :=
  let a := psuBase + 0x10C
  rowWrite s a v (fun s =>
    let s1 := storeReg s a v
    if railUsed s (railSel s) then updRail s1 (railSel s) (fun r => { r with margin := fld v 9 8, marginPct := fld v 23 16 })
    else s1)

/-- PMB_MARGIN. -/
def execPmbMargin (r : Requester) (v : Word) (s : State) : Out := .next (byReq s r (fun s => pmbCmdWrite s v))

/-- PMB_CLEAR: CLEAR 1. -/
def execPmbClear (r : Requester) (v : Word) (s : State) : Out := .next (byReq s r (fun s => if bitAt v 0 then pmbCmdWrite s v else s))

end Sys2Proof.Machine
end

