-- ==== Sys2Proof/Machine/Debug.lean ====
section
/-! DEFINITION. The WGL registers of a die: halting, stepping and breakpoints of worker cores, the memory window and the
cores' registers (R485 to R488, R492). -/
namespace Sys2Proof.Machine
open Sys2Proof

/-- The page of WGL. -/
def wglBase (d : DieId) : Nat := dreg d Page.wgl 0

/-- The capabilities of R481: 0 REG, 1 MEM, 2 HALT. -/
def granted (s : State) (cap : Nat) : Bool := s.wgl.caps.testBit cap

/-- A write of a WGL register whose capability must be granted; otherwise ignored, recording NOT_GRANTED (R488). -/
def wglWrite (s : State) (d : DieId) (off cap : Nat) (v : Word) (act : State → State) : State :=
  rowWrite s (wglBase d + off) v (fun s => if granted s cap then act s else recordErr s (wglBase d) 0x80 off)

/-! ### Halt, resume, step -/

/-- Whether a core is halted. -/
def isHalted (q : Core) : Bool := q.st == .halted

/-- A halt request of a core that runs. -/
def haltCore (s : State) (d : DieId) (c : CoreId) : State :=
  updCore s d c (fun q => if q.st = .run ∨ q.st = .idle then { q with haltReq := true } else q)

/-- A core leaves its halt, its kick limit counts anew, and a breakpoint at its address does not fire first (R459, R485). -/
def leaveHalt (now : Nat) (q : Core) : Core :=
  { q with st := .run, reason := 0, cregs := [], skipBp := q.reason == 3, kickAt := now, haltReq := false }

/-- RESUME of a halted core. -/
def resumeCore (s : State) (d : DieId) (c : CoreId) : State :=
  updCore s d c (fun q => if isHalted q then { leaveHalt (s.die d).mon.devTime q with stepping := false, maskIrq := false } else q)

/-- A write of WGL_HALT: RESUME, then HALT_REQ (R485). -/
def haltWrite (s : State) (d : DieId) (v : Word) : State :=
  wglWrite s d 0x40 2 v (fun s =>
    let s1 := allCores.foldl (fun s c => if bitAt v (8 + c.val) then resumeCore s d c else s) s
    allCores.foldl (fun s c => if bitAt v c.val then haltCore s d c else s) s1)

/-- WGL_HALT_REQ. -/
def execWglHaltReq (r : Requester) (d : DieId) (v : Word) (s : State) : Out :=
  .next (byReq s r (fun s => if fld v 7 0 = 0 then s else haltWrite s d v))

/-- WGL_RESUME. -/
def execWglResume (r : Requester) (d : DieId) (v : Word) (s : State) : Out :=
  .next (byReq s r (fun s => if fld v 15 8 = 0 then s else haltWrite s d v))

/-- A write of WGL_STEP; GO makes the halted core execute one instruction (R486). -/
def stepWrite (s : State) (d : DieId) (v : Word) : State :=
  wglWrite s d 0x44 2 v (fun s =>
    let s1 := storeReg s (wglBase d + 0x44) v
    let c := coreOf (fld v 2 0)
    if bitAt v 31 && isHalted (coreAt s d c) then
      updCore s1 d c (fun q => { leaveHalt (s.die d).mon.devTime q with stepping := true, maskIrq := bitAt v 8 })
    else s1)

/-- WGL_STEP. -/
def execWglStep (r : Requester) (d : DieId) (v : Word) (s : State) : Out := .next (byReq s r (fun s => if bitAt v 31 then stepWrite s d v else s))

/-- CORE_HALT: the instruction boundary at which a requested halt or a step ends (R485, R486). -/
def execCoreHalt (d : DieId) (core : CoreId) (pc : Word) (s : State) : Out :=
  .next (onDie s d (fun s =>
    let q := coreAt s d core
    if (q.st = .run ∨ q.st = .idle) ∧ (q.haltReq = true ∨ q.stepping = true) then
      updCore s d core (fun q => { q with
        st := .halted
        reason := if q.stepping then 2 else 1
        pc := pc
        haltReq := false
        stepping := false
        maskIrq := false
        skipBp := false })
    else s))

/-- An enabled breakpoint of a core at an address (R487, R492). -/
def breaksAt (x : Die) (c : CoreId) (pc : Word) : Bool :=
  x.bps.any (fun b => b.core == c.val && bitAt b.addr 0 && b.addr.toNat / 4 == pc.toNat / 4)

/-- WGL_BREAKPOINT: a core reaches an enabled breakpoint; the first one after a halt at that address does not fire (R485,
R487). -/
def execWglBreakpoint (d : DieId) (core : CoreId) (pc : Word) (s : State) : Out :=
  .next (onDie s d (fun s =>
    let q := coreAt s d core
    if q.st ≠ .run ∨ breaksAt (s.die d) core pc = false then s
    else if q.skipBp = true ∧ q.pc = pc then updCore s d core (fun q => { q with skipBp := false })
    else
      raiseInt (updCore s d core (fun q => { q with
        st := .halted
        reason := 3
        pc := pc
        haltReq := false
        stepping := false
        maskIrq := false
        skipBp := false })) (wglBase d) 1))

/-- A write of WGL_BP_ADDR sets the breakpoint that WGL_BP_SEL names. -/
def bpAddrWrite (s : State) (d : DieId) (v : Word) : State :=
  let sel := regGet s (wglBase d + 0x48)
  let b : Bp := { core := fld sel 5 3, bp := fld sel 2 0, addr := v &&& 0xFFFFFFFD }
  s.updDie d (fun x => { x with bps := b :: x.bps.filter (fun c => !(c.core == b.core && c.bp == b.bp)) })

/-! ### The memory window -/

/-- The die-local address of the window. -/
def wglAddr (s : State) (d : DieId) : Nat :=
  (regGet s (wglBase d + 0x50)).toNat + fld (regGet s (wglBase d + 0x54)) 7 0 * 2 ^ 32

/-- Each access adds 4 to the address. -/
def wglAdvance (s : State) (d : DieId) : State :=
  let a := wglAddr s d + 4
  regSet (regSet s (wglBase d + 0x50) (BitVec.ofNat 32 a)) (wglBase d + 0x54) (BitVec.ofNat 32 (a / 2 ^ 32 % 256))

/-- A read of WGL_MEM_DATA; at an invalid address the spec states no value (log 77). -/
def memDataRead (s : State) (d : DieId) : State :=
  let a := wglAddr s d
  let r := if addrOk s d a 4 then (memRead s d a 4, s) else drawBytes s 4
  wglAdvance { r.2 with answer := { r.2.answer with data := BitVec.ofNat 32 (leNat r.1) } } d

/-- A write of WGL_MEM_DATA. -/
def memDataWrite (s : State) (d : DieId) (v : Word) : State :=
  let a := wglAddr s d
  wglAdvance (if addrOk s d a 4 then memStore s d a (leBytes 4 v.toNat) else s) d

/-- A read of a WGL register of a capability: 0 while it is not granted (R488). -/
def wglRead (s0 : State) (d : DieId) (off cap : Nat) (act : State → State) : State :=
  let s := accessWake s0 (wglBase d + off)
  if granted s cap && windowOpen s (wglBase d + off) then act s else { s with answer := { s.answer with data := 0 } }

/-- WGL_MEM_ACCESS: a read, or a write of a word (R492). -/
def execWglMemAccess (r : Requester) (d : DieId) (wr : Option Word) (s : State) : Out :=
  .next (byReq s r (fun s => match wr with
    | none => wglRead s d 0x58 1 (fun s => memDataRead s d)
    | some v => wglWrite s d 0x58 1 v (fun s => memDataWrite s d v)))

/-! ### The cores' registers -/

/-- The core and the register that WGL_CREG_SEL names. -/
def cregCore (s : State) (d : DieId) : CoreId := coreOf (fld (regGet s (wglBase d + 0x5C)) 12 10)
def cregNum (s : State) (d : DieId) : Nat := fld (regGet s (wglBase d + 0x5C)) 9 0

/-- A read of WGL_CREG_DATA: what the halted core's register holds is the firmware's, a free value that lasts for the halt
(log 8); 0 while the core is not halted. -/
def cregRead (s : State) (d : DieId) : State :=
  let c := cregCore s d
  let n := cregNum s d
  if isHalted (coreAt s d c) then
    match assocGet n (coreAt s d c).cregs with
    | some v => { s with answer := { s.answer with data := v } }
    | none =>
      let v := Config.coreRegister s.draws
      let s1 := updCore { s with draws := s.draws + 1 } d c (fun q => { q with cregs := assocSet n v q.cregs })
      { s1 with answer := { s1.answer with data := v } }
  else { s with answer := { s.answer with data := 0 } }

/-- A write of WGL_CREG_DATA to a halted core's register. -/
def cregWrite (s : State) (d : DieId) (v : Word) : State :=
  let c := cregCore s d
  if isHalted (coreAt s d c) then updCore s d c (fun q => { q with cregs := assocSet (cregNum s d) v q.cregs }) else s

/-- WGL_CREG_ACCESS. -/
def execWglCregAccess (r : Requester) (d : DieId) (wr : Option Word) (s : State) : Out :=
  .next (byReq s r (fun s => match wr with
    | none => wglRead s d 0x60 2 (fun s => cregRead s d)
    | some v => wglWrite s d 0x60 2 v (fun s => cregWrite s d v)))

end Sys2Proof.Machine
end

