-- ==== Sys2Proof/Machine/RegView.lean ====
section
/-! DEFINITION. What a register shows to a read that has no further effect: the header (R44 to R55), the registers that
show a live value, and every other register's stored value. -/
namespace Sys2Proof.Machine
open Sys2Proof

/-! ### Parts of the address -/

/-- The port of an ETH page. -/
def portAt (a : Nat) : PortId := if blockInst a = 0 then 0 else 1

/-- The link of a SWM page. -/
def swmAt (a : Nat) : SwmId := ⟨blockInst a % 3, Nat.mod_lt _ (by decide)⟩

/-- The slot of an HCE register. -/
def slotOfReg (off : Nat) : SlotId := ⟨(off / 0x40 - 1) % 4, Nat.mod_lt _ (by decide)⟩

/-- A count as a register. -/
def natWord (n : Nat) : Word := BitVec.ofNat 32 n

/-- The low and the high half of a 64-bit value (R8). -/
def halfOf (hi : Bool) (n : Nat) : Word := natWord (if hi then n / 2 ^ 32 else n)

/-- The upper half is the register at the higher address of the pair. -/
def hiHalf (off : Nat) : Bool := off % 8 == 4

/-! ### The header -/

/-- The INT bits that a block defines, ERR included (R51 and the chapters' INT rules). -/
def intBits : Block → Nat
  | .eth => 0x1F
  | .ktp => 0x0F
  | .csq => 0x0F
  | .cmb => 0x0F
  | .map => 0x1F
  | .fgr => 0x7F
  | .fch => 0x3F
  | .ldc => 0x07
  | .mov => 0x01
  | .cry => 0x1F
  | .dmc => 0x1F
  | .bpm => 0x0F
  | .icu => 0x03
  | .wrk => 0x03
  | .swm => 0x07
  | .evr => 0x03
  | .mtr => 0x0F
  | .lat => 0x03
  | .pwr => 0x07
  | .pkgPwr => 0x07
  | .thm => 0x07
  | .hce => 0x0F
  | .psu => 0x3F
  | .nor => 0x03
  | .fwu => 0x0F
  | .wgl => 0x03
  | .mgt => 0x01

/-- Whether a block has work in progress (R50, log 81). -/
def blockBusy (s : State) (a : Nat) : Bool :=
  let x := s.die (dieAt a)
  match blockAt a with
  | some .eth => !(portOf x (portAt a)).txq.isEmpty
  | some .ktp => !x.ktp.ending.isEmpty
  | some .csq => !x.csq.inbox.isEmpty || !x.csq.cmds.isEmpty || !x.csq.controls.isEmpty
  | some .cmb => x.comb.busy.isSome || x.comb.search.isSome || x.comb.shift.isSome || x.comb.reclaimOn
  | some .map => x.map.ckpt || !x.map.ring.isEmpty
  | some .fgr => x.fgr.victim.isSome || x.fgr.recount
  | some .fch => x.flash.ops.any (fun o => o.chan.val == blockInst a)
  | some .mov => x.mov.running
  | some .dmc => x.dmc.training
  | some .bpm => x.bpm.sweep.isSome
  | some .psu => s.guard.psu.test != .none
  | some .nor => s.nor.op.isSome
  | some .fwu => s.nor.dlOn || s.pkg.act.on
  | some .wgl => winOf a == 0 && s.wgl.busy
  | some .ldc => x.flash.ops.any (fun o => o.kind == .read && (o.running || o.late.isSome))
  | some .cry => decide (0 < x.cry.fails)
  | some .swm => (linkOf x (swmAt a)).st == .training || !(linkOf x (swmAt a)).replay.isEmpty || !(linkOf x (swmAt a)).hold.isEmpty
  | some .mtr => !x.mon.prevSent || (winOf a == 0 && s.mtr.closing.isSome)
  | some .icu => x.icu.srcs.any (fun q => decide (0 < q.st))
  | some .wrk => x.cores.toList.any (fun c => c.st == .run)
  | some .hce => s.guard.hce.toList.any (fun k => k.trig)
  | some .thm => if winOf a < 8 then x.thm.st == .throttle else s.guard.thm.st == .throttle
  | _ => false

/-- Whether a block has initialised after reset (R50): a controller die's with its mount (R536), the memory controller with its
training, a flash channel with its own; the others at once (log 155). -/
def initialised (s : State) (a : Nat) : Bool :=
  if 8 ≤ winOf a then true
  else
    let x := s.die (dieAt a)
    match blockAt a with
    | some .dmc => !x.dmc.training && x.phase != .reset
    | some .fch => (x.flash.chans.get (chanOf (blockInst a))).st != .training && x.phase != .reset
    | _ => x.phase == .up

/-- A header register (R44 to R55). INT_TEST only sets and reads 0 (log 175). -/
def headerRead (s : State) (b : Block) (a : Nat) : Word :=
  let base := baseOf a
  match offOf a with
  | 0x00 => natWord (blockType b * 0x10000 + blockInst a)
  | 0x04 => 0x01000001
  | 0x08 => regGet s a
  | 0x0C => natWord ((if enabled s base && initialised s a then 4 else 0) + (if regGet s (base + 0x20) ≠ 0 then 2 else 0)
      + (if softResetting s base || blockBusy s a then 1 else 0))
  | 0x10 => regGet s a
  | 0x14 => regGet s a
  | 0x18 => intStat s base
  | 0x20 => regGet s a
  | 0x24 => regGet s a
  | _ => 0

/-! ### Live registers, block by block -/

/-- ETH (R424): the link, the selected address slot, the counters of the last snapshot, and the queues of instance 0. -/
def ethRead (s : State) (a off : Nat) : Word :=
  let p := portAt a
  let q := portOf (s.die (dieAt a)) p
  let k := portSlot q (addrSel s (dieAt a) p)
  if off = 0x64 then
    natWord ((if k.valid then 2 ^ 31 else 0) + (if k.v6 then 2 ^ 30 else 0) + (if k.tagged then 2 ^ 29 else 0) + k.vid % 4096)
  else if 0x68 ≤ off ∧ off < 0x78 then natWord (k.next.toNat / 2 ^ (32 * ((off - 0x68) / 4)))
  else if off = 0x90 then
    natWord (sumBy (fun n : Nat => 2 ^ (24 + n % 8)) q.paused.eraseDups + min 255 q.attempts * 256
      + (if q.up then speedOf s (dieAt a) p else fld (Config.unstatedRead a) 2 0) * 16
      + (if q.anDone then 2 else 0) + (if q.up then 1 else 0))
  else if 0x200 ≤ off ∧ off < 0x318 then
    halfOf (hiHalf off) (min ((assocGet (off - off % 8) q.shadow).getD 0) (2 ^ 64 - 1))
  else if p = 1 ∧ 0x100 ≤ off ∧ off < 0x200 then 0
  else regGet s a

/-- CSQ (R139). -/
def csqRead (s : State) (a off : Nat) : Word :=
  let x := s.die (dieAt a)
  if 0x80 ≤ off ∧ off < 0xA0 then natWord (queuedIn x ((off - 0x80) / 4)).length
  else if off = 0xA0 then wordOfInt x.csq.tokens
  else if off = 0xB0 then natWord (x.csq.cmds.filter (fun c => c.phase == .queued && blocked x c)).length
  else if off = 0xB4 then natWord (psCode x.csq.ps)
  else regGet s a

/-- CMB (R176, R177). -/
def cmbRead (s : State) (a off : Nat) : Word :=
  let d := dieAt a
  let c := (s.die d).comb
  if off = 0x80 then setFld (regGet s a) 23 23 (if c.busy.isSome then 1 else 0)
  else if off = 0xC8 then setFld (regGet s a) 31 31 (if c.search.isSome then 1 else 0)
  else if off = 0xE4 then c.srchRes
  else if 0xE8 ≤ off ∧ off < 0xF8 then natWord (c.srchData.toNat / 2 ^ (32 * ((off - 0xE8) / 4)))
  else if off = 0xFC then setFld (setFld (regGet s a) 2 2 (if c.shift.isSome then 1 else 0)) 0 0 (if c.shift.isSome then 1 else 0)
  else if 0x100 ≤ off ∧ off < 0x180 then
    natWord (sumBy (fun j : Nat => placeOf (s.die d) (8 * ((off - 0x100) / 4) + j) % 16 * 2 ^ (4 * j)) (List.range 8))
  else if off = 0x180 then natWord c.epoch
  else if off = 0x1A0 then natWord (hotLast s d + 1 - hotFirst s d - (hotEntries c (hotFirst s d) (hotLast s d)).length)
  else if off = 0x1A4 then natWord (4096 - c.slots.length)
  else regGet s a

/-- MAP (R222). -/
def mapRead (s : State) (a off : Nat) : Word :=
  let d := dieAt a
  let x := s.die d
  match off with
  | 0x54 => if x.map.ckpt then 1 else 0
  | 0x80 => satWord (dirtyBytes x / 1024)
  | 0x84 => satWord (budgetOf s d / 1024)
  | 0x88 => natWord (waitingCount x)
  | 0x90 => satWord (x.map.slcTarget / 10 ^ 9)
  | 0x94 => satWord (slcUsed x / 10 ^ 9)
  | 0xA8 => halfOf false ((x.map.root.map (fun r => r.seq)).getD 0)
  | 0xAC => halfOf true ((x.map.root.map (fun r => r.seq)).getD 0)
  | 0xB0 => halfOf false x.map.jseq
  | 0xB4 => halfOf true x.map.jseq
  | 0xB8 => satWord x.map.mountMs
  | 0xBC => satWord (rescueBytes s d / 2 ^ 20)
  | _ => regGet s a

/-- The groups that still hold data or may. -/
def usableGroups (x : Die) : List Group := x.groups.filter (fun g => g.st != .retired)

/-- FGR (R258). -/
def fgrRead (s : State) (a off : Nat) : Word :=
  let d := dieAt a
  let x := s.die d
  match off with
  | 0x60 => if x.fgr.recount then 1 else 0
  | 0x80 => match x.fgr.mode with
    | .rest => 0
    | .background => 1
    | .paced => 2
    | .stall => 3
  | 0x84 => natWord (freeGroups x).length
  | 0x88 => match x.fgr.victim with
    | none => 0x40000000
    | some n => natWord ((if x.fgr.forced then 2 ^ 31 else 0) + n % 2 ^ 20)
  | 0x8C => wordOfInt (Int.tdiv (margin s d) (10 ^ 9))
  | 0x90 => satWord (qSys s d / 10 ^ 9)
  | 0x94 => satWord x.fgr.shrinkGb
  | 0x98 => natWord (spaceCode x)
  | 0x9C => satWord (((argMin (fun g : Group => g.wear) (usableGroups x)).map (fun g => g.wear)).getD 0)
  | 0xA0 => satWord (((argMax (fun g : Group => g.wear) (usableGroups x)).map (fun g => g.wear)).getD 0)
  | 0xA4 => satWord (wearPct s d)
  | 0xB0 => halfOf false (x.fgr.copied / 2 ^ 20)
  | 0xB4 => halfOf true (x.fgr.copied / 2 ^ 20)
  | _ => regGet s a

/-- FCH (R295). -/
def fchRead (s : State) (a off : Nat) : Word :=
  let c := (s.die (dieAt a)).flash.chans.get (chanOf (blockInst a))
  let lun (lo : Nat) : Word := natWord (sumBy (fun n : Nat => 2 ^ (n - lo)) (c.retired.eraseDups.filter (fun n => decide (lo ≤ n ∧ n < lo + 32))))
  match off with
  | 0x80 => natWord ((match c.st with
      | .inService => 0
      | .training => 1
      | .retired => 2) + min 255 c.failed * 256)
  | 0x84 => lun 0
  | 0x88 => lun 32
  | _ => regGet s a

/-- The retry table entry word that LDC_RR_SEL names (R279). -/
def rrSel (s : State) (d : DieId) : Nat := fld (regGet s (dreg d Page.ldc 0x48)) 8 0

/-- LDC (R297). -/
def ldcRead (s : State) (a off : Nat) : Word :=
  if off = 0x4C then (assocGet (rrSel s (dieAt a)) (s.die (dieAt a)).flash.retry).getD 0 else regGet s a

/-- HCE (R328). -/
def hceRead (s : State) (a off : Nat) : Word :=
  if off = 0x144 then natWord (BitVec.ofInt 16 (traceValue s)).toNat
  else if 0x140 ≤ off then regGet s a
  else
    let n := slotOfReg off
    let k := hceSlot s n
    match slotReg off with
    | 0x04 => if n.val = 0 then natWord (BitVec.ofInt 16 (outerRef s n)).toNat else regGet s a
    | 0x1C => setFld (setFld (regGet s a) 31 31 (if k.armed then 1 else 0)) 30 30 (if k.trigd then 1 else 0)
    | 0x20 => wordOfInt k.omeas
    | 0x24 => wordOfInt k.oout
    | 0x28 => wordOfInt k.oint
    | 0x2C => wordOfInt k.imeas
    | 0x30 => wordOfInt k.iout
    | 0x34 => wordOfInt k.iint
    | 0x38 => natWord (k.oscale % 65536 * 65536 + k.iscale % 65536)
    | _ => regGet s a

/-- PSU (R330, R559). -/
def psuRead (s : State) (a off : Nat) : Word :=
  let p := s.guard.psu
  let r := railAt s (railSel s)
  match off with
  | 0x60 => if p.test != .none then 1 else 0
  | 0x80 => satWord p.vin
  | 0x84 => satWord p.vbank
  | 0x88 => satWord p.vhold
  | 0x8C => satWord p.cMeas
  | 0x90 => satWord p.esr
  | 0x94 => satWord p.eUsable
  | 0x98 => satWord (p.limit / 1024)
  | 0x9C => natWord (bankCode p.bank)
  | 0xB0 => match p.testAt with
    | none => Config.unstatedRead a
    | some t => satWord ((s.guard.devTime - t) / 3600000000000)
  | 0x184 => natWord ((((s.guard.tripped.map (fun n => 2 ^ (8 + n.val))).sum) + (if s.guard.purge then 4 else 0)
      + (if s.guard.alarmSrc.contains (.tamper 0, .guard) then 1 else 0) + (if s.guard.alarmSrc.contains (.tamper 1, .guard) then 2 else 0)))
  | 0x188 => satWord (s.guard.alarms.filter (fun t => decide (s.guard.devTime < t + 3600000000000))).length
  | 0x140 => satWord r.vin
  | 0x144 => satWord r.vout
  | 0x148 => satWord r.iout
  | 0x14C => satWord r.temp
  | 0x150 => natWord ((if r.failed then 2 ^ 16 else 0) + r.status.toNat)
  | _ => regGet s a

/-- The data slot that CRY_SLOT_SEL names. -/
def selData (s : State) (d : DieId) : Option DataSlot :=
  let v := regGet s (dreg d Page.cry 0x50)
  if fld v 15 14 = 0 then (s.die d).cry.data.find? (fun k => k.num == fld v 13 0) else none

/-- CRY_SLOT_STATE of the slot that CRY_SLOT_SEL names: a session or auth slot that holds a key shows CURRENT and its tenant (R370,
log 85). -/
def slotState (s : State) (d : DieId) : Word :=
  let v := regGet s (dreg d Page.cry 0x50)
  let n := fld v 13 0
  let c := (s.die d).cry
  match fld v 15 14 with
  | 0 => match selData s d with
    | none => 0
    | some k => natWord ((match k.st with
        | .empty => 0
        | .current => 1
        | .decryptOnly => 2) * 2 ^ 30 + k.tenant % 4096 * 2 ^ 16 + k.gen % 256 * 256 + (if k.xts.isSome then 1 else 0))
  | 1 => if (assocGet n c.session).isSome then natWord (2 ^ 30 + ((sessOf (s.die d) n).map (fun k => k.tenant)).getD 0 % 4096 * 2 ^ 16) else 0
  | _ => if (assocGet n c.auth).isSome then natWord (2 ^ 30 + n % 4096 * 2 ^ 16) else 0

/-- CRY (R370). -/
def cryRead (s : State) (a off : Nat) : Word :=
  let d := dieAt a
  match off with
  | 0x80 => slotState s d
  | 0x84 => halfOf false (((selData s d).map (fun k => k.ctr)).getD 0)
  | 0x88 => halfOf true (((selData s d).map (fun k => k.ctr)).getD 0)
  | 0x8C => halfOf false (((selData s d).map (fun k => k.bound)).getD 0)
  | 0x90 => halfOf true (((selData s d).map (fun k => k.bound)).getD 0)
  | 0xA4 => 0
  | 0xA8 => natWord (freeDataSlots (s.die d).cry * 2 ^ 16 + (4096 - (s.die d).cry.session.length))
  | _ => regGet s a

/-- MTR (R402). -/
def mtrRead (s : State) (a off : Nat) : Word :=
  let d := dieAt a
  let wall := (BitVec.ofInt 64 (wallNow s d)).toNat
  match off with
  | 0x80 => halfOf false (s.die d).mon.devTime
  | 0x84 => halfOf true (s.die d).mon.devTime
  | 0x88 => halfOf false wall
  | 0x8C => halfOf true wall
  | 0x90 => halfOf false s.mtr.minute
  | 0x94 => halfOf true s.mtr.minute
  | 0x98 => if d = 0 then (match s.mtr.log.head? with
      | none => Config.unstatedRead a
      | some q => halfOf false q.minute) else 0
  | 0x9C => if d = 0 then (match s.mtr.log.head? with
      | none => Config.unstatedRead a
      | some q => halfOf true q.minute) else 0
  | 0xA0 => natWord s.mtr.boot
  | 0xA4 => if s.guard.wallUnset then 1 else 0
  | _ => regGet s a

/-- A word of a window (R396, R400). -/
def windowRead (w : List Word) (off : Nat) : Word := w.getD ((off - 0x80) / 4) 0

/-- LAT (R404). -/
def latRead (s : State) (a off : Nat) : Word :=
  if 0x80 ≤ off ∧ off < 0x100 then windowRead (s.die (dieAt a)).mon.latWin off else regGet s a

/-- The code that EVR_SEL names. -/
def evrCode (s : State) (d : DieId) : Nat := fld (regGet s (dreg d Page.evr 0x40)) 7 0

/-- EVR (R405). -/
def evrRead (s : State) (a off : Nat) : Word :=
  let m := (s.die (dieAt a)).mon
  if off = 0x44 then
    let r := rateOf (evrCode s (dieAt a)) m.rates
    natWord (r.burst % 65536 * 65536 + r.rate % 65536)
  else if 0x80 ≤ off ∧ off < 0x100 then windowRead m.evrWin off
  else regGet s a

/-- DMC (R451). -/
def dmcRead (s : State) (a off : Nat) : Word :=
  let m := (s.die (dieAt a)).dmc
  match off with
  | 0xC0 => natWord ((if m.pdown then 4 else 0) + m.st % 4)
  | 0xC4 => match m.scrubAt with
    | none => Config.unstatedRead a
    | some t => satWord (((s.die (dieAt a)).mon.devTime - t) / 3600000000000)
  | _ => regGet s a

/-- BPM (R453). -/
def bpmRead (s : State) (a off : Nat) : Word :=
  let d := dieAt a
  let q := poolAt s d (selPool s d)
  let b := (s.die d).bpm
  let bits (p : Pool → Bool) : Nat := flags (b.pools.toList.map p)
  if 0x94 ≤ off ∧ off < 0xB4 then
    let lo := 32 * ((off - 0x94) / 4)
    natWord (sumBy (fun n : Nat => 2 ^ (n - lo)) (b.fenced.eraseDups.filter (fun n => decide (lo ≤ n ∧ n < lo + 32))))
  else match off with
  | 0x44 => poolCfgWord q
  | 0x48 => halfOf false q.base
  | 0x4C => halfOf true q.base
  | 0x50 => natWord (q.low * 65536 + q.crit)
  | 0x54 => natWord q.critOff
  | 0x80 => natWord q.free
  | 0x84 => natWord (q.minFree.getD 0)
  | 0x88 => natWord (bits (fun q => q.pen && q.bpKtp && q.inCrit) * 65536 + bits (fun q => q.pen && q.bpKtp && (q.inCrit || decide (q.free ≤ q.low))))
  | 0x90 => natWord b.refs.length
  | _ => regGet s a

/-- MOV (R455). -/
def movRead (s : State) (a off : Nat) : Word :=
  let m := (s.die (dieAt a)).mov
  match off with
  | 0x80 => natWord (m.consumed % 256)
  | 0x84 => natWord ((if m.stopped then 2 else 0) + (if m.running then 1 else 0))
  | 0x88 => halfOf false m.bytes
  | 0x8C => halfOf true m.bytes
  | _ => regGet s a

/-- A core's code in WRK_CORE_STATE (R489). -/
def coreCode (s : State) (d : DieId) (c : CoreId) : Nat :=
  if !coreOn s d c then 3
  else match (coreAt s d c).st with
    | .run => 0
    | .idle => 1
    | .halted => 2
    | .fenced => 3

/-- WRK (R489). -/
def wrkRead (s : State) (a off : Nat) : Word :=
  let d := dieAt a
  match off with
  | 0x48 => 0
  | 0x80 => natWord (sumBy (fun c : CoreId => coreCode s d c * 4 ^ c.val) allCores)
  | 0x84 => if (s.die d).pllCores then 1 else 0
  | _ => regGet s a

/-- ICU (R490); the claim registers are read with their effect elsewhere. -/
def icuRead (s : State) (a off : Nat) : Word :=
  let d := dieAt a
  let q := srcAt (s.die d) (fld (regGet s (icuBase d + 0x40)) 8 0)
  if 0x100 ≤ off ∧ off < 0x140 then
    let lo := 32 * ((off - 0x100) / 4)
    natWord (sumBy (fun n : Nat => if (srcAt (s.die d) (lo + n)).st = 1 then 2 ^ n else 0) (List.range 32))
  else match off with
  | 0x44 => natWord ((if q.en then 2 ^ 31 else 0) + q.prio % 16 * 2 ^ 24 + q.group % 16 * 2 ^ 20 + q.target % 8)
  | 0xB0 => 0
  | 0xB4 => 0
  | 0xC0 => natWord (q.st * 65536 + q.count * 256 + (if icuLevel s d q.num then 1 else 0))
  | _ => regGet s a

/-- SWM (R491). -/
def swmRead (s : State) (a off : Nat) : Word :=
  let d := dieAt a
  let k := swmAt a
  if off = 0x80 then
    natWord ((match (linkOf (s.die d) k).st with
      | .down => 0
      | .training => 1
      | .up => 2
      | .retired => 3) + partnerOf d k % 8 * 256)
  else regGet s a

/-- lim of a die in µJ: the cap while it is at the cap (R508). -/
def limOf (s : State) (d : DieId) : Nat :=
  ((s.pkg.lims.getD d.val none).getD (dfld s 0 Page.pwr 0x48 31 16 * 1000 * s.pkg.pkgF / 256))

/-- PWR of a controller die (R516): PWR_CAP and PWR_THR exist on die 0 alone. -/
def pwrRead (s : State) (a off : Nat) : Word :=
  let d := dieAt a
  let x := s.die d
  match off with
  | 0x48 => if d = 0 then regGet s a else 0
  | 0x4C => if d = 0 then regGet s a else 0
  | 0x80 => wordOfInt x.flash.balance
  | 0x84 => satWord x.flash.alloc
  | 0x88 => satWord (s.pkg.demand.getD d.val 0)
  | 0x8C => satWord (limOf s d)
  | 0x90 => if x.thm.stage2 then 1 else 0
  | 0x94 => natWord (x.flash.ops.filter (fun o => !o.running)).length
  | _ => regGet s a

/-- PWR of the guard die (R516). -/
def pkgRead (s : State) (a off : Nat) : Word :=
  match off with
  | 0x40 => if s.guard.shutting then 1 else 0
  | 0x80 => natWord ((if s.guard.shutting then 4 else if s.guard.deep then 3 else 0) + s.guard.wakeSrc % 256 * 256)
  | _ => regGet s a

/-- A reading in 1/16 °C (R516). -/
def tempWord (bad : Bool) (t : Int) : Word := natWord ((if bad then 2 ^ 31 else 0) + (BitVec.ofInt 16 t).toNat)

/-- The site of a THM page. -/
def siteAt (a : Nat) : Site := if winOf a < 8 then .die (dieAt a) else .guard

/-- THM (R516). -/
def thmRead (s : State) (a off : Nat) : Word :=
  let w := siteAt a
  let t := thmAt s w
  let i := (off - 0x80) / 4
  if off = 0x48 then natWord ((if t.loaded then 2 ^ 31 else 0) + (BitVec.ofInt 16 (trimSel s w)).toNat)
  else if 0x80 ≤ off ∧ off < 0xB0 then (if i < t.temps.length then tempWord (t.bad.contains i) (t.temps.getD i 0) else 0)
  else if 0xB0 ≤ off ∧ off < 0xD0 ∧ w = .guard then tempWord false (s.guard.ext.getD ((off - 0xB0) / 4) 0)
  else if off = 0xD0 then (match hottestOf (goodTemps t) with
    | none => Config.unstatedRead a
    | some h => natWord (BitVec.ofInt 16 h).toNat)
  else if off = 0xD4 then natWord (thmCode t.st + goodCount t * 256)
  else regGet s a

/-- NOR (R546). -/
def norRegRead (s : State) (a off : Nat) : Word :=
  if 0x1000 ≤ off ∧ off < 0x2000 then natWord (leAt s.nor.shadow (off - 0x1000) 4)
  else match off with
  | 0x40 => setFld (regGet s a) 31 31 (if s.nor.op.isSome then 1 else 0)
  | 0x48 => natWord ((if s.nor.pe then 1 else 0) + (if s.nor.optWe then 2 else 0))
  | 0x80 => norStatus s.nor
  | _ => regGet s a

/-- FW_VERSION of a slot record, 0 when it is invalid (R530, R546). -/
def slotVersion (n : Nor) (b : Bool) : Nat := if recordValid n b then leAt (slotRecord n b) 8 8 else 0

/-- FWU (R546). -/
def fwuRead (s : State) (a off : Nat) : Word :=
  let n := s.nor
  match off with
  | 0x80 => natWord ((if n.dlOn then 2 ^ 31 else 0) + (if n.running then 2 ^ 30 else 0) + (if slotValid n true then 2 ^ 29 else 0)
      + (if slotValid n false then 2 ^ 28 else 0) + (if onTrial n then 2 ^ 27 else 0))
  | 0x84 => satWord n.dlGot
  | 0x88 => halfOf false (slotVersion n false)
  | 0x8C => halfOf true (slotVersion n false)
  | 0x90 => halfOf false (slotVersion n true)
  | 0x94 => halfOf true (slotVersion n true)
  | 0x98 => natWord n.cause
  | _ => regGet s a

/-- The capability that a WGL register needs: 1 MEM, 2 HALT, none (R492). -/
def wglCap (off : Nat) : Option Nat :=
  if off = 0x50 ∨ off = 0x54 ∨ off = 0x58 then some 1
  else if 0x80 ≤ off ∧ off < 0x88 then none
  else some 2

/-- WGL (R488, R492); the memory word and the core register are read with their effect elsewhere. -/
def wglView (s : State) (a off : Nat) : Word :=
  let d := dieAt a
  let x := s.die d
  if !((wglCap off).all (granted s)) then 0
  else if 0x88 ≤ off ∧ off < 0xA8 then
    let q := coreAt s d (coreOf ((off - 0x88) / 4))
    if isHalted q then q.pc else 0
  else match off with
  | 0x40 => natWord (sumBy (fun c : CoreId => if (coreAt s d c).haltReq then 2 ^ c.val else 0) allCores)
  | 0x44 => setFld (regGet s a) 31 31 (if allCores.any (fun c => (coreAt s d c).stepping) then 1 else 0)
  | 0x4C =>
    let sel := regGet s (wglBase d + 0x48)
    match x.bps.find? (fun b => b.core == fld sel 5 3 && b.bp == fld sel 2 0) with
    | none => 0
    | some b => b.addr
  | 0x80 => natWord (s.wgl.caps % 8 * 256 + (if s.wgl.lockout then 16 else 0) + (if s.nor.dbgLock then 8 else 0))
  | 0x84 => natWord (sumBy (fun c : CoreId =>
      let q := coreAt s d c
      ((if isHalted q then 8 else 0) + (if isHalted q then q.reason % 8 else 0)) * 16 ^ c.val) allCores)
  | _ => regGet s a

/-- A block's own register. -/
def blockRead (s : State) (b : Block) (a : Nat) : Word :=
  let off := offOf a
  match b with
  | .eth => ethRead s a off
  | .ktp => if off = 0x60 then natWord (s.die (dieAt a)).ktp.sessions.length else regGet s a
  | .csq => csqRead s a off
  | .cmb => cmbRead s a off
  | .map => mapRead s a off
  | .fgr => fgrRead s a off
  | .fch => fchRead s a off
  | .ldc => ldcRead s a off
  | .mov => movRead s a off
  | .cry => cryRead s a off
  | .dmc => dmcRead s a off
  | .bpm => bpmRead s a off
  | .icu => icuRead s a off
  | .wrk => wrkRead s a off
  | .swm => swmRead s a off
  | .evr => evrRead s a off
  | .mtr => mtrRead s a off
  | .lat => latRead s a off
  | .pwr => pwrRead s a off
  | .pkgPwr => pkgRead s a off
  | .thm => thmRead s a off
  | .hce => hceRead s a off
  | .psu => psuRead s a off
  | .nor => norRegRead s a off
  | .fwu => fwuRead s a off
  | .wgl => wglView s a off
  | .mgt => regGet s a

/-- What a read of an address shows (R36, R39, R567), apart from what the read changes. -/
def viewReg (s : State) (a : Nat) : Word :=
  if !windowOpen s a then 0xFFFFFFFF
  else if winOf a = 0xE ∧ 0x800 ≤ pageOf a then
    (if s.nor.op.isSome then norStatus s.nor else natWord (leNat (norRead s.nor (a % 0x8000000) 4)))
  else match blockAt a with
    | none => 0
    | some b => if offOf a < 0x40 then headerRead s b a else blockRead s b a

end Sys2Proof.Machine
end

