-- ==== Sys2Proof/Machine/Registers.lean ====
section
/-! DEFINITION. Register accesses: reads and their effects, writes through the checks of R565 and R566, the page header
(R44 to R55), 64-bit pairs (R8), and the soft reset of a page (R49). -/
namespace Sys2Proof.Machine
open Sys2Proof

/-! ### Pairs (R8) -/

/-- Whether an address is the _LO register of a pair. -/
def isLo (a : Nat) : Bool :=
  match blockAt a with
  | some .map => [0xA8, 0xB0].contains (offOf a)
  | some .fgr => offOf a == 0xB0
  | some .cry => [0x84, 0x8C].contains (offOf a)
  | some .mtr => [0x80, 0x88, 0x90, 0x98].contains (offOf a)
  | some .eth => offOf a == 0x44 || (decide (0x200 ≤ offOf a ∧ offOf a < 0x318) && offOf a % 8 == 0)
  | some .dmc => offOf a == 0xB0
  | some .bpm => offOf a == 0x48
  | some .mov => [0x40, 0x88].contains (offOf a)
  | some .fwu => [0x88, 0x90].contains (offOf a)
  | some .wgl => offOf a == 0x50
  | _ => false

/-- Whether an address is the _HI register of a pair. -/
def isHi (a : Nat) : Bool := decide (4 ≤ a) && isLo (a - 4)

/-- Whether a pair is written: ETH_MAC, BPM_POOL_BASE, MOV_RING and WGL_MEM_ADDR. -/
def pairWritten (lo : Nat) : Bool :=
  match blockAt lo with
  | some .eth => offOf lo == 0x44
  | some .bpm => true
  | some .mov => offOf lo == 0x40
  | some .wgl => true
  | _ => false

/-- The entries of a requester at an address. -/
def pairGet (l : List (Requester × Nat × Word)) (r : Requester) (a : Nat) : Option Word :=
  (l.find? (fun p => p.1 == r && p.2.1 == a)).map (fun p => p.2.2)

/-- Removes a requester's entry at an address. -/
def pairDel (l : List (Requester × Nat × Word)) (r : Requester) (a : Nat) : List (Requester × Nat × Word) :=
  l.filter (fun p => !(p.1 == r && p.2.1 == a))

/-- Replaces a requester's entry at an address. -/
def pairPut (l : List (Requester × Nat × Word)) (r : Requester) (a : Nat) (v : Word) : List (Requester × Nat × Word) :=
  (r, a, v) :: pairDel l r a

/-! ### Reading -/

/-- The word that a read returns. -/
def answerWith (s : State) (v : Word) : State := { s with answer := { s.answer with data := v } }

/-- A read of ERR_CODE clears ERR_CODE and ERR_INFO together (R54). After BANK_OV, the PSU takes note of the read (R303). -/
def errRead (s : State) (a : Nat) : State :=
  let s1 := answerWith (regSet (regSet s a 0) (a + 4) 0) (regGet s a)
  if baseOf a = psuBase ∧ s.guard.psu.ovStop = true then updPsu s1 (fun p => { p with ovRead := true }) else s1

/-- A read in a window that answers: the value, and what the read changes. -/
def readOpen (s : State) (r : Requester) (a : Nat) : State :=
  let d := dieAt a
  let plain := answerWith s (viewReg s a)
  if isLo a then
    answerWith { s with latch := pairPut s.latch r (a + 4) (viewReg s (a + 4)) } (viewReg s a)
  else if isHi a then
    match pairGet s.latch r a with
    | none => plain
    | some v => answerWith { s with latch := pairDel s.latch r a } v
  else match blockAt a with
    | none => plain
    | some b =>
      if offOf a = 0x20 then errRead s a
      else match b, offOf a with
        | .hce, 0x144 => trDataRead s
        | .psu, 0xAC => lossInfoRead s
        | .bpm, 0x84 => let m := minFreeRead s d; answerWith m.2 m.1
        | .wgl, 0x58 => if granted s 1 then memDataRead s d else answerWith s 0
        | .wgl, 0x60 => if granted s 2 then cregRead s d else answerWith s 0
        | .icu, off =>
          if 0x90 ≤ off ∧ off < 0xB0 then
            (if coreOn s d (coreOf ((off - 0x90) / 4)) then icuClaim s d (coreOf ((off - 0x90) / 4)) else answerWith s 0)
          else plain
        | _, _ => plain

/-- A register read by a requester (R10, R36, R39, R498, R567): it wakes what it reaches and leaves its word in the
answer. -/
def readReg (s0 : State) (r : Requester) (a : Nat) : State :=
  let s := accessWake s0 a
  if windowOpen s a then readOpen s r a else answerWith s 0xFFFFFFFF

/-! ### Writing -/

/-- A pair's two halves are stored as one write; LOCKED_WRITE is recorded once, at the _HI write that commits them (R8, R565,
log 130). -/
def storePair (s : State) (b : Block) (lo : Nat) (low v : Word) : State :=
  match regSpec b (offOf lo), regSpec b (offOf lo + 4) with
  | some ql, some qh =>
    let lock := locked s (baseOf lo)
    let s1 := regSet (regSet s lo (mergeFields lock (regGet s lo) low ql)) (lo + 4) (mergeFields lock (regGet s (lo + 4)) v qh)
    if lockedChange lock (regGet s lo) low ql || lockedChange lock (regGet s (lo + 4)) v qh then
      recordErr s1 (baseOf lo) 0x01 (offOf lo + 4)
    else s1
  | _, _ => s

/-- Whether the block takes the value of a pair: BPM_POOL_BASE not while its pool is enabled (R453), MOV_RING within SRAM
(R455). -/
def pairOk (s : State) (b : Block) (lo : Nat) (low v : Word) : Bool :=
  match b with
  | .bpm => !(poolAt s (dieAt lo) (selPool s (dieAt lo))).pen
  | .mov => inSram (low.toNat + fld v 7 0 * 2 ^ 32) 64
  | _ => true

/-- The 64-bit value of a pair takes effect (R8): the held low half with the high half written, or the high half alone. -/
def pairCommit (s : State) (b : Block) (lo : Nat) (held : Option Word) (v : Word) : State :=
  match b with
  | .bpm => poolBaseWrite s (dieAt lo) held v
  | _ => storePair s b lo (held.getD (regGet s lo)) v

/-- A write of _LO is held for its requester; while the page is locked, LOCKED_WRITE of R565 is judged at once. -/
def pairHold (s : State) (r : Requester) (a : Nat) (v : Word) : State :=
  if locked s (baseOf a) && blockAt a != some .wgl then (if viewReg s a = v then s else recordErr s (baseOf a) 0x01 (offOf a))
  else { s with heldLo := pairPut s.heldLo r (a + 4) v }

/-- A write of _HI consumes the requester's held value; one that the block refuses leaves it held (log 154). -/
def pairTake (s : State) (r : Requester) (b : Block) (a : Nat) (v : Word) : State :=
  let held := pairGet s.heldLo r a
  if pairOk s b (a - 4) (held.getD (regGet s (a - 4))) v then
    pairCommit { s with heldLo := pairDel s.heldLo r a } b (a - 4) held v
  else badValue s a

/-- A write of HCE_Sn_CTRL: a slot that is switched off starts anew (R308). -/
def slotCtrlWrite (s : State) (n : SlotId) (a : Nat) (v : Word) : State :=
  let s1 := storeReg s a v
  if slotOn s n && !bitAt v 0 then updHce s1 n (fun k => { k with oint := 0, iint := 0, oout := 0, iout := 0 }) else s1

/-- A write of WRK_CORE_EN: a core that it enables has its kick limit counted anew, and with fewer than two enabled cores the die
takes a die fault (R459, R462). -/
def coreEnWrite (s : State) (d : DieId) (a : Nat) (v : Word) : State :=
  let s1 := storeReg s a v
  let s2 := allCores.foldl (fun s2 c =>
    if coreOn s1 d c && !coreOn s d c then updCore s2 d c (fun q => { q with kickAt := (s.die d).mon.devTime }) else s2) s1
  if (coresOn s2 d).length < 2 then dieFault s2 d .cores else s2

/-- A write of ETH_PORT_CFG with SPEED 0 turns the port off (R406, R424). -/
def portCfgWrite (s : State) (a : Nat) (v : Word) : State :=
  let s1 := storeReg s a v
  if fld v 2 0 = 0 then portDown s1 (dieAt a) (portAt a) else s1

/-- A write of LDC_RR_DATA: entry 0 ignores writes, and byte 3 of word 3 is reserved (R279, R297). -/
def rrDataWrite (s : State) (d : DieId) (v0 : Word) : State :=
  let n := rrSel s d
  let v := if n % 8 = 3 then v0 &&& 0x00FFFFFF else v0
  if n / 8 % 32 = 0 then s
  else s.updDie d (fun x => { x with flash := { x.flash with
    retry := if v = 0 then assocDel n x.flash.retry else assocSet n v x.flash.retry } })

/-- A write of EVR_RATE sets the rate of the code that EVR_SEL names; a bucket above its new size loses the excess (R398,
R405). -/
def rateWrite (s : State) (d : DieId) (v : Word) : State :=
  s.updDie d (fun x =>
    let q := rateOf (evrCode s d) x.mon.rates
    { x with mon := { x.mon with
        rates := ratePut { q with burst := fld v 31 16, rate := fld v 15 0, tokens := min q.tokens (fld v 31 16 * 1000) } x.mon.rates } })

/-- A write of CSQ_URGENT: the token count never exceeds the new URG_BURST × 1,000 (R116). -/
def urgentWrite (s : State) (d : DieId) (a : Nat) (v : Word) : State :=
  let s1 := storeReg s a v
  s1.updDie d (fun x => { x with csq := { x.csq with tokens := min x.csq.tokens (urgCap s1 d) } })

/-- A write of FGR_WEAR: a lower RATED_W can bring the wear to 90 % (R258, R259). -/
def ratedWrite (s : State) (d : DieId) (a : Nat) (v : Word) : State :=
  let s1 := storeReg s a v
  if wearPct s d < 90 ∧ 90 ≤ wearPct s1 d then raiseInt s1 (dreg d Page.fgr 0) 5 else s1

/-- A write of an ETH register. -/
def ethWrite (s : State) (a : Nat) (v : Word) : State :=
  let d := dieAt a
  let p := portAt a
  let off := offOf a
  if off = 0x40 then portCfgWrite s a v
  else if off = 0x5C then statCmdWrite s d p v
  else if off = 0x64 then addrCfgWrite s d p v
  else if 0x68 ≤ off ∧ off < 0x78 then addrDataWrite s d p ((off - 0x68) / 4) v
  else if off = 0x84 then fltActWrite s d p v
  else if p = 1 ∧ 0x100 ≤ off then s
  else storeReg s a v

/-- A write of an HCE register. Writes to HCE_S0_REF are ignored (R328). -/
def hceWrite (s : State) (a : Nat) (v : Word) : State :=
  let off := offOf a
  let n := slotOfReg off
  if 0x140 ≤ off then storeReg s a v
  else if slotReg off = 0 then slotCtrlWrite s n a v
  else if slotReg off = 4 ∧ n.val = 0 then s
  else if slotReg off = 0x1C then trctlWrite s n v
  else storeReg s a v

/-- A write of a WGL register: each needs its capability (R488, R492). -/
def wglRegWrite (s : State) (a : Nat) (v : Word) : State :=
  let d := dieAt a
  match offOf a with
  | 0x40 => haltWrite s d v
  | 0x44 => stepWrite s d v
  | 0x4C => wglWrite s d 0x4C 2 v (fun s => bpAddrWrite s d v)
  | 0x58 => wglWrite s d 0x58 1 v (fun s => memDataWrite s d v)
  | 0x60 => wglWrite s d 0x60 2 v (fun s => cregWrite s d v)
  | off => wglWrite s d off ((wglCap off).getD 2) v (fun s => storeReg s a v)

/-- A write of a register of the table, once its values and conditions have been checked: the registers with an action of
their own, then the plain ones. -/
def blockWrite (s : State) (r : Requester) (b : Block) (a : Nat) (v : Word) : State :=
  let d := dieAt a
  match b, offOf a with
  | .eth, _ => ethWrite s a v
  | .hce, _ => hceWrite s a v
  | .wgl, _ => wglRegWrite s a v
  | .cmb, 0x80 => combUpdWrite s d v
  | .cmb, 0xC8 => combSrchWrite s d v
  | .cmb, 0xFC => combShiftWrite s d v
  | .map, 0x54 => if bitAt v 0 then s.updDie d (fun x => { x with map := { x.map with ckpt := true } }) else s
  | .fgr, 0x58 => ratedWrite s d a v
  | .fgr, 0x60 => if bitAt v 0 then s.updDie d (fun x => { x with fgr := { x.fgr with recount := true } }) else s
  | .ldc, 0x4C => rrDataWrite s d v
  | .psu, 0x60 => if bitAt v 0 then testNow s else s
  | .psu, 0x10C => pmbCmdWrite s v
  | .psu, 0x1C4 => if bitAt v 0 then wdtKick s r else s
  | .lat, 0x50 => latSelWrite s d v
  | .evr, 0x40 => evrSelWrite s d v
  | .evr, 0x44 => rateWrite s d v
  | .evr, 0x48 => if bitAt v 0 then evrClear s d else s
  | .dmc, 0x4C => trainWrite s d v
  | .bpm, 0x44 => poolCfgWrite s d v
  | .bpm, 0x50 => poolThrWrite s d 0x50 v
  | .bpm, 0x54 => poolThrWrite s d 0x54 v
  | .bpm, 0x58 => sweepWrite s d v
  | .mov, 0x4C => doorbell s d v
  | .wrk, 0x40 => coreEnWrite s d a v
  | .wrk, 0x48 => kickCores s d v
  | .icu, 0x44 => srcCfgWrite s d v
  | .icu, 0xB0 => completeWrite s d v
  | .icu, 0xB4 => icuCount s d (fld v 8 0) false
  | .swm, 0x40 => swmCfgWrite s d (swmAt a) v
  | .pwr, 0x48 => if d = 0 then storeReg s a v else s
  | .pwr, 0x4C => if d = 0 then storeReg s a v else s
  | .pkgPwr, 0x40 => pkgCmdWrite s v
  | .thm, 0x48 => thmDataWrite s (siteAt a) v
  | .nor, 0x40 => norOpWrite s r v
  | .csq, 0x48 => urgentWrite s d a v
  | .nor, 0x48 => norUnlock s r v
  | _, _ => storeReg s a v

/-- A write of CTRL (R47, R49): LOCK and SRST are set by a 1, and a soft reset of a locked page is refused with SRST_LOCKED. -/
def ctrlWrite (s : State) (a : Nat) (v : Word) : State :=
  let base := baseOf a
  let s1 := regFld s a 0 0 (fld v 0 0)
  let s2 := if bitAt v 31 then regFld s1 a 31 31 1 else s1
  if bitAt v 1 then (if locked s base then recordErr s2 base 0x03 8 else regFld s2 a 1 1 1) else s2

/-- A write of INT_STAT: bits written 1 are cleared in INT_RAW, but for those whose event comes at the same moment (R52, R53). A
source whose level falls may rise again (R467). -/
def statClear (s : State) (base : Nat) (bits events : Word) : State :=
  icuFallAll (regSet s (base + 0x10) (regGet s (base + 0x10) &&& ~~~(bits &&& ~~~events)))

/-- A write of INT_TEST: bits written 1 are set in INT_RAW (R52); bits that the block does not define are reserved (R51). -/
def intTest (s : State) (b : Block) (base : Nat) (bits : Word) : State :=
  regSet s (base + 0x10) (regGet s (base + 0x10) ||| (bits &&& natWord (intBits b)))

/-- A write of the page header; read-only and reserved offsets ignore it (R9, R44). -/
def headerWrite (s : State) (b : Block) (a : Nat) (v : Word) : State :=
  match offOf a with
  | 0x14 => icuFallAll (regSet s a (v &&& natWord (intBits b)))
  | 0x18 => statClear s (baseOf a) v 0
  | 0x1C => intTest s b (baseOf a) v
  | _ => s

/-- A write to the block's own registers: refused whole under R566, a pair's halves under R8, else carried out. -/
def ownWrite (s : State) (r : Requester) (b : Block) (a : Nat) (v : Word) : State :=
  match regSpec b (offOf a) with
  | none => s
  | some q =>
    if !valuesOk q v || !condOk s b a v then badValue s a
    else if b == .wgl && isLo a then
      (if granted s 1 then pairHold s r a v else recordErr s (baseOf a) 0x80 (offOf a))
    else if b == .wgl && isHi a then
      (if granted s 1 then pairTake s r b a v else recordErr s (baseOf a) 0x80 (offOf a))
    else if isLo a && pairWritten a then pairHold s r a v
    else if isHi a && pairWritten (a - 4) then pairTake s r b a v
    else blockWrite s r b a v

/-- An aligned 32-bit register write by a requester (R10, R39, R48, R49, R498, R565 to R567). -/
def regWrite (s0 : State) (r : Requester) (a : Nat) (v : Word) : State :=
  let s := accessWake s0 a
  if !windowOpen s a then s
  else match blockAt a with
    | none => s
    | some b =>
      if offOf a = 8 then ctrlWrite s a v
      else if softResetting s (baseOf a) then s
      else if offOf a < 0x40 then headerWrite s b a v
      else ownWrite s r b a v

/-- An access of another width or alignment is ignored and recorded as ACCESS_WIDTH (R7, R54). -/
def badWidth (s0 : State) (a : Nat) : State :=
  let s := accessWake s0 a
  if windowOpen s a && (blockAt a).isSome then recordErr s (baseOf a) 0x02 (offOf a) else s

/-- A 32-bit write at any address. -/
def writeAligned (s : State) (r : Requester) (a : Nat) (v : Word) : State :=
  if a % 4 = 0 then regWrite s r a v else badWidth s a

/-- A 32-bit read at any address; what an unaligned one returns is not stated (log 78). -/
def readAligned (s : State) (r : Requester) (a : Nat) : State :=
  if a % 4 = 0 then readReg s r a else answerWith (badWidth s a) (Config.unstatedRead a)

/-! ### The soft reset (R11, R49) -/

/-- Registers that a soft reset keeps: LOCK aside, the RWS fields (R10, R330, R370, R400). -/
def softKept (a : Nat) : Bool :=
  (decide (winOf a < 8) && keptReg a)
    || (baseOf a == psuBase && [0xA0, 0xA4, 0xA8, 0xAC].contains (offOf a))

/-- The slots of HCE after a soft reset: the reset values of the trace controls (R11, R328). -/
def softHce (g : Guard) : Guard := { g with hce := #v[{ armed := true }, { armed := true }, {}, {}] }

/-- The mover drops every descriptor not yet complete and sends no pulse for any of them (R450). -/
def softMov (m : Mov) : Mov := { m with running := false, stopped := false, consumed := 0, tail := 0, bytes := 0, pulses := [] }

/-- What a block's own fields become at its soft reset (R11, R116, R175, R414, R450). An Ethernet
port with SPEED 0 is off (R406), and the kick limit of a core that comes
to be enabled counts anew (R459). Sessions, keys, Swarm links, records kept as RWS and stored data are no fields of a page (log 82). -/
def softState (s : State) (b : Block) (base : Nat) : State :=
  let d := dieAt base
  match b with
  | .eth => updPort s d (portAt base) (fun q => { q with
      slots := []
      filters := []
      live := []
      shadow := []
      up := false
      anDone := false
      attempts := 0
      paused := []
      discard := [] })
  | .wrk => allCores.foldl (fun t c =>
      if bitAt (regGet s (base + 0x40)) c.val then t else updCore t d c (fun q => { q with kickAt := (s.die d).mon.devTime })) s
  | .csq => s.updDie d (fun x => { x with csq := { x.csq with tokens := 20000 } })
  | .cmb => s.updDie d (fun x => { x with comb := { placement := x.comb.placement, epoch := x.comb.epoch } })
  | .map => s.updDie d (fun x => { x with map := { x.map with ckpt := false } })
  | .fgr => s.updDie d (fun x => { x with fgr := { x.fgr with recount := false } })
  | .ldc => s.updDie d (fun x => { x with flash := { x.flash with retry := [] } })
  | .mov => updMov s d softMov
  | .dmc => updDmc s d (fun m => { m with training := false })
  | .bpm => s.updDie d (fun x => { x with bpm := {} })
  | .icu => s.updDie d (fun x => { x with icu := {} })
  | .evr => s.updDie d (fun x => { x with mon := { x.mon with evrWin := [] } })
  | .lat => s.updDie d (fun x => { x with mon := { x.mon with latWin := [] } })
  | .thm => updThm s (siteAt base) (fun t => { t with oscTab := List.replicate 16 0, bgTab := List.replicate 16 0, loaded := false })
  | .hce => { s with guard := softHce s.guard }
  | .nor => { s with nor := { (norOpDone s).nor with pe := false, optWe := false } }
  | .wgl => s.updDie d (fun x => { x with bps := [] })
  | _ => s

/-- The end of a page's soft reset: every field but LOCK and the RWS fields takes its reset value in one step, as SRST clears; held and
latched values of its pairs go (R8, R11, R49). -/
def softDone (s : State) (b : Block) (base : Nat) : State :=
  let lock := regGet s (base + 8) &&& 0x80000000
  let s1 := softState s b base
  let s2 := regSet (regsDrop s1 (fun a => baseOf a == base && !softKept a)) (base + 8) lock
  icuFallAll { s2 with
    latch := s2.latch.filter (fun p => baseOf p.2.1 != base)
    heldLo := s2.heldLo.filter (fun p => baseOf p.2.1 != base) }

/-! ### The rows -/

/-- Whether an address is the first of a block's page. -/
def isPage (base : Nat) : Bool := offOf base == 0 && (blockAt base).isSome

/-- SOFT_RESET: a write of CTRL with SRST 1 and EN as given (R49). -/
def execSoftReset (r : Requester) (base : Word) (en : Bool) (s : State) : Out :=
  .next (byReq s r (fun s => if isPage base.toNat then regWrite s r (base.toNat + 8) (if en then 3 else 2) else s))

/-- SOFT_RESET_DONE: the moment at which SRST clears (R11, R49). -/
def execSoftResetDone (base : Word) (s : State) : Out :=
  .next (match blockAt base.toNat with
    | none => s
    | some b => if isPage base.toNat && softResetting s base.toNat && windowOpen s base.toNat then softDone s b base.toNat else s)

/-- PAGE_LOCK: a write of CTRL with LOCK 1 and EN as given (R10, R47). -/
def execPageLock (r : Requester) (base : Word) (en : Bool) (s : State) : Out :=
  .next (byReq s r (fun s => if isPage base.toNat then regWrite s r (base.toNat + 8) (if en then 0x80000001 else 0x80000000) else s))

/-- REGISTER_WRITE. -/
def execRegisterWrite (r : Requester) (addr : Word) (width : Nat) (v : Word) (s : State) : Out :=
  .next (byReq s r (fun s => if width = 4 then writeAligned s r addr.toNat v else badWidth s addr.toNat))

/-- INT_STAT_CLEAR: a W1C write of INT_STAT at the same moment as the events given (R52, R53). -/
def execIntStatClear (r : Requester) (base bits events : Word) (s : State) : Out :=
  .next (byReq s r (fun s => match blockAt base.toNat with
    | none => s
    | some b =>
      if isPage base.toNat && windowOpen s base.toNat then
        (let s1 := intTest s b base.toNat events
         if softResetting s base.toNat then accessWake s1 base.toNat
         else statClear (accessWake s1 base.toNat) base.toNat bits (events &&& natWord (intBits b)))
      else regWrite s r (base.toNat + 0x18) bits))

/-- INT_TEST: a W1S write of INT_TEST (R52). -/
def execIntTest (r : Requester) (base bits : Word) (s : State) : Out :=
  .next (byReq s r (fun s => if isPage base.toNat then regWrite s r (base.toNat + 0x1C) bits else s))

/-- ERR_CODE_READ: a read of ERR_CODE (R54, R55). -/
def execErrCodeRead (r : Requester) (base : Word) (s : State) : Out :=
  .next (byReq s r (fun s => if isPage base.toNat then readReg s r (base.toNat + 0x20) else s))

/-- PAIR_LO_READ: a read of _LO latches the current _HI for its requester (R8, R43). -/
def execPairLoRead (r : Requester) (addr : Word) (s : State) : Out :=
  .next (byReq s r (fun s => if isLo addr.toNat then readReg s r addr.toNat else s))

/-- PAIR_HI_READ: a read of _HI returns the latched value, or the current one (R8, R43). -/
def execPairHiRead (r : Requester) (addr : Word) (s : State) : Out :=
  .next (byReq s r (fun s => if isHi addr.toNat then readReg s r addr.toNat else s))

/-- PAIR_LO_WRITE: a write of _LO is held for its requester (R8, R43). -/
def execPairLoWrite (r : Requester) (addr v : Word) (s : State) : Out :=
  .next (byReq s r (fun s => if isLo addr.toNat then regWrite s r addr.toNat v else s))

/-- PAIR_HI_WRITE: a write of _HI takes effect with the requester's held _LO (R8, R43). -/
def execPairHiWrite (r : Requester) (addr v : Word) (s : State) : Out :=
  .next (byReq s r (fun s => if isHi addr.toNat then regWrite s r addr.toNat v else s))

end Sys2Proof.Machine
end

