-- ==== Sys2Proof/Machine/Admin.lean ====
section
/-! DEFINITION. The admin commands other than those on namespaces and firmware: NOP, IDENTIFY_TENANT (R103), METER_READ
(R391, R392), register access (R102), RESET_DEVICE (R101), TENANT_SET (R332 to R336), KEY_INSTALL (R346 to R349),
LOG_READ (R401) and CLOCK_SET (R375). -/
namespace Sys2Proof.Machine
open Sys2Proof

/-- A command completes with OK and data alone. -/
def replyData (s : State) (d : DieId) (c : Cmd) (aux : Nat) (data : Bytes) : State := complete s d c Stat.ok aux 0 0 data

/-- NOP. -/
def execNop (d : DieId) (cid : Nat) (s : State) : Out := .next (onCmd s d cid Op.nop (fun s c => fail s d c Stat.ok))

/-! ### IDENTIFY_TENANT (R103, R410) -/

/-- Address slot 0 of a port. -/
def slotZero (q : EthPort) : Option AddrSlot := q.slots.find? (fun a => a.slot == 0)

/-- The PORTS entry of a port; a die that the part lacks shows no address, no flags and the reset UDP port (log 176). -/
def portEntry (s : State) (d : DieId) (p : PortId) : Bytes :=
  let q := (s.die d).ports.get p
  let valid := ((slotZero q).map (fun a => a.valid)).getD false
  let v6 := ((slotZero q).map (fun a => a.v6)).getD false
  let addr := ((slotZero q).map (fun a => a.data.toNat)).getD 0
  let flags := (if valid && decide (dfld s d (Page.eth p) 0x40 2 0 ≠ 0) then 1 else 0) + (if v6 then 2 else 0) + (if q.up then 4 else 0)
  beBytes 16 (if v6 then addr else addr % 2 ^ 32) ++ beBytes 2 (dfld s d Page.ktp 0x40 15 0) ++ [BitVec.ofNat 8 flags, 0]

/-- A placement entry as the record shows it: the die in bits [2:0], OFFLINE in bit 7. -/
def placeByte (e : Nat) : Byte := BitVec.ofNat 8 (e % 8 + (if 8 ≤ e then 0x80 else 0))

/-- The IDENTIFY_TENANT record of a tenant on its arrival die. -/
def identify (s : State) (d : DieId) (tenant : Nat) : Bytes :=
  beBytes 2 tenant ++ [BitVec.ofNat 8 (partDies s.part), 0] ++ beBytes 4 (s.die d).comb.epoch
    ++ padTo 16 (((assocGet tenant (s.die d).hashKeys).getD []).take 16)
    ++ (List.range 256).map (fun i => placeByte (placeOf (s.die d) i))
    ++ allDies.flatMap (fun e => portEntry s e 0 ++ portEntry s e 1)

/-- IDENTIFY_TENANT. -/
def execIdentifyTenant (d : DieId) (cid : Nat) (s : State) : Out :=
  .next (onCmd s d cid Op.identify (fun s c => replyData s d c 0 (identify s d c.tenant)))

/-! ### METER_READ (R391, R392) -/

/-- The digest entry that stands for another tenant's record (R392). -/
def digestEntry (r : Bytes) : Bytes := slice r 0 2 ++ [0x04, 0, 0, 0] ++ slice r 6 2 ++ slice r 8 8 ++ Crypto.sha384 r

/-- A record as a tenant receives it. -/
def entryFor (tenant : Nat) (r : Bytes) : Bytes :=
  if tenant = 0 ∨ byteAt r 2 ≠ 1 ∨ leAt r 4 2 = tenant then r else digestEntry r

/-- A sealed minute as a tenant receives it. -/
def minuteFor (tenant : Nat) (q : Sealed) : Bytes := q.records.flatMap (entryFor tenant)

/-- The longest run of entries that fits in a length, and how many it is. -/
def takeWhole (room : Nat) : List Bytes → Bytes × Nat
  | [] => ([], 0)
  | b :: rest => if room < b.length then ([], 0) else
      (b ++ (takeWhole (room - b.length) rest).1, (takeWhole (room - b.length) rest).2 + 1)

/-- The reply to METER_READ. -/
def meterRead (s : State) (d : DieId) (c : Cmd) : State :=
  match s.mtr.log.dropWhile (fun q => q.minute != c.hdr.arg) with
  | [] => fail s d c Stat.notFound
  | q :: rest =>
    let r := takeWhole c.hdr.valueLen ((q :: rest).map (minuteFor c.tenant))
    if r.2 = 0 then fail s d c Stat.invalidField else replyData s d c r.2 r.1

/-- METER_READ. -/
def execMeterRead (d : DieId) (cid : Nat) (s : State) : Out := .next (onCmd s d cid Op.meterRead (fun s c => meterRead s d c))

/-! ### REG_READ and REG_WRITE (R96, R102) -/

/-- Reads registers in ascending order, each with the effects of its read; the words are appended to those read before. -/
def readRun (a : Nat) : Nat → State → List Word → State × List Word
  | 0, s, l => (s, l)
  | n + 1, s, l =>
    let t := readAligned s .admin (a % 2 ^ 32)
    readRun (a + 4) n t (l ++ [t.answer.data])

/-- REG_READ: its words stand in the reply and in `Answer.runs`. -/
def execRegRead (d : DieId) (cid : Nat) (s : State) : Out :=
  .next (onCmd s d cid Op.regRead (fun s c =>
    let r := readRun (c.hdr.arg % 2 ^ 32) c.hdr.valueLen s []
    replyData { r.1 with answer := { r.1.answer with runs := r.2 } } d c 0 (r.2.flatMap (fun w => leBytes 4 w.toNat))))

/-- Writes words in ascending order. -/
def writeRun (a : Nat) : List Bytes → State → State
  | [], s => s
  | b :: rest, s => writeRun (a + 4) rest (writeAligned s .admin (a % 2 ^ 32) (BitVec.ofNat 32 (leNat b)))

/-- REG_WRITE. -/
def execRegWrite (d : DieId) (cid : Nat) (s : State) : Out :=
  .next (onCmd s d cid Op.regWrite (fun s c =>
    fail (writeRun (c.hdr.arg % 2 ^ 32) (chunks 4 c.inline) s) d c Stat.ok))

/-- RESET_DEVICE: the reply; WARM_RESET with its cause follows (R101). -/
def execResetDevice (d : DieId) (cid : Nat) (s : State) : Out :=
  .next (onCmd s d cid Op.resetDevice (fun s c =>
    let t := fail s d c Stat.ok
    { t with pkg := { t.pkg with resetPend := true } }))

/-! ### TENANT_SET (R332 to R336) -/

/-- Replaces the context of its tenant. -/
def putTenant (t : Tenant) (l : List Tenant) : List Tenant := t :: l.filter (fun q => q.id != t.id)

/-- Whether the mask admits the port that carries the command (R335). -/
def maskHasPort (s : State) (c : Cmd) (mask : Nat) : Bool :=
  match sessGen (s.die c.home) c.slot c.gen with
  | none => true
  | some k => mask.testBit (c.home.val * 2 + k.port.val)

/-- The refusals of R335. -/
def tenantRefused (s : State) (c : Cmd) (t : Tenant) : Bool :=
  (t.id == 0 && (!t.enable || !maskHasPort s c t.adminPorts))
    || decide (256 < sumBy (fun q : Tenant => q.share) (putTenant t (s.die 0).tenants))

/-- Whether two contexts have the same rates; new rates start with full buckets (log 89). -/
def sameRates (a b : Tenant) : Bool :=
  a.opsRate == b.opsRate && a.opsBurst == b.opsBurst && a.byteRate == b.byteRate && a.byteBurst == b.byteBurst

/-- Loads a context into a die (R333). -/
def loadTenant (t : Tenant) (s : State) (e : DieId) : State :=
  s.updDie e (fun x =>
    { x with
      tenants := putTenant t x.tenants
      csq := { x.csq with buckets :=
        if ((tenantOf x t.id).map (sameRates t)).getD false then x.csq.buckets else assocDel t.id x.csq.buckets } })

/-- A tenant is disabled on a die: its sessions end with reason ADMIN and its hot-key entries go (R336). -/
def disableOn (t : Nat) (s : State) (e : DieId) : State :=
  invOnDie (tenantInv t).1 (tenantInv t).2 (terminateWhere s e (fun k => k.tenant == t) 0x04) e

/-- An accepted context: durable, then loaded everywhere (R333, R336). -/
def setTenant (s : State) (t : Tenant) : State :=
  let was := ((tenantOf (s.die 0) t.id).map (fun q => q.enable)).getD false
  let s1 := journalPut s (.tenantCtx t)
  let s2 := overDies (loadTenant t) s1 (upDies s)
  let s3 := if was && !t.enable then overDies (disableOn t.id) s2 (upDies s) else s2
  if t.enable && !s3.mtr.enabledIn.contains t.id then { s3 with mtr := { s3.mtr with enabledIn := s3.mtr.enabledIn ++ [t.id] } } else s3

/-- TENANT_SET. -/
def execTenantSet (d : DieId) (cid : Nat) (s : State) : Out :=
  .next (onCmd s d cid Op.tenantSet (fun s c =>
    let id := c.hdr.arg % 4096
    if !tenantOk id c.inline || tenantRefused s c (parseTenant id c.inline) then fail s d c Stat.invalidField
    else fail (setTenant s (parseTenant id c.inline)) d c Stat.ok))

/-! ### KEY_INSTALL (R346 to R349) -/

/-- A key record's wrapped form (R344). -/
def storeWrap (s : State) (key : Bytes) : Bytes := Crypto.kwWrap (storeKey s) key

/-- The KEK of the session that carries a command, none while die 0 holds no authentication key of tenant 0 (R347). -/
def sessionKek (s : State) (c : Cmd) : Option Bytes :=
  (authKey (s.die 0).cry 0).map (fun k => kekOf k (sidOf c.home.val c.gen c.slot))

/-- A key that tenant 0 supplies, unwrapped; none draws AUTH_FAIL (R347). -/
def suppliedKey (s : State) (c : Cmd) (wrapped : Bytes) : Option Bytes := (sessionKek s c).bind (fun k => Crypto.kwUnwrap k wrapped)

/-- The live generations of a tenant with their states, the newest last (R349). -/
def liveGens (s : State) (tenant : Nat) : List (Nat × Bytes × SlotState) :=
  (live s).filterMap (fun b => match b with
    | .keyData t g w st => if t = tenant then some (g, w, st) else none
    | _ => none)

/-- The number of a tenant's next generation (R349). -/
def freshGen (s : State) (tenant : Nat) : Nat := (((liveGens s tenant).getLast?).map (fun g => (g.1 + 1) % 256)).getD 0

/-- Whether some present, unfenced die has fewer EMPTY data slots than are needed. -/
def slotsShort (s : State) (n : Nat) : Bool := (upDies s).any (fun e => decide (freeDataSlots (s.die e).cry < n))

/-- Makes a data key generation durable and loads it into every die; the one that was newest becomes DECRYPT_ONLY (R345,
R348, R349). -/
def installData (s : State) (tenant : Nat) (key : Bytes) : State :=
  let g := freshGen s tenant
  let s1 := match (liveGens s tenant).getLast? with
    | none => s
    | some q => journalPut s (.keyData tenant q.1 q.2.1 .decryptOnly)
  let s2 := journalPut s1 (.keyData tenant g (storeWrap s key) .current)
  overDies (fun s e => s.updDie e (fun x => { x with cry := loadData x.cry tenant g key (ctrBoundOf s e tenant g) })) s2 (upDies s)

/-- Makes an authentication key durable and loads it into every die (R342, R348). -/
def installAuth (s : State) (tenant : Nat) (key : Bytes) : State :=
  overDies (fun s e => s.updDie e (fun x => { x with cry := loadAuth x.cry tenant key }))
    (journalPut s (.keyAuth tenant (storeWrap s key))) (upDies s)

/-- A KIND 2 install. -/
def newGeneration (s : State) (d : DieId) (c : Cmd) (tenant : Nat) : State :=
  if decide (4 ≤ (liveGens s tenant).length) || slotsShort s 1 then fail s d c Stat.invalidField
  else if (byteAt c.inline 1).testBit 0 then
    let r := drawBytes s 32
    fail (installData r.2 tenant r.1) d c Stat.ok
  else match suppliedKey s c (slice c.inline 8 40) with
    | none => fail s d c Stat.authFail
    | some k => fail (installData s tenant k) d c Stat.ok

/-- KEY_INSTALL. -/
def execKeyInstall (d : DieId) (cid : Nat) (s : State) : Out :=
  .next (onCmd s d cid Op.keyInstall (fun s c =>
    let tenant := c.hdr.arg % 4096
    if !keyBodyOk c.inline then fail s d c Stat.invalidField
    else if byteAt c.inline 0 = 2 then newGeneration s d c tenant
    else match suppliedKey s c (slice c.inline 8 40) with
      | none => fail s d c Stat.authFail
      | some k => fail (installAuth s tenant k) d c Stat.ok))

/-! ### LOG_READ (R401) -/

/-- The entries of a log from a cursor upward, each with its own cursor. -/
def logEntries (s : State) (e : DieId) (sel cursor : Nat) : List (Nat × Bytes) :=
  let m := (s.die e).mon
  match sel with
  | 1 => ((List.range 256).filter (fun k => decide (cursor ≤ k) && (evtOf k m.events).seen)).map (fun k => (k, evtBytes (evtOf k m.events)))
  | 2 => ((List.range 12288).filter (fun k => decide (cursor ≤ k) && latIndexOk (k / 4096) (k % 4096))).filterMap (fun k =>
      if k / 4096 = 2 then (if (evtOf (k % 4096) m.levels).count = 0 then none else some (k, evtBytes (evtOf (k % 4096) m.levels)))
      else if (latOf (k / 4096) (k % 4096) m.lat).count = 0 then none
      else some (k, latBytes (latOf (k / 4096) (k % 4096) m.lat)))
  | 3 => if cursor = 0 then [(0, Config.sealPublicKey s.nor.secret), (1, slice s.nor.shadow 2456 1024)] else
      if cursor = 1 then [(1, slice s.nor.shadow 2456 1024)] else []
  | _ => (List.range 256).filterMap (fun k => if k < cursor then none else (Config.catalogueEntry k).map (fun b => (k, b)))

/-- The cursor of the first entry that did not fit, or 0xFFFFFFFF. -/
def nextCursor (l : List (Nat × Bytes)) (n : Nat) : Nat := (((l.drop n).head?).map (fun p => p.1)).getD 0xFFFFFFFF

/-- The reply to LOG_READ. -/
def logRead (s : State) (d : DieId) (c : Cmd) : State :=
  let sel := bitsOf c.hdr.arg 63 56
  let die := bitsOf c.hdr.arg 39 32
  let cursor := bitsOf c.hdr.arg 31 0
  if sel = 0 ∨ 4 < sel ∨ 8 ≤ die then fail s d c Stat.invalidField
  else if !present s (dieOf die) || decide ((s.die (dieOf die)).phase = .fenced) then fail s d c Stat.invalidField
  else
    let l := logEntries s (dieOf die) sel cursor
    let r := takeWhole c.hdr.valueLen (l.map (fun p => p.2))
    replyData s d c (nextCursor l r.2) r.1

/-- LOG_READ. -/
def execLogRead (d : DieId) (cid : Nat) (s : State) : Out := .next (onCmd s d cid Op.logRead (fun s c => logRead s d c))

/-! ### CLOCK_SET (R375, R376) -/

/-- The effect of CLOCK_SET with a wall time in ns. -/
def clockSet (s : State) (wall : Nat) : State :=
  let old := wallGuard s
  let s1 : State := { s with
    guard := { s.guard with offset := (wall : Int) - (s.guard.devTime : Int), wallUnset := false }
    mtr := { s.mtr with steps := s.mtr.steps ++ [(old, (wall : Int), s.guard.devTime)] } }
  recordEvent (wallMark s1) 0 0x01 (((wall : Int) - old).natAbs / 1000000)

/-- CLOCK_SET. -/
def execClockSet (d : DieId) (cid : Nat) (s : State) : Out :=
  .next (onCmd s d cid Op.clockSet (fun s c => fail (clockSet s c.hdr.arg) d c Stat.ok))

end Sys2Proof.Machine
end

