-- ==== Sys2Proof/Machine/Namespaces.lean ====
section
/-! DEFINITION. NS_CREATE and NS_DELETE (R339 to R341, R143, R347) and FORMAT (R183, R184, R246, R364). -/
namespace Sys2Proof.Machine
open Sys2Proof

/-! ### NS_CREATE -/

/-- The namespaces of a tenant. -/
def nsCount (x : Die) (t : Nat) : Nat := (x.map.nstab.filter (fun n => n.tenant == t)).length

/-- NS_MAX of a tenant, 0 for a tenant whose context has never been set (log 90). -/
def nsMaxOf (x : Die) (t : Nat) : Nat := ((tenantOf x t).map (fun c => c.nsMax)).getD 0

/-- The refusals of R340 with INVALID_FIELD that depend on the device's state. -/
def nsRefused (x : Die) (n : NsEntry) : Bool :=
  (nsOf x n.tenant n.nsid).isSome || decide (nsMaxOf x n.tenant ≤ nsCount x n.tenant) || decide (16384 ≤ x.map.nstab.length)

/-- Whether a block namespace's chunks exceed what a die has left (R340). -/
def chunksShort (s : State) (n : NsEntry) (e : DieId) : Bool :=
  decide (exported s e < blockNsBytes (s.die e) e + kvBytes (s.die e) + blockShare (s.die e) e n)

/-- Whether a tenant has a data key generation. -/
def hasGen (s : State) (t : Nat) : Bool := !(liveGens s t).isEmpty

/-- Data slots that the keys of a new namespace take on each die (R347). -/
def slotsNeeded (s : State) (n : NsEntry) : Nat := (if n.ntype = 1 then 1 else 0) + (if hasGen s n.tenant then 0 else 1)

/-- NO_SPACE of R340, and of R200 where a die's full table would not fit. -/
def nsNoSpace (s : State) (n : NsEntry) : Bool :=
  (n.ntype == 1 && (upDies s).any (chunksShort s n)) || slotsShort s (slotsNeeded s n)
    || (upDies s).any (fun e => tableBeyond s e (nsPages (s.die e) e n))

/-- Draws 16 bytes that are not all zero (R143), with fuel; should every draw be all zero, byte 0 is 1 (log 101). -/
def drawHashKey : Nat → State → Bytes × State
  | 0, s => (1 :: zeros 15, s)
  | n + 1, s => let r := drawBytes s 16
    if r.1.all (· == 0) then drawHashKey n r.2 else r

/-- The tenant's first namespace draws its hash key, on every die (R143, R347). -/
def ensureHashKey (s : State) (t : Nat) : State :=
  if 0 < nsCount (s.die 0) t then s
  else
    let r := drawHashKey 8 s
    overDies (fun s e => s.updDie e (fun x => { x with hashKeys := assocSet t r.1 x.hashKeys })) r.2 (upDies s)

/-- Generation 0 is drawn when no generation exists (R347). -/
def ensureGen (s : State) (t : Nat) : State :=
  if hasGen s t then s
  else let r := drawBytes s 32
    installData r.2 t r.1

/-- A namespace's XTS key pair becomes durable and is loaded into every die (R347, R348). -/
def installXts (s : State) (t nsid : Nat) (key : Bytes) : State :=
  overDies (fun s e => s.updDie e (fun x => { x with cry := loadXts x.cry t nsid key (ctrBoundOf s e t (256 + nsid)) }))
    (journalPut s (.keyXts t nsid (storeWrap s key))) (upDies s)

/-- A new root on every present, unfenced die names a change (R571). -/
def rootsNow (s : State) : State :=
  overDies (fun s e => if (s.die e).map.mounted then checkpoint s e else s) s (upDies s)

/-- A namespace takes the first free slot of a die's table (R196). -/
def addNs (x : Die) (n : NsEntry) : Die :=
  let slot := ((List.range 16384).find? (fun i => x.map.nstab.all (fun m => m.slot != i))).getD 0
  { x with map := { x.map with nstab := x.map.nstab ++ [{ n with slot := slot }] } }

/-- The namespace on every die, with its keys and roots. `xts` is the supplied XTS key. -/
def createNs (s : State) (n : NsEntry) (xts : Option Bytes) : State :=
  let s1 := ensureGen (ensureHashKey s n.tenant) n.tenant
  let s2 := if n.ntype = 1 then
      match xts with
      | some k => installXts s1 n.tenant n.nsid k
      | none => let r := drawBytes s1 64
        installXts r.2 n.tenant n.nsid r.1
    else s1
  rootsNow (overDies (fun s e => s.updDie e (fun x => addNs x n)) s2 (upDies s))

/-- The effect of NS_CREATE, its refusals in the order INVALID_FIELD, NO_SPACE, AUTH_FAIL (log 91). -/
def nsCreate (s : State) (d : DieId) (c : Cmd) : State :=
  let n := parseNs c.hdr.nsid c.inline
  if !nsOk c.hdr.nsid c.inline || nsRefused (s.die 0) n then fail s d c Stat.invalidField
  else if nsNoSpace s n then fail s d c Stat.noSpace
  else if nsWrapped c.inline then
    match suppliedKey s c (slice c.inline 16 72) with
    | none => fail s d c Stat.authFail
    | some k => fail (createNs s n (some k)) d c Stat.ok
  else fail (createNs s n none) d c Stat.ok

/-- NS_CREATE. -/
def execNsCreate (d : DieId) (cid : Nat) (s : State) : Out := .next (onCmd s d cid Op.nsCreate (fun s c => nsCreate s d c))

/-! ### Removing namespaces -/

/-- The namespace that a write belongs to. -/
def payloadNs : Payload → Nat × Nat
  | .record r _ _ _ => (r.tenant, r.nsid)
  | .blocks bs => ((bs.head?).map (fun b => (b.tenant, b.nsid))).getD (0, 0)
  | .erase t n _ _ _ _ _ => (t, n)
  | .trim t n _ _ => (t, n)

/-- The units of a namespace's data on flash are dead from now on (R341): their groups lose them in VALID. -/
def deadData (x : Die) (t n : Nat) : Die :=
  let y := (x.map.kv.filter (fun e => e.tenant == t && e.nsid == n && e.valid && !e.nectar)).foldl (fun y e => release y e.loc) x
  (x.map.dense.filter (fun e => e.tenant == t && e.nsid == n && e.nectar.isNone && e.entry != 0)).foldl
    (fun y e => release y (denseLoc e.entry)) y

/-- A die's map, ring and cache without a namespace. -/
def forgetNs (x : Die) (t n : Nat) : Die :=
  let y := deadData x t n
  { y with
    map := { y.map with
      kv := y.map.kv.filter (fun e => !(e.tenant == t && e.nsid == n))
      dense := y.map.dense.filter (fun e => !(e.tenant == t && e.nsid == n))
      nstab := y.map.nstab.filter (fun e => !(e.tenant == t && e.nsid == n))
      places := y.map.places.filter (fun p => p.id.tree != .ns t n)
      ring := y.map.ring.filter (fun e => payloadNs e.payload != (t, n))
      l0 := y.map.l0.filter (fun p => !(p.1 == t && p.2.1 == n))
      cache := y.map.cache.filter (fun p => !(p.1 == t && p.2.1 == n)) }
    cry := eraseData y.cry (fun k => k.tenant == t && k.xts == some n)
    comb := invMasked y.comb (nsInv t n).1 (nsInv t n).2 }

/-- Whether a command of the data path waits for its data, its admission or its reads. -/
def waitingData (c : Cmd) : Bool :=
  (isKv c.hdr.opcode || isBlock c.hdr.opcode) && [Phase.granting, .admitting, .through, .lookup, .reading].contains c.phase

/-- The commands of a namespace that wait on a die are answered with NOT_FOUND, so that nothing of its data is read after the
reply (R341, log 92). -/
def endNsCmds (s : State) (e : DieId) (t n : Nat) : State :=
  ((s.die e).csq.cmds.filter (fun c => waitingData c && c.tenant == t && c.hdr.nsid == n)).foldl (fun s c => fail s e c Stat.notFound) s

/-- Removes a namespace on every present, unfenced die (R341). -/
def removeNs (s : State) (t n : Nat) : State :=
  overDies (fun s e => (endNsCmds s e t n).updDie e (fun x => forgetNs x t n)) s (upDies s)

/-- Erases a tenant's hash key and every data key generation, with their records (R143, R341). -/
def forgetTenant (s : State) (t : Nat) : State :=
  let s1 := overDies (fun s e => s.updDie e (fun x => { x with hashKeys := assocDel t x.hashKeys })) s allDies
  (liveGens s t).foldl (fun s g => dropGen s t g.1) s1

/-- The XTS key record of a namespace goes, if it has one. -/
def dropXtsRecord (s : State) (t n : Nat) : State :=
  if (live s).any (fun b => cjSame b (.keyXts t n [])) then journalDel s (.keyXts t n []) else s

/-- Deletes one namespace with its keys. -/
def deleteNs (s : State) (t n : Nat) : State :=
  let s1 := dropXtsRecord (removeNs s t n) t n
  if nsCount (s1.die 0) t = 0 then forgetTenant s1 t else s1

/-- The effect of NS_DELETE. -/
def nsDelete (s : State) (d : DieId) (c : Cmd) : State :=
  let t := c.hdr.arg % 4096
  if (nsOf (s.die 0) t c.hdr.nsid).isNone then fail s d c Stat.notFound
  else fail (rootsNow (deleteNs s t c.hdr.nsid)) d c Stat.ok

/-- NS_DELETE. -/
def execNsDelete (d : DieId) (cid : Nat) (s : State) : Out := .next (onCmd s d cid Op.nsDelete (fun s c => nsDelete s d c))

/-! ### FORMAT -/

/-- The placement table of a descriptor, or the default of R144. -/
def placementOf (s : State) (b : Bytes) : List Nat :=
  if (byteAt b 3).testBit 0 then (slice b 16 256).map (fun x => x.toNat) else (List.range 256).map (fun i => i % partDies s.part)

/-- Whether a die is absent or fenced. -/
def goneDie (s : State) (d : DieId) : Bool := !present s d || (s.die d).phase == .fenced

/-- The sizing rule of full-table mode (R200). -/
def sizingOk (s : State) (d : DieId) : Bool :=
  decide (rawBytes s d / 800 + nectarBytes s d + 2 ^ 30 ≤ dramSize s d)

/-- The refusals of R184. -/
def formatRefused (s : State) (b : Bytes) : Bool :=
  !formatOk b || (placementOf s b).any (fun i => goneDie s (dieOf i))
    || (!(byteAt b 3).testBit 0 && allDies.any (fun e => present s e && (s.die e).phase == .fenced))
    || (byteAt b 2 == 1 && allDies.any (fun e => !goneDie s e && !sizingOk s e))

/-- The channels of a group whose block is usable at a format: not marked bad by the manufacturer (R246), not on a retired
channel or LUN (R227). -/
def formatGood (d : DieId) (x : Die) (num good : Nat) : Nat :=
  (chanList good).foldl (fun m c =>
    if Config.badBlock d.val num c || (x.flash.chans.get (chanOf c)).st == .retired
        || lunRetired x (chanOf c) (groupCe num) (groupLun num) then m else m + 2 ^ c) 0

/-- The groups of a die that has none recorded: every block of its LUNs (R179, R263, log 93). -/
def blankGroups (s : State) (d : DieId) : List Group :=
  (ceList s d).flatMap (fun ce => (List.range (lunsPerCe s d)).flatMap (fun lun => (List.range s.pkg.partBlocks).map (fun b =>
    { num := groupNum ce lun b, st := .free, qlc := false, copy := false, good := 0xFF, layout := 0xFF, wear := 0, valid := 0,
      closedS := 0, used := 0, rebuild := false, failed := false, badCh := [] })))

/-- A group at a format: WEAR 0 (R237), the blocks of R246, what it held queued for erasure (R183). -/
def formatGroup (d : DieId) (x : Die) (g : Group) : Group :=
  let good := formatGood d x g.num g.good
  { num := g.num
    st := if g.num < 8 then .anchor
      else if members good < 4 ∨ g.st = .retired then .retired
      else if g.st = .free then .free else .erasePending
    qlc := g.qlc, copy := false, good := good, layout := good, wear := 0, valid := 0, closedS := 0, used := 0,
    rebuild := false, failed := false, badCh := [] }

/-- The groups of a die as a format finds them. -/
def groupsBefore (s : State) (d : DieId) : List Group := if (s.die d).groups.isEmpty then blankGroups s d else (s.die d).groups

/-- The governing root of a die as a format leaves it until it writes its own: it names nothing; ROOT_SEQ goes on (R216). -/
def emptyRoot (x : Die) : Option Root :=
  (argMax (fun r : Root => r.seq) (x.map.roots.map (fun p => p.root))).map (fun r =>
    { r with
      ckptJseq := x.map.jseq
      jhead := 0
      nstab := 0
      bgtab := 0 })

/-- A die emptied by a format: its map and Nectar ring, its flash work, the Forager's state; the write sequence starts at 1
(R183, R201, R254). -/
def formatDie (s : State) (d : DieId) (b : Bytes) (id : Nat) (x : Die) : Die :=
  { x with
    groups := (groupsBefore s d).map (formatGroup d x)
    fgr := { ({} : Fgr) with retired := x.fgr.retired, copied := x.fgr.copied }
    flash := { x.flash with ops := [], stripes := [] }
    map := { ({} : MapEng) with
      roots := x.map.roots
      anchorWear := x.map.anchorWear
      root := emptyRoot x
      rootAt := x.map.rootAt
      formatId := id
      jseq := x.map.jseq
      nextWid := x.map.nextWid
      ringTop := x.map.ringTop
      limShare := x.map.limShare
      slcTarget := x.map.slcTarget
      mountMs := x.map.mountMs
      mounted := true
      mapMode := byteAt b 2 == 1
      opPct := byteAt b 4
      policy := byteAt b 5 } }

/-- How many blocks of a group the manufacturer's marks take at a format, and whether they take the group (R246, R227). -/
def marksIn (d : DieId) (g : Group) : Nat := ((chanList g.good).filter (fun c => Config.badBlock d.val g.num c)).length

/-- The marks are retirements: they are counted and recorded, each block and each group retired whole (R246, R247, R259). -/
def countMarks (before : List Group) (s : State) (d : DieId) : State :=
  let n := sumBy (marksIn d) before
  let whole := (before.filter (fun g => decide (0 < marksIn d g) && g.st != .retired
    && ((groupOf (s.die d) g.num).map (fun q => q.st)) == some .retired)).length
  if n = 0 then s
  else
    let s1 := regBump (regBump s (dreg d Page.fgr 0xA8) n) (dreg d Page.fgr 0xAC) whole
    let s2 := (List.range n).foldl (fun s _ => recordEvent s d 0x0B 0) (raiseInt s1 (dreg d Page.fgr 0) 2)
    s2.updDie d (fun x => { x with fgr := { x.fgr with retired := x.fgr.retired + n } })

/-- The least-worn group that is queued for erasure. -/
def nextPending (x : Die) : Option Group :=
  argMin (fun g : Group => g.wear * 2 ^ 24 + g.num) (x.groups.filter (fun g => g.st == .erasePending))

/-- Old groups are erased until the rescue reserve is full and a FREE group is left for the map and one for the journal, so that
the format's root can name its tables; with fuel (R183, R214, log 166). -/
def eraseForRoot (d : DieId) : Nat → State → State
  | 0, s => s
  | n + 1, s =>
    let t := fillRescue s d
    if 2 ≤ (freeGroups (t.die d)).length then t
    else match nextPending (t.die d) with
      | none => t
      | some g => eraseForRoot d n (eraseDone (t.updDie d (fun x => jAppendTo x 0 0 (.eraseIntent g.num g.good))) d g)

/-- Queues the erases of a format, each group's ERASE_INTENT first (R183, R214). -/
def queueFormatErases (s : State) (d : DieId) : State :=
  ((s.die d).groups.filter (fun g => g.st == .erasePending)).foldl (fun s g =>
    queueErases (s.updDie d (fun x => jAppendTo x 0 0 (.eraseIntent g.num g.good))) d g) s

/-- A format on one die: its waiting commands end, its map is empty, the marks of R246 are counted, the root is written, and the
old groups are queued for erasure. -/
def formatOn (b : Bytes) (id : Nat) (place : List Nat) (epoch : Nat) (s : State) (e : DieId) : State :=
  let s1 := ((s.die e).csq.cmds.filter waitingData).foldl (fun s c => fail s e c Stat.notFound) s
  let s2 := s1.updDie e (fun x =>
    formatDie s1 e b id { x with comb := { x.comb with placement := place.map toCombPlace, epoch := epoch } })
  let s3 := countMarks (groupsBefore s1 e) s2 e
  let s4 := checkpoint (eraseForRoot e (s3.die e).groups.length s3) e
  fgrReval (spaceChanged (spaceCode (s.die e)) (queueFormatErases s4 e) e) e

/-- Every namespace is deleted with its keys (R183, R341). -/
def deleteAll (s : State) : State := (s.die 0).map.nstab.foldl (fun s n => deleteNs s n.tenant n.nsid) s

/-- The effect of an accepted FORMAT: the namespaces, a random FORMAT_ID, the placement, the rates of R271, the roots; a purge
and read-only mode end (R254, R364). -/
def format (s : State) (b : Bytes) : State :=
  let r := drawBytes (deleteAll s) 8
  let id := leNat r.1
  let place := placementOf s b
  let epoch := s.pkg.epoch + 1
  let s1 := journalPut r.2 (.ldcRates (regGet s (dreg 0 Page.ldc 0x40)))
  let s2 := { s1 with pkg := { s1.pkg with placement := place, epoch := epoch, formatId := id, purged := false } }
  overDies (formatOn b id place epoch) s2 (upDies s)

/-- Whether every present, unfenced die runs, so that each can write the root of a format. -/
def allRun (s : State) : Bool := allDies.all (fun e => goneDie s e || running s e)

/-- FORMAT, once every present, unfenced die can write its root (R183, log 102). A die without a good anchor block cannot take its
root: MEDIA_ERROR (log 94). -/
def execFormat (d : DieId) (cid : Nat) (s : State) : Out :=
  .next (onCmd s d cid Op.format (fun s c =>
    if formatRefused s c.inline then fail s d c Stat.invalidField
    else if !allRun s then s
    else
      let t := format s c.inline
      if (upDies t).any (fun e => decide (anchorBlocks (t.die e) = 0)) then fail t d c Stat.mediaError else fail t d c Stat.ok))

end Sys2Proof.Machine
end

