-- ==== Sys2Proof/Machine/Firmware.lean ====
section
/-! DEFINITION. Firmware download and activation (R133 to R135, R538 to R541, R547). -/
namespace Sys2Proof.Machine
open Sys2Proof

/-- The base of die 0's FWU page. -/
def fwuBase : Nat := dreg 0 Page.fwu 0

/-! ### FW_DOWNLOAD -/

/-- The first bytes of an image as a download carries them: MAGIC, FMT and IMAGE_LEN (R529, R538). -/
def manifestOk (b : Bytes) : Bool :=
  leAt b 0 4 == 0x464D4B53 && leAt b 4 2 == 1 && decide (1 ≤ leAt b 24 4 ∧ leAt b 24 4 ≤ 50327552)

/-- The checks of R538 on a download command's place. -/
def placeOk (s : State) (c : Cmd) : Bool :=
  decide (c.hdr.arg + c.hdr.valueLen ≤ 48 * 2 ^ 20)
    && (if c.hdr.arg = 0 then decide (4096 ≤ c.hdr.valueLen) else s.nor.dlOn && decide (c.hdr.arg = s.nor.dlGot))

/-- The main sectors whose first byte lies in a span. -/
def sectorsBegun (a len : Nat) : List Nat := (List.range (len / 0x40000 + 2)).map (· + a / 0x40000) |>.filter (fun n =>
  decide (a ≤ n * 0x40000 ∧ n * 0x40000 < a + len))

/-- A command at offset 0 starts a download (R538). -/
def startDownload (s : State) (slot : Bool) (b : Bytes) : State :=
  norCount { s with nor := { norEraseSpan s.nor (slotRecAddr slot / 0x1000) with
    dlSlot := slot, dlOn := true, dlGot := 0, dlLen := 4096 + leAt b 24 4 } } 0 1

/-- Writes a piece of the slot: each main sector is erased just before its first byte is written; 512-byte pages (R539). -/
def writeSlot (s : State) (a : Nat) (b : Bytes) : State :=
  let begun := sectorsBegun a b.length
  let n := begun.foldl (fun n k => norEraseSpan n (32 + k)) s.nor
  norCount { s with nor := norWrite n a b } (ceilDiv (a % 512 + b.length) 512) begun.length

/-- The slot record of R530. -/
def slotRecordBytes (n : Nor) (slot : Bool) : Bytes :=
  let m := manifest n slot
  let b := leBytes 4 0x44524C53 ++ leBytes 1 (if slot then 1 else 0) ++ slice m 8 1 ++ zeros 2 ++ slice m 16 8
    ++ Crypto.sha384 (m.take 288) ++ zeros 28
  b ++ leBytes 4 (Hash.crc32c b).toNat

/-- The whole slot has arrived: the check of R366, then the slot record (R540). -/
def finishDownload (s : State) (d : DieId) (c : Cmd) (slot : Bool) : State :=
  let s1 := { s with nor := { s.nor with dlOn := false } }
  if imageOk s1.nor slot then
    let s2 := norCount { s1 with nor := norWrite s1.nor (slotRecAddr slot) (slotRecordBytes s1.nor slot) } 1 0
    fail (raiseInt s2 fwuBase 1) d c Stat.ok
  else fail (recordErr s1 fwuBase 0x80 0) d c Stat.authFail

/-- A command's bytes are written and read back; a second mismatch ends the download, and what the sector then holds is free
(R539, log 95). -/
def downloadBytes (s : State) (d : DieId) (c : Cmd) (b : Bytes) (readBackOk : Bool) : State :=
  let slot := !s.nor.running
  let s1 := if c.hdr.arg = 0 then startDownload s slot b else s
  let a := slotBase slot + c.hdr.arg
  if readBackOk then
    let s2 := writeSlot s1 a b
    let s3 := { s2 with nor := { s2.nor with dlGot := s2.nor.dlGot + b.length } }
    if s3.nor.dlLen ≤ s3.nor.dlGot then finishDownload s3 d c slot else fail s3 d c Stat.ok
  else
    let r := drawBytes s1 b.length
    let s2 := writeSlot r.2 a r.1
    fail (recordErr { s2 with nor := { s2.nor with dlOn := false } } fwuBase 0x81 (a / 0x40000)) d c Stat.mediaError

/-- The data of a FW_DOWNLOAD: inline, or granted (R104). -/
def downloadData (c : Cmd) : Option Bytes :=
  if c.hdr.valueLen ≤ 8192 then some c.inline
  else if c.hdr.valueLen ≤ c.value.length then some c.value else none

/-- The effect of FW_DOWNLOAD: its place is checked before its data is granted, and again with its manifest when the data is
there (R538). -/
def fwDownload (s : State) (d : DieId) (c : Cmd) (readBackOk : Bool) : State :=
  if !placeOk s c then fail s d c Stat.invalidField
  else match downloadData c with
    | none => putCmd s d { c with phase := .granting }
    | some b => if c.hdr.arg = 0 ∧ manifestOk b = false then fail s d c Stat.invalidField else downloadBytes s d c b readBackOk

/-- FW_DOWNLOAD. -/
def execFwDownload (d : DieId) (cid : Nat) (readBackOk : Bool) (s : State) : Out :=
  .next (onCmd s d cid Op.fwDownload (fun s c => fwDownload s d c readBackOk))

/-! ### FW_ACTIVATE -/

/-- Stops or resumes the grant and idle timers of every die (R135). -/
def setTimers (s : State) (stop : Bool) : State :=
  overDies (fun s e => s.updDie e (fun x => { x with csq := { x.csq with tmoStop := stop } })) s allDies

/-- Appends a boot-control entry: one program (R531). -/
def appendEntry (s : State) (e : BootEntry) : State := norCount { s with nor := bootAppend s.nor e } 1 0

/-- Steps 1 of R133 after the checks: ACTIVE for the slot, dispatch stops on every die. -/
def beginActivation (s : State) (d : DieId) (c : Cmd) (slot : Bool) : State :=
  let s1 := appendEntry (norOpDone s) (.active slot)
  let s2 := setTimers (putCmd s1 d { c with phase := .activating }) true
  { s2 with pkg := { s2.pkg with act := { on := true, cid := c.cid, slot := slot, old := s.nor.running } } }

/-- The effect of FW_ACTIVATE (R541). -/
def fwActivate (s : State) (d : DieId) (c : Cmd) : State :=
  let slot := c.hdr.arg.testBit 0
  if !recordValid s.nor slot || (s.nor.dlOn && s.nor.dlSlot == slot) then fail s d c Stat.invalidField
  else if slot = s.nor.running then fail s d c Stat.ok
  else if !imageOk s.nor slot then fail s d c Stat.authFail
  else if s.pkg.act.on then s
  else beginActivation s d c slot

/-- FW_ACTIVATE. -/
def execFwActivate (d : DieId) (cid : Nat) (s : State) : Out := .next (onCmd s d cid Op.fwActivate (fun s c => fwActivate s d c))

/-- Whether a die still has a command past the media point (R112, R133 step 2). -/
def draining (x : Die) (cid : Nat) : Bool := x.csq.cmds.any (fun c => c.cid != cid && c.phase != .queued && !beforeMedia c)

/-- A write whose last byte came during the pause goes on (R135). -/
def resumeWrites (x : Die) : Die :=
  { x with csq := { x.csq with cmds := x.csq.cmds.map (fun c =>
      if c.phase = .granting ∧ c.hdr.valueLen ≤ c.value.length then
        { c with phase := if c.hdr.opcode = Op.fwDownload then .dispatched else .admitting }
      else c) } }

/-- Dispatch resumes, with held ABORTs carried out first when the firmware has been reloaded (R133 steps 6 and 7, R134); a session
whose window edge advances again is told at once (R79, R135). -/
def resumeAll (s : State) : State :=
  let s1 := { setTimers s false with pkg := { s.pkg with act := {} } }
  overDies (fun s e => openWindows s e) (overDies (fun s e =>
    ((s.die e).csq.controls.foldl (fun s a => match ctrlOf (s.die e) a.cid Op.abort with
      | none => s
      | some q => if q.target.isSome then s else abortNow s e q) s).updDie e resumeWrites)
    s1 (upDies s)) (upDies s)

/-- The reply to the FW_ACTIVATE in progress, with FWU INT bit 2 (R547). -/
def answerActivation (s : State) (cid status : Nat) : State :=
  let s1 := raiseInt s fwuBase 2
  match cmdOf (s1.die 0) cid with
  | none => s1
  | some c => fail s1 0 c status

/-- ACT_DRAIN_DONE: every command past the media point has completed; the new firmware runs and its ten minutes of R533 start
(R133, R533). -/
def execActDrainDone (s : State) : Out :=
  .next (onDie s 0 (fun s =>
    if s.pkg.act.on && !(upDies s).any (fun e => draining (s.die e) s.pkg.act.cid) then
      let t := { s with
        nor := { s.nor with running := s.pkg.act.slot }
        pkg := { s.pkg with fwReload := s.pkg.fwReload + 1, mountedAt := some s.guard.devTime } }
      answerActivation (resumeAll t) s.pkg.act.cid Stat.ok
    else s))

/-- ACT_DRAIN_TIMEOUT: the activation is abandoned, the old slot is ACTIVE and confirmed again (R134, R140, R541); the drain is an
internal operation of CSQ that exceeded its limit (R54, log 156). -/
def execActDrainTimeout (s : State) : Out :=
  .next (onDie s 0 (fun s =>
    if s.pkg.act.on then
      let t := appendEntry (appendEntry (resumeAll s) (.active s.pkg.act.old)) (.confirm s.pkg.act.old)
      answerActivation (recordErr (raiseInt t (dreg 0 Page.csq 0) 2) (dreg 0 Page.csq 0) 0x05 0) s.pkg.act.cid Stat.busyRetry
    else s))

end Sys2Proof.Machine
end

