-- ==== Sys2Proof/Machine/WagglePort.lean ====
section
/-! DEFINITION. The two-wire port of die 0: transactions, the challenge and the response, and the grant (R478 to R484). -/
namespace Sys2Proof.Machine
open Sys2Proof

/-! ### A transaction (R479) -/

/-- Changes the port's state. -/
def updWgl (s : State) (f : Waggle → Waggle) : State := { s with wgl := f s.wgl }

/-- Whether the port answers: die 0 is out of reset and the package is not in OFF. -/
def portLive (s : State) : Bool := dieOpen s 0 Page.wgl && !s.guard.off

/-- OP of a header. -/
def hdrOp (h : BitVec 16) : Nat := bitsOf h.toNat 9 7
/-- SEQ of a header. -/
def hdrSeq (h : BitVec 16) : Nat := bitsOf h.toNat 6 5
/-- DIE of a header. -/
def hdrDie (h : BitVec 16) : Nat := bitsOf h.toNat 12 10

/-- MARK, CRC-5 and DIE of a header are good. -/
def hdrOk (s : State) (h : BitVec 16) : Bool :=
  bitsOf h.toNat 15 13 == 5 && bitsOf h.toNat 4 0 == Hash.crc5 (h.toNat / 32) && decide (hdrDie h < partDies s.part)

/-- The CRC-8 of a write's header and data. -/
def writeCrc (h : BitVec 16) (data : Word) : Byte := BitVec.ofNat 8 (Hash.crc8 (Hash.msbBits 16 h.toNat ++ Hash.msbBits 32 data.toNat))

/-- The CRC-8 of a status and the data of a read. -/
def readCrc (status : Nat) (data : Word) : Byte := BitVec.ofNat 8 (Hash.crc8 (Hash.msbBits 4 status ++ Hash.msbBits 32 data.toNat))

/-- REFUSED sets the sticky ERR. -/
def refused (s : State) : State := updWgl s (fun w => { w with err := true, status := 0xC })

/-- RETRY: nothing has been executed. -/
def retry (s : State) : State := updWgl s (fun w => { w with status := 0x9 })

/-- DONE of a write. -/
def writeDone (s : State) (h : BitVec 16) : State :=
  updWgl s (fun w => { w with status := 0x6, lastSeq := some (hdrSeq h), readSeq := none })

/-- DONE of a read with its word. -/
def readDoneWith (s : State) (h : BitVec 16) (v : Word) : State :=
  updWgl s (fun w => { w with status := 0x6, out := v, outCrc := readCrc 6 v, readSeq := some (hdrOp h, hdrSeq h, v) })

/-- Whether an op is allowed now: the Locked-ok ops always, the register ops once REG is granted (R480). -/
def opAllowed (s : State) (op : Nat) : Bool := !(decide (2 ≤ op ∧ op ≤ 4)) || granted s 0

/-- A read transaction: a repeat returns the same word with no further effect. -/
def portRead (s : State) (op : Nat) (h : BitVec 16) (act : State → State) : State :=
  if !portLive s || hdrOp h != op then s
  else if !hdrOk s h || s.wgl.err || !opAllowed s op then refused s
  else match s.wgl.readSeq with
    | some (o, q, v) => if o = op ∧ q = hdrSeq h then readDoneWith s h v else act s
    | none => act s

/-- A write transaction: one with the SEQ of the last write that returned DONE is not executed again; CLEAR_ERR is always
executed. -/
def portWrite (s : State) (op : Nat) (h : BitVec 16) (data : Word) (crc : Byte) (act : State → State) : State :=
  let clear := op == 1 && bitAt data 31
  if !portLive s || hdrOp h != op then s
  else if !hdrOk s h || crc != writeCrc h data then refused s
  else if clear then act s
  else if s.wgl.err || !opAllowed s op then refused s
  else if s.wgl.lastSeq = some (hdrSeq h) then updWgl s (fun w => { w with status := 0x6, readSeq := none })
  else act s

/-! ### The ops (R480) -/

/-- WGL_LINE_SYNC: either SEQ is accepted next; an unlock goes on (R478). -/
def execWglLineSync (s : State) : Out :=
  .next (if portLive s then updWgl s (fun w => { w with lastSeq := none, readSeq := none }) else s)

/-- The word of READ_STATUS. -/
def statusWord (s : State) : Word :=
  natWord ((if s.wgl.err then 2 ^ 31 else 0) + (if s.wgl.busy then 2 ^ 30 else 0) + s.wgl.caps % 8 * 256
    + (if s.wgl.lockout then 16 else 0) + (if s.nor.dbgLock then 8 else 0))

/-- READ_STATUS. While ERR is set it draws REFUSED as every transaction does (R479). -/
def execReadStatus (hdr : BitVec 16) (s : State) : Out := .next (portRead s 0 hdr (fun s => readDoneWith s hdr (statusWord s)))

/-- WRITE_CTRL: the requested capabilities, and CLEAR_ERR. -/
def execWriteCtrl (hdr : BitVec 16) (data : Word) (crc : Byte) (s : State) : Out :=
  .next (portWrite s 1 hdr data crc (fun s =>
    writeDone (updWgl s (fun w => { w with want := fld data 10 8, err := w.err && !bitAt data 31 })) hdr))

/-- WRITE_ADDR. -/
def execWriteAddr (hdr : BitVec 16) (data : Word) (crc : Byte) (s : State) : Out :=
  .next (portWrite s 2 hdr data crc (fun s => writeDone (updWgl s (fun w => { w with addr := data })) hdr))

/-- READ_DATA: a register read by the Waggle requester; the address increases by 4. -/
def execReadData (hdr : BitVec 16) (s : State) : Out :=
  .next (portRead s 3 hdr (fun s =>
    let s1 := readAligned s .waggle s.wgl.addr.toNat
    readDoneWith (updWgl s1 (fun w => { w with addr := w.addr + 4 })) hdr s1.answer.data))

/-- WRITE_DATA: a register write by the Waggle requester; the address increases by 4. -/
def execWriteData (hdr : BitVec 16) (data : Word) (crc : Byte) (s : State) : Out :=
  .next (portWrite s 4 hdr data crc (fun s =>
    writeDone (updWgl (writeAligned s .waggle s.wgl.addr.toNat data) (fun w => { w with addr := w.addr + 4 })) hdr))

/-- A new challenge: 16 bytes of die 0's CTR_DRBG, the unit ID, the requested capabilities in bits [10:8] of 4 big-endian bytes, 12
zero bytes (R481, R482). It voids the earlier one. -/
def newChallenge (s : State) : State :=
  let r := drawBytes s 16
  updWgl r.2 (fun w => { w with
    chal := r.1 ++ (padTo 16 s.nor.unitId).take 16 ++ beBytes 4 (s.wgl.want * 256) ++ zeros 12
    chalIdx := 0
    resp := []
    grant := none })

/-- The next challenge word, the first byte in the high bits; after the last comes word 0 again. -/
def challengeWord (s : State) (h : BitVec 16) : State :=
  let v := natWord (beNat (slice s.wgl.chal (4 * s.wgl.chalIdx) 4))
  readDoneWith (updWgl s (fun w => { w with chalIdx := (w.chalIdx + 1) % 12 })) h v

/-- READ_CHAL: word 0 draws a new challenge, which waits while a response is being verified or randomness is out (log 86). -/
def execReadChal (hdr : BitVec 16) (s : State) : Out :=
  .next (portRead s 5 hdr (fun s =>
    if s.wgl.busy || (s.wgl.chalIdx == 0 && s.pkg.entropyFail) then retry s
    else challengeWord (if s.wgl.chalIdx = 0 then newChallenge s else s) hdr))

/-- WRITE_RESP: the next word of the 200-byte response; the last one sets BUSY (R482, R483). -/
def execWriteResp (hdr : BitVec 16) (data : Word) (crc : Byte) (s : State) : Out :=
  .next (portWrite s 6 hdr data crc (fun s =>
    if s.wgl.busy then retry s
    else
      let r := s.wgl.resp ++ beBytes 4 data.toNat
      writeDone (updWgl s (fun w => { w with resp := r, busy := decide (200 ≤ r.length) })) hdr))

/-- READ_ID. -/
def execReadId (hdr : BitVec 16) (s : State) : Out :=
  .next (portRead s 7 hdr (fun s => readDoneWith s hdr (natWord (0x00190000 + partDies s.part * 256 + hdrDie hdr))))

/-! ### The unlock (R482 to R484) -/

/-- The capabilities that a challenge holds. -/
def chalCaps (w : Waggle) : Nat := beNat (slice w.chal 32 4) / 256 % 8

/-- Whether a response passes (R483, R484): DEBUG_LOCK intact, the key index not revoked, the key's hash and the signature good. -/
def responseOk (s : State) : Bool :=
  let w := s.wgl
  let i := byteAt w.resp 0
  let pub := slice w.resp 4 97
  !s.nor.dbgLock && decide (w.chal.length = 48) && decide (i < 4) && !s.nor.revoke.testBit i
    && (s.nor.rootHash.getD i [] == Crypto.sha384 pub) && Crypto.ecdsaVerify pub (Crypto.sha384 w.chal) (slice w.resp 104 96)

/-- A failed response: RESP_FAIL, and after three of them LOCKOUT; with DEBUG_LOCK blown none is counted (R484, R492). -/
def responseFail (s : State) : State :=
  let n := if s.nor.dbgLock then s.wgl.fails else s.wgl.fails + 1
  recordErr (updWgl s (fun w => { w with fails := n, lockout := w.lockout || decide (3 ≤ n) })) (wglBase 0) 0x81 n

/-- WGL_RESPONSE_VERIFY: within 5 ms of the last response word; a request for MEM or HALT raises the unlock alarm (R483). -/
def execWglResponseVerify (s : State) : Out :=
  .next (if !portLive s || !s.wgl.busy then s
    else
      let s1 := updWgl s (fun w => { w with busy := false, resp := [] })
      if !responseOk s then responseFail s1
      else if s.wgl.lockout then s1
      else
        let s2 := updWgl s1 (fun w => { w with grant := some (chalCaps w) })
        if 2 ≤ chalCaps s.wgl then alarm s2 .waggle (.die 0) else s2)

/-- Every key slot of every bank of the present dies reads as zero. -/
def slotsZero (s : State) : Bool :=
  allDies.all (fun d => (s.die d).cry.data.isEmpty && (s.die d).cry.session.isEmpty && (s.die d).cry.auth.isEmpty)

/-- WGL_GRANT: the grant of a response that has passed; MEM and HALT only after the alarm, with every slot zero (R369, R483). -/
def execWglGrant (s : State) : Out :=
  .next (match s.wgl.grant with
    | none => s
    | some c =>
      if portLive s && (decide (c < 2) || (s.pkg.keysOut && slotsZero s)) then
        updWgl s (fun w => { w with caps := w.caps ||| c, grant := none })
      else s)

end Sys2Proof.Machine
end

