-- ==== Sys2Proof/Machine/Dispatch.lean ====
section
/-! DEFINITION. The dispatch: one arm per command, each one direct call of its meaning. -/
namespace Sys2Proof.Machine
open Sys2Proof

def exec (i : Instr) (s : State) : Host.Outcome State Fault Refusal :=
  match i with
  | .coldReset => Sys2Proof.Machine.execColdReset s
  | .warmReset cause lowNs => Sys2Proof.Machine.execWarmReset cause lowNs s
  | .softReset r base en => Sys2Proof.Machine.execSoftReset r base en s
  | .softResetDone base => Sys2Proof.Machine.execSoftResetDone base s
  | .pageLock r base en => Sys2Proof.Machine.execPageLock r base en s
  | .registerWrite r addr width v => Sys2Proof.Machine.execRegisterWrite r addr width v s
  | .intStatClear r base bits events => Sys2Proof.Machine.execIntStatClear r base bits events s
  | .intTest r base bits => Sys2Proof.Machine.execIntTest r base bits s
  | .errCodeRead r base => Sys2Proof.Machine.execErrCodeRead r base s
  | .pairLoRead r addr => Sys2Proof.Machine.execPairLoRead r addr s
  | .pairHiRead r addr => Sys2Proof.Machine.execPairHiRead r addr s
  | .pairLoWrite r addr v => Sys2Proof.Machine.execPairLoWrite r addr v s
  | .pairHiWrite r addr v => Sys2Proof.Machine.execPairHiWrite r addr v s
  | .openPkt d p g => Sys2Proof.Machine.execOpen d p g s
  | .openRefuseWindow d p => Sys2Proof.Machine.execOpenRefuseWindow d p s
  | .openRcvdTimeout d slot => Sys2Proof.Machine.execOpenRcvdTimeout d slot s
  | .cmdSegment d p g => Sys2Proof.Machine.execCmdSegment d p g s
  | .dataOut d p g => Sys2Proof.Machine.execDataOut d p g s
  | .ack d p g => Sys2Proof.Machine.execAck d p g s
  | .close d p g => Sys2Proof.Machine.execClose d p g s
  | .closingTimeout d slot => Sys2Proof.Machine.execClosingTimeout d slot s
  | .terminate d p g => Sys2Proof.Machine.execTerminate d p g s
  | .terminateBarrier d => Sys2Proof.Machine.execTerminateBarrier d s
  | .ackDelayExpiry d slot => Sys2Proof.Machine.execAckDelayExpiry d slot s
  | .rtoExpiry d slot => Sys2Proof.Machine.execRtoExpiry d slot s
  | .idleTimeout d slot => Sys2Proof.Machine.execIdleTimeout d slot s
  | .grantIssue d cid => Sys2Proof.Machine.execGrantIssue d cid s
  | .grantTimeout d cid => Sys2Proof.Machine.execGrantTimeout d cid s
  | .rateAdmit d slot => Sys2Proof.Machine.execRateAdmit d slot s
  | .tokenRefill d tenant => Sys2Proof.Machine.execTokenRefill d tenant s
  | .cmdIntake d => Sys2Proof.Machine.execCmdIntake d s
  | .csqDispatch d => Sys2Proof.Machine.execCsqDispatch d s
  | .urgentRefill d => Sys2Proof.Machine.execUrgentRefill d s
  | .get d cid => Sys2Proof.Machine.execGet d cid s
  | .put d cid => Sys2Proof.Machine.execPut d cid s
  | .delete d cid => Sys2Proof.Machine.execDelete d cid s
  | .stat d cid => Sys2Proof.Machine.execStat d cid s
  | .read d cid => Sys2Proof.Machine.execRead d cid s
  | .write d cid => Sys2Proof.Machine.execWrite d cid s
  | .trim d cid => Sys2Proof.Machine.execTrim d cid s
  | .flush d cid => Sys2Proof.Machine.execFlush d cid s
  | .flushBarrier d => Sys2Proof.Machine.execFlushBarrier d s
  | .flushConfirm d cid => Sys2Proof.Machine.execFlushConfirm d cid s
  | .abort d cid => Sys2Proof.Machine.execAbort d cid s
  | .nop d cid => Sys2Proof.Machine.execNop d cid s
  | .identifyTenant d cid => Sys2Proof.Machine.execIdentifyTenant d cid s
  | .resetSession d cid => Sys2Proof.Machine.execResetSession d cid s
  | .resetSessionBarrier d => Sys2Proof.Machine.execResetSessionBarrier d s
  | .meterRead d cid => Sys2Proof.Machine.execMeterRead d cid s
  | .regRead d cid => Sys2Proof.Machine.execRegRead d cid s
  | .regWrite d cid => Sys2Proof.Machine.execRegWrite d cid s
  | .resetDevice d cid => Sys2Proof.Machine.execResetDevice d cid s
  | .tenantSet d cid => Sys2Proof.Machine.execTenantSet d cid s
  | .nsCreate d cid => Sys2Proof.Machine.execNsCreate d cid s
  | .nsDelete d cid => Sys2Proof.Machine.execNsDelete d cid s
  | .keyInstall d cid => Sys2Proof.Machine.execKeyInstall d cid s
  | .fwDownload d cid readBackOk => Sys2Proof.Machine.execFwDownload d cid readBackOk s
  | .fwActivate d cid => Sys2Proof.Machine.execFwActivate d cid s
  | .actDrainDone => Sys2Proof.Machine.execActDrainDone s
  | .actDrainTimeout => Sys2Proof.Machine.execActDrainTimeout s
  | .format d cid => Sys2Proof.Machine.execFormat d cid s
  | .logRead d cid => Sys2Proof.Machine.execLogRead d cid s
  | .clockSet d cid => Sys2Proof.Machine.execClockSet d cid s
  | .bucketLookupDone d cid pageOk => Sys2Proof.Machine.execBucketLookupDone d cid pageOk s
  | .nectarAdmit d => Sys2Proof.Machine.execNectarAdmit d s
  | .packerStripe d => Sys2Proof.Machine.execPackerStripe d s
  | .checkpoint d => Sys2Proof.Machine.execCheckpoint d s
  | .mapCkptNow r d => Sys2Proof.Machine.execMapCkptNow r d s
  | .slcTargetRecompute d => Sys2Proof.Machine.execSlcTargetRecompute d s
  | .mapLockTimeout d core tenant nsid index heldMs => Sys2Proof.Machine.execMapLockTimeout d core tenant nsid index heldMs s
  | .fgrScore d => Sys2Proof.Machine.execFgrScore d s
  | .fgrReclaim d => Sys2Proof.Machine.execFgrReclaim d s
  | .cmbDrainFence d => Sys2Proof.Machine.execCmbDrainFence d s
  | .fgrEraseStart d => Sys2Proof.Machine.execFgrEraseStart d s
  | .fgrRecount r d => Sys2Proof.Machine.execFgrRecount r d s
  | .fgrRecountDone d => Sys2Proof.Machine.execFgrRecountDone d s
  | .readOnlyEnter d => Sys2Proof.Machine.execReadOnlyEnter d s
  | .flashOpIssue d op => Sys2Proof.Machine.execFlashOpIssue d op s
  | .flashReadComplete d op o => Sys2Proof.Machine.execFlashReadComplete d op o s
  | .flashProgramComplete d op pass => Sys2Proof.Machine.execFlashProgramComplete d op pass s
  | .flashEraseComplete d op pass check1 check2 => Sys2Proof.Machine.execFlashEraseComplete d op pass check1 check2 s
  | .lunTimeout d op => Sys2Proof.Machine.execLunTimeout d op s
  | .rbStuck d l => Sys2Proof.Machine.execRbStuck d l s
  | .channelRetrainDone d c ok bad => Sys2Proof.Machine.execChannelRetrainDone d c ok bad s
  | .degradedReadTimeout d op => Sys2Proof.Machine.execDegradedReadTimeout d op s
  | .tokenPeriod d => Sys2Proof.Machine.execTokenPeriod d s
  | .tokenAllocate => Sys2Proof.Machine.execTokenAllocate s
  | .cmbInvalidate r d v => Sys2Proof.Machine.execCmbInvalidate r d v s
  | .cmbWrite r d v => Sys2Proof.Machine.execCmbWrite r d v s
  | .cmbValidate r d v => Sys2Proof.Machine.execCmbValidate r d v s
  | .cmbResult r d v => Sys2Proof.Machine.execCmbResult r d v s
  | .cmbInvMasked r d v => Sys2Proof.Machine.execCmbInvMasked r d v s
  | .cmbUpdateDone d => Sys2Proof.Machine.execCmbUpdateDone d s
  | .cmbSlotReclaimDone d => Sys2Proof.Machine.execCmbSlotReclaimDone d s
  | .cmbSearch r d v => Sys2Proof.Machine.execCmbSearch r d v s
  | .cmbSearchResult d => Sys2Proof.Machine.execCmbSearchResult d s
  | .cmbShift r d v => Sys2Proof.Machine.execCmbShift r d v s
  | .cmbShiftDone d => Sys2Proof.Machine.execCmbShiftDone d s
  | .hceOuterSample n meas => Sys2Proof.Machine.execHceOuterSample n meas s
  | .hceInnerSample n meas => Sys2Proof.Machine.execHceInnerSample n meas s
  | .hceClampTimeout n => Sys2Proof.Machine.execHceClampTimeout n s
  | .fanFault n => Sys2Proof.Machine.execFanFault n s
  | .hceTraceArm r n v => Sys2Proof.Machine.execHceTraceArm r n v s
  | .hceTraceFire r n v => Sys2Proof.Machine.execHceTraceFire r n v s
  | .traceStop n => Sys2Proof.Machine.execTraceStop n s
  | .hceTrDataRead r => Sys2Proof.Machine.execHceTrDataRead r s
  | .bankOv vbank => Sys2Proof.Machine.execBankOv vbank s
  | .chargerRestart => Sys2Proof.Machine.execChargerRestart s
  | .bankTestStart => Sys2Proof.Machine.execBankTestStart s
  | .bankTestDue => Sys2Proof.Machine.execBankTestDue s
  | .psuTestNow r => Sys2Proof.Machine.execPsuTestNow r s
  | .bankTestDischarge vStep iStep => Sys2Proof.Machine.execBankTestDischarge vStep iStep s
  | .bankTestLowReached => Sys2Proof.Machine.execBankTestLowReached s
  | .bankTestDone charge => Sys2Proof.Machine.execBankTestDone charge s
  | .bankTestTimeout => Sys2Proof.Machine.execBankTestTimeout s
  | .dirtyLimitUpdate vin vbank vhold vLow => Sys2Proof.Machine.execDirtyLimitUpdate vin vbank vhold vLow s
  | .powerLoss => Sys2Proof.Machine.execPowerLoss s
  | .dieFlushDone d => Sys2Proof.Machine.execDieFlushDone d s
  | .flushShort => Sys2Proof.Machine.execFlushShort s
  | .lossRestart => Sys2Proof.Machine.execLossRestart s
  | .psuLossInfoRead r => Sys2Proof.Machine.execPsuLossInfoRead r s
  | .dieFault d cause => Sys2Proof.Machine.execDieFault d cause s
  | .dieResetDone d => Sys2Proof.Machine.execDieResetDone d s
  | .die0Fault => Sys2Proof.Machine.execDie0Fault s
  | .coreWdtExpiry d core => Sys2Proof.Machine.execCoreWdtExpiry d core s
  | .wrkKick r d v => Sys2Proof.Machine.execWrkKick r d v s
  | .idleEntry d => Sys2Proof.Machine.execIdleEntry d s
  | .sleepEntry d => Sys2Proof.Machine.execSleepEntry d s
  | .deepRequest d => Sys2Proof.Machine.execDeepRequest d s
  | .deepEntry => Sys2Proof.Machine.execDeepEntry s
  | .wake w => Sys2Proof.Machine.execWake w s
  | .pllLock d => Sys2Proof.Machine.execPllLock d s
  | .clockDomainRegate d page => Sys2Proof.Machine.execClockDomainRegate d page s
  | .pkgOff r => Sys2Proof.Machine.execPkgOff r s
  | .pkgWake r => Sys2Proof.Machine.execPkgWake r s
  | .rtcAlarm => Sys2Proof.Machine.execRtcAlarm s
  | .wakeNLow us => Sys2Proof.Machine.execWakeNLow us s
  | .mgtHealth port => Sys2Proof.Machine.execMgtHealth port s
  | .mgtState port => Sys2Proof.Machine.execMgtState port s
  | .mgtTemp port => Sys2Proof.Machine.execMgtTemp port s
  | .mgtVin port => Sys2Proof.Machine.execMgtVin port s
  | .mgtVbank port => Sys2Proof.Machine.execMgtVbank port s
  | .mgtBank port => Sys2Proof.Machine.execMgtBank port s
  | .mgtDies port => Sys2Proof.Machine.execMgtDies port s
  | .mgtWake port v pec => Sys2Proof.Machine.execMgtWake port v pec s
  | .mgtUnknownCode port code => Sys2Proof.Machine.execMgtUnknownCode port code s
  | .mgtBusTimeout port => Sys2Proof.Machine.execMgtBusTimeout port s
  | .thmSample at_ readings => Sys2Proof.Machine.execThmSample at_ readings s
  | .thmStateExit at_ => Sys2Proof.Machine.execThmStateExit at_ s
  | .sensorRecover at_ n => Sys2Proof.Machine.execSensorRecover at_ n s
  | .thmStage2 d => Sys2Proof.Machine.execThmStage2 d s
  | .thermalRestart at_ => Sys2Proof.Machine.execThermalRestart at_ s
  | .thmTrimUpdate at_ => Sys2Proof.Machine.execThmTrimUpdate at_ s
  | .thmLoaded r at_ v => Sys2Proof.Machine.execThmLoaded r at_ v s
  | .alarm src at_ => Sys2Proof.Machine.execAlarm src at_ s
  | .alarmRecover => Sys2Proof.Machine.execAlarmRecover s
  | .entropyHealthFail d => Sys2Proof.Machine.execEntropyHealthFail d s
  | .drbgReseed d => Sys2Proof.Machine.execDrbgReseed d s
  | .ctrBoundRequest d slot => Sys2Proof.Machine.execCtrBoundRequest d slot s
  | .minuteBoundary => Sys2Proof.Machine.execMinuteBoundary s
  | .meterPartial d => Sys2Proof.Machine.execMeterPartial d s
  | .meterSeal => Sys2Proof.Machine.execMeterSeal s
  | .meterDieTimeout d => Sys2Proof.Machine.execMeterDieTimeout d s
  | .capSample d => Sys2Proof.Machine.execCapSample d s
  | .devtimeSync d guardNow => Sys2Proof.Machine.execDevtimeSync d guardNow s
  | .wallMark => Sys2Proof.Machine.execWallMark s
  | .levelSample d => Sys2Proof.Machine.execLevelSample d s
  | .latSel r d v => Sys2Proof.Machine.execLatSel r d v s
  | .eventRecord d code value => Sys2Proof.Machine.execEventRecord d code value s
  | .evrRefill d => Sys2Proof.Machine.execEvrRefill d s
  | .evrSel r d v => Sys2Proof.Machine.execEvrSel r d v s
  | .evrClearAll r d => Sys2Proof.Machine.execEvrClearAll r d s
  | .rxFrame d p f => Sys2Proof.Machine.execRxFrame d p f s
  | .pfcPauseExpire d p prio => Sys2Proof.Machine.execPfcPauseExpire d p prio s
  | .pfcResend d p => Sys2Proof.Machine.execPfcResend d p s
  | .pfcWatchdog d p prio => Sys2Proof.Machine.execPfcWatchdog d p prio s
  | .txFrame d p underrun => Sys2Proof.Machine.execTxFrame d p underrun s
  | .linkUp d p => Sys2Proof.Machine.execLinkUp d p s
  | .linkDown d p => Sys2Proof.Machine.execLinkDown d p s
  | .linkTrainFail d p => Sys2Proof.Machine.execLinkTrainFail d p s
  | .ethSnap r d p v => Sys2Proof.Machine.execEthSnap r d p v s
  | .ethFltAct r d p v => Sys2Proof.Machine.execEthFltAct r d p v s
  | .ethAddrCfg r d p v => Sys2Proof.Machine.execEthAddrCfg r d p v s
  | .dmcRefresh d hot => Sys2Proof.Machine.execDmcRefresh d hot s
  | .neighbourRefresh d sub bank row => Sys2Proof.Machine.execNeighbourRefresh d sub bank row s
  | .dmcLfsrReseed d => Sys2Proof.Machine.execDmcLfsrReseed d s
  | .dmcScrub d addr b => Sys2Proof.Machine.execDmcScrub d addr b s
  | .dmcTrainOp r d v => Sys2Proof.Machine.execDmcTrainOp r d v s
  | .dmcTrainDone d errors failLane => Sys2Proof.Machine.execDmcTrainDone d errors failLane s
  | .bpmPoolEnable r d v => Sys2Proof.Machine.execBpmPoolEnable r d v s
  | .bpmAlloc d pool owner => Sys2Proof.Machine.execBpmAlloc d pool owner s
  | .bpmAdd d addr actor owner => Sys2Proof.Machine.execBpmAdd d addr actor owner s
  | .bpmMove d addr src dst => Sys2Proof.Machine.execBpmMove d addr src dst s
  | .bpmDrop d addr owner => Sys2Proof.Machine.execBpmDrop d addr owner s
  | .bpmFree d pool addr => Sys2Proof.Machine.execBpmFree d pool addr s
  | .bpmSweep r d v => Sys2Proof.Machine.execBpmSweep r d v s
  | .bpmSweepDone d => Sys2Proof.Machine.execBpmSweepDone d s
  | .bpmUnfence r d v => Sys2Proof.Machine.execBpmUnfence r d v s
  | .bpmMinFreeRead r d => Sys2Proof.Machine.execBpmMinFreeRead r d s
  | .movDoorbell r d v => Sys2Proof.Machine.execMovDoorbell r d v s
  | .gather d => Sys2Proof.Machine.execGather d s
  | .scatter d => Sys2Proof.Machine.execScatter d s
  | .copy d => Sys2Proof.Machine.execCopy d s
  | .movPulse d => Sys2Proof.Machine.execMovPulse d s
  | .icuEvent d src => Sys2Proof.Machine.execIcuEvent d src s
  | .icuClaim d core => Sys2Proof.Machine.execIcuClaim d core s
  | .icuComplete r d v => Sys2Proof.Machine.execIcuComplete r d v s
  | .icuSwset r d v => Sys2Proof.Machine.execIcuSwset r d v s
  | .icuHoldoffExpiry d g => Sys2Proof.Machine.execIcuHoldoffExpiry d g s
  | .swmFlitRx d k f => Sys2Proof.Machine.execSwmFlitRx d k f s
  | .swmReplayTimeout d k => Sys2Proof.Machine.execSwmReplayTimeout d k s
  | .swmRetrainDone d k ok => Sys2Proof.Machine.execSwmRetrainDone d k ok s
  | .swmRetire r d k v => Sys2Proof.Machine.execSwmRetire r d k v s
  | .swmRouteSwitch d k => Sys2Proof.Machine.execSwmRouteSwitch d k s
  | .swmCreditTimeout d k => Sys2Proof.Machine.execSwmCreditTimeout d k s
  | .wglLineSync => Sys2Proof.Machine.execWglLineSync s
  | .readStatus hdr => Sys2Proof.Machine.execReadStatus hdr s
  | .writeCtrl hdr data crc => Sys2Proof.Machine.execWriteCtrl hdr data crc s
  | .writeAddr hdr data crc => Sys2Proof.Machine.execWriteAddr hdr data crc s
  | .readData hdr => Sys2Proof.Machine.execReadData hdr s
  | .writeData hdr data crc => Sys2Proof.Machine.execWriteData hdr data crc s
  | .readChal hdr => Sys2Proof.Machine.execReadChal hdr s
  | .writeResp hdr data crc => Sys2Proof.Machine.execWriteResp hdr data crc s
  | .readId hdr => Sys2Proof.Machine.execReadId hdr s
  | .wglResponseVerify => Sys2Proof.Machine.execWglResponseVerify s
  | .wglGrant => Sys2Proof.Machine.execWglGrant s
  | .wglHaltReq r d v => Sys2Proof.Machine.execWglHaltReq r d v s
  | .wglResume r d v => Sys2Proof.Machine.execWglResume r d v s
  | .wglStep r d v => Sys2Proof.Machine.execWglStep r d v s
  | .coreHalt d core pc => Sys2Proof.Machine.execCoreHalt d core pc s
  | .wglBreakpoint d core pc => Sys2Proof.Machine.execWglBreakpoint d core pc s
  | .wglMemAccess r d wr => Sys2Proof.Machine.execWglMemAccess r d wr s
  | .wglCregAccess r d wr => Sys2Proof.Machine.execWglCregAccess r d wr s
  | .norProgram r v => Sys2Proof.Machine.execNorProgram r v s
  | .norErase r v => Sys2Proof.Machine.execNorErase r v s
  | .norUnlockPe r => Sys2Proof.Machine.execNorUnlockPe r s
  | .norUnlockOptWe r => Sys2Proof.Machine.execNorUnlockOptWe r s
  | .psuWdtKick r => Sys2Proof.Machine.execPsuWdtKick r s
  | .pmbPoll rail a => Sys2Proof.Machine.execPmbPoll rail a s
  | .pmbFaultRecheck rail a => Sys2Proof.Machine.execPmbFaultRecheck rail a s
  | .pmbMargin r v => Sys2Proof.Machine.execPmbMargin r v s
  | .pmbClear r v => Sys2Proof.Machine.execPmbClear r v s
  | .entropyStartupPass d => Sys2Proof.Machine.execEntropyStartupPass d s
  | .norOpDone => Sys2Proof.Machine.execNorOpDone s
  | .journalCompact => Sys2Proof.Machine.execJournalCompact s
  | .fwConfirm => Sys2Proof.Machine.execFwConfirm s
  | .svnCommit => Sys2Proof.Machine.execSvnCommit s
  | .packageWdtExpiry => Sys2Proof.Machine.execPackageWdtExpiry s
  | .pmbAlert => Sys2Proof.Machine.execPmbAlert s
  | .resetNRelease => Sys2Proof.Machine.execResetNRelease s
  | .bankExhausted => Sys2Proof.Machine.execBankExhausted s

end Sys2Proof.Machine
end

