-- ==== Sys2Proof/Safety.lean ====
section
/-! DEFINITION. What counts as a safe run: the step answers a next state, and the sparse stores keep the one canonical form
in which equal contents are equal data. -/
namespace Sys2Proof.Safety
open Sys2Proof Sys2Proof.Machine

/-- Every die's memory is in canonical form. -/
def memoryOk (s : State) : Prop := ∀ d : DieId, memWf (s.die d).mem = true

/-- The boot NOR's array is in canonical form. -/
def norOk (s : State) : Prop := norWf s.nor.array = true

/-- The registers are in canonical form. -/
def registersOk (s : State) : Prop := regsWf s.regs = true

/-- The canonical forms of the whole state. -/
structure Canonical (s : State) : Prop where
  registers : registersOk s
  memory    : memoryOk s
  nor       : norOk s

/-- A step is safe when it stops neither with a fault nor with a refusal. -/
def SafeStep (s : State) : Prop := ∃ t, step s = .next t

/-! ### Conditions that the statements share -/

/-- A present die that runs, in the power state RUN, with no entry to a lower power state in progress. -/
abbrev Serving (s : State) (d : DieId) : Prop :=
  running s d = true ∧ (s.die d).csq.ps = .run ∧ (s.die d).csq.stage = 0 ∧ s.guard.entry = 0

/-- A requester that has the register space: the Waggle requester only while its REG capability is granted (R40, R481). -/
abbrev HasSpace (s : State) (r : Requester) : Prop := r = .waggle → s.wgl.caps.testBit 0 = true

/-- A block of a die that runs takes new work: it is enabled and not in a soft reset (R48, R49). -/
abbrev TakesWork (s : State) (d : DieId) (page : Nat) : Prop := running s d = true ∧ takesWork s (dreg d page 0) = true

/-- A datagram that reaches KTP: its port and KTP take work, and it is sent to an address of the port (R48, R56, R409). -/
abbrev Reaches (s : State) (d : DieId) (p : PortId) (g : Datagram) : Prop :=
  TakesWork s d Page.ktp ∧ takesWork s (dreg d (Page.eth p) 0) = true ∧ addressed s d p g = true

/-- A dispatched command of an opcode on a die that runs. -/
abbrev HasCmd (s : State) (d : DieId) (cid op : Nat) (c : Cmd) : Prop :=
  running s d = true ∧ cmdOf (s.die d) cid = some c ∧ c.phase = .dispatched ∧ c.hdr.opcode = op

/-- The session of a command can send a reply with n bytes of data at once and in one segment: it is unencrypted, its host's
window is open, nothing waits before it, neither a CLOSE nor a RESET_SESSION of it is to be answered, no ABORT waits for the reply,
and no message to the session's die waits for its route (R20, R475). -/
structure CanReply (s : State) (c : Cmd) (k : Session) (n : Nat) : Prop where
  session : sessGen (s.die c.home) c.slot c.gen = some k
  wanted  : c.noReply = false
  clear   : k.enc = false
  window  : txOpen k = true
  empty   : k.backlog = []
  fits    : 24 + n ≤ k.maxSeg
  stays   : k.closeAt = false
  free    : k.resetting = none
  alone   : lateAbort (s.die c.home) c.cid = none
  direct  : ∀ d, waitsOut s d c.home = false

/-- A reply has gone out on the session of a command: one REPLY packet more waits for its acknowledgement, with the command's tag
and these bytes. -/
def Replied (t : State) (c : Cmd) (k : Session) (body : Bytes) : Prop :=
  ∃ k' p, sessGen (t.die c.home) c.slot c.gen = some k' ∧ k'.unacked = k.unacked ++ [p] ∧ p.ptype = 0x04
    ∧ p.body = segBytes c.tag true 0 ++ body

/-- An address in a window that answers, with its die awake. -/
def Reachable (s : State) (a : Nat) : Prop := windowOpen s a = true ∧ ∀ d : DieId, winOf a = d.val → Serving s d

/-- The first address of a block's page, in a window that answers. -/
def PageOpen (s : State) (b : Block) (base : Nat) : Prop := offOf base = 0 ∧ blockAt base = some b ∧ Reachable s base

/-- A register of a block's page that the block's table gives, in a window that answers, on a page that is not in a soft
reset. -/
def RegOpen (s : State) (b : Block) (a : Nat) (q : RegSpec) : Prop :=
  blockAt a = some b ∧ 0x40 ≤ offOf a ∧ regSpec b (offOf a) = some q ∧ Reachable s a ∧ softResetting s (baseOf a) = false

/-- A register whose write has an action of its own can be written: its window answers and its page is not in a soft reset. -/
def RowOpen (s : State) (a : Nat) : Prop := Reachable s a ∧ softResetting s (baseOf a) = false

/-- A write of a value to a register whose write has an action of its own is carried out: the register is open, every field takes
its value and no order or condition of the register is broken (R566). -/
def RowWrites (s : State) (b : Block) (a : Nat) (v : Word) : Prop :=
  RowOpen s a ∧ blockAt a = some b ∧ condOk s b a v = true ∧ ∃ q, regSpec b (offOf a) = some q ∧ valuesOk q v = true

/-- Two states agree on everything but the registers. -/
def SameButRegs (s t : State) : Prop := t = { s with regs := t.regs }

/-- Two states agree on everything but one die. -/
def SameButDie (d : DieId) (s t : State) : Prop := t = { s with dies := t.dies } ∧ ∀ e : DieId, e ≠ d → t.die e = s.die e

/-- A response of an MGT port to a read of a command code: the content, and the PEC where the port uses one (R503). -/
def mgtResponse (s : State) (i : Fin 2) (code : Byte) (b : Bytes) : Bytes :=
  b ++ if mgtPec s i then
    [pecOf ([BitVec.ofNat 8 (mgtAddr s i * 2), code, BitVec.ofNat 8 (mgtAddr s i * 2 + 1)] ++ b)]
  else []

/-- Two states agree on everything but one port's last SMBus response and the count of draws. -/
def SameButMgt (s t : State) : Prop :=
  t = { s with guard := { s.guard with mgtOut := t.guard.mgtOut }, draws := t.draws }

/-- The value of a trim table between two of its points (R515): the linear interpolation at the mean of n readings, rounded
down or up when it does not come out even (log 73). -/
def TrimOf (tab : List Int) (sum : Int) (n : Nat) (v : Int) : Prop :=
  ∃ (i : Nat) (rem : Int), sum + 640 * n = 160 * n * i + rem ∧ 0 ≤ rem ∧ rem < 160 * n
    ∧ (let q := tab.getD i 0 * (160 * n - rem) + tab.getD (i + 1) 0 * rem
       (q % (160 * n) = 0 → v = q / (160 * n)) ∧ q / (160 * n) ≤ v ∧ v ≤ q / (160 * n) + 1)

/-- A counter of an Ethernet port since its last clearing, named by the offset of its shadow register (R424). -/
def ethLive (s : State) (d : DieId) (p : PortId) (off : Nat) : Nat := (assocGet off (portOf (s.die d) p).live).getD 0

/-- A counter of a port has risen by k, saturating at 64 bits (R424). -/
def EthCounted (s t : State) (d : DieId) (p : PortId) (off k : Nat) : Prop :=
  ethLive t d p off = min (ethLive s d p off + k) (2 ^ 64 - 1)

/-- A frame that reaches step 5 and later of R411 at a port: long enough, no MAC control frame, and to an address of the port. -/
abbrev FrameIn (s : State) (d : DieId) (p : PortId) (f : Frame) : Prop :=
  Serving s d ∧ (portOf (s.die d) p).up = true ∧ 64 ≤ f.bytes.length + 4 ∧ beAt f.bytes 12 2 ≠ 0x8808
    ∧ dstOk s d p (rxHead f.bytes) = true

/-- A frame that is no ARP and none of the ICMPv6 messages of step 6 of R411. -/
abbrev PlainFrame (b : Bytes) : Prop :=
  (rxHead b).etype ≠ 0x0806 ∧ icmp6 b (rxHead b) ≠ some 135 ∧ icmp6 b (rxHead b) ≠ some 134 ∧ icmp6 b (rxHead b) ≠ some 137

/-- What an operation has still to issue can go at once: it is of a funded dispatch, or every older operation runs already and the
balance covers the cost (R118, R506). -/
abbrev Affords (x : Die) (o : FlashOp) (cost : Nat) : Prop :=
  o.urgent = true ∨ ((∀ p ∈ x.flash.ops, p.op < o.op → p.running = true) ∧ (cost : Int) ≤ x.flash.balance)

/-- The mover of a die can run the descriptor e at the head of its ring, an operation of the kind op (R444, R446). -/
abbrev MoverReady (s : State) (d : DieId) (op : Nat) (e : Desc) : Prop :=
  present s d = true ∧ (s.die d).phase = .up ∧ s.guard.deep = false ∧ (s.die d).mov.running = true ∧ (s.die d).mov.stopped = false
    ∧ (s.die d).mov.consumed ≠ (s.die d).mov.tail ∧ takesWork s (movBase d) = true ∧ e = descAt s d (s.die d).mov.consumed ∧ e.op = op
    ∧ e.bad = false ∧ e.addrsOk s d = true

/-- The mover has moved past a descriptor: its ring pointer, its byte count and, when it names a target, its pulse (R444, R447). -/
def MoverStepped (s t : State) (d : DieId) (e : Desc) : Prop :=
  (t.die d).mov.consumed = ((s.die d).mov.consumed + 1) % ringSize s d
    ∧ (t.die d).mov.bytes = min ((s.die d).mov.bytes + e.written) (2 ^ 64 - 1)
    ∧ (t.die d).mov.pulses = (if e.target = 0 then (s.die d).mov.pulses else (s.die d).mov.pulses ++ [(e.target, e.chan, e.tag)])
    ∧ ∀ x : DieId, x ≠ d → t.die x = s.die x

/-- A read transaction that the Waggle port carries out: a good header of the op, no error, and no repeat (R479, R480). -/
def PortReads (s : State) (op : Nat) (h : BitVec 16) : Prop :=
  portLive s = true ∧ hdrOp h = op ∧ hdrOk s h = true ∧ s.wgl.err = false ∧ opAllowed s op = true
    ∧ ∀ o q v, s.wgl.readSeq = some (o, q, v) → ¬(o = op ∧ q = hdrSeq h)

/-- A write transaction that the Waggle port carries out: a good header of the op and a good CRC, no error, and no repeat of the
last write (R479, R480). -/
def PortWrites (s : State) (op : Nat) (h : BitVec 16) (data : Word) (crc : Byte) : Prop :=
  portLive s = true ∧ hdrOp h = op ∧ hdrOk s h = true ∧ crc = writeCrc h data ∧ s.wgl.err = false ∧ opAllowed s op = true
    ∧ s.wgl.lastSeq ≠ some (hdrSeq h)

/-- A read transaction has returned DONE with its word and the CRC-8 of both. -/
def PortRead (t : State) (v : Word) : Prop := t.wgl.status = 6 ∧ t.wgl.out = v ∧ t.wgl.outCrc = readCrc 6 v

/-- Two states agree on everything but the Waggle port. -/
def SameButWgl (s t : State) : Prop := t = { s with wgl := t.wgl }

/-- What a failed output leads to (R557): it is marked failed, and a shared one starts a power loss, a core rail of a die other than
die 0 takes that die out of service. -/
def RailFailed (s t : State) (n : Fin 16) : Prop :=
  (n.val < 8 → (railAt t n).failed = true ∧ t.guard.losing = true)
    ∧ (∀ d : DieId, d ≠ 0 → n.val = 8 + d.val → faultable s d = true → running s d = true →
        (railAt t n).failed = true ∧ ((t.die d).phase = .dieReset ∨ (t.die d).phase = .fenced))
    ∧ (n.val = 8 → resetBlocked s = false → s.guard.resetLow = true →
        (railAt t n).failed = true ∧ t.guard.die0At = some s.guard.devTime)

end Sys2Proof.Safety
end

