-- ==== Sys2Proof/Certificates/Slice0/Obligations.lean ====
section
/-! DEFINITION. The statements about the model, for the provers. Each statement's docstring names the rules it formalises;
a clause that rests on a choice of the model names its log entry. -/
open Sys2Proof Sys2Proof.Machine Sys2Proof.Safety

/-! ### The block as a whole -/

/-- A step with a command at the front of the queue is exec of that command with the queue's rest; on an empty queue the block
idles, which is the model's choice (log 11). -/
def Obligations.StepTakesFront : Prop :=
  (∀ (c : Instr) (rest : List Instr) (s : State), step { s with pending := c :: rest } = exec c { s with pending := rest })
    ∧ ∀ s : State, s.pending = [] → step s = .next s

/-- Every command of the table is answered with a next state on every state: none ends the run (the model's stops are none). -/
def Obligations.EveryCommandAnswers : Prop := ∀ (c : Instr) (s : State), ∃ t, exec c s = .next t

/-- The state after reset is in canonical form, its queue is empty, every register reads its reset value, and the counts that a
reset fills are full: the urgent tokens of R116 and the credits of every Swarm link (R473). -/
def Obligations.ResetState : Prop :=
  Canonical State.reset ∧ State.reset.pending = [] ∧ (∀ a : Nat, regGet State.reset a = resetOf a)
    ∧ ∀ d : DieId, (State.reset.die d).csq.tokens = 20000 ∧ (State.reset.die d).cry.data = [] ∧ (State.reset.die d).map.mounted = false
      ∧ ∀ k : SwmId, (linkOf (State.reset.die d) k).reqCred = 64 ∧ (linkOf (State.reset.die d) k).rspCred = 64

/-- Every step keeps the canonical forms of the registers, of every die's memory and of the boot NOR, on all states that have
them (not only on those that a run from reset reaches). -/
def Obligations.StepKeepsCanonical : Prop :=
  ∀ s t : State, Canonical s → step s = .next t → Canonical t

/-- No command changes the part, the commands that wait behind it, or turns the count of draws back: R1 fixes the dies of a part,
and a free value is never drawn twice. -/
def Obligations.ExecKeepsPartAndQueue : Prop :=
  ∀ (c : Instr) (s t : State), exec c s = .next t → t.part = s.part ∧ t.pending = s.pending ∧ s.draws ≤ t.draws

/-! ### Registers (chapter 1) -/

/-- PAGE_LOCK and SOFT_RESET on an open page (R10, R47, R49): a write of CTRL sets EN as given; PAGE_LOCK sets LOCK; SOFT_RESET of
an unlocked page sets SRST. Everything else is unchanged. SOFT_RESET of a locked page sets EN as given and is otherwise ignored:
SRST stays clear, and with no error pending SRST_LOCKED is recorded in ERR_CODE with the ERR interrupt. No other register of the
page changes, but for EVR's own count of limited events (R49, R51, R54). SOFT_RESET_DONE (R11, R49): as SRST clears, every
register of the page takes its reset value, but for LOCK and the fields that R10 keeps; EN and SRST read 0, LOCK is kept. -/
def Obligations.SoftResets : Prop :=
  (
    ∀ (s : State) (b : Block) (base : Word) (r : Requester) (en : Bool),
      PageOpen s b base.toNat → HasSpace s r → registersOk s →
      (∃ t, exec (.pageLock r base en) s = .next t ∧ locked t base.toNat = true ∧ enabled t base.toNat = en
          ∧ softResetting t base.toNat = softResetting s base.toNat
          ∧ (∀ a, a ≠ base.toNat + 8 → regGet t a = regGet s a) ∧ SameButRegs s t)
      ∧ (locked s base.toNat = false →
          ∃ t, exec (.softReset r base en) s = .next t ∧ softResetting t base.toNat = true ∧ enabled t base.toNat = en
            ∧ (∀ a, a ≠ base.toNat + 8 → regGet t a = regGet s a) ∧ SameButRegs s t))
  ∧ (
    ∀ (s : State) (b : Block) (base : Word) (r : Requester) (en : Bool),
      PageOpen s b base.toNat → HasSpace s r → registersOk s → locked s base.toNat = true → softResetting s base.toNat = false →
      regGet s (base.toNat + 0x20) = 0 →
      ∃ t, exec (.softReset r base en) s = .next t ∧ softResetting t base.toNat = false ∧ locked t base.toNat = true
        ∧ enabled t base.toNat = en ∧ regGet t (base.toNat + 0x20) = 3 ∧ (regGet t (base.toNat + 0x10)).getLsbD 0 = true
        ∧ ∀ off, off < 0x10000 → off ≠ 8 → off ≠ 0x10 → off ≠ 0x20 → off ≠ 0x24 → (b = .evr → off ≠ 0x100) →
            regGet t (base.toNat + off) = regGet s (base.toNat + off))
  ∧ (
    ∀ (s : State) (b : Block) (base : Word), PageOpen s b base.toNat → registersOk s → softResetting s base.toNat = true →
      ∃ t, exec (.softResetDone base) s = .next t ∧ softResetting t base.toNat = false ∧ enabled t base.toNat = false
        ∧ locked t base.toNat = locked s base.toNat
        ∧ (∀ a, baseOf a = base.toNat → a ≠ base.toNat + 8 → softKept a = false → regGet t a = resetOf a)
        ∧ ∀ a, baseOf a = base.toNat → a ≠ base.toNat + 8 → softKept a = true → regGet t a = regGet s a)

/-- REGISTER_WRITE of the registers of CSQ (R10, R116, R139, R565, R566): an aligned 32-bit write whose fields all hold defined
values merges its fields by their access codes and changes no other register while the page is not locked, and a write of CSQ_URGENT
bounds the token count by the new URG_BURST x 1,000; a value that a field does not define is refused whole: the register keeps its
value, and BAD_VALUE is recorded when no error is pending. -/
def Obligations.RegisterWrite : Prop :=
  ∀ (s : State) (r : Requester) (addr v : Word) (q : RegSpec),
    RegOpen s .csq addr.toNat q → HasSpace s r → registersOk s → addr.toNat % 4 = 0 → locked s (baseOf addr.toNat) = false →
    (valuesOk q v = true →
      ∃ t, exec (.registerWrite r addr 4 v) s = .next t
        ∧ regGet t addr.toNat = mergeFields false (regGet s addr.toNat) v q
        ∧ (∀ a, a ≠ addr.toNat → regGet t a = regGet s a) ∧ (offOf addr.toNat ≠ 0x48 → SameButRegs s t)
        ∧ (offOf addr.toNat = 0x48 → (t.die (dieAt addr.toNat)).csq.tokens
            = min (s.die (dieAt addr.toNat)).csq.tokens (fld (mergeFields false (regGet s addr.toNat) v q) 31 16 * 1000 : Nat)))
    ∧ (valuesOk q v = false →
      ∃ t, exec (.registerWrite r addr 4 v) s = .next t ∧ regGet t addr.toNat = regGet s addr.toNat
        ∧ (regGet s (baseOf addr.toNat + 0x20) = 0 → regGet t (baseOf addr.toNat + 0x20) = 4))

/-- The interrupt header (R52, R53, R54): INT_TEST sets the defined bits written 1 in INT_RAW; INT_STAT_CLEAR clears the bits
written 1, but for those whose event comes at the same moment; a read of ERR_CODE returns it and clears ERR_CODE and ERR_INFO
together. -/
def Obligations.InterruptHeader : Prop :=
  ∀ (s : State) (b : Block) (base bits events : Word) (r : Requester),
    PageOpen s b base.toNat → HasSpace s r → registersOk s → softResetting s base.toNat = false →
    (∃ t, exec (.intTest r base bits) s = .next t
        ∧ regGet t (base.toNat + 0x10) = regGet s (base.toNat + 0x10) ||| (bits &&& natWord (intBits b))
        ∧ (∀ a, a ≠ base.toNat + 0x10 → regGet t a = regGet s a) ∧ SameButRegs s t)
    ∧ (∃ t, exec (.intStatClear r base bits events) s = .next t
        ∧ regGet t (base.toNat + 0x10)
            = (regGet s (base.toNat + 0x10) &&& ~~~bits) ||| (events &&& natWord (intBits b))
        ∧ ∀ a, a ≠ base.toNat + 0x10 → regGet t a = regGet s a)
    ∧ (∃ t, exec (.errCodeRead r base) s = .next t ∧ t.answer.data = regGet s (base.toNat + 0x20)
        ∧ regGet t (base.toNat + 0x20) = 0 ∧ regGet t (base.toNat + 0x24) = 0
        ∧ (∀ a, a ≠ base.toNat + 0x20 → a ≠ base.toNat + 0x24 → regGet t a = regGet s a) ∧ t.dies = s.dies)

/-- 64-bit pairs (R8): a read of _LO returns it and latches the _HI of that moment for its requester; a read of _HI returns the
latched value and uses it up, and without one the current _HI. 64-bit pairs (R8): a write of _LO is held for its requester and
changes no register; the write of _HI that follows takes both halves. Stated for the MAC address pair of an Ethernet port. -/
def Obligations.RegisterPairs : Prop :=
  (
    ∀ (s : State) (r : Requester) (addr : Word), Reachable s addr.toNat → HasSpace s r →
      (isLo addr.toNat = true →
        ∃ t, exec (.pairLoRead r addr) s = .next t ∧ t.answer.data = viewReg s addr.toNat
          ∧ pairGet t.latch r (addr.toNat + 4) = some (viewReg s (addr.toNat + 4)) ∧ t.regs = s.regs ∧ t.dies = s.dies ∧ t.guard = s.guard)
      ∧ (isHi addr.toNat = true → isLo addr.toNat = false →
        (∀ v, pairGet s.latch r addr.toNat = some v →
          ∃ t, exec (.pairHiRead r addr) s = .next t ∧ t.answer.data = v ∧ pairGet t.latch r addr.toNat = none
            ∧ t.regs = s.regs ∧ t.dies = s.dies ∧ t.guard = s.guard)
        ∧ (pairGet s.latch r addr.toNat = none →
          ∃ t, exec (.pairHiRead r addr) s = .next t ∧ t.answer.data = viewReg s addr.toNat ∧ t.regs = s.regs ∧ t.dies = s.dies)))
  ∧ (
    ∀ (s : State) (r : Requester) (d : DieId) (p : PortId) (lo hi v w : Word) (qlo qhi : RegSpec),
      lo.toNat = dreg d (Page.eth p) 0x44 → hi.toNat = dreg d (Page.eth p) 0x48 →
      RegOpen s .eth lo.toNat qlo → RegOpen s .eth hi.toNat qhi → HasSpace s r → registersOk s → locked s (baseOf lo.toNat) = false →
      (valuesOk qlo v = true →
        ∃ t, exec (.pairLoWrite r lo v) s = .next t ∧ pairGet t.heldLo r hi.toNat = some v ∧ t.regs = s.regs ∧ t.dies = s.dies)
      ∧ (valuesOk qhi w = true → condOk s .eth hi.toNat w = true → pairGet s.heldLo r hi.toNat = some v →
        ∃ t, exec (.pairHiWrite r hi w) s = .next t ∧ pairGet t.heldLo r hi.toNat = none
          ∧ regGet t lo.toNat = mergeFields false (regGet s lo.toNat) v qlo
          ∧ regGet t hi.toNat = mergeFields false (regGet s hi.toNat) w qhi
          ∧ (∀ a, a ≠ lo.toNat → a ≠ hi.toNat → regGet t a = regGet s a) ∧ t.dies = s.dies))

/-! ### Sessions (chapter 2) -/

/-- The timers that end a half-open or a closing session (R74): the slot is free, its key slot is EMPTY, and no other die changes.
RTO_EXPIRY below the retry limit on an unencrypted session (R83): the oldest packet goes again, its count rises by one, and the
timeout doubles up to RTO_MAX. ACK_DELAY_EXPIRY sends what is owed: nothing is left to acknowledge and one packet more is queued
at the session's port (R81). -/
def Obligations.SessionTimers : Prop :=
  (
    ∀ (s : State) (d : DieId) (slot : Nat) (k : Session), running s d = true → sessOf (s.die d) slot = some k →
      (k.st = .openRcvd →
        ∃ t, exec (.openRcvdTimeout d slot) s = .next t ∧ sessOf (t.die d) slot = none ∧ sessionKey (t.die d).cry slot = none
          ∧ (t.die d).csq = (s.die d).csq ∧ (t.die d).map = (s.die d).map ∧ SameButDie d s t)
      ∧ (k.st = .closing →
        ∃ t, exec (.closingTimeout d slot) s = .next t ∧ sessOf (t.die d) slot = none ∧ sessionKey (t.die d).cry slot = none
          ∧ (t.die d).csq = (s.die d).csq ∧ (t.die d).map = (s.die d).map ∧ SameButDie d s t))
  ∧ (
    ∀ (s : State) (d : DieId) (slot : Nat) (k : Session), running s d = true → sessOf (s.die d) slot = some k → k.enc = false →
      (∀ q, portPaused s d k = false → k.unacked = [q] → q.retx < dfld s d Page.ktp 0x48 23 16 →
        ∃ t k', exec (.rtoExpiry d slot) s = .next t ∧ sessOf (t.die d) slot = some k'
          ∧ k'.backoff = min (dfld s d Page.ktp 0x44 31 16 * 1000) (2 * k.backoff)
          ∧ k'.unacked.map (fun p => (p.psn, p.retx)) = [(q.psn, q.retx + 1)])
      ∧ (0 < k.ackCount →
        ∃ t k', exec (.ackDelayExpiry d slot) s = .next t ∧ sessOf (t.die d) slot = some k' ∧ k'.ackCount = 0
          ∧ ((t.die d).ports.get k.port).txq.length = ((s.die d).ports.get k.port).txq.length + 1))

/-- A session that ends under R75 is gone at once, and its termination barrier stands last among the barriers of every die that
runs, unless the message waits for its route (R20): IDLE_TIMEOUT when the idle timer runs (R76), RTO_EXPIRY at the retry limit
(R85), TERMINATE received and authenticated (R74). TERMINATE_BARRIER (R75), once the way of its confirmation is free (R20): the
barrier is taken; of the session's commands on the die only those past the media point remain, and none of them is replied to. -/
def Obligations.SessionEndings : Prop :=
  (
    ∀ (s : State) (d e : DieId), running s d = true → running s e = true → waitsOut s d e = false → s.guard.entry = 0 →
      (∀ slot k, sessOf (s.die d) slot = some k → idleRuns s d k = true →
        ∃ t, exec (.idleTimeout d slot) s = .next t ∧ sessOf (t.die d) slot = none
          ∧ (t.die e).csq.barriers = (s.die e).csq.barriers ++ [.terminate d slot k.gen])
      ∧ (∀ slot k q rest, sessOf (s.die d) slot = some k → portPaused s d k = false → k.unacked = q :: rest → dfld s d Page.ktp 0x48 23 16 ≤ q.retx →
        ∃ t, exec (.rtoExpiry d slot) s = .next t ∧ sessOf (t.die d) slot = none
          ∧ (t.die e).csq.barriers = (s.die e).csq.barriers ++ [.terminate d slot k.gen])
      ∧ (∀ p g k h body, Reaches s d p g → arrive s d g 0x0A = .good k h body →
        ∃ t, exec (.terminate d p g) s = .next t ∧ sessOf (t.die d) k.slot = none
          ∧ (t.die e).csq.barriers = (s.die e).csq.barriers ++ [.terminate d k.slot k.gen]))
  ∧ (
    ∀ (s : State) (d home : DieId) (slot gen : Nat) (rest : List Barrier), running s d = true →
      (s.die d).csq.barriers = .terminate home slot gen :: rest → waitsOut s d home = false →
      ∃ t, exec (.terminateBarrier d) s = .next t ∧ (t.die d).csq.barriers = rest
        ∧ (∀ c ∈ (t.die d).csq.cmds, ofSession home slot gen c = true → beforeMedia c = false ∧ c.noReply = true)
        ∧ (∀ c ∈ (s.die d).csq.cmds, ofSession home slot gen c = false → c ∈ (t.die d).csq.cmds)
        ∧ (∀ c ∈ (t.die d).csq.inbox, ofSession home slot gen c = false)
        ∧ (t.die d).map = (s.die d).map ∧ t.guard = s.guard ∧ t.regs = s.regs)

/-- OPEN (R66 to R72, R74): an OPEN that passes every check makes a session in state OPEN_RCVD for its tenant, bound to the
sender's address and port, in a slot that was free, and one packet is queued at its port. -/
def Obligations.OpenCreatesSession : Prop :=
  ∀ (s : State) (d : DieId) (p : PortId) (g : Datagram), Reaches s d p g →
    frontOk s d g = true → (parsePkt g.payload).ptype = 0x01 → (parsePkt g.payload).enc = false → g.payload.length = 68 →
    repeatOf (s.die d) g (g.payload.drop 24) = none → openStatus s d p (g.payload.drop 24) = Stat.ok →
    s.pkg.entropyFail = false → freeSlots (s.die d) ≠ [] →
    ∃ t slot k, exec (.openPkt d p g) s = .next t ∧ slot ∈ freeSlots (s.die d) ∧ sessOf (t.die d) slot = some k
      ∧ k.st = .openRcvd ∧ k.tenant = beAt g.payload 24 2 ∧ k.peerIp = g.srcIp ∧ k.peerUdp = g.srcUdp
      ∧ (t.die d).ktp.sessions.length = (s.die d).ktp.sessions.length + 1
      ∧ ((t.die d).ports.get p).txq.length = ((s.die d).ports.get p).txq.length + 1

/-- OPEN refused (R70, R71): no session is made; the reply goes out while fewer than 16 have gone out on the port in this second.
OPEN_REFUSE_WINDOW begins the next second. -/
def Obligations.OpenRefused : Prop :=
  ∀ (s : State) (d : DieId) (p : PortId), running s d = true →
    (∀ g : Datagram, Reaches s d p g → frontOk s d g = true → (parsePkt g.payload).ptype = 0x01 → (parsePkt g.payload).enc = false →
      g.payload.length = 68 → repeatOf (s.die d) g (g.payload.drop 24) = none → openStatus s d p (g.payload.drop 24) ≠ Stat.ok →
      ∃ t, exec (.openPkt d p g) s = .next t ∧ (t.die d).ktp.sessions = (s.die d).ktp.sessions
        ∧ ((t.die d).ports.get p).txq.length
            = ((s.die d).ports.get p).txq.length + (if refusedOn (s.die d) p < 16 then 1 else 0))
    ∧ (∃ t, exec (.openRefuseWindow d p) s = .next t ∧ refusedOn (t.die d) p = 0
        ∧ (t.die d).ktp.sessions = (s.die d).ktp.sessions ∧ SameButDie d s t)

/-- Packets of an established, unencrypted session that owes nothing (R64, R74, R80, R81): a CMD segment that does not end its
message is placed in its assembly; a CLOSE in its turn, with no command outstanding, is answered with a CLOSE_REPLY once the host's
window is open, and the session is closing; an ACK without acknowledgement fields or PING only renews what the session copies. -/
def Obligations.SessionPackets : Prop :=
  ∀ (s : State) (d : DieId) (p : PortId) (g : Datagram) (k : Session) (h : PktHdr) (body : Bytes),
    Reaches s d p g → k.enc = false → k.st = .established → k.unacked = [] → k.backlog = [] → h.ackv = false → h.ping = false →
    (arrive s d g 0x03 = .good k h body → seqSay k h.psn = .fresh → 8 ≤ body.length → (body.getD 1 0).getLsbD 0 = false →
      k.asm.all (fun a => a.lastEnd.isNone) = true →
      ∃ t k', exec (.cmdSegment d p g) s = .next t ∧ sessOf (t.die d) k.slot = some k'
        ∧ k'.asm = placeSeg k.tags k.asm (body.getD 0 0) (beAt body 4 4) (body.drop 8) false h.psn
        ∧ (t.die d).csq = (s.die d).csq)
    ∧ (arrive s d g 0x08 = .good k h body → seqSay k h.psn = .fresh → h.psn = k.rcvNext → 8 ≤ body.length → k.asm = [] →
      k.rcvSeen = [] → k.held = [] → k.closeSent = false → outstanding s d k.slot k.gen = false →
      (s.die d).csq.controls = [] →
      ∃ t k', exec (.close d p g) s = .next t ∧ sessOf (t.die d) k.slot = some k' ∧ k'.st = .closing ∧ k'.closeSent = true
        ∧ k'.closeAt = true ∧ (txOpen k = true → ∃ q, k'.unacked = [q] ∧ q.ptype = 0x09 ∧ q.body = segBytes 0 true 0))
    ∧ (arrive s d g 0x07 = .good k h body →
      ∃ t, exec (.ack d p g) s = .next t ∧ sessOf (t.die d) k.slot = some (heard k p g) ∧ (t.die d).csq = (s.die d).csq)

/-- Grants (R104): GRANT_ISSUE opens the next grant, of at most GRANT_SIZE, at the offset that follows the last one, and sends its
XFER_RDY on the session; GRANT_TIMEOUT completes the command with ABORTED, and it is outstanding no longer. DATA_OUT within an
open grant (R104): its bytes are kept with the command and the grant closes once they are all there, so that a grant still open
lacks some; the command goes on with the whole value when it has all arrived. Stated for an unencrypted session that owes
nothing. -/
def Obligations.DataGrants : Prop :=
  (
    ∀ (s : State) (d : DieId) (cid : Nat) (c : Cmd), running s d = true → cmdOf (s.die d) cid = some c → c.phase = .granting →
      (∀ k, c.nextOff < c.hdr.valueLen → c.grants.length < dfld s d Page.ktp 0x54 15 8 → poolCrit (s.die d) = false →
        sessGen (s.die c.home) c.slot c.gen = some k → k.enc = false →
        ∃ t c', exec (.grantIssue d cid) s = .next t ∧ cmdOf (t.die d) cid = some c'
          ∧ c'.grants = c.grants ++ [{ off := c.nextOff,
                                       len := min (dfld s d Page.ktp 0x54 7 0 * 65536) (c.hdr.valueLen - c.nextOff), got := 0 }]
          ∧ c'.nextOff = c.nextOff + min (dfld s d Page.ktp 0x54 7 0 * 65536) (c.hdr.valueLen - c.nextOff)
          ∧ c'.gseq = c.gseq + 1 ∧ c'.phase = .granting
          ∧ (txOpen k = true → k.backlog = [] → ∃ k' q, sessGen (t.die c.home) c.slot c.gen = some k' ∧ k'.unacked = k.unacked ++ [q]
              ∧ q.ptype = 0x05 ∧ q.body = xferRdy c.tag c.nextOff (min (dfld s d Page.ktp 0x54 7 0 * 65536) (c.hdr.valueLen - c.nextOff))
                  (c.gseq % 65536)))
      ∧ (c.grants ≠ [] → (s.die d).csq.tmoStop = false →
        ∃ t, exec (.grantTimeout d cid) s = .next t ∧ cmdOf (t.die d) cid = none
          ∧ ∀ k, CanReply s c k 0 → Replied t c k (replyBytes c.hdr.opcode Stat.aborted 0 0 0 0 [])))
  ∧ (
    ∀ (s : State) (d e : DieId) (p : PortId) (g : Datagram) (k : Session) (h : PktHdr) (body : Bytes) (c : Cmd),
      Reaches s d p g → k.enc = false → k.st = .established → k.unacked = [] → k.backlog = [] → h.ackv = false →
      arrive s d g 0x06 = .good k h body → seqSay k h.psn = .fresh → 8 ≤ body.length →
      tagCmd s d k.slot k.gen (body.getD 0 0) = some (e, c) → isGranted c.hdr.opcode = true → 8192 < c.hdr.valueLen →
      c.phase = .granting → (grantFor c (beAt body 4 4) (body.length - 8)).isSome = true →
      (∀ q ∈ (s.die e).csq.cmds, q.cid = c.cid → q = c) →
      ∃ t c', exec (.dataOut d p g) s = .next t ∧ cmdOf (t.die e) c.cid = some c'
        ∧ c' = dataReady s (grantTake c (beAt body 4 4) (body.drop 8)) ∧ (∀ q ∈ c'.grants, q.got < q.len)
        ∧ (s.pkg.act.on = false → c'.phase = .granting → c'.got = c.got ++ [(beAt body 4 4, body.drop 8)])
        ∧ (s.pkg.act.on = false → c'.phase ≠ .granting → c'.value.length = c.hdr.valueLen))

/-- Rate limits (R337, R338): TOKEN_REFILL adds one interval's share to both buckets of a tenant, up to their size, in units of
1/(840 million) command and 1/840,000 byte; a rate of 0 leaves its bucket alone. RATE_ADMIT, once the buckets allow the command that a
session holds, takes its tokens and hands it to the die that executes it; while they do not, the command stays held. -/
def Obligations.RateLimits : Prop :=
  ∀ (s : State) (d : DieId), running s d = true →
    (∀ (tenant : Nat) (c : Tenant), tenantOf (s.die d) tenant = some c →
      ∃ t, exec (.tokenRefill d tenant) s = .next t
        ∧ assocGet tenant (t.die d).csq.buckets = some
            (if c.opsRate = 0 then (rateBucket s d c).1 else min ((c.opsBurst * 840000000 / rateDies s : Nat) : Int)
                ((rateBucket s d c).1 + ((c.opsRate * c.refillUs * 840 / rateDies s : Nat) : Int)),
              if c.byteRate = 0 then (rateBucket s d c).2 else min ((c.byteBurst * 840000000 / rateDies s : Nat) : Int)
                ((rateBucket s d c).2 + ((c.byteRate * c.refillUs * 840 / rateDies s : Nat) : Int)))
        ∧ (t.die d).ktp = (s.die d).ktp ∧ SameButDie d s t)
    ∧ (∀ (slot : Nat) (k : Session) (m : Msg) (c : Tenant) (h : CmdHdr) (key : Bytes), sessOf (s.die d) slot = some k →
      k.enc = false → k.held = [m] → k.rateHold = true → k.resetting = none → k.closeAt = false → h = parseCmd m.body →
      key = slice m.body 32 h.keyLen → isControl h.opcode = false → tenantOf (s.die d) k.tenant = some c →
      (∀ (owner : DieId) (hash : BitVec 128), rateOk c (rateBucket s d c) = true →
        routeOf (s.die d) d k.tenant h key = some (owner, hash) → (s.die owner).phase = .up →
        ruleSearch s d k.port k.tenant h.nsid h.opcode h.cls key = .proceed → h.cls ≠ 0 → waitsOut s d owner = false → s.guard.entry = 0 →
        ∃ t k' q, exec (.rateAdmit d slot) s = .next t ∧ sessOf (t.die d) slot = some k' ∧ k'.rateHold = false ∧ k'.held = []
          ∧ (t.die owner).csq.inbox = (s.die owner).csq.inbox ++ [q] ∧ q.home = d ∧ q.slot = slot ∧ q.gen = k.gen ∧ q.tag = m.tag
          ∧ q.hdr = h ∧ q.key = key ∧ q.cls = h.cls ∧ q.owner = owner
          ∧ assocGet k.tenant (t.die d).csq.buckets = some (rateTake (rateBucket s d c) h))
      ∧ (rateOk c (rateBucket s d c) = false → c.reject = false → k.heldOld = 0 →
        ∃ t, exec (.rateAdmit d slot) s = .next t ∧ sessOf (t.die d) slot = some k ∧ (t.die d).csq = (s.die d).csq))

/-! ### Scheduling (chapter 3) -/

/-- CMD_INTAKE (R111, R112, R113): the command at the head of the arrivals takes the next intake sequence number and stands last
among the die's commands, when its class and the die have room; nothing but CSQ of the die changes. The urgent class (R114,
R116, R117, R124): the command that a class-0 command waits for, or else the oldest dispatchable class-0 command, is dispatched
while tokens are left, and then funded, or when no other class has a command to dispatch, and then unfunded; its cost is taken
from the token count, which goes no lower than the negated cap. URGENT_REFILL adds URG_RATE up to the cap. -/
def Obligations.IntakeAndUrgency : Prop :=
  (
    ∀ (s : State) (d : DieId) (c : Cmd) (rest : List Cmd), TakesWork s d Page.csq → (s.die d).csq.inbox = c :: rest →
      (s.die d).csq.intake = true → (s.die d).map.mounted = true ∨ 0x40 ≤ c.hdr.opcode → intakeRoom s d c.cls = true →
      ∃ t, exec (.cmdIntake d) s = .next t ∧ (t.die d).csq.inbox = rest
        ∧ (t.die d).csq.cmds = (s.die d).csq.cmds ++ [{ c with seq := (s.die d).csq.nextSeq, owner := d }]
        ∧ (t.die d).csq.nextSeq = (s.die d).csq.nextSeq + 1 ∧ t = s.updDie d (fun x => { x with csq := (t.die d).csq }))
  ∧ (
    ∀ (s : State) (d : DieId), running s d = true →
      (∀ (c : Cmd) (f : Bool), mayDispatch s d = true → urgentNext (s.die d) = some c → cmdOf (s.die d) c.cid = some c →
        f = decide (0 < (s.die d).csq.tokens) → f = true ∨ otherReady (s.die d) = false →
        ∃ t, exec (.csqDispatch d) s = .next t
          ∧ cmdOf (t.die d) c.cid
              = some { c with phase := .dispatched, chgCls := 0, funded := f, core := freeCore (s.die d) }
          ∧ (t.die d).csq.tokens = max ((s.die d).csq.tokens - (costOf s d c : Int)) (-(urgCap s d))
          ∧ (∀ q ∈ (s.die d).csq.cmds, q.cid ≠ c.cid → q ∈ (t.die d).csq.cmds)
          ∧ (t.die d).csq.cdef = (s.die d).csq.cdef ∧ (t.die d).csq.rounds = (s.die d).csq.rounds ∧ SameButDie d s t)
      ∧ (∃ t, exec (.urgentRefill d) s = .next t
          ∧ (t.die d).csq.tokens = min (urgCap s d) ((s.die d).csq.tokens + (dfld s d Page.csq 0x48 15 0 : Int))
          ∧ (t.die d).csq.cmds = (s.die d).csq.cmds ∧ (t.die d).map = (s.die d).map ∧ SameButDie d s t))

/-- Deficit round robin (R119): a class whose turn begins gains its weight times the quantum; a tenant alone in its round gains its
weight times the quantum; its oldest dispatchable command is dispatched when both deficits cover its cost, which both then pay; a tenant without another queued
command of the class leaves the round. -/
def Obligations.DeficitRound : Prop :=
  ∀ (s : State) (d : DieId) (c : Cmd) (k : Nat) (r : RoundEntry), running s d = true → mayDispatch s d = true →
    readyIn (s.die d) 0 = [] → inherited (s.die d) 0 = [] → 1 ≤ k → k ≤ 7 → (s.die d).csq.cur = k → (s.die d).csq.inTurn = false →
    (s.die d).csq.cdef.length = 8 → inherited (s.die d) k = [] → readyIn (s.die d) k = [c] →
    (s.die d).csq.rounds.getD k [] = [r] → r.tenant = c.tenant → r.credited = false → cmdOf (s.die d) c.cid = some c →
    (costOf s d c : Int) ≤ r.deficit + (tenantWeight (s.die d) c.tenant * dfld s d Page.csq 0x4C 15 0 : Nat) →
    (costOf s d c : Int) ≤ (s.die d).csq.cdef.getD k 0 + (classWeight s d k * dfld s d Page.csq 0x4C 15 0 : Nat) →
    ∃ t, exec (.csqDispatch d) s = .next t
      ∧ cmdOf (t.die d) c.cid = some { c with phase := .dispatched, chgCls := k, funded := false, core := freeCore (s.die d) }
      ∧ (t.die d).csq.cdef.getD k 0
          = (s.die d).csq.cdef.getD k 0 + (classWeight s d k * dfld s d Page.csq 0x4C 15 0 : Nat) - (costOf s d c : Int)
      ∧ (t.die d).csq.rounds.getD k []
          = (if (queuedIn (t.die d) k).any (fun q => q.tenant == c.tenant) then
              [{ tenant := c.tenant, credited := true,
                 deficit := r.deficit + (tenantWeight (s.die d) c.tenant * dfld s d Page.csq 0x4C 15 0 : Nat) - (costOf s d c : Int) }]
            else [])
      ∧ (t.die d).csq.tokens = (s.die d).csq.tokens ∧ SameButDie d s t

/-- PUT, WRITE, DELETE and TRIM up to admission (R98, R104, R197, R200, R204, R253 to R255): a command looks its leaf pages up and
waits while one of them is not at hand; then one that no rule refuses waits for its grants when its data is over 8,192 bytes, else for
admission with its inline data. Beyond the lookup of its pages nothing but the command changes. -/
def Obligations.WritersWait : Prop :=
  ∀ (s s1 : State) (d : DieId) (cid : Nat) (c : Cmd), s1 = touchAll s d c (lookupPages (s.die d) d c) → c.failed = false →
    (pagesHere (s.die d) c (lookupPages (s.die d) d c) = true →
      (HasCmd s d cid Op.put c → putRefusal s1 d c = none → exec (.put d cid) s = .next (takeData s1 d c))
      ∧ (HasCmd s d cid Op.write c → writeRefusal (s1.die d) c = none → exec (.write d cid) s = .next (takeData s1 d c))
      ∧ (HasCmd s d cid Op.delete c → deleteRefusal (s1.die d) c = none →
          exec (.delete d cid) s = .next (putCmd s1 d { c with phase := .admitting }))
      ∧ (HasCmd s d cid Op.trim c → (s1.die d).map.readOnly = false → (nsOf (s1.die d) c.tenant c.hdr.nsid).isSome = true →
          exec (.trim d cid) s = .next (putCmd s1 d { c with phase := .admitting })))
    ∧ (pagesHere (s.die d) c (lookupPages (s.die d) d c) = false →
      (HasCmd s d cid Op.put c → exec (.put d cid) s = .next (putCmd s1 d { c with missed := true }))
      ∧ (HasCmd s d cid Op.write c → exec (.write d cid) s = .next (putCmd s1 d { c with missed := true }))
      ∧ (HasCmd s d cid Op.delete c → exec (.delete d cid) s = .next (putCmd s1 d { c with missed := true }))
      ∧ (HasCmd s d cid Op.trim c → exec (.trim d cid) s = .next (putCmd s1 d { c with missed := true })))
    ∧ (c.hdr.valueLen ≤ 8192 → takeData s1 d c = putCmd s1 d { c with phase := .admitting, value := c.inline })
    ∧ (8192 < c.hdr.valueLen → takeData s1 d c = putCmd s1 d { c with phase := .granting })

/-- GET and STAT (R98, R153, R168, R197): a key that the Comb does not hold goes to the lookup of its bucket, counted as a miss; a
GET without conditions that hits the Nectar buffer is answered from it, with the value's version, its length and its bytes.
BUCKET_LOOKUP_DONE of a GET or STAT without a condition and without a run-ahead read, with its bucket pages at hand (R98, R122,
R171, R194): the next entry of the chain with the key's HTAG decides. The key's own live entry in the Nectar buffer is answered
from there; without an entry the answer is NOT_FOUND; an entry on flash fixes version and location, releases the command's
hazards when it is the key's own, and leaves the command waiting for the reads of its pages. A bucket read that fails gives
MEDIA_ERROR. -/
def Obligations.Readers : Prop :=
  (
    ∀ (s : State) (d : DieId) (cid : Nat) (c : Cmd), registersOk s →
      (combSearch (s.die d).comb d (hotWord c.tenant c.hdr.nsid 0 c.hash) hotMask = none →
        HasCmd s d cid Op.get c ∨ HasCmd s d cid Op.stat c →
        ∃ t, (if c.hdr.opcode = Op.get then exec (.get d cid) s else exec (.stat d cid) s) = .next t
          ∧ cmdOf (t.die d) cid
              = some { c with phase := .lookup, missed := !pagesHere (s.die d) c (lookupPages (s.die d) d c) }
          ∧ regGet t (dreg d Page.cmb 0x188) = satWord ((regGet s (dreg d Page.cmb 0x188)).toNat + 1)
          ∧ (t.die d).comb = (s.die d).comb)
      ∧ (∀ w r p k, combSearch (s.die d).comb d (hotWord c.tenant c.hdr.nsid 0 c.hash) hotMask = some w → w.multi = false →
          resKind w.entry.res = 2 → ringRec (s.die d) (resLoc w.entry.res).toNat = some (r, false) →
          hasDataKey (s.die d).cry r.tenant = true → openRec (s.die d).cry r = some p →
          HasCmd s d cid Op.get c → c.hdr.ifVersion = false → c.hdr.partialGet = false → CanReply s c k p.2.length →
          ∃ t, exec (.get d cid) s = .next t ∧ cmdOf (t.die d) cid = none
            ∧ Replied t c k (replyBytes Op.get Stat.ok 0 0 r.version p.2.length p.2) ∧ (t.die d).map = (s.die d).map))
  ∧ (
    ∀ (s : State) (d : DieId) (cid : Nat) (c : Cmd) (k : Session) (l : List BEntry), running s d = true → cmdOf (s.die d) cid = some c →
      c.phase = .lookup → c.ra = none → c.hdr.ifVersion = false → c.hdr.partialGet = false → c.hdr.opcode = Op.stat ∨ c.hdr.opcode = Op.get →
      c.failed = false → l = (htagEntries (s.die d) c (bucketPage (s.die d) c)).drop c.tried →
      (CanReply s c k 0 → ∃ t, exec (.bucketLookupDone d cid false) s = .next t ∧ cmdOf (t.die d) cid = none
          ∧ Replied t c k (replyBytes c.hdr.opcode Stat.mediaError 0 0 0 0 []))
      ∧ (pagesHere (s.die d) c (lookupPages (s.die d) d c) = true →
        (l = [] → CanReply s c k 0 →
          ∃ t, exec (.bucketLookupDone d cid true) s = .next t ∧ cmdOf (t.die d) cid = none
            ∧ Replied t c k (replyBytes c.hdr.opcode Stat.notFound 0 0 0 0 []))
        ∧ (∀ e rest r p b, l = e :: rest → e.nectar = true → e.key = c.key →
            ringRec (s.die d) e.loc.toNat = some (r, false) → hasDataKey (s.die d).cry r.tenant = true →
            openRec (s.die d).cry r = some p → b = (if c.hdr.opcode = Op.stat then [] else p.2) → CanReply s c k b.length →
            ∃ t, exec (.bucketLookupDone d cid true) s = .next t ∧ cmdOf (t.die d) cid = none
              ∧ Replied t c k (replyBytes c.hdr.opcode Stat.ok 0 0 r.version p.2.length b))
        ∧ (∀ e rest pages, l = e :: rest → e.nectar = false → pages = wantPages s d c (extentsAt (s.die d) e.loc) → pages ≠ [] →
            ∃ t, exec (.bucketLookupDone d cid true) s = .next t
              ∧ cmdOf (t.die d) cid = some { c with
                  phase := .reading
                  reads := pages.length
                  released := e.key == c.key
                  tried := c.tried + 1
                  fixed := some { version := e.version, loc := e.loc, objLen := e.stLen - 64 - e.keyLen } }
              ∧ (t.die d).flash.ops.length = (s.die d).flash.ops.length + pages.length)))

/-- READ, once the map pages of its range are at hand (R100, R122, R123, R186, R197): the map lookup fixes every unit's location, which
the command holds, and releases the hazard; with units on flash the command waits for one read of each, without any it is answered with
its bytes. A READ with a page not at hand waits for it. -/
def Obligations.ReadBlocks : Prop :=
  ∀ (s s1 : State) (d : DieId) (cid : Nat) (c : Cmd), HasCmd s d cid Op.read c → c.failed = false →
    s1 = touchAll s d c (lookupPages (s.die d) d c) →
    (pagesHere (s.die d) c (lookupPages (s.die d) d c) = false →
      exec (.read d cid) s = .next (putCmd s1 d { c with missed := true }))
    ∧ (∀ (n : NsEntry) (x : DataSlot), pagesHere (s.die d) c (lookupPages (s.die d) d c) = true → HasCmd s1 d cid Op.read c →
      nsOf (s1.die d) c.tenant c.hdr.nsid = some n → xtsSlot (s1.die d).cry c.tenant c.hdr.nsid = some x →
      (readLocs (s1.die d) d c n ≠ [] →
        ∃ t c', exec (.read d cid) s = .next t ∧ cmdOf (t.die d) cid = some c' ∧ c'.phase = .reading ∧ c'.released = true
          ∧ c'.holds = readLocs (s1.die d) d c n ∧ c'.reads = (readLocs (s1.die d) d c n).length
          ∧ (t.die d).flash.ops.length = (s1.die d).flash.ops.length + (readLocs (s1.die d) d c n).length)
      ∧ (∀ (k : Session) (v : Bytes), readLocs (s1.die d) d c n = [] →
          readData (s1.die d) d c n (dataKey (s1.die d).cry x) = (v, true) → CanReply s1 c k v.length →
          ∃ t, exec (.read d cid) s = .next t ∧ cmdOf (t.die d) cid = none
            ∧ Replied t c k (replyBytes Op.read Stat.ok 0 0 0 v.length v)))

/-- FLUSH (R128, R129): the barrier goes to every die that runs, unless it waits for its route (R20); each marks the writes it has
acknowledged and not yet made durable; with the last confirmation the reply is sent. -/
def Obligations.Flush : Prop :=
  ∀ (s : State) (d e : DieId) (cid : Nat) (c : Cmd), running s d = true → running s e = true → waitsOut s d e = false →
    s.guard.entry = 0 →
    (HasCmd s d cid Op.flush c →
      ∃ t, exec (.flush d cid) s = .next t ∧ cmdOf (t.die d) cid = some { c with phase := .barrier, waits := upDies s }
        ∧ (t.die e).csq.barriers = (s.die e).csq.barriers ++ [.flush d cid] ∧ (t.die e).map = (s.die e).map)
    ∧ (∀ home rest, (s.die d).csq.barriers = .flush home cid :: rest →
      ∃ t, exec (.flushBarrier d) s = .next t ∧ (t.die d).csq.barriers = rest
        ∧ (t.die d).csq.marks = (s.die d).csq.marks
            ++ [(home, cid, ((s.die d).map.ring.filter (fun r => r.through.isNone)).map (fun r => r.wid))]
        ∧ (t.die d).map = (s.die d).map ∧ SameButDie d s t)
    ∧ (∀ wids k, (s.die d).csq.marks.find? (fun m => m.2.1 == cid) = some (e, cid, wids) →
      (∀ r ∈ (s.die d).map.ring, r.wid ∉ wids) → cmdOf (s.die e) cid = some c → c.waits = [d] → c.failed = false →
      c.offline = false → CanReply s c k 0 →
      ∃ t, exec (.flushConfirm d cid) s = .next t ∧ cmdOf (t.die e) cid = none
        ∧ Replied t c k (replyBytes c.hdr.opcode Stat.ok 0 0 0 0 []))

/-- ABORT (R105, R126): a target that waits before the media point leaves its die, and when the host's window lets both go its reply
with ABORTED comes first and then the ABORT's with AUX 1; an ABORT whose target runs past its media point waits for the target's
reply; when nothing carries the tag, the answer is OK with AUX 2. RESET_SESSION (R106, R130): the session goes on holding what
came after it, and the barrier goes to every die that runs, unless it waits for its route (R20); on each die the session's
commands that are before the media point are gone, the others will not be replied to, and the die has confirmed. Stated for an
unencrypted session without messages held before the command. -/
def Obligations.AbortAndReset : Prop :=
  (
    ∀ (s : State) (d : DieId) (cid : Nat) (a : Cmd) (tag : Byte), running s d = true → ctrlOf (s.die d) cid Op.abort = some a →
      s.pkg.act.on = false → a.target = none → tag = BitVec.ofNat 8 (a.hdr.arg % 256) →
      (∀ e c, tagCmd s d a.slot a.gen tag = some (e, c) → beforeMedia c = true →
        ∃ t, exec (.abort d cid) s = .next t ∧ cmdOf (t.die e) c.cid = none ∧ ctrlOf (t.die d) cid Op.abort = none
          ∧ (t.die e).map = (s.die e).map
          ∧ ∀ k, CanReply s c k 0 → psnBefore (k.sndNext + 1) k.sndEdge = true → a.noReply = false → lateAbort (s.die d) a.cid = none →
              ∃ k' p q, sessGen (t.die d) a.slot a.gen = some k' ∧ k'.unacked = k.unacked ++ [p, q] ∧ p.ptype = 0x04 ∧ q.ptype = 0x04
                ∧ p.body = segBytes c.tag true 0 ++ replyBytes c.hdr.opcode Stat.aborted 0 0 0 0 []
                ∧ q.body = segBytes a.tag true 0 ++ replyBytes a.hdr.opcode Stat.ok 0 1 0 0 [])
      ∧ (∀ e c, tagCmd s d a.slot a.gen tag = some (e, c) → beforeMedia c = false →
        ∃ t, exec (.abort d cid) s = .next t ∧ ctrlOf (t.die d) cid Op.abort = some { a with target := some c.cid }
          ∧ (t.die e).csq.cmds = (s.die e).csq.cmds ∧ (t.die d).ktp = (s.die d).ktp)
      ∧ (∀ k, tagCmd s d a.slot a.gen tag = none → inboxTag s d a.slot a.gen tag = none → replyOut s d a.slot a.gen tag = none →
          tagCtrl (s.die d) a tag = none → CanReply s a k 0 → a.home = d → (∀ m ∈ k.held, m.tag ≠ tag) →
          ∃ t, exec (.abort d cid) s = .next t ∧ ctrlOf (t.die d) cid Op.abort = none
            ∧ Replied t a k (replyBytes a.hdr.opcode Stat.ok 0 2 0 0 [])))
  ∧ (
    ∀ (s : State) (d e : DieId) (cid : Nat), running s d = true → running s e = true → waitsOut s d e = false → s.guard.entry = 0 →
      (∀ c k, ctrlOf (s.die d) cid Op.resetSession = some c → c.phase ≠ .barrier → sessGen (s.die d) c.slot c.gen = some k →
        k.resetting = some cid → k.heldOld = 0 → k.enc = false →
        ∃ t c' k', exec (.resetSession d cid) s = .next t ∧ sessGen (t.die d) c.slot c.gen = some k' ∧ k'.resetting = some cid
          ∧ k'.held = k.held ∧ k'.rateHold = false
          ∧ ctrlOf (t.die d) cid Op.resetSession = some c' ∧ c'.phase = .barrier ∧ c'.waits = upDies s
          ∧ (t.die e).csq.barriers = (s.die e).csq.barriers ++ [.reset d c.slot c.gen cid] ∧ (t.die e).map = (s.die e).map)
      ∧ (∀ slot gen rest, (s.die d).csq.barriers = .reset e slot gen cid :: rest →
        (∀ k, sessGen (s.die e) slot gen = some k → k.enc = false) →
        ∃ t, exec (.resetSessionBarrier d) s = .next t ∧ (t.die d).csq.barriers = rest
          ∧ (∀ c ∈ (t.die d).csq.inbox, ofSession e slot gen c = false)
          ∧ (∀ c ∈ (t.die d).csq.cmds, ofSession e slot gen c = true → beforeMedia c = false ∧ c.noReply = true)
          ∧ (∀ q ∈ (t.die e).csq.controls, q.cid = cid → d ∉ q.waits)
          ∧ (t.die d).map = (s.die d).map ∧ t.guard = s.guard))

/-! ### Admin commands (chapters 2, 9, 10, 15) -/

/-- Admin commands that read (R96, R103, R391, R392, R401): NOP answers OK; IDENTIFY_TENANT its record; METER_READ the whole sealed
minutes that fit, their count in AUX; LOG_READ the entries that fit, the cursor of the next in AUX; REG_READ of one register of CSQ
its word. The command has left its die. -/
def Obligations.AdminReads : Prop :=
  ∀ (s : State) (d : DieId) (cid : Nat) (c : Cmd) (k : Session),
    (HasCmd s d cid Op.nop c → CanReply s c k 0 →
      ∃ t, exec (.nop d cid) s = .next t ∧ cmdOf (t.die d) cid = none ∧ Replied t c k (replyBytes Op.nop Stat.ok 0 0 0 0 []))
    ∧ (HasCmd s d cid Op.identify c → CanReply s c k (identify s d c.tenant).length →
      ∃ t, exec (.identifyTenant d cid) s = .next t ∧ cmdOf (t.die d) cid = none
        ∧ Replied t c k (replyBytes Op.identify Stat.ok 0 0 0 0 (identify s d c.tenant)))
    ∧ (∀ q rest b n, HasCmd s d cid Op.meterRead c → s.mtr.log.dropWhile (fun q => q.minute != c.hdr.arg) = q :: rest →
      takeWhole c.hdr.valueLen ((q :: rest).map (minuteFor c.tenant)) = (b, n + 1) → CanReply s c k b.length →
      ∃ t, exec (.meterRead d cid) s = .next t ∧ cmdOf (t.die d) cid = none
        ∧ Replied t c k (replyBytes Op.meterRead Stat.ok 0 (n + 1) 0 0 b))
    ∧ (∀ (e : DieId) (sel cursor : Nat) (b : Bytes) (n : Nat), HasCmd s d cid Op.logRead c → 1 ≤ sel → sel ≤ 4 → cursor < 2 ^ 32 →
      c.hdr.arg = sel * 2 ^ 56 + e.val * 2 ^ 32 + cursor → present s e = true → (s.die e).phase ≠ .fenced →
      takeWhole c.hdr.valueLen ((logEntries s e sel cursor).map (fun p => p.2)) = (b, n) → CanReply s c k b.length →
      ∃ t, exec (.logRead d cid) s = .next t ∧ cmdOf (t.die d) cid = none
        ∧ Replied t c k (replyBytes Op.logRead Stat.ok 0 (nextCursor (logEntries s e sel cursor) n) 0 0 b))
    ∧ (∀ a q, HasCmd s d cid Op.regRead c → RegOpen s .csq a q → c.hdr.arg % 2 ^ 32 = a → a % 4 = 0 → c.hdr.valueLen = 1 →
      CanReply s c k 4 →
      ∃ t, exec (.regRead d cid) s = .next t ∧ cmdOf (t.die d) cid = none
        ∧ Replied t c k (replyBytes Op.regRead Stat.ok 0 0 0 0 (leBytes 4 (viewReg s a).toNat)))

/-- Admin commands that set (R101, R102, R332, R333, R346 to R349, R375): REG_WRITE writes its register as any requester would;
RESET_DEVICE is answered and leaves the warm reset to follow; TENANT_SET loads an accepted context into every die that runs and
records it in the configuration journal; KEY_INSTALL draws the next generation of a tenant's data key, CURRENT on every die that
runs; CLOCK_SET sets the wall offset. Each is answered with OK. -/
def Obligations.AdminSettings : Prop :=
  ∀ (s : State) (d e : DieId) (cid : Nat) (c : Cmd) (k : Session), CanReply s c k 0 → running s e = true →
    (∀ a q, HasCmd s d cid Op.regWrite c → registersOk s → RegOpen s .csq a q → c.hdr.arg % 2 ^ 32 = a → a % 4 = 0 →
      c.inline.length = 4 → locked s (baseOf a) = false → valuesOk q (BitVec.ofNat 32 (leNat c.inline)) = true →
      ∃ t, exec (.regWrite d cid) s = .next t ∧ cmdOf (t.die d) cid = none
        ∧ Replied t c k (replyBytes Op.regWrite Stat.ok 0 0 0 0 [])
        ∧ regGet t a = mergeFields false (regGet s a) (BitVec.ofNat 32 (leNat c.inline)) q)
    ∧ (HasCmd s d cid Op.resetDevice c →
      ∃ t, exec (.resetDevice d cid) s = .next t ∧ cmdOf (t.die d) cid = none ∧ t.pkg.resetPend = true
        ∧ Replied t c k (replyBytes Op.resetDevice Stat.ok 0 0 0 0 []))
    ∧ (∀ x, HasCmd s d cid Op.tenantSet c → parseTenant (c.hdr.arg % 4096) c.inline = x → tenantOk (c.hdr.arg % 4096) c.inline = true →
      tenantRefused s c x = false → x.enable = true →
      ∃ t r, exec (.tenantSet d cid) s = .next t ∧ cmdOf (t.die d) cid = none
        ∧ Replied t c k (replyBytes Op.tenantSet Stat.ok 0 0 0 0 [])
        ∧ tenantOf (t.die e) (c.hdr.arg % 4096) = some x ∧ t.nor.journal = s.nor.journal ++ [r] ∧ r.body = .tenantCtx x)
    ∧ (HasCmd s d cid Op.keyInstall c → keyBodyOk c.inline = true → byteAt c.inline 0 = 2 → (byteAt c.inline 1).testBit 0 = true →
      (liveGens s (c.hdr.arg % 4096)).length < 4 → slotsShort s 1 = false → freeDataSlot (s.die e).cry ≠ none →
      ∃ t x, exec (.keyInstall d cid) s = .next t ∧ cmdOf (t.die d) cid = none
        ∧ Replied t c k (replyBytes Op.keyInstall Stat.ok 0 0 0 0 [])
        ∧ currentSlot (t.die e).cry (c.hdr.arg % 4096) = some x ∧ x.gen = freshGen s (c.hdr.arg % 4096))
    ∧ (HasCmd s d cid Op.clockSet c →
      ∃ t, exec (.clockSet d cid) s = .next t ∧ cmdOf (t.die d) cid = none
        ∧ Replied t c k (replyBytes Op.clockSet Stat.ok 0 0 0 0 [])
        ∧ t.guard.offset = (c.hdr.arg : Int) - (s.guard.devTime : Int) ∧ t.guard.wallUnset = false
        ∧ t.guard.devTime = s.guard.devTime)

/-- Namespaces (R183, R339 to R341, R143): NS_CREATE enters the namespace on every die that runs, where its tenant then has a hash
key; NS_DELETE removes the namespace there with its map and its XTS key; FORMAT empties the map and the Nectar ring of every die
that runs, takes the placement, raises the epoch and ends a purge; while a present, unfenced die does not run, it waits (the
model's choice, log 102). -/
def Obligations.Namespaces : Prop :=
  ∀ (s : State) (d e : DieId) (cid : Nat) (c : Cmd), running s e = true →
    (∀ n k, HasCmd s d cid Op.nsCreate c → parseNs c.hdr.nsid c.inline = n → nsOk c.hdr.nsid c.inline = true →
      nsRefused (s.die 0) n = false → nsNoSpace s n = false → nsWrapped c.inline = false → CanReply s c k 0 →
      ∃ t, exec (.nsCreate d cid) s = .next t ∧ cmdOf (t.die d) cid = none
        ∧ Replied t c k (replyBytes Op.nsCreate Stat.ok 0 0 0 0 []) ∧ (∃ i, { n with slot := i } ∈ (t.die e).map.nstab)
        ∧ (nsCount (s.die 0) n.tenant = 0 → (assocGet n.tenant (t.die e).hashKeys).isSome = true))
    ∧ (∀ x, HasCmd s d cid Op.nsDelete c → x = c.hdr.arg % 4096 → (nsOf (s.die 0) x c.hdr.nsid).isSome = true →
      ∃ t, exec (.nsDelete d cid) s = .next t ∧ cmdOf (t.die d) cid = none ∧ nsOf (t.die e) x c.hdr.nsid = none
        ∧ (∀ q ∈ (t.die e).map.kv, ¬(q.tenant = x ∧ q.nsid = c.hdr.nsid))
        ∧ (∀ q ∈ (t.die e).map.dense, ¬(q.tenant = x ∧ q.nsid = c.hdr.nsid)) ∧ xtsSlot (t.die e).cry x c.hdr.nsid = none)
    ∧ (HasCmd s d cid Op.format c → formatRefused s c.inline = false → allRun s = true →
      ∃ t, exec (.format d cid) s = .next t ∧ cmdOf (t.die d) cid = none ∧ (t.die e).map.kv = [] ∧ (t.die e).map.dense = []
        ∧ (t.die e).map.nstab = [] ∧ (t.die e).map.ring = [] ∧ (t.die e).map.mounted = true
        ∧ t.pkg.placement = placementOf s c.inline ∧ (t.die e).comb.placement = (placementOf s c.inline).map toCombPlace
        ∧ t.pkg.epoch = s.pkg.epoch + 1 ∧ t.pkg.purged = false)
    ∧ (HasCmd s d cid Op.format c → formatRefused s c.inline = false → allRun s = false → exec (.format d cid) s = .next s)

/-- Firmware (R104, R133, R538, R539, R541): FW_DOWNLOAD at a good place waits for its grants when its data is long; a piece that
comes inline and does not end the image is written to the slot that does not run, where it reads back, and counted. FW_ACTIVATE of
the other slot, when that slot is good, makes it ACTIVE and stops dispatch and the timers until the dies have drained. -/
def Obligations.FirmwareCommands : Prop :=
  ∀ (s : State) (d : DieId) (cid : Nat) (c : Cmd),
    (HasCmd s d cid Op.fwDownload c → placeOk s c = true → 8192 < c.hdr.valueLen → c.value.length < c.hdr.valueLen →
      ∀ b, exec (.fwDownload d cid b) s = .next (putCmd s d { c with phase := .granting }))
    ∧ (∀ k, HasCmd s d cid Op.fwDownload c → norOk s → placeOk s c = true → c.hdr.arg ≠ 0 → c.hdr.valueLen ≤ 8192 →
      s.nor.dlGot + c.inline.length < s.nor.dlLen → CanReply s c k 0 →
      ∃ t, exec (.fwDownload d cid true) s = .next t ∧ cmdOf (t.die d) cid = none
        ∧ Replied t c k (replyBytes Op.fwDownload Stat.ok 0 0 0 0 [])
        ∧ t.nor.dlGot = s.nor.dlGot + c.inline.length ∧ t.nor.dlOn = true
        ∧ norRead t.nor (slotBase (!s.nor.running) + c.hdr.arg) c.inline.length = c.inline)
    ∧ (∀ x, HasCmd s d cid Op.fwActivate c → c.hdr.arg.testBit 0 = x → recordValid s.nor x = true → s.nor.dlOn = false →
      x = !s.nor.running → imageOk s.nor x = true → s.pkg.act.on = false →
      ∃ t, exec (.fwActivate d cid) s = .next t ∧ cmdOf (t.die d) cid = some { c with phase := .activating }
        ∧ t.pkg.act = { on := true, cid := cid, slot := x, old := s.nor.running } ∧ (∀ e, (t.die e).csq.tmoStop = true)
        ∧ t.nor = bootAppend (norOpDone s).nor (.active x) ∧ (∀ e, mayDispatch t e = false))

/-- An activation ends (R133, R134, R135): drained, the new slot runs, the reload is counted and the ten minutes of R533 start; at
its timeout, the old slot runs on and is ACTIVE and confirmed again. Either way the pause is over. Confirmation, SVN and the
journal (R368, R533, R545): FW_CONFIRM appends CONFIRM for a slot on trial ten minutes after every die has mounted without a
fault of die 0; SVN_COMMIT raises the fused SVN to a COMMIT manifest's; JOURNAL_COMPACT leaves no record in the oldest sector. -/
def Obligations.FirmwareActivation : Prop :=
  (
    ∀ s : State, running s 0 = true → s.pkg.act.on = true →
      ((upDies s).any (fun e => draining (s.die e) s.pkg.act.cid) = false →
        ∃ t, exec .actDrainDone s = .next t ∧ t.nor.running = s.pkg.act.slot ∧ t.pkg.act = {} ∧ t.pkg.fwReload = s.pkg.fwReload + 1
          ∧ t.pkg.mountedAt = some s.guard.devTime)
      ∧ (∃ t, exec .actDrainTimeout s = .next t ∧ t.pkg.act = {} ∧ t.pkg.fwReload = s.pkg.fwReload
          ∧ t.nor = bootAppend (bootAppend s.nor (.active s.pkg.act.old)) (.confirm s.pkg.act.old)))
  ∧ (
    ∀ s : State, running s 0 = true →
      (∀ n, s.pkg.mountedAt = some n → (∀ u, s.guard.die0At = some u → u + 600000000000 ≤ s.guard.devTime) → onTrial s.nor = true → n + 600000000000 ≤ s.guard.devTime →
        ∃ t, exec .fwConfirm s = .next t ∧ t.nor = bootAppend s.nor (.confirm s.nor.running) ∧ t.dies = s.dies ∧ t.guard = s.guard)
      ∧ (s.pkg.mountedAt.isSome = true → (leAt (manifest s.nor s.nor.running) 7 1).testBit 0 = true →
        exec .svnCommit s = .next { s with nor := { s.nor with
          svn := max s.nor.svn (min 64 (leAt (manifest s.nor s.nor.running) 8 1)) } })
      ∧ (s.nor.cjErased < 4 → s.pkg.act.on = false →
        ∃ t, exec .journalCompact s = .next t ∧ (∀ r ∈ t.nor.journal, r.sector ≠ cjOldest s.nor) ∧ t.dies = s.dies ∧ t.guard = s.guard))

/-! ### The map and the Nectar buffer (chapter 5) -/

/-- NECTAR_ADMIT (R201, R204, R206): the write that waits first, which nothing has come to refuse and which does not go through to
flash, is admitted when it fits the budget: a PUT's entry names its ring write with the next version, a DELETE's entry is live no
more; the ring holds one write more, and the reply carries the version. -/
def Obligations.NectarAdmit : Prop :=
  ∀ (s : State) (d : DieId) (c : Cmd) (k : Session), TakesWork s d Page.map → firstWaiting (s.die d) = some c → CanReply s c k 0 →
    admitRefusal s d c = none → goesThrough s d c = false → dirtySize (s.die d) c + dirtyBytes (s.die d) ≤ budgetOf s d →
    (∀ n x, c.hdr.opcode = Op.put → nsOf (s.die d) c.tenant c.hdr.nsid = some n →
      hasDataKey (s.die d).cry c.tenant = true → askEncrypt (s.die d) c.tenant = .ready x →
      ∃ t e, exec (.nectarAdmit d) s = .next t ∧ cmdOf (t.die d) c.cid = none
        ∧ kvLive (t.die d) c.tenant c.hdr.nsid c.key = some e ∧ e.nectar = true ∧ e.version = (s.die d).map.wseq
        ∧ (t.die d).map.wseq = (s.die d).map.wseq + 1 ∧ (t.die d).map.ring.length = (s.die d).map.ring.length + 1
        ∧ Replied t c k (replyBytes Op.put Stat.ok 0 0 (s.die d).map.wseq 0 []))
    ∧ (∀ e, c.hdr.opcode = Op.delete → kvLive (s.die d) c.tenant c.hdr.nsid c.key = some e →
      ∃ t, exec (.nectarAdmit d) s = .next t ∧ cmdOf (t.die d) c.cid = none
        ∧ kvLive (t.die d) c.tenant c.hdr.nsid c.key = none
        ∧ (t.die d).map.wseq = (s.die d).map.wseq + 1 ∧ (t.die d).map.ring.length = (s.die d).map.ring.length + 1
        ∧ Replied t c k (replyBytes Op.delete Stat.ok 0 0 (s.die d).map.wseq 0 []))

/-- PACKER_STRIPE (R207, R208, R274): outside Stall, when a group is open for the mode of the first write of the ring that is not yet
placed, one more run of stripes of that group is in staging, and one program for each member of its layout is queued. -/
def Obligations.PackerStripe : Prop :=
  ∀ (s s1 : State) (d : DieId) (head : RingEntry) (g : Group), running s d = true → (s.die d).fgr.mode ≠ .stall →
    (s.die d).map.ring.find? (fun r => !fullyPlaced r) = some head → openFor s d (wantsQlc s d head) false = some (g, s1) →
    ∃ t st, exec (.packerStripe d) s = .next t ∧ (t.die d).flash.stripes = (s.die d).flash.stripes ++ [st]
      ∧ st.sid = (s.die d).flash.nextSid ∧ st.group = g.num ∧ st.first = g.used ∧ st.qlc = g.qlc ∧ st.left = members g.layout
      ∧ st.forager = false
      ∧ (t.die d).flash.ops.length = (s.die d).flash.ops.length + members g.layout
      ∧ (t.die d).flash.nextSid = (s.die d).flash.nextSid + 1

/-- Checkpoints and the SLC cache target (R210, R215 to R218, R222): a checkpoint that is due writes the map's pages and then, at
the next place of the anchor region, a root that names the position of the journal at its begin and has the next number, and
leaves the map in memory as it is; MAP_CKPT_NOW reads 1 until then; the target is F_S × free capacity between its two bounds.
MAP_LOCK_TIMEOUT (R199, R222, R460): a lock held longer than MAP_LOCK_MS by a core that runs is broken: its page stands in the
cache again, MAP_LOCK_BREAKS rises, saturating, and the core is fenced. -/
def Obligations.MapMaintenance : Prop :=
  (
    ∀ (s : State) (d : DieId), running s d = true →
      (∀ s2 : State, ∀ place, (s.die d).map.mounted = true → ckptDue s d = true →
        writeMap ((ensureJournal s d).updDie d (fun x => jAppendTo x 0 0 (.ckptBegin ((ensureJournal s d).die d).map.jseq))) d = some s2 →
        rootPlace s2 d = some place →
        ∃ t r, exec (.checkpoint d) s = .next t ∧ (t.die d).map.root = some r
          ∧ r.ckptJseq = ((ensureJournal s d).die d).map.jseq
          ∧ r.seq = ((s.die d).map.root.map (fun q => q.seq)).getD 0 + 1 ∧ r.wseqBound = (s.die d).map.wbound
          ∧ (t.die d).map.roots.getLast? = some { group := place.1, chan := place.2.1, page := place.2.2.1, root := r }
          ∧ (t.die d).map.kv = (s.die d).map.kv ∧ (t.die d).map.dense = (s.die d).map.dense ∧ (t.die d).map.ring = (s.die d).map.ring
          ∧ (t.die d).map.journalAt = 0 ∧ (t.die d).map.ckpt = false)
      ∧ (∀ r, HasSpace s r → RowOpen s (dreg d Page.map 0x54) →
        exec (.mapCkptNow r d) s = .next (s.updDie d (fun x => { x with map := { x.map with ckpt := true } })))
      ∧ (∃ t, exec (.slcTargetRecompute d) s = .next t
          ∧ (t.die d).map.slcTarget
              = max (min ((exported s d - validBytes (s.die d)) * dfld s d Page.map 0x4C 7 0 / 256 / 4) (dfld s d Page.map 0x4C 31 16 * 1000000000))
                  (dfld s d Page.map 0x4C 15 8 * 1000000000)
          ∧ (t.die d).map.kv = (s.die d).map.kv ∧ (t.die d).flash = (s.die d).flash ∧ SameButDie d s t))
  ∧ (
    ∀ (s : State) (d : DieId) (core : CoreId) (tenant nsid index ms : Nat), running s d = true → registersOk s → coreOn s d core = true →
      (coreAt s d core).st ≠ .halted → dfld s d Page.map 0x50 7 0 < ms → 3 ≤ (coresOn s d).length →
      ∃ t, exec (.mapLockTimeout d core tenant nsid index ms) s = .next t
        ∧ pageHere (t.die d) tenant nsid index = true
        ∧ regGet t (dreg d Page.map 0xA4) = satWord ((regGet s (dreg d Page.map 0xA4)).toNat + 1)
        ∧ (coreAt t d core).st = .fenced)

/-! ### The Forager (chapter 6) -/

/-- The reclaim of a victim, step by step (R174, R234, R239 to R241): a score round takes the victim that the rules choose and,
under R235, sends its data to QLC groups; a read of each of its pages is queued behind the operations that wait; once none of
them waits, a victim without live data needs no copies; with its copies programmed, its moves are committed and the drain fence
waits for the run-ahead reads that are open; once none is, the victim waits for its readers; then its erase is intended in the
journal and its blocks' erases are queued. The VALID recount and read-only mode (R228, R254): a write of RECOUNT asks for a
recount, and its end has VALID of every group counted again from the map; a report of READ_ONLY_ENTER makes every die that runs
read-only. -/
def Obligations.ForagerWork : Prop :=
  (
    ∀ (s : State) (d : DieId) (g : Group), running s d = true →
      (∀ f, (s.die d).fgr.victim = none → TakesWork s d Page.fgr → nextVictim (fgrReval s d) d = some (g, f) →
        ∃ t, exec (.fgrScore d) s = .next t ∧ (t.die d).fgr.victim = some g.num ∧ (t.die d).fgr.forced = f
          ∧ (t.die d).fgr.step = .chosen ∧ (t.die d).fgr.toQlc = (!g.qlc && slcOver (s.die d))
          ∧ (t.die d).groups = (s.die d).groups ∧ (t.die d).map = (s.die d).map)
      ∧ ((s.die d).fgr.victim = some g.num → groupOf (s.die d) g.num = some g →
        ((s.die d).fgr.step = .chosen →
          ∃ t, exec (.fgrReclaim d) s = .next t ∧ (t.die d).fgr.step = .reading ∧ (t.die d).fgr.victim = some g.num
            ∧ (t.die d).map = (s.die d).map ∧ (∀ o ∈ (s.die d).flash.ops, o ∈ (t.die d).flash.ops)
            ∧ (t.die d).flash.ops.length = (s.die d).flash.ops.length + (victimPages s d g).length)
        ∧ ((s.die d).fgr.step = .reading → victimReading (s.die d) = false → liveItems (s.die d) g.num = [] →
          ∃ t, exec (.fgrReclaim d) s = .next t ∧ (t.die d).fgr.step = .copying ∧ (t.die d).fgr.moves = []
            ∧ (t.die d).map = (s.die d).map ∧ (t.die d).flash = (s.die d).flash)
        ∧ ((s.die d).fgr.step = .copying → copiesPending (s.die d) = false →
          ∃ t, exec (.fgrReclaim d) s = .next t ∧ (t.die d).fgr.step = .fencing ∧ (t.die d).fgr.moves = []
            ∧ (t.die d).comb.fence = raOpen (s.die d) ∧ (t.die d).fgr.victim = some g.num)
        ∧ ((s.die d).fgr.step = .fencing → (∀ o ∈ (s.die d).comb.fence, o ∉ raOpen (s.die d)) →
          ∃ t, exec (.cmbDrainFence d) s = .next t ∧ (t.die d).fgr.step = .waiting ∧ (t.die d).comb.fence = []
            ∧ (t.die d).map = (s.die d).map ∧ SameButDie d s t)
        ∧ ((s.die d).fgr.step = .waiting → readersIn (s.die d) g.num = false → g.badCh = [] → deadChans (s.die d) g = [] →
          4 ≤ members g.good →
          ∃ t g', exec (.fgrEraseStart d) s = .next t ∧ (t.die d).fgr.step = .erasing ∧ groupOf (t.die d) g.num = some g'
            ∧ g'.st = .erasePending ∧ g'.valid = 0
            ∧ (∃ q ∈ (t.die d).map.journal, q.body = .eraseIntent g.num g.good)
            ∧ (t.die d).flash.ops.length = (s.die d).flash.ops.length + members g.good)))
  ∧ (
    ∀ (s : State) (d e : DieId), running s d = true → running s e = true →
      (∀ r, HasSpace s r → RowOpen s (dreg d Page.fgr 0x60) →
        exec (.fgrRecount r d) s = .next (s.updDie d (fun x => { x with fgr := { x.fgr with recount := true } })))
      ∧ ((s.die d).fgr.recount = true →
        ∃ t, exec (.fgrRecountDone d) s = .next t ∧ (t.die d).fgr.recount = false ∧ (t.die d).groups = (recounted (s.die d)).groups
          ∧ (t.die d).map = (s.die d).map)
      ∧ ((s.die d).fgr.roReport = true →
        ∃ t, exec (.readOnlyEnter d) s = .next t ∧ (t.die e).map.readOnly = true ∧ (t.die e).fgr.roReport = false
          ∧ (t.die e).map.kv = (s.die e).map.kv ∧ (t.die e).map.dense = (s.die e).map.dense))

/-! ### Flash channels and power tokens (chapters 7 and 14) -/

/-- Issue and reads (R115, R173, R506): an operation that is eligible on a free LUN of a channel that takes work, whose tokens are
there or which needs none, runs and its tokens are spent. A host read that ends leaves its LUN; its command waits for one read fewer, and a READ whose last read it
was is answered with its bytes. -/
def Obligations.FlashReads : Prop :=
  ∀ (s : State) (d : DieId) (op : Nat) (o : FlashOp), running s d = true → opOf (s.die d) op = some o →
    (takesWork s (fchReg d o.chan 0) = true → eligible s d o = true → lunBusy (s.die d) o = none → o.late = none →
      o.urgent = true ∨ splitAllows s d o = true ∧ tokenTurn s d o = true ∧ (o.cost : Int) ≤ (s.die d).flash.balance →
      ∃ t, exec (.flashOpIssue d op) s = .next t
        ∧ opOf (t.die d) op = some { o with running := true, since := (s.die d).mon.devTime }
        ∧ (t.die d).flash.balance = (s.die d).flash.balance - o.cost ∧ (t.die d).flash.spent = (s.die d).flash.spent + o.cost
        ∧ (t.die d).map = (s.die d).map ∧ SameButDie d s t)
    ∧ (∀ cid c, o.kind = .read → o.running = true → o.src = .host cid → o.drop = false → cmdOf (s.die d) cid = some c →
      c.phase = .reading →
      (∀ n, c.reads = n + 2 →
        ∃ t, exec (.flashReadComplete d op .hard) s = .next t ∧ opOf (t.die d) op = none
          ∧ cmdOf (t.die d) cid = some { c with reads := n + 1 } ∧ (t.die d).map = (s.die d).map)
      ∧ (∀ k, c.reads = 1 → c.hdr.opcode = Op.read → c.failed = false → CanReply s c k c.value.length →
        ∃ t, exec (.flashReadComplete d op .hard) s = .next t ∧ opOf (t.die d) op = none ∧ cmdOf (t.die d) cid = none
          ∧ Replied t c k (replyBytes Op.read Stat.ok 0 0 0 c.value.length c.value)))

/-- Programs and erases (R207, R226, R237, R239, R274): a member of a stripe that has programmed leaves one fewer to program; with
the last one the stripe's staging is free and no write of the ring waits for it. The last good erase of a group that was to be
erased, once its check has passed, makes it FREE, with its WEAR raised, unless the rescue reserve takes it at once. Faults of
channels and LUNs (R263, R277, R287, R288, R289, R290, R291): a timeout takes a program or erase off its LUN and counts toward
three in a row, at which the LUN is retired; a stuck R/B line retires the channel, on which then no program or erase is left and
nothing runs; once no operation runs on it, a training that succeeds brings the channel back, in the mode and at the rate of
FCH_IF, and repeats the operation held, at once when it is of a funded dispatch; one that fails is counted, and the LUNs that
fail identification meanwhile are retired; a host read that waits on a channel out of service is rebuilt while every other
member is in service and the reads of the rebuild can go. -/
def Obligations.FlashWrites : Prop :=
  (
    ∀ (s : State) (d : DieId) (op : Nat) (o : FlashOp), running s d = true → opOf (s.die d) op = some o → o.running = true →
      o.paused = false →
      (∀ sid q, o.kind = .program → o.stripe = some sid → stripeOf (s.die d) sid = some q →
        (∀ n, q.left = n + 2 →
          ∃ t, exec (.flashProgramComplete d op true) s = .next t ∧ opOf (t.die d) op = none
            ∧ stripeOf (t.die d) sid = some { q with left := n + 1 } ∧ (t.die d).map = (s.die d).map)
        ∧ (q.left = 1 → q.forager = false →
          ∃ t, exec (.flashProgramComplete d op true) s = .next t ∧ opOf (t.die d) op = none ∧ stripeOf (t.die d) sid = none
            ∧ ∀ e ∈ (t.die d).map.ring, sid ∉ e.stripes))
      ∧ (∀ g, o.kind = .erase → groupOf (s.die d) (opGroup o) = some g → g.st = .erasePending →
        (∀ p ∈ (s.die d).flash.ops, p.op ≠ op → p.kind = .erase → opGroup p ≠ opGroup o) →
        Affords (s.die d) o (2 * (if o.slc then 1 else wlPages s d) * opCost s d .read o.slc) →
        ∃ t g', exec (.flashEraseComplete d op true true true) s = .next t ∧ opOf (t.die d) op = none
          ∧ groupOf (t.die d) (opGroup o) = some g' ∧ g'.wear = g.wear + (if g.qlc then dfld s d Page.fgr 0x58 7 0 else 1)
          ∧ (g'.st = .free ∨ g'.st = .rescue) ∧ g'.valid = 0))
  ∧ (
    ∀ (s : State) (d : DieId), running s d = true →
      (∀ op o n, opOf (s.die d) op = some o → o.running = true → o.kind ≠ .read →
        n = (assocGet (o.ce * 16 + o.lun) ((s.die d).flash.chans.get o.chan).timeouts).getD 0 + 1 →
        ∃ t, exec (.lunTimeout d op) s = .next t ∧ opOf (t.die d) op = none
          ∧ assocGet (o.ce * 16 + o.lun) ((t.die d).flash.chans.get o.chan).timeouts = some n
          ∧ (3 ≤ n → lunRetired (t.die d) o.chan o.ce o.lun = true))
      ∧ (∀ c ce, ((s.die d).flash.chans.get c).st ≠ .retired →
        ∃ t, exec (.rbStuck d ⟨c, ce⟩) s = .next t ∧ ((t.die d).flash.chans.get c).st = .retired
          ∧ ∀ o ∈ (t.die d).flash.ops, o.chan = c → o.kind = .read ∧ o.running = false)
      ∧ (∀ c, ((s.die d).flash.chans.get c).st = .training → (∀ i < 4, rbBusy (s.die d) c i = false) →
        (∀ n o, ((s.die d).flash.chans.get c).heldOp = some n → opOf (s.die d) n = some o → lunRetired (s.die d) c o.ce o.lun = false →
          ∃ t o', exec (.channelRetrainDone d c true []) s = .next t ∧ ((t.die d).flash.chans.get c).st = .inService
            ∧ ((t.die d).flash.chans.get c).failed = 0
            ∧ ((t.die d).flash.chans.get c).mode = fld (regGet s (fchReg d c 0x40)) 19 16
            ∧ ((t.die d).flash.chans.get c).rate = fld (regGet s (fchReg d c 0x40)) 15 0
            ∧ opOf (t.die d) n = some o' ∧ o'.retries = o.retries + 1 ∧ (o.urgent = true → o'.running = true))
        ∧ (∀ bad, ∃ t, exec (.channelRetrainDone d c true bad) s = .next t ∧ ((t.die d).flash.chans.get c).st = .inService
            ∧ ((t.die d).flash.chans.get c).heldOp = none ∧ ∀ k ∈ bad, lunRetired (t.die d) c (k / 16) (k % 16) = true)
        ∧ (((s.die d).flash.chans.get c).failed < 2 →
          ∀ bad, ∃ t, exec (.channelRetrainDone d c false bad) s = .next t ∧ ((t.die d).flash.chans.get c).st = .training
            ∧ ((t.die d).flash.chans.get c).failed = ((s.die d).flash.chans.get c).failed + 1
            ∧ ∀ k ∈ bad, lunRetired (t.die d) c (k / 16) (k % 16) = true))
      ∧ (∀ op o cid c n, opOf (s.die d) op = some o → o.kind = .read → o.running = false → inService (s.die d) o.chan o.ce o.lun = false →
        o.src = .host cid → cmdOf (s.die d) cid = some c → c.phase = .reading → c.reads = n + 2 → missingMembers (s.die d) o = 0 →
        Affords (s.die d) o (memberReads (s.die d) o * o.cost) →
        ∃ t, exec (.degradedReadTimeout d op) s = .next t ∧ opOf (t.die d) op = none
          ∧ cmdOf (t.die d) cid = some { c with reads := n + 1 } ∧ t.draws = s.draws))

/-- Power tokens (R507, R508, R509): a period starts with the allocation, less what was overdrawn, and reports the demand of the one
that ends; die 0's allocations reach every die of the part that is not fenced, and their sum stays within the package's cap. -/
def Obligations.PowerTokens : Prop :=
  ∀ (s : State),
    (∀ d : DieId, running s d = true → (s.die d).flash.gotAlloc = true → s.pkg.demand.length = 8 →
      ∃ t, exec (.tokenPeriod d) s = .next t
        ∧ (t.die d).flash.balance = min (s.die d).flash.balance 0 + ((s.die d).flash.alloc : Int)
        ∧ (t.die d).flash.spent = 0 ∧ (t.die d).flash.gotAlloc = false
        ∧ t.pkg.demand.getD d.val 0 = (s.die d).flash.spent + waitingCost (s.die d)
        ∧ (t.die d).flash.ops = (s.die d).flash.ops ∧ (t.die d).map = (s.die d).map ∧ t.regs = s.regs)
    ∧ (running s 0 = true →
      ∃ t, exec .tokenAllocate s = .next t
        ∧ (∀ e : DieId, present s e = true → (s.die e).phase ≠ .fenced → (t.die e).flash.gotAlloc = true)
        ∧ sumBy (fun e => (t.die e).flash.alloc) (unfencedDies s) ≤ dfld s 0 Page.pwr 0x48 31 16 * 1000 * t.pkg.pkgF / 256
        ∧ (∀ e : DieId, (t.die e).flash.ops = (s.die e).flash.ops ∧ (t.die e).map = (s.die e).map) ∧ t.regs = s.regs)

/-! ### The Comb (chapter 4) -/

/-- The update registers (R159 to R162, R176): an operation that nothing refuses takes effect on its entry and keeps BUSY set until it
is done: INVALIDATE makes the entry invalid, WRITE fills an invalid one and leaves it invalid, at an index that a reclaim holds when the reclaim
ends (the model's choice, log 160), VALIDATE makes a written one valid, RESULT replaces RESULT alone when its condition holds and sets
FAIL otherwise, INV_MASKED makes every picked entry invalid, on this die or on all that run; other entries stay. -/
def Obligations.CombUpdates : Prop :=
  ∀ (s : State) (r : Requester) (d : DieId) (v : Word) (q : RegSpec) (i : Nat), HasSpace s r → TakesWork s d Page.cmb →
    RowOpen s (updCtrl d) → regSpec .cmb 0x80 = some q → valuesOk q v = true → fld v 15 0 = i → (s.die d).comb.busy = none → updRefused s d v = none →
    (fld v 19 16 = 1 →
      ∃ t, exec (.cmbInvalidate r d v) s = .next t ∧ (t.die d).comb.busy = some { op := 1, idx := i }
        ∧ (combEntry (t.die d).comb i).valid = false ∧ ∀ j, j ≠ i → combEntry (t.die d).comb j = combEntry (s.die d).comb j)
    ∧ (fld v 19 16 = 2 → (combEntry (s.die d).comb i).valid = false → i ∈ (s.die d).comb.reclaimIx →
      ∃ t, exec (.cmbWrite r d v) s = .next t ∧ (t.die d).comb.busy = some { op := 2, idx := i }
        ∧ (t.die d).comb.late = some (updEntry s d i (fld v 31 24)) ∧ (t.die d).comb.entries = (s.die d).comb.entries)
    ∧ (fld v 19 16 = 2 → (combEntry (s.die d).comb i).valid = false → i ∉ (s.die d).comb.reclaimIx →
      ∃ t, exec (.cmbWrite r d v) s = .next t ∧ (t.die d).comb.busy = some { op := 2, idx := i }
        ∧ combEntry (t.die d).comb i = updEntry s d i (fld v 31 24)
        ∧ ∀ j, j ≠ i → combEntry (t.die d).comb j = combEntry (s.die d).comb j)
    ∧ (fld v 19 16 = 3 → combWritten (s.die d).comb i = true →
      ∃ t, exec (.cmbValidate r d v) s = .next t ∧ (t.die d).comb.busy = some { op := 3, idx := i }
        ∧ combEntry (t.die d).comb i = { combEntry (s.die d).comb i with valid := true }
        ∧ ∀ j, j ≠ i → combEntry (t.die d).comb j = combEntry (s.die d).comb j)
    ∧ (fld v 19 16 = 4 → combWritten (s.die d).comb i = true → resultTakes s d i = true →
      ∃ t, exec (.cmbResult r d v) s = .next t ∧ (t.die d).comb.busy = some { op := 4, idx := i }
        ∧ combEntry (t.die d).comb i = { combEntry (s.die d).comb i with res := BitVec.ofNat 128 (regWide s d 0xB8 4) }
        ∧ ∀ j, j ≠ i → combEntry (t.die d).comb j = combEntry (s.die d).comb j)
    ∧ (fld v 19 16 = 4 → combWritten (s.die d).comb i = true → resultTakes s d i = false → registersOk s →
      ∃ t, exec (.cmbResult r d v) s = .next t ∧ (t.die d).comb.busy = some { op := 4, idx := i }
        ∧ (t.die d).comb.entries = (s.die d).comb.entries ∧ bitAt (regGet t (updCtrl d)) 22 = true)
    ∧ (fld v 19 16 = 5 → bitAt v 20 = true →
      ∃ t, exec (.cmbInvMasked r d v) s = .next t ∧ (t.die d).comb.busy = some { op := 5, idx := i }
        ∧ ∀ e : DieId, running s e = true → (t.die e).comb.reclaimOn = true
          ∧ (t.die e).comb.entries = (s.die e).comb.entries.map (fun q =>
              if invPick (BitVec.ofNat 192 (regWide s d 0x88 6)) (BitVec.ofNat 192 (regWide s d 0xA0 6)) q then { q with valid := false } else q))
    ∧ (fld v 19 16 = 5 → bitAt v 20 = false →
      ∃ t, exec (.cmbInvMasked r d v) s = .next t ∧ (t.die d).comb.busy = some { op := 5, idx := i }
        ∧ (t.die d).comb.reclaimOn = true
        ∧ (t.die d).comb.entries = (s.die d).comb.entries.map (fun e =>
            if invPick (BitVec.ofNat 192 (regWide s d 0x88 6)) (BitVec.ofNat 192 (regWide s d 0xA0 6)) e then { e with valid := false } else e))

/-- The ends of the Comb's operations (R161 to R164): an update that waits for no reclaim leaves BUSY clear and the entries as they
are; a slot reclaim frees the value cache slots of the invalidated entries and lets a WRITE that waited for it take effect; a
shift by one, once no reclaim holds the index that its first move needs (the model's choice, log 160), has moved each entry of
its range up or down by one, all others stay, and the place that the range has left is free. Searches and shifts begin and a
search ends (R150, R151, R157, R163, R176): START takes the word and mask of the registers; the result of a local search names,
among the valid entries that match, one with the largest PRIORITY and the lowest index of those, and says whether another has
the same PRIORITY; without a match it is 0; a cascade finds its result over the arrays of all dies. -/
def Obligations.CombResults : Prop :=
  (
    ∀ (s : State) (d : DieId), running s d = true →
      ((s.die d).comb.late = none →
        ∃ t, exec (.cmbUpdateDone d) s = .next t ∧ (t.die d).comb.busy = none ∧ (t.die d).comb.entries = (s.die d).comb.entries
          ∧ (t.die d).comb.slots = (s.die d).comb.slots ∧ SameButDie d s t)
      ∧ ((s.die d).comb.reclaimOn = true →
        ∃ t, exec (.cmbSlotReclaimDone d) s = .next t ∧ (t.die d).comb.reclaimOn = false ∧ (t.die d).comb.reclaim = []
          ∧ (∀ v ∈ (t.die d).comb.slots, v.slot ∉ (s.die d).comb.reclaim)
          ∧ (∀ v ∈ (s.die d).comb.slots, v.slot ∉ (s.die d).comb.reclaim → v ∈ (t.die d).comb.slots)
          ∧ ∀ e, (s.die d).comb.late = some e → combEntry (t.die d).comb e.idx = e)
      ∧ (∀ sh, (s.die d).comb.shift = some sh → sh.down = false → shiftHeld (s.die d).comb sh = false →
        ∃ t, exec (.cmbShiftDone d) s = .next t ∧ (t.die d).comb.shift = none
          ∧ (∀ i, sh.first ≤ i → i ≤ sh.last →
              combEntry (t.die d).comb (i + 1) = { combEntry (s.die d).comb i with idx := i + 1 })
          ∧ (sh.first ≤ sh.last → (combEntry (t.die d).comb sh.first).valid = false)
          ∧ (∀ i, i < sh.first ∨ sh.last + 1 < i → combEntry (t.die d).comb i = combEntry (s.die d).comb i))
      ∧ (∀ sh, (s.die d).comb.shift = some sh → sh.down = true → 1 ≤ sh.first → shiftHeld (s.die d).comb sh = false →
        ∃ t, exec (.cmbShiftDone d) s = .next t ∧ (t.die d).comb.shift = none
          ∧ (∀ i, sh.first ≤ i → i ≤ sh.last →
              combEntry (t.die d).comb (i - 1) = { combEntry (s.die d).comb i with idx := i - 1 })
          ∧ (sh.first ≤ sh.last → (combEntry (t.die d).comb sh.last).valid = false)
          ∧ (∀ i, i < sh.first - 1 ∨ sh.last < i → combEntry (t.die d).comb i = combEntry (s.die d).comb i)))
  ∧ (
    ∀ (s : State) (r : Requester) (d : DieId) (v : Word) (q : RegSpec),
      (HasSpace s r → TakesWork s d Page.cmb → RowOpen s (dreg d Page.cmb 0xC8) → regSpec .cmb 0xC8 = some q → valuesOk q v = true → bitAt v 31 = true →
        (s.die d).comb.search = none →
        ∃ t, exec (.cmbSearch r d v) s = .next t ∧ (t.die d).comb.search = some (srchOf s d v)
          ∧ (t.die d).comb.entries = (s.die d).comb.entries)
      ∧ (HasSpace s r → TakesWork s d Page.cmb → RowOpen s (dreg d Page.cmb 0xFC) → regSpec .cmb 0xFC = some q → valuesOk q v = true → bitAt v 0 = true →
        (s.die d).comb.shift = none → shiftOk s d (dfld s d Page.cmb 0xF8 15 0) (dfld s d Page.cmb 0xF8 31 16) (bitAt v 1) = true →
        ∃ t, exec (.cmbShift r d v) s = .next t
          ∧ (t.die d).comb.shift = some { first := dfld s d Page.cmb 0xF8 15 0, last := dfld s d Page.cmb 0xF8 31 16, down := bitAt v 1 }
          ∧ (t.die d).comb.entries = (s.die d).comb.entries)
      ∧ (∀ p : CombSearch, running s d = true → (s.die d).comb.search = some p → p.cascade = true → dfld s d Page.cmb 0x40 2 2 = 1 →
        ∃ t, exec (.cmbSearchResult d) s = .next t ∧ (t.die d).comb.search = none ∧ SameButDie d s t
          ∧ (t.die d).comb.srchRes = srchWord (cascadeSearch s p.word p.mask))
      ∧ (∀ p : CombSearch, running s d = true → (s.die d).comb.search = some p → p.cascade = false →
          ((s.die d).comb.entries.map (fun e => e.idx)).Nodup →
        ∃ t, exec (.cmbSearchResult d) s = .next t ∧ (t.die d).comb.search = none ∧ SameButDie d s t
          ∧ ((∀ e ∈ (s.die d).comb.entries, combMatch p.word p.mask e = false) → (t.die d).comb.srchRes = 0)
          ∧ ((∃ e ∈ (s.die d).comb.entries, combMatch p.word p.mask e = true) →
              ∃ e m, e ∈ (s.die d).comb.entries ∧ combMatch p.word p.mask e = true
                ∧ (t.die d).comb.srchRes = srchWord (some { die := d.val, entry := e, multi := m }) ∧ (t.die d).comb.srchData = e.res
                ∧ (∀ f ∈ (s.die d).comb.entries, combMatch p.word p.mask f = true → f.prio < e.prio ∨ (f.prio = e.prio ∧ e.idx ≤ f.idx))
                ∧ (m = true ↔ ∃ f ∈ (s.die d).comb.entries, combMatch p.word p.mask f = true ∧ f.prio = e.prio ∧ f.idx ≠ e.idx))))

/-! ### Hold-up control and the bank (chapter 8) -/

/-- The control loops of HCE (R303, R305 to R307): a sample of an enabled slot runs the stage of R306 on the error, with the slot's
coefficients, scale and limits, and its output lies within the limits when they are in order; a disabled slot's integrator and output
are 0; a slot whose output is forced commands 0. -/
def Obligations.ControlLoops : Prop :=
  ∀ (s : State) (n : SlotId) (m : Int), s.guard.off = false →
    (slotOn s n = true →
      ∃ t, exec (.hceOuterSample n m) s = .next t ∧ (hceSlot t n).omeas = m
        ∧ ((hceSlot t n).oint, (hceSlot t n).oout)
            = stage { kp := hfld s n 8 31 16, ki := hfld s n 0xC 31 16, scale := outerScale s n, lo := outMin s n 0x10,
                      hi := outMax s n 0x10, integ := (hceSlot s n).oint,
                      err := if 2 ≤ n.val then m - outerRef s n else outerRef s n - m }
        ∧ (outMin s n 0x10 ≤ outMax s n 0x10 → outMin s n 0x10 ≤ (hceSlot t n).oout ∧ (hceSlot t n).oout ≤ outMax s n 0x10)
        ∧ t.dies = s.dies ∧ t.regs = s.regs)
    ∧ (slotOn s n = true →
      ∃ t, exec (.hceInnerSample n m) s = .next t ∧ (hceSlot t n).imeas = m
        ∧ ((hceSlot s n).forced0 = true → (hceSlot t n).iout = 0)
        ∧ ((hceSlot s n).forced0 = false →
            ((hceSlot t n).iint, (hceSlot t n).iout)
              = stage { kp := hfld s n 8 15 0, ki := hfld s n 0xC 15 0, scale := innerScale s n, lo := outMin s n 0x14,
                        hi := outMax s n 0x14, integ := (hceSlot s n).iint,
                        err := (match (hceSlot s n).fixedIn with
                          | some r => r
                          | none => (hceSlot s n).oout) - m })
        ∧ t.dies = s.dies ∧ t.regs = s.regs)
    ∧ (slotOn s n = false →
      ∃ t, exec (.hceOuterSample n m) s = .next t ∧ (hceSlot t n).oint = 0 ∧ (hceSlot t n).oout = 0)

/-- Supervision and trace buffers (R309, R310, R328, R329): an output held at a limit and a fan that does not turn set their interrupt
bits; ARM empties and arms a buffer, FIRE triggers an armed one, which then records 4,096 − PRE samples more and stops; a read of the
data returns the selected value and moves on to the next column, past the last one to the next sample. -/
def Obligations.TraceBuffers : Prop :=
  ∀ (s : State) (r : Requester) (n : SlotId) (v : Word), s.guard.off = false → registersOk s →
    (slotOn s n = true → (hceSlot s n).iout = outMin s n 0x14 ∨ (hceSlot s n).iout = outMax s n 0x14 →
      ∃ t, exec (.hceClampTimeout n) s = .next t ∧ (regGet t (hceBase + 0x10)).getLsbD 2 = true ∧ t.dies = s.dies)
    ∧ (2 ≤ n.val → slotOn s n = true → 32768 < 5 * (hceSlot s n).iout → (hceSlot s n).imeas = 0 →
      ∃ t, exec (.fanFault n) s = .next t ∧ t.guard.fanFault = true ∧ (regGet t (hceBase + 0x10)).getLsbD 3 = true ∧ t.dies = s.dies)
    ∧ (HasSpace s r → RowWrites s .hce (hreg n 0x1C) v → bitAt v 31 = true → bitAt v 27 = false →
      ∃ t, exec (.hceTraceArm r n v) s = .next t ∧ (hceSlot t n).armed = true ∧ (hceSlot t n).trig = false
        ∧ (hceSlot t n).traced = [] ∧ (hceSlot t n).trigd = false)
    ∧ (HasSpace s r → RowWrites s .hce (hreg n 0x1C) v → bitAt v 31 = false → bitAt v 27 = true → trigSource (storeReg s (hreg n 0x1C) v) n = 0 →
      (hceSlot s n).armed = true → (hceSlot s n).trig = false →
      ∃ t, exec (.hceTraceFire r n v) s = .next t ∧ (hceSlot t n).trig = true
        ∧ (hceSlot t n).left = 4096 - hfld (storeReg s (hreg n 0x1C) v) n 0x1C 23 12)
    ∧ ((hceSlot s n).trig = true → (hceSlot s n).left = 0 →
      ∃ t, exec (.traceStop n) s = .next t ∧ (hceSlot t n).armed = false ∧ (hceSlot t n).trig = false ∧ (hceSlot t n).trigd = true
        ∧ (hceSlot t n).traced = (hceSlot s n).traced ∧ t.regs = s.regs)
    ∧ (HasSpace s r → fld (regGet s (greg Page.hce 0x140)) 2 0 < 7 →
      ∃ t, exec (.hceTrDataRead r) s = .next t ∧ t.answer.data = BitVec.ofNat 32 ((BitVec.ofInt 16 (traceValue s)).toNat)
        ∧ regGet t (greg Page.hce 0x140)
            = setFld (regGet s (greg Page.hce 0x140)) 2 0 (fld (regGet s (greg Page.hce 0x140)) 2 0 + 1)
        ∧ (∀ a, a ≠ greg Page.hce 0x140 → regGet t a = regGet s a) ∧ t.guard = s.guard)
    ∧ (HasSpace s r → fld (regGet s (greg Page.hce 0x140)) 2 0 = 7 → fld (regGet s (greg Page.hce 0x140)) 15 3 < 4095 →
      ∃ t, exec (.hceTrDataRead r) s = .next t ∧ t.answer.data = BitVec.ofNat 32 ((BitVec.ofInt 16 (traceValue s)).toNat)
        ∧ regGet t (greg Page.hce 0x140)
            = setFld (setFld (regGet s (greg Page.hce 0x140)) 2 0 0) 15 3 (fld (regGet s (greg Page.hce 0x140)) 15 3 + 1)
        ∧ t.guard = s.guard)

/-- The charger and the bank health test (R303, R311 to R314, R330): an overvoltage stops the charger until ERR_CODE has been read and
the bank has fallen below V_SET; a test begins with the lowered limit, discharges once the dirty bytes fit, recharges from its low end,
and its charge gives C_meas and the verdict of R313; a failed ramp leaves FAULT and keeps C_meas. -/
def Obligations.BankTest : Prop :=
  ∀ (s : State), s.guard.off = false →
    (∀ v, 4200 < v → s.guard.psu.ovStop = false →
      ∃ t, exec (.bankOv v) s = .next t ∧ t.guard.psu.ovStop = true ∧ t.guard.psu.ovRead = false ∧ (hceSlot t 0).forced0 = true
        ∧ (hceSlot t 0).iout = 0)
    ∧ (s.guard.psu.ovStop = true → s.guard.psu.ovRead = true → s.guard.psu.vbank < vSet s →
      ∃ t, exec .chargerRestart s = .next t ∧ t.guard.psu.ovStop = false ∧ (hceSlot t 0).forced0 = false ∧ t.dies = s.dies
        ∧ t.regs = s.regs)
    ∧ (testFree s = true →
      (∃ t, exec .bankTestDue s = .next t ∧ t.guard.psu.testDue = true ∧ t.dies = s.dies ∧ t.regs = s.regs)
      ∧ (s.guard.psu.testDue = true ∨ s.guard.psu.begun = false ∧ vSet s ≤ s.guard.psu.vbank →
        ∃ t, exec .bankTestStart s = .next t ∧ t.guard.psu.test = .waitFit ∧ t.guard.psu.testDue = false ∧ t.guard.psu.begun = true
          ∧ t.guard.psu.bank = .testing ∧ t.guard.psu.vadm = min s.guard.psu.vbank (vSet s - testDv s))
      ∧ (∀ r, HasSpace s r → RowOpen s (greg Page.psu 0x60) →
        ∃ t, exec (.psuTestNow r) s = .next t ∧ t.guard.psu.test = .waitFit ∧ t.guard.psu.bank = .testing
          ∧ t.guard.psu.vadm = min s.guard.psu.vbank (vSet s - testDv s)))
    ∧ (∀ v i, s.guard.psu.test = .waitFit → diesFit s = true → 0 < i → s.guard.losing = false →
      ∃ t, exec (.bankTestDischarge v i) s = .next t ∧ t.guard.psu.test = .discharge ∧ t.guard.psu.esr = v * 10 / i
        ∧ (hceSlot t 1).fixedIn = some (pfld s 0x58 31 24 : Int) ∧ t.dies = s.dies ∧ t.regs = s.regs)
    ∧ (s.guard.psu.test = .discharge →
      ∃ t, exec .bankTestLowReached s = .next t ∧ t.guard.psu.test = .recharge ∧ (hceSlot t 1).fixedIn = none
        ∧ (hceSlot t 0).fixedIn = some (pfld s 0x58 31 24 : Int) ∧ t.dies = s.dies ∧ t.regs = s.regs)
    ∧ (∀ q, s.guard.psu.test = .recharge →
      ∃ t, exec (.bankTestDone q) s = .next t ∧ t.guard.psu.test = .none ∧ t.guard.psu.tested = true
        ∧ t.guard.psu.cMeas = q / max 1 (pfld s 0x58 23 16)
        ∧ t.guard.psu.verdict = verdictOf s (q / max 1 (pfld s 0x58 23 16)) s.guard.psu.esr
        ∧ t.guard.psu.bank = t.guard.psu.verdict ∧ (hceSlot t 0).fixedIn = none ∧ (hceSlot t 1).fixedIn = none)
    ∧ (s.guard.psu.test = .discharge →
      ∃ t, exec .bankTestTimeout s = .next t ∧ t.guard.psu.test = .none ∧ t.guard.psu.bank = .fault ∧ t.guard.psu.verdict = .fault
        ∧ t.guard.psu.cMeas = s.guard.psu.cMeas)

/-- The dirty limit and power loss (R203, R315 to R317, R321 to R325, R330): the limit of the moment is published and shared among the
dies that are not fenced, its shares within it; a power loss cuts the input, stops the flash channels
of every mounted die and drops the writes written through from its ring; a die that reports has emptied its ring and has written a root
with LOSS, where the anchor region has a place for it; the last die that reports ends the flush; V_bank below V_MIN before that is marked; without a bank the package is off. -/
def Obligations.PowerLoss : Prop :=
  ∀ (s : State),
    (∀ vin vbank vhold low, s.guard.off = false →
      ∃ t, exec (.dirtyLimitUpdate vin vbank vhold low) s = .next t ∧ t.guard.psu.limit = limitAt s (vAdm s low)
        ∧ t.guard.psu.vin = vin ∧ t.guard.psu.vbank = vbank ∧ t.guard.psu.vhold = vhold
        ∧ (∀ d ∈ limitDies s, (t.die d).map.limShare = limitAt s (vAdm s low) / max 1 (limitDies s).length)
        ∧ sumBy (fun d => (t.die d).map.limShare) (limitDies s) ≤ t.guard.psu.limit)
    ∧ (s.guard.off = false → s.guard.losing = false →
      ∃ t, exec .powerLoss s = .next t ∧ t.guard.losing = true ∧ t.guard.psu.orOn = false ∧ t.guard.psu.bank = .loss
        ∧ (s.guard.deep = false → ∀ d ∈ flushers s, (s.die d).map.mounted = true →
          (t.die d).map.ring = (s.die d).map.ring.filter (fun e => e.through.isNone) ∧ (t.die d).flash.ops = []
          ∧ (t.die d).map.kv = (s.die d).map.kv ∧ (t.die d).map.journal = (s.die d).map.journal))
    ∧ (∀ d : DieId, s.guard.losing = true → s.guard.lossDone = false → d ∈ flushers s → d ∉ s.guard.psu.flushed →
      ((∃ e ∈ flushers s, e ≠ d ∧ e ∉ s.guard.psu.flushed) →
        ∃ t, exec (.dieFlushDone d) s = .next t ∧ t.guard.psu.flushed = s.guard.psu.flushed ++ [d] ∧ t.guard.lossDone = false
          ∧ ((s.die d).map.mounted = true → (t.die d).map.ring = []
            ∧ ((rootPlace (spillMeters (flushRing s d) d) d).isSome = true → (t.die d).map.root.map (fun r => r.loss) = some true)))
      ∧ ((∀ e ∈ flushers s, e = d ∨ e ∈ s.guard.psu.flushed) →
        ∃ t, exec (.dieFlushDone d) s = .next t ∧ t.guard.lossDone = true ∧ t.guard.losing = true))
    ∧ (s.guard.losing = true → s.guard.lossDone = false → registersOk s →
      ∃ t, exec .flushShort s = .next t ∧ regGet t (greg Page.psu 0xAC) = setFld (regGet s (greg Page.psu 0xAC)) 1 1 1
        ∧ (∀ a, a ≠ greg Page.psu 0xAC → regGet t a = regGet s a) ∧ SameButRegs s t)
    ∧ (s.guard.losing = true →
      ∃ t, exec .bankExhausted s = .next t ∧ t.guard.off = true ∧ t.guard.losing = false)
    ∧ (∀ r, HasSpace s r → s.guard.off = false → registersOk s →
      ∃ t, exec (.psuLossInfoRead r) s = .next t ∧ t.answer.data = regGet s (greg Page.psu 0xAC) ∧ regGet t (greg Page.psu 0xAC) = 0
        ∧ (∀ a, a ≠ greg Page.psu 0xAC → regGet t a = regGet s a) ∧ t.dies = s.dies ∧ t.guard = s.guard)

/-! ### Die faults and worker cores (chapter 13) -/

/-- Die faults of a controller die other than die 0 (R145, R464, R465) and of die 0 (R16): a first fault ends the die's sessions,
takes its commands away, flushes it unless its rail has failed, with a root that has LOSS where the anchor region has a place,
and holds it in the die reset; a second one within ten minutes, or during that reset, fences it, takes it out of the placement
with a new epoch and counts its open minute as lost; the end of the die reset brings it back with the placement in force; a
fault of die 0 is recorded with its time, a second one within ten minutes holds every controller die in reset. Worker cores
(R459, R461, R462): a kick notes its time on the cores written; an enabled core that is not halted and has not kicked for WDT_MS
is fenced while at least two others remain: its bit in WRK_CORE_EN is cleared and its commands go to the lowest-numbered enabled
core. -/
def Obligations.FaultsAndCores : Prop :=
  (
    ∀ (s : State) (d : DieId) (cause : DieFaultCause),
      (d ≠ 0 → faultable s d = true → running s d = true → secondFault s d = false →
        ∃ t, exec (.dieFault d cause) s = .next t ∧ (t.die d).phase = .dieReset ∧ (t.die d).ktp.sessions = []
          ∧ (t.die d).csq.cmds = [] ∧ assocGet d t.guard.faultAt = some s.guard.devTime
          ∧ (let s0 : State := { s with guard := { s.guard with faultAt := assocSet d s.guard.devTime s.guard.faultAt } }
             let s1 := spillMeters (flushRing (handBack (endAll s0 d) d (fun _ => Stat.busyRetry)) d) d
             (s.die d).map.mounted = true → cause ≠ .rail → (rootPlace s1 d).isSome = true →
              (t.die d).map.roots.getLast?.map (fun p => p.root.loss) = some true))
      ∧ (d ≠ 0 → faultable s d = true → secondFault s d = true →
        ∃ t, exec (.dieFault d cause) s = .next t ∧ (t.die d).phase = .fenced ∧ (∀ e ∈ t.pkg.placement, ¬(e < 8 ∧ e % 8 = d.val))
          ∧ s.pkg.epoch < t.pkg.epoch ∧ d ∈ t.mtr.lost)
      ∧ (present s d = true → (s.die d).phase = .dieReset → resetBlocked s = false → s.pkg.starting = false →
        ∃ t, exec (.dieResetDone d) s = .next t ∧ (t.die d).phase = .up ∧ (t.die d).comb.placement = s.pkg.placement.map toCombPlace
          ∧ (t.die d).comb.epoch = s.pkg.epoch)
      ∧ exec (.dieFault 0 cause) s = exec .die0Fault s
      ∧ (∀ u, resetBlocked s = false → s.guard.die0At = some u → s.guard.devTime - u < 600000000000 →
        ∃ t, exec .die0Fault s = .next t ∧ t.guard.die0Hold = true ∧ t.guard.die0At = some s.guard.devTime
          ∧ (∀ e : DieId, (t.die e).phase = .reset ∧ (t.die e).ktp.sessions = []))
      ∧ (resetBlocked s = false → (∀ u, s.guard.die0At = some u → 600000000000 ≤ s.guard.devTime - u) → s.guard.resetLow = true →
        ∃ t, exec .die0Fault s = .next t ∧ t.guard.die0Hold = false ∧ t.guard.die0At = some s.guard.devTime ∧ t.pkg.starting = true
          ∧ t.pkg.startWhy = 3 ∧ (∀ e : DieId, (t.die e).phase = .reset ∧ (t.die e).ktp.sessions = [])))
  ∧ (
    ∀ (s : State) (d : DieId),
      (∀ r v, HasSpace s r → RowWrites s .wrk (wrkBase d + 0x48) v →
        ∃ t, exec (.wrkKick r d v) s = .next t
          ∧ (∀ c : CoreId, coreAt t d c = if bitAt v c.val then { coreAt s d c with kickAt := (s.die d).mon.devTime } else coreAt s d c)
          ∧ SameButDie d s t)
      ∧ (∀ core, running s d = true → registersOk s → coreOn s d core = true → (coreAt s d core).st ≠ .halted →
        (coreAt s d core).kickAt + wdtNs s d ≤ (s.die d).mon.devTime → 2 < (coresOn s d).length →
        ∃ t n, exec (.coreWdtExpiry d core) s = .next t ∧ ((coresOn s d).filter (· != core)).head? = some n
          ∧ (coreAt t d core).st = .fenced ∧ coreOn t d core = false
          ∧ (∀ c, c ≠ core → coreAt t d c = coreAt s d c ∧ coreOn t d c = coreOn s d c)
          ∧ (t.die d).csq.cmds = (s.die d).csq.cmds.map (fun q => if q.core = core then { q with core := n } else q)
          ∧ (t.die d).phase = .up))

/-! ### Power states and the management sideband (chapter 14) -/

/-- The power states of a die (R24, R136, R137, R140, R494, R496 to R498): a die that has been idle for long enough enters IDLE,
then SLEEP, in steps between which the entry can be given up (the model's steps, log 173), and asks for DEEP, as far as
MAX_STATE allows; the end of an entry and a wake set CSQ INT bit 3; work wakes the die, and an entry in progress is given up; a
PLL that locks clocks the cores, and die 0's ends the clock fault; a page woken by an access is clocked off again. The package's
power states (R495 to R497, R500, R516): once every die has asked for it the package enters DEEP in steps between which the
entry can be given up (the model's steps, log 173): the credits of the links come home and the ports go down, DRAM enters
self-refresh, the dies are in DEEP; a die that has found work ends the entry, which is counted, and wakes; the alarm clock, the
WAKE_N pin and a WAKE command end DEEP; an OFF command flushes every die that runs, has it take a checkpoint and takes the
package to OFF, from where 1 ms of WAKE_N starts a cold boot. -/
def Obligations.PowerStates : Prop :=
  (
    ∀ (s : State) (d : DieId), running s d = true → registersOk s →
      ((s.die d).csq.ps = .run → dieIdle (s.die d) = true → 1 ≤ maxState s d →
        ((s.die d).csq.stage = 0 → idleFor (s.die d) (idleUs s d) = true →
          ∃ t, exec (.idleEntry d) s = .next t ∧ (t.die d).csq.ps = .run ∧ (t.die d).csq.stage = 1
            ∧ (t.die d).cores = (s.die d).cores.map coreStop ∧ SameButDie d s t)
        ∧ ((s.die d).csq.stage ≠ 0 →
          ∃ t, exec (.idleEntry d) s = .next t ∧ (t.die d).csq.ps = .idle ∧ (t.die d).csq.stage = 0
            ∧ (t.die d).cores = (s.die d).cores ∧ (regGet t (dreg d Page.csq 0x10)).getLsbD 3 = true))
      ∧ ((s.die d).csq.ps = .idle → dieIdle (s.die d) = true → 2 ≤ maxState s d →
        ((s.die d).csq.stage = 0 → idleFor (s.die d) (sleepUs s d) = true →
          ∃ t, exec (.sleepEntry d) s = .next t ∧ (t.die d).csq.ps = .idle ∧ (t.die d).csq.stage = 1 ∧ (t.die d).dmc.pdown = true
            ∧ SameButDie d s t)
        ∧ (2 ≤ (s.die d).csq.stage →
          ∃ t, exec (.sleepEntry d) s = .next t ∧ (t.die d).csq.ps = .sleep ∧ (t.die d).csq.stage = 0 ∧ (t.die d).pll = false
            ∧ (t.die d).pllCores = false ∧ (t.die d).dmc = (s.die d).dmc ∧ (regGet t (dreg d Page.csq 0x10)).getLsbD 3 = true))
      ∧ ((s.die d).csq.ps = .sleep → dieIdle (s.die d) = true → 3 ≤ maxState s d → idleFor (s.die d) (deepUs s d) = true →
        ∃ t, exec (.deepRequest d) s = .next t ∧ (t.die d).csq.deepReq = true ∧ (t.die d).csq.ps = .sleep ∧ SameButDie d s t)
      ∧ (∀ w, (w = .frame d ∨ w = .access d ∨ w = .icu d ∨ w = .work d) → s.guard.off = false → s.guard.entry = 0 →
        ((s.die d).csq.ps ≠ .run →
          ∃ t, exec (.wake w) s = .next t ∧ (t.die d).csq.ps = .run ∧ (t.die d).csq.stage = 0 ∧ (t.die d).dmc.pdown = false
            ∧ (t.die d).cores = (s.die d).cores.map coreWake ∧ (regGet t (dreg d Page.csq 0x10)).getLsbD 3 = true
            ∧ t.guard = s.guard ∧ ∀ e : DieId, e ≠ d → t.die e = s.die e)
        ∧ ((s.die d).csq.ps = .run → (s.die d).csq.stage ≠ 0 →
          ∃ t, exec (.wake w) s = .next t ∧ (t.die d).csq.ps = .run ∧ (t.die d).csq.stage = 0
            ∧ (t.die d).cores = (s.die d).cores.map coreWake ∧ SameButDie d s t))
      ∧ ((s.die d).csq.ps ≠ .sleep →
        ∃ t, exec (.pllLock d) s = .next t ∧ (t.die d).pll = true ∧ (t.die d).pllCores = true
          ∧ t.pkg.clockFault = (if d = 0 then false else s.pkg.clockFault) ∧ t.regs = s.regs)
      ∧ (∀ page, ∃ t, exec (.clockDomainRegate d page) s = .next t
          ∧ (t.die d).gated = (s.die d).gated.filter (· != page) ∧ SameButDie d s t))
  ∧ (
    ∀ (s : State), s.guard.losing = false →
      (s.guard.off = false → s.guard.deep = false → s.guard.shutting = false → s.pkg.starting = false → deepDies s ≠ [] →
        (∀ d ∈ deepDies s, (s.die d).phase = .up ∧ (s.die d).csq.deepReq = true) →
        ((∀ d ∈ deepDies s, dieIdle (s.die d) = true) →
          (s.guard.entry = 0 → ∃ t, exec .deepEntry s = .next t ∧ t.guard.entry = 2 ∧ t.guard.deep = false ∧ t.dies = s.dies)
          ∧ (s.guard.entry = 2 → (∀ d ∈ deepDies s, creditsHome (s.die d) = true) →
            ∃ t, exec .deepEntry s = .next t ∧ t.guard.entry = 3 ∧ t.guard.deep = false
              ∧ ∀ d ∈ deepDies s, (∀ p : PortId, (portOf (t.die d) p).up = false) ∧ ∀ k : SwmId, (linkOf (t.die d) k).st ≠ .up)
          ∧ (s.guard.entry = 2 → (∃ d ∈ deepDies s, creditsHome (s.die d) = false) → exec .deepEntry s = .next s)
          ∧ (s.guard.entry = 3 → ∃ t, exec .deepEntry s = .next t ∧ t.guard.entry = 4 ∧ t.guard.deep = false
              ∧ ∀ d ∈ deepDies s, (t.die d).dmc.st ≠ 2 ∧ (t.die d).dmc.pdown = false)
          ∧ (s.guard.entry = 4 → ∃ t, exec .deepEntry s = .next t ∧ t.guard.deep = true ∧ t.guard.entry = 0
              ∧ ∀ d ∈ deepDies s, (t.die d).csq.ps = .deep ∧ (t.die d).csq.deepReq = false))
        ∧ (∀ e ∈ deepDies s, dieIdle (s.die e) = false → registersOk s →
          ∃ t, exec .deepEntry s = .next t ∧ t.guard.deep = false ∧ t.guard.entry = 0 ∧ (t.die e).csq.ps = .run
            ∧ regGet t (pkgBase + 0x84) = satWord ((regGet s (pkgBase + 0x84)).toNat + 1)))
      ∧ (s.guard.off = false → s.guard.deep = true →
        (gfld s Page.pkg 0x44 1 1 = 1 → 0 < (regGet s (pkgBase + 0x48)).toNat →
          (regGet s (pkgBase + 0x48)).toNat * 1000000000 ≤ s.guard.devTime →
          ∃ t, exec .rtcAlarm s = .next t ∧ t.guard.deep = false ∧ t.guard.wakeSrc = 9
            ∧ ∀ d : DieId, (s.die d).phase = .up → (t.die d).csq.ps = .run)
        ∧ (∀ us, 10 ≤ us → ∃ t, exec (.wakeNLow us) s = .next t ∧ t.guard.deep = false ∧ t.guard.wakeSrc = 7
            ∧ ∀ d : DieId, (s.die d).phase = .up → (t.die d).csq.ps = .run)
        ∧ (∀ r, HasSpace s r → RowOpen s (pkgBase + 0x40) →
          ∃ t, exec (.pkgWake r) s = .next t ∧ t.guard.deep = false ∧ t.guard.off = false
            ∧ ∀ d : DieId, (s.die d).phase = .up → (t.die d).csq.ps = .run))
      ∧ (∀ r, HasSpace s r → RowOpen s (pkgBase + 0x40) →
        ∃ t, exec (.pkgOff r) s = .next t ∧ t.guard.off = true ∧ t.guard.deep = false
          ∧ (∀ d : DieId, present s d = true → (t.die d).phase = .reset)
          ∧ (let s0 := wakePackage s none
             let s1 := overDies (fun s d => if (s.die d).map.mounted then checkpoint s d else s) (stopAll s0) (upDies s0)
             ∀ d : DieId, (t.die d).map.roots = (s1.die d).map.roots ∧ (t.die d).map.journal = (s1.die d).map.journal
              ∧ (t.die d).map.stored = (s1.die d).map.stored))
      ∧ (∀ us, s.guard.off = true → 1000 ≤ us → s.guard.resetLow = true →
        ∃ t, exec (.wakeNLow us) s = .next t ∧ t.guard.off = false ∧ t.pkg.starting = true ∧ t.pkg.startCold = true
          ∧ t.guard.devTime = 0))

/-- The management sideband (R503, R504, R562): each read of a command code is answered with its content and, where the port uses it,
the PEC; a code that the port does not serve and a bus timeout leave no response; nothing else changes while no address match wakes
the package. A good write of 0x01 to MGT_WAKE ends DEEP when WAKE_ANY is 1. -/
def Obligations.Sideband : Prop :=
  ∀ (s : State) (i : Fin 2), s.guard.off = false → i.val < s.guard.mgtOut.length →
    (∀ c code content,
      ((c = .mgtHealth i ∧ code = 0x01 ∧ content = [4] ++ leBytes 4 (health s))
        ∨ (c = .mgtState i ∧ code = 0x02 ∧ content = leBytes 1 (shallowest s))
        ∨ (c = .mgtVin i ∧ code = 0x04 ∧ content = leBytes 2 s.guard.psu.vin)
        ∨ (c = .mgtVbank i ∧ code = 0x05 ∧ content = leBytes 2 s.guard.psu.vbank)
        ∨ (c = .mgtBank i ∧ code = 0x06 ∧ content = leBytes 1 (bankCode s.guard.psu.bank))
        ∨ (c = .mgtDies i ∧ code = 0x07 ∧ content = leBytes 2 (diesWord s))
        ∨ (c = .mgtTemp i ∧ code = 0x03
            ∧ ∃ h, hottestOf ((thmDies s).flatMap (fun d => goodTemps (s.die d).thm) ++ goodTemps s.guard.thm) = some h
              ∧ content = [BitVec.ofInt 8 (h / 16)])) →
      ∃ t, exec c s = .next t ∧ t.guard.mgtOut[i.val]? = some (mgtResponse s i code content)
        ∧ (smbusWakes s i = false → SameButMgt s t))
    ∧ (∀ code, ∃ t, exec (.mgtUnknownCode i code) s = .next t ∧ t.guard.mgtOut[i.val]? = some []
        ∧ (smbusWakes s i = false → SameButMgt s t))
    ∧ (∃ t, exec (.mgtBusTimeout i) s = .next t ∧ t.guard.mgtOut[i.val]? = some [] ∧ SameButMgt s t)
    ∧ (∀ pec, s.guard.deep = true → gfld s Page.pkg 0x44 0 0 = 1 →
      (pec = none ∨ mgtPec s i = false ∨ pec = some (pecOf [BitVec.ofNat 8 (mgtAddr s i * 2), 0x10, 1])) →
      ∃ t, exec (.mgtWake i 1 pec) s = .next t ∧ t.guard.deep = false ∧ t.guard.wakeSrc = 6
        ∧ ∀ d : DieId, (s.die d).phase = .up → (t.die d).csq.ps = .run)

/-! ### Thermal management (chapter 14) -/

/-- Samples (R510, R511, R513): a sample takes the readings, marks sensors bad, and raises the state to the highest threshold that a
good sensor has reached; below SHUTDOWN nothing else happens but that a die's entry to THROTTLE takes its last allocation as its
limit; a running die other than die 0 that reaches SHUTDOWN stops, hot; the guard die's or die 0's holds the package. The way
back (R508, R510 to R515): states are left as every good sensor falls below their thresholds less HYST; a bad sensor that reads
good again is used again; a throttled die at its floor enters stage 2; a die that has cooled restarts, and the package by the
warm reset sequence; the trims follow their tables at the mean of the good sensors; a write of LOADED ends the loading of the
tables. -/
def Obligations.ThermalManagement : Prop :=
  (
    ∀ (s : State) (w : Site) (readings : List Int), thmRuns s w = true →
      let l := readings.take (sensorsOf w)
      let bad := (thmAt s w).bad ++ (badIn l).filter (fun n => !(thmAt s w).bad.contains n)
      let good := goodTemps { thmAt s w with temps := l, bad := bad }
      let now := max (max (thmCode (thmAt s w).st) (reachedState s w good)) (countState w good.length)
      (now < 3 →
        ∃ t, exec (.thmSample w readings) s = .next t ∧ (thmAt t w).temps = l ∧ (thmAt t w).bad = bad
          ∧ thmCode (thmAt t w).st = now
          ∧ (∀ d, w = .die d → thmCode (s.die d).thm.st < 2 → 2 ≤ now → d.val < s.pkg.lims.length →
              t.pkg.lims[d.val]? = some (some (s.die d).flash.alloc))
          ∧ ∀ d : DieId, (t.die d).phase = (s.die d).phase)
      ∧ (now = 3 → s.guard.losing = false → s.guard.thermHold = false → s.pkg.starting = false → resetBlocked s = false →
        (∀ d, w = .die d → d ≠ 0 → running s d = true →
          ∃ t, exec (.thmSample w readings) s = .next t ∧ (t.die d).phase = .hot ∧ (t.die d).ktp.sessions = []
            ∧ t.guard.thermHold = false)
        ∧ ((w = .guard ∨ (w = .die 0 ∧ running s 0 = true)) →
          ∃ t, exec (.thmSample w readings) s = .next t ∧ t.guard.thermHold = true
            ∧ ∀ d ∈ upDies s, (t.die d).phase = .hot)))
  ∧ (
    ∀ (s : State) (w : Site),
      (thmRuns s w = true → ∃ t, exec (.thmStateExit w) s = .next t ∧ thmCode (thmAt t w).st = exitState s w
        ∧ (thmAt t w).temps = (thmAt s w).temps)
      ∧ (∀ n : Fin 12, thmRuns s w = true → n.val ∈ (thmAt s w).bad → readsBad (thmAt s w).temps n.val = false →
        ∃ t, exec (.sensorRecover w n) s = .next t ∧ (thmAt t w).bad = (thmAt s w).bad.filter (· != n.val) ∧ t.regs = s.regs)
      ∧ (∀ d l, running s d = true → throttled (s.die d).thm.st = true → s.pkg.lims.getD d.val none = some l → l ≤ limFloor s →
        ∃ t, exec (.thmStage2 d) s = .next t ∧ (t.die d).thm.stage2 = true)
      ∧ (∀ d, s.guard.losing = false → s.guard.off = false → s.guard.thermHold = false → (s.die d).phase = .hot →
        cooled s (.die d) = true → ∃ t, exec (.thermalRestart (.die d)) s = .next t ∧ (t.die d).phase = .up)
      ∧ (s.guard.losing = false → s.guard.off = false → s.guard.thermHold = true → cooled s (.die 0) = true → cooled s .guard = true →
        s.guard.resetLow = true →
        ∃ t, exec (.thermalRestart w) s = .next t ∧ t.guard.thermHold = false ∧ t.pkg.starting = true
          ∧ ∀ d : DieId, (t.die d).phase = .reset)
      ∧ (thmRuns s w = true → (thmAt s w).loaded = true → goodTemps (thmAt s w) ≠ [] →
        0 ≤ (goodTemps (thmAt s w)).sum + 640 * (goodTemps (thmAt s w)).length →
        (goodTemps (thmAt s w)).sum < 1760 * (goodTemps (thmAt s w)).length →
        ∃ t, exec (.thmTrimUpdate w) s = .next t
          ∧ TrimOf (thmAt s w).bgTab (goodTemps (thmAt s w)).sum (goodTemps (thmAt s w)).length (thmAt t w).bgTrim
          ∧ (∀ d, w = .die d →
              TrimOf (thmAt s w).oscTab (goodTemps (thmAt s w)).sum (goodTemps (thmAt s w)).length (thmAt t w).oscTrim)
          ∧ t.regs = s.regs)
      ∧ (∀ r v, HasSpace s r → RowWrites s .thm (thmBase w + 0x48) v → bitAt v 31 = true → locked s (thmBase w) = false →
        ∃ t, exec (.thmLoaded r w v) s = .next t ∧ (thmAt t w).loaded = true ∧ t.regs = s.regs
          ∧ (if bitAt (regGet s (thmBase w + 0x44)) 4 then
              (thmAt t w).bgTab = (thmAt s w).bgTab.set (fld (regGet s (thmBase w + 0x44)) 3 0) (signed 16 (fld v 15 0))
                ∧ (thmAt t w).oscTab = (thmAt s w).oscTab
            else (thmAt t w).oscTab = (thmAt s w).oscTab.set (fld (regGet s (thmBase w + 0x44)) 3 0) (signed 16 (fld v 15 0))
                ∧ (thmAt t w).bgTab = (thmAt s w).bgTab)))

/-! ### Alarms and randomness (chapter 9) -/

/-- Alarms (R360, R361, R363, R370): an alarm erases every slot of every die, leaves its source and its site in CRY_ALARM_LAST,
counts it, and ends the sessions of every die; the alarm that brings the last hour's count to ALARM_MAX holds every controller
die in reset; the end of the sources starts a warm reset with cause 4. Randomness and counter bounds (R352, R358, R359): health
test failures are counted and the third in a row takes the die's source out of use; a passed start-up test brings it back; a
reseed is counted; a data slot that has few values left gets a higher bound, and a record of it in the configuration journal. -/
def Obligations.AlarmsAndRandomness : Prop :=
  (
    ∀ (s : State) (src : AlarmSource) (w : Site), s.guard.off = false → s.guard.losing = false →
      (isAlarm s src w = true → registersOk s → (alarmHour s).length + 1 < gfld s Page.psu 0x180 31 24 →
        ∃ t, exec (.alarm src w) s = .next t
          ∧ (∀ d : DieId, present s d = true → (t.die d).cry.data = [] ∧ (t.die d).cry.auth = [] ∧ (t.die d).cry.session = []
              ∧ regGet t (cryBase d + 0x94) = BitVec.ofNat 32 (siteCode w * 2 ^ 28 + alarmCode src)
              ∧ regGet t (cryBase d + 0x98) = satWord ((regGet s (cryBase d + 0x98)).toNat + 1)
              ∧ ((s.die d).phase = .up → (t.die d).ktp.sessions = []))
          ∧ t.guard.alarms = s.guard.devTime :: alarmHour s ∧ t.guard.alarmHold = s.guard.alarmHold
          ∧ (src ≠ .waggle → (src, w) ∈ t.guard.alarmSrc))
      ∧ (isAlarm s src w = true → gfld s Page.psu 0x180 31 24 ≤ (alarmHour s).length + 1 → s.guard.alarmHold = false →
        ∃ t, exec (.alarm src w) s = .next t ∧ t.guard.alarmHold = true
          ∧ ∀ d : DieId, (t.die d).phase = .reset ∧ (t.die d).cry.data = [])
      ∧ (s.guard.alarmSrc ≠ [] → resetBlocked s = false → s.pkg.starting = false → s.guard.resetLow = true →
        ∃ t, exec .alarmRecover s = .next t ∧ t.pkg.starting = true ∧ t.pkg.startWhy = 4 ∧ t.guard.alarmSrc = []
          ∧ ∀ d : DieId, (t.die d).phase = .reset))
  ∧ (
    ∀ (s : State) (d : DieId), running s d = true →
      (∃ t, exec (.entropyHealthFail d) s = .next t ∧ (t.die d).cry.fails = (s.die d).cry.fails + 1
        ∧ (t.die d).cry.healthy = ((s.die d).cry.healthy && decide ((s.die d).cry.fails + 1 < 3)))
      ∧ (∃ t, exec (.entropyStartupPass d) s = .next t ∧ (t.die d).cry.fails = 0 ∧ (t.die d).cry.healthy = true
          ∧ t.pkg.entropyFail = false)
      ∧ (s.pkg.entropyFail = false →
        ∃ t, exec (.drbgReseed d) s = .next t ∧ (t.die d).cry.reseeds = (s.die d).cry.reseeds + 1 ∧ SameButDie d s t)
      ∧ (∀ slot k, running s 0 = true → (s.die d).cry.data.find? (fun k => k.num == slot) = some k →
        k.bound < k.ctr + 2 ^ (resvLog2 s d - 2) →
        ∃ t q, exec (.ctrBoundRequest d slot) s = .next t
          ∧ (t.die d).cry.data.find? (fun k => k.num == slot) = some { k with bound := k.bound + 2 ^ resvLog2 s d }
          ∧ t.nor.journal = s.nor.journal ++ [q] ∧ q.deleted = false
          ∧ q.body = .ctrBound d.val k.tenant (boundKey k) (k.bound + 2 ^ resvLog2 s d)))

/-! ### Metering, clocks, monitors and events (chapter 10) -/

/-- Minutes and clocks (R373, R376 to R379, R388, R390): at a boundary every die swaps its banks, a die's partial records join the sums
once, a die that does not report is left out, and when every die is in or out the sealed minute joins the log; capacity is sampled for
each tenant with a namespace; device time never decreases; a wall mark goes into the configuration journal. -/
def Obligations.MeteringMinutes : Prop :=
  ∀ (s : State) (d : DieId),
    (running s 0 = true →
      ∃ t, exec .minuteBoundary s = .next t ∧ t.mtr.minute = s.mtr.minute + 1 ∧ t.mtr.closing = some s.mtr.minute
        ∧ t.mtr.wallStart = wallGuard s ∧ t.mtr.got = [] ∧ t.mtr.missing = s.mtr.lost
        ∧ ∀ e ∈ upDies s, (t.die e).mon.prev = (s.die e).mon.bank ∧ (t.die e).mon.bank = [] ∧ (t.die e).mon.prevSent = false)
    ∧ (running s d = true → s.mtr.closing.isSome = true → (s.die d).mon.prevSent = false → d ∉ s.mtr.got → d ∉ s.mtr.missing →
      ∃ t, exec (.meterPartial d) s = .next t ∧ t.mtr.sums = addMeters s.mtr.sums (s.die d).mon.prev
        ∧ t.mtr.got = s.mtr.got ++ [d] ∧ t.mtr.missing = s.mtr.missing ∧ (t.die d).mon.prevSent = true
        ∧ (t.die d).mon.bank = (s.die d).mon.bank ∧ t.regs = s.regs)
    ∧ (present s d = true → s.mtr.closing.isSome = true → d ∉ s.mtr.got → d ∉ s.mtr.missing →
      ∃ t, exec (.meterDieTimeout d) s = .next t ∧ t.mtr.missing = s.mtr.missing ++ [d] ∧ t.mtr.got = s.mtr.got
        ∧ t.mtr.sums = s.mtr.sums ∧ t.regs = s.regs)
    ∧ (∀ m, running s 0 = true → registersOk s → s.mtr.closing = some m → allReported s = true →
      logBytes (s.mtr.log ++ [sealedMinute s m]) ≤ dfld s 0 Page.mtr 0x48 15 0 * 10 ^ 9 →
      ∃ t, exec .meterSeal s = .next t ∧ t.mtr.log = s.mtr.log ++ [sealedMinute s m] ∧ t.mtr.closing = none ∧ t.mtr.sums = []
        ∧ t.mtr.minute = s.mtr.minute ∧ (regGet t (dreg 0 Page.mtr 0x10)).getLsbD 1 = true)
    ∧ (running s d = true →
      ∃ t, exec (.capSample d) s = .next t
        ∧ (∀ ten, (∃ n ∈ (s.die d).map.nstab, n.tenant = ten) →
            meterOf ten (t.die d).mon.bank
              = { meterOf ten (s.die d).mon.bank with
                  capBs := satAdd 64 (meterOf ten (s.die d).mon.bank).capBs (capOf (s.die d) d ten) })
        ∧ (∀ ten, (¬∃ n ∈ (s.die d).map.nstab, n.tenant = ten) →
            meterOf ten (t.die d).mon.bank = meterOf ten (s.die d).mon.bank)
        ∧ SameButDie d s t)
    ∧ (∀ g, ∃ t, exec (.devtimeSync d g) s = .next t ∧ t.guard.devTime = max s.guard.devTime g
        ∧ (t.die d).mon.devTime = max (s.die d).mon.devTime (max s.guard.devTime g)
        ∧ (∀ e : DieId, e ≠ d → t.die e = s.die e) ∧ t.regs = s.regs)
    ∧ (running s 0 = true →
      ∃ t q, exec .wallMark s = .next t ∧ t.nor.journal = s.nor.journal ++ [q] ∧ q.deleted = false
        ∧ q.body = .clockOffset s.guard.offset (wallGuard s) ∧ t.dies = s.dies)

/-- Level monitors, windows and the event recorder (R394 to R398, R400): a level sample enters every channel; LAT_SEL and EVR_SEL show
a record in their windows and clear it when asked; an event finds a token or is limited, and its record says which; each bucket gains
RATE tokens up to its size; CLEAR_ALL empties every record. -/
def Obligations.Monitors : Prop :=
  ∀ (s : State) (d : DieId),
    (running s d = true →
      ∃ t, exec (.levelSample d) s = .next t
        ∧ (∀ k, k < 16 → evtOf k (t.die d).mon.levels
            = eventApply (evtOf k (s.die d).mon.levels) (levelOf s d k) (s.die d).mon.devTime (wallNow s d))
        ∧ SameButDie d s t)
    ∧ (∀ r v, HasSpace s r → RowWrites s .lat (dreg d Page.lat 0x50) v → latIndexOk (fld v 29 28) (fld v 11 0) = true →
      ∃ t, exec (.latSel r d v) s = .next t
        ∧ (t.die d).mon.latWin = windowWords (monitorBytes (s.die d).mon (fld v 29 28) (fld v 11 0))
        ∧ (bitAt v 16 = false → (t.die d).mon.lat = (s.die d).mon.lat ∧ (t.die d).mon.levels = (s.die d).mon.levels)
        ∧ (bitAt v 16 = true → monitorBytes (t.die d).mon (fld v 29 28) (fld v 11 0) = monitorBytes {} (fld v 29 28) (fld v 11 0)))
    ∧ (∀ (code : Byte) (v : Nat), running s d = true → v ≤ 0xFFFFFFFF →
      ((rateOf code.toNat (s.die d).mon.rates).rate = 0 ∨ 1000 ≤ (rateOf code.toNat (s.die d).mon.rates).tokens →
        ∃ t, exec (.eventRecord d code v) s = .next t
          ∧ evtOf code.toNat (t.die d).mon.events
            = eventApply (evtOf code.toNat (s.die d).mon.events) v (s.die d).mon.devTime (wallNow s d)
          ∧ ((rateOf code.toNat (s.die d).mon.rates).rate ≠ 0 →
              (rateOf code.toNat (t.die d).mon.rates).tokens = (rateOf code.toNat (s.die d).mon.rates).tokens - 1000)
          ∧ SameButDie d s t)
      ∧ ((rateOf code.toNat (s.die d).mon.rates).rate ≠ 0 → (rateOf code.toNat (s.die d).mon.rates).tokens < 1000 →
        ∃ t, exec (.eventRecord d code v) s = .next t
          ∧ evtOf code.toNat (t.die d).mon.events = eventLimit (evtOf code.toNat (s.die d).mon.events)
          ∧ (t.die d).mon.rates = (s.die d).mon.rates))
    ∧ (running s d = true →
      ∃ t, exec (.evrRefill d) s = .next t
        ∧ (∀ code, (rateOf code (t.die d).mon.rates).tokens
            = min ((rateOf code (s.die d).mon.rates).burst * 1000)
                ((rateOf code (s.die d).mon.rates).tokens + (rateOf code (s.die d).mon.rates).rate))
        ∧ (t.die d).mon.events = (s.die d).mon.events ∧ SameButDie d s t)
    ∧ (∀ r v, HasSpace s r → RowWrites s .evr (dreg d Page.evr 0x40) v →
      locked s (dreg d Page.evr 0) = false →
      ∃ t, exec (.evrSel r d v) s = .next t
        ∧ (t.die d).mon.evrWin = windowWords (evtBytes (evtOf (fld v 7 0) (s.die d).mon.events))
        ∧ (t.die d).mon.events
            = if bitAt v 8 then (s.die d).mon.events.filter (fun r => r.code != fld v 7 0) else (s.die d).mon.events)
    ∧ (∀ r, HasSpace s r → RowOpen s (dreg d Page.evr 0x48) →
      ∃ t, exec (.evrClearAll r d) s = .next t ∧ (t.die d).mon.events = [] ∧ (t.die d).mon.rates = (s.die d).mon.rates
        ∧ t.regs = s.regs)

/-! ### Ethernet ports (chapter 11) -/

/-- Frames received without an FEC error at a port that takes work (R411, R413, R415, R417, R424): a runt, a frame to another address and one that no filter takes are counted and
dropped; PFC pauses the priorities that RX_EN allows and a time of 0 releases them; ARP requests and Neighbor Solicitations for a
valid slot are answered while the second's answers last; a good frame that a filter takes and that finds its buffers is queued. -/
def Obligations.EthernetReceive : Prop :=
  ∀ (s : State) (d : DieId) (p : PortId) (f : Frame), Serving s d → TakesWork s d (Page.eth p) →
    (portOf (s.die d) p).up = true → f.fecOk = true →
    let h := rxHead f.bytes
    (f.bytes.length + 4 < 64 →
      ∃ t, exec (.rxFrame d p f) s = .next t ∧ EthCounted s t d p 0x218 1 ∧ (t.die d).rxq = (s.die d).rxq ∧ t.regs = s.regs)
    ∧ (64 ≤ f.bytes.length + 4 → beAt f.bytes 12 2 ≠ 0x8808 → dstOk s d p h = false →
      ∃ t, exec (.rxFrame d p f) s = .next t ∧ EthCounted s t d p 0x228 1 ∧ (t.die d).rxq = (s.die d).rxq ∧ t.regs = s.regs)
    ∧ (∀ n : Nat, n < 8 → 64 ≤ f.bytes.length + 4 → beAt f.bytes 12 2 = 0x8808 → beAt f.bytes 14 2 = 0x0101 →
      (beAt f.bytes 16 2).testBit n = true → (efld s d p 0x50 15 8).testBit n = true →
      ∃ t, exec (.rxFrame d p f) s = .next t
        ∧ ((portOf (t.die d) p).paused.contains n = decide (beAt f.bytes (18 + 2 * n) 2 ≠ 0))
        ∧ (t.die d).rxq = (s.die d).rxq ∧ t.regs = s.regs)
    ∧ (FrameIn s d p f → h.etype = 0x0806 → beAt f.bytes (h.l3 + 6) 2 = 1 →
      (validSlots s d p).any (fun a => !a.v6 && slotIp a == beAt f.bytes (h.l3 + 24) 4 && vlanFits a h) = true →
      (mayAnswer s d p = true →
        ∃ t x, exec (.rxFrame d p f) s = .next t ∧ (portOf (t.die d) p).txq = (portOf (s.die d) p).txq ++ [x]
          ∧ x.kind = .arpReply (beAt f.bytes (h.l3 + 24) 4) ∧ x.dstMac = h.src ∧ EthCounted s t d p 0x300 1)
      ∧ (mayAnswer s d p = false →
        ∃ t, exec (.rxFrame d p f) s = .next t ∧ (portOf (t.die d) p).txq = (portOf (s.die d) p).txq ∧ EthCounted s t d p 0x308 1))
    ∧ (FrameIn s d p f → icmp6 f.bytes h = some 135 → mayAnswer s d p = true →
      (validSlots s d p).any (fun a => a.v6 && slotIp a == beAt f.bytes (h.l3 + 48) 16 && vlanFits a h) = true →
      ∃ t x, exec (.rxFrame d p f) s = .next t ∧ (portOf (t.die d) p).txq = (portOf (s.die d) p).txq ++ [x]
        ∧ x.kind = .neighbourAdv (beAt f.bytes (h.l3 + 48) 16) ∧ x.dstMac = h.src ∧ EthCounted s t d p 0x300 1)
    ∧ (FrameIn s d p f → PlainFrame f.bytes → filterQueue s d p h f.bytes = none →
      ∃ t, exec (.rxFrame d p f) s = .next t ∧ EthCounted s t d p 0x230 1 ∧ (t.die d).rxq = (s.die d).rxq)
    ∧ (∀ q l u, FrameIn s d p f → PlainFrame f.bytes → filterQueue s d p h f.bytes = some q → f.fcsOk = true →
      f.bytes.length + 4 ≤ efld s d p 0x4C 13 0 + (if h.tagged then 22 else 18) →
      takeBuffers d (poolOfQueue s d q) (ceilDiv (f.bytes.length + 4) (2 ^ (poolAt s d (poolOfQueue s d q)).sizeLog2)) s [] = (l, u) →
      l.length = ceilDiv (f.bytes.length + 4) (2 ^ (poolAt s d (poolOfQueue s d q)).sizeLog2) →
      (poolAt u d (poolOfQueue s d q)).corrupt = (poolAt s d (poolOfQueue s d q)).corrupt →
      ∃ t, exec (.rxFrame d p f) s = .next t
        ∧ (t.die d).rxq = (s.die d).rxq ++ [{ queue := q, bytes := f.bytes, pool := (poolOfQueue s d q).val, bufs := l }]
        ∧ EthCounted s t d p 0x200 1 ∧ EthCounted s t d p 0x208 (f.bytes.length + 4))

/-- Frames sent, and flow control (R417 to R421): the first frame whose priority may leave goes out; data that runs out inverts its
FCS, raises TX_STEP's interrupt and is counted; a frame of a priority whose frames are discarded, or on a link that is down, is
counted and gone; the watchdog discards what a stuck priority holds; a pause that expires ends pause and discarding; while a
pool stays critical the pause is sent again. Links, statistics, filters and addresses (R407 to R409, R414, R416, R423, R424): a
link comes up unless the port is off or the clock has failed, and announces every valid slot; it goes down; a failed training is
counted; a snapshot shows the counters and clears them when asked; a filter entry is loaded in one step; a write of ETH_ADDR_CFG
commits the selected slot. -/
def Obligations.EthernetTransmit : Prop :=
  (
    ∀ (s : State) (d : DieId) (p : PortId), running s d = true → registersOk s →
      (∀ x short, takesWork s (dreg d (Page.eth p) 0) = true → txNext (portOf (s.die d) p) = some x →
        ((portOf (s.die d) p).up = false →
          ∃ t, exec (.txFrame d p short) s = .next t ∧ (portOf (t.die d) p).txq = (portOf (s.die d) p).txq.erase x
            ∧ EthCounted s t d p 0x2A0 1 ∧ t.regs = s.regs)
        ∧ ((portOf (s.die d) p).up = true → (portOf (s.die d) p).discard.contains x.pcp = true →
          ∃ t, exec (.txFrame d p short) s = .next t ∧ (portOf (t.die d) p).txq = (portOf (s.die d) p).txq.erase x
            ∧ EthCounted s t d p 0x2A8 1 ∧ (portOf (t.die d) p).lastTx = (portOf (s.die d) p).lastTx)
        ∧ ((portOf (s.die d) p).up = true → (portOf (s.die d) p).discard.contains x.pcp = false →
          (short = false ∨ canUnderrun s d p x = false) →
          ∃ t, exec (.txFrame d p short) s = .next t ∧ (portOf (t.die d) p).txq = (portOf (s.die d) p).txq.erase x
            ∧ (portOf (t.die d) p).lastTx = some x ∧ (portOf (t.die d) p).lastBad = false ∧ EthCounted s t d p 0x288 1
            ∧ EthCounted s t d p 0x290 (txLen x) ∧ t.regs = s.regs)
        ∧ ((portOf (s.die d) p).up = true → (portOf (s.die d) p).discard.contains x.pcp = false → short = true →
          canUnderrun s d p x = true →
          ∃ t, exec (.txFrame d p short) s = .next t ∧ (portOf (t.die d) p).lastTx = some x ∧ (portOf (t.die d) p).lastBad = true
            ∧ EthCounted s t d p 0x298 1 ∧ (regGet t (ethBase d p + 0x10)).getLsbD 2 = true
            ∧ efld t d p 0x58 2 0 = min 4 (efld s d p 0x58 2 0 + 1)))
      ∧ (∀ prio : Fin 8,
        (∃ t, exec (.pfcPauseExpire d p prio) s = .next t ∧ (portOf (t.die d) p).paused.contains prio.val = false
          ∧ (portOf (t.die d) p).discard.contains prio.val = false ∧ (portOf (t.die d) p).txq = (portOf (s.die d) p).txq
          ∧ SameButDie d s t)
        ∧ (efld s d p 0x54 15 0 ≠ 0 → (portOf (s.die d) p).paused.contains prio.val = true →
          ∃ t, exec (.pfcWatchdog d p prio) s = .next t ∧ (portOf (t.die d) p).discard.contains prio.val = true
            ∧ (portOf (t.die d) p).txq = (portOf (s.die d) p).txq.filter (fun x => x.pcp != prio.val)
            ∧ (portOf (t.die d) p).paused = (portOf (s.die d) p).paused))
      ∧ ((portOf (s.die d) p).sending = true → (portOf (s.die d) p).up = true → efld s d p 0x50 7 0 ≠ 0 →
        ∃ t x, exec (.pfcResend d p) s = .next t ∧ (portOf (t.die d) p).lastTx = some x
          ∧ x.kind = .pfc (efld s d p 0x50 7 0) (pfcQuanta s d p) ∧ (portOf (t.die d) p).sending = true ∧ t.regs = s.regs))
  ∧ (
    ∀ (s : State) (d : DieId) (p : PortId), running s d = true → registersOk s →
      (takesWork s (dreg d (Page.eth p) 0) = true → portIsOff s d p = false → (portOf (s.die d) p).up = false →
        (s.pkg.clockFault = false →
          ∃ t, exec (.linkUp d p) s = .next t ∧ (portOf (t.die d) p).up = true ∧ (portOf (t.die d) p).attempts = 0
            ∧ (portOf (t.die d) p).anDone = (efld s d p 0x40 15 15 == 1)
            ∧ (portOf (t.die d) p).txq.length = (portOf (s.die d) p).txq.length + (validSlots s d p).length
            ∧ (regGet t (ethBase d p + 0x10)).getLsbD 1 = true)
        ∧ (∃ t, exec (.linkTrainFail d p) s = .next t ∧ (portOf (t.die d) p).up = false
            ∧ (portOf (t.die d) p).attempts = min 255 ((portOf (s.die d) p).attempts + 1)))
      ∧ ((portOf (s.die d) p).up = true →
        ∃ t, exec (.linkDown d p) s = .next t ∧ (portOf (t.die d) p).up = false ∧ (portOf (t.die d) p).anDone = false
          ∧ (portOf (t.die d) p).txq = (portOf (s.die d) p).txq ∧ EthCounted s t d p 0x310 1
          ∧ (regGet t (ethBase d p + 0x10)).getLsbD 1 = true)
      ∧ (∀ r v, HasSpace s r → RowWrites s .eth (ethBase d p + 0x5C) v → bitAt v 0 = true →
        ∃ t, exec (.ethSnap r d p v) s = .next t ∧ (portOf (t.die d) p).shadow = (portOf (s.die d) p).live
          ∧ (portOf (t.die d) p).live = (if bitAt v 1 then [] else (portOf (s.die d) p).live)
          ∧ (regGet t (ethBase d p + 0x10)).getLsbD 4 = true)
      ∧ (∀ r v, HasSpace s r → RowWrites s .eth (ethBase d p + 0x84) v →
        ∃ t f, exec (.ethFltAct r d p v) s = .next t ∧ f ∈ (portOf (t.die d) p).filters
          ∧ f.idx = fld (regGet s (ethBase d p + 0x78)) 4 0 ∧ f.matchA = regGet s (ethBase d p + 0x7C)
          ∧ f.matchB = regGet s (ethBase d p + 0x80) ∧ bitAt f.act 31 = bitAt v 31 ∧ fld f.act 30 25 = fld v 30 25
          ∧ fld f.act 5 0 = fld v 5 0
          ∧ ∀ g, g.idx ≠ f.idx → (g ∈ (portOf (t.die d) p).filters ↔ g ∈ (portOf (s.die d) p).filters))
      ∧ (∀ r v, HasSpace s r → RowWrites s .eth (ethBase d p + 0x64) v → (bitAt v 29 = true → 1 ≤ fld v 11 0 ∧ fld v 11 0 ≤ 4094) →
        ∃ t, exec (.ethAddrCfg r d p v) s = .next t
          ∧ portSlot (portOf (t.die d) p) (addrSel s d p)
            = { portSlot (portOf (s.die d) p) (addrSel s d p) with
                valid := bitAt v 31, v6 := bitAt v 30, tagged := bitAt v 29, vid := fld v 11 0
                data := (portSlot (portOf (s.die d) p) (addrSel s d p)).next }
          ∧ (bitAt v 31 = false → (portOf (t.die d) p).txq = (portOf (s.die d) p).txq)
          ∧ t.regs = s.regs))

/-! ### DRAM, the mover and the buffer pools (chapter 12) -/

/-- The DRAM controller (R428, R430 to R435): refreshes, and around an activated row its neighbours, while the channel runs; a
corrected and an uncorrectable error of the patrol scrub, whose read of each burst is an access as any other, are counted, and
the latter's address recorded and its burst poisoned before what it hit is dealt with; a training operation runs until its
errors are in, and a lane without a window refuses the die; accesses to one burst, and all accesses of a subchannel in in-order
mode, issue in acceptance order whatever the controller picks; a read that begins this mode is counted. The mover (R444 to
R449): a doorbell sets the tail and starts it, and a bad entry stops it where it stands; GATHER builds the codewords of every
data page and of the parity page in staging, SCATTER puts the data back in order, COPY copies; each moves past its descriptor
and writes nothing elsewhere; a pulse leaves for its target and is counted. -/
def Obligations.DramAndMover : Prop :=
  (
    ∀ (s : State) (d : DieId), running s d = true → registersOk s →
      ((s.die d).dmc.st = 2 →
        (∀ hot, ∃ t, exec (.dmcRefresh d hot) s = .next t ∧ (t.die d).dmc.refreshes = (s.die d).dmc.refreshes + 1 ∧ SameButDie d s t)
        ∧ (∀ sub bank row, ∃ t, exec (.neighbourRefresh d sub bank row) s = .next t
            ∧ (t.die d).dmc.neighbours
              = (neighbours (fld (regGet s (dmcBase d + 0x44)) 9 8) row).map (fun n => (sub.val, bank, n))
            ∧ regGet t (dmcBase d + 0xBC) = satWord ((regGet s (dmcBase d + 0xBC)).toNat
                + (neighbours (fld (regGet s (dmcBase d + 0x44)) 9 8) row).length)
            ∧ t.draws = s.draws + 1 ∧ ∀ a, a ≠ dmcBase d + 0xBC → regGet t a = regGet s a)
        ∧ (∀ addr, fld (regGet s (dmcBase d + 0x48)) 7 0 ≠ 0 → inDram s d addr 64 = true → addr % 64 = 0 →
            addr + 64 < dramBase + dramSize s d →
            takesWork s (dmcBase d) = true →
            exec (.dmcScrub d addr .good) s = .next (dmcRun false s d addr 64)
            ∧ (∃ t, exec (.dmcScrub d addr .single) s = .next t
                ∧ regGet t (dmcBase d + 0xA8) = satWord ((regGet s (dmcBase d + 0xA8)).toNat + 1)
                ∧ (regGet t (dmcBase d + 0x10)).getLsbD 1 = true ∧ (t.die d).mem = (s.die d).mem ∧ (t.die d).map = (s.die d).map)
            ∧ (∃ u, exec (.dmcScrub d addr .uncorrectable) s = .next (dramRegionHit u d addr)
                ∧ regGet u (dmcBase d + 0xAC) = satWord ((regGet s (dmcBase d + 0xAC)).toNat + 1)
                ∧ regGet u (dmcBase d + 0xB0) = BitVec.ofNat 32 addr ∧ regGet u (dmcBase d + 0xB4) = BitVec.ofNat 32 (addr / 2 ^ 32)
                ∧ addr ∈ (u.die d).dmc.poison ∧ (regGet u (dmcBase d + 0x10)).getLsbD 2 = true)))
      ∧ (∃ t, exec (.dmcLfsrReseed d) s = .next t ∧ (t.die d).dmc.lfsr.length = 2 ∧ t.draws = s.draws + 8
          ∧ t.die d = { s.die d with dmc := { (s.die d).dmc with lfsr := (t.die d).dmc.lfsr } } ∧ t.regs = s.regs)
      ∧ (∀ r v, HasSpace s r → takesWork s (dmcBase d) = true → RowWrites s .dmc (dmcBase d + 0x4C) v → bitAt v 31 = true → (s.die d).dmc.training = false →
        ∃ t, exec (.dmcTrainOp r d v) s = .next t ∧ (t.die d).dmc.training = true
          ∧ (regGet t (dmcBase d + 0x4C)).getLsbD 31 = true)
      ∧ ((s.die d).dmc.training = true →
        (∀ errors, ∃ t, exec (.dmcTrainDone d errors none) s = .next t ∧ (t.die d).dmc.training = false
          ∧ (regGet t (dmcBase d + 0x4C)).getLsbD 31 = false ∧ (regGet t (dmcBase d + 0x10)).getLsbD 3 = true
          ∧ ∀ n < 10, regGet t (dmcBase d + 0x80 + 4 * n) = BitVec.ofNat 32 (leNat ((List.range 4).map (fun i =>
              BitVec.ofNat 8 (min 255 (errors.getD (4 * n + i) 0))))))
        ∧ (∀ errors l, ∃ t, exec (.dmcTrainDone d errors (some l)) s = .next t ∧ (t.die d).phase = .refused))
      ∧ (∀ (m : Dmc) (which order : Nat),
        (∀ a, ∃ k, (m.issue d which order).queue.filter (fun e => e.2 == a) = (m.queue.filter (fun e => e.2 == a)).drop k)
        ∧ (∀ c, (m.inorder.map (fun o => o.1)).contains c = true →
            ∃ k, (m.issue d which order).queue.filter (fun e => dmcSub d e.2 == c)
              = (m.queue.filter (fun e => dmcSub d e.2 == c)).drop k))
      ∧ (∀ c n, 0 < n → assocGet c (s.die d).dmc.inorder = none →
        assocGet c ((inOrderMode s d c n).die d).dmc.inorder = some n
          ∧ regGet (inOrderMode s d c n) (dmcBase d + 0xB8) = satWord ((regGet s (dmcBase d + 0xB8)).toNat + 1)))
  ∧ (
    ∀ (s : State) (d : DieId), memoryOk s → registersOk s →
      (∀ r v, HasSpace s r → RowWrites s .mov (movBase d + 0x4C) v → takesWork s (movBase d) = true →
        (s.die d).mov.consumed ≠ fld v 7 0 % ringSize s d →
        ∃ t, exec (.movDoorbell r d v) s = .next t ∧ (t.die d).mov.tail = fld v 7 0 % ringSize s d
          ∧ (t.die d).mov.consumed = (s.die d).mov.consumed
          ∧ ((descAt s d (s.die d).mov.consumed).bad = false → (descAt s d (s.die d).mov.consumed).addrsOk s d = true →
              (t.die d).mov.running = true ∧ (t.die d).mov.stopped = false)
          ∧ ((descAt s d (s.die d).mov.consumed).bad = true ∨ (descAt s d (s.die d).mov.consumed).addrsOk s d = false →
              (t.die d).mov.running = false ∧ (t.die d).mov.stopped = true))
      ∧ (∀ e, MoverReady s d 1 e →
        ∃ t, exec (.gather d) s = .next t ∧ MoverStepped s t d e
          ∧ (∀ i < e.dataCws, memRead t d (e.cwAddr (e.slotOf (i / e.cw)) (i % e.cw)) 4116 = gatherInfo s d e i)
          ∧ (∀ k < e.cw, memRead t d (e.cwAddr e.pj k) 4116
              = gatherParity ((List.range e.dataCws).map (gatherInfo s d e)) e k)
          ∧ ∀ a, (a < e.stage ∨ e.stage + e.stageLen ≤ a) → memGet t d a = memGet s d a)
      ∧ (∀ e, MoverReady s d 2 e →
        ∃ t, exec (.scatter d) s = .next t ∧ MoverStepped s t d e
          ∧ (∀ i < e.dataCws, memRead t d (e.lin + i * 4096) 4096
              = memRead s d (e.cwAddr (e.slotOf (i / e.cw)) (i % e.cw)) 4096)
          ∧ ∀ a, (a < e.lin ∨ e.lin + e.dataCws * 4096 ≤ a) → memGet t d a = memGet s d a)
      ∧ (∀ e, MoverReady s d 3 e →
        ∃ t, exec (.copy d) s = .next t ∧ MoverStepped s t d e
          ∧ memRead t d e.stage e.len = memRead s d e.lin e.len
          ∧ ∀ a, (a < e.stage ∨ e.stage + e.len ≤ a) → memGet t d a = memGet s d a)
      ∧ (∀ p rest, present s d = true → (s.die d).phase = .up → s.guard.deep = false → (s.die d).mov.pulses = p :: rest →
        ∃ t, exec (.movPulse d) s = .next t ∧ (t.die d).mov.pulses = rest
          ∧ regGet t (movBase d + 0x90) = satWord ((regGet s (movBase d + 0x90)).toNat + 1)
          ∧ (∀ a, a ≠ movBase d + 0x90 → regGet t a = regGet s a)
          ∧ (p.1 ≠ 1 → (t.die d).mov.tagsSeen = (s.die d).mov.tagsSeen ++ [(p.1, p.2.2)])
          ∧ (p.1 = 1 → ∀ q, waitingStripe (s.die d) p.2.1 = some q →
              ∃ q' ∈ (t.die d).flash.stripes, q'.sid = q.sid ∧ p.2.1 ∈ q'.pulsed)))

/-- The buffer pools (R437 to R443, R453): a pool is enabled with every buffer free or refused; an allocation hands out the head of the
free list with one reference, or counts a failure; references are added, moved and dropped, and the last one dropped frees the buffer;
a free puts the buffer at the head; a sweep fences an owner and removes its references, and its fence can be lifted afterwards; a read
of BPM_MIN_FREE uses the lowest count up. -/
def Obligations.BufferPools : Prop :=
  ∀ (s : State) (d : DieId), registersOk s →
    (∀ r v, HasSpace s r → RowWrites s .bpm (bpmBase d + 0x44) v → locked s (bpmBase d) = false → bitAt v 31 = true →
      (poolAt s d (selPool s d)).pen = false →
      let q := { poolAt s d (selPool s d) with bpKtp := bitAt v 30, sizeLog2 := fld v 24 20, count := fld v 19 0 }
      (q.bpKtp = true → (poolAt s d (selPool s d)).bpKtp = true ∨ thrOk q = true) →
      (poolOk s d (selPool s d) q = true →
        ∃ t, exec (.bpmPoolEnable r d v) s = .next t ∧ (poolAt t d (selPool s d)).pen = true
          ∧ (poolAt t d (selPool s d)).head = q.base ∧ (poolAt t d (selPool s d)).free = q.count)
      ∧ (poolOk s d (selPool s d) q = false →
        ∃ t, exec (.bpmPoolEnable r d v) s = .next t ∧ (poolAt t d (selPool s d)).pen = false))
    ∧ (∀ (p : Fin 16) owner, running s d = true → takesWork s (bpmBase d) = true → ownerFenced s d owner = false →
      (s.die d).bpm.refs.length < refCap →
      (poolAt s d p).corrupt = false → (poolAt s d p).pen = true →
      let next := leNat (memRead s d (poolAt s d p).head 8)
      ((poolAt s d p).head ≠ 0 → next = 0 ∨ isBuffer (poolAt s d p) next = true →
        ∃ t, exec (.bpmAlloc d p owner) s = .next t ∧ t.answer.addr = (poolAt s d p).head ∧ (poolAt t d p).head = next
          ∧ (poolAt t d p).free = (poolAt s d p).free - 1
          ∧ (t.die d).bpm.refs = ((poolAt s d p).head, owner) :: (s.die d).bpm.refs)
      ∧ ((poolAt s d p).head = 0 →
        ∃ t, exec (.bpmAlloc d p owner) s = .next t ∧ t.answer.addr = 0
          ∧ regGet t (bpmBase d + 0x8C) = satWord ((regGet s (bpmBase d + 0x8C)).toNat + 1)
          ∧ (t.die d).bpm = (s.die d).bpm))
    ∧ (∀ addr actor owner, running s d = true → ownerFenced s d actor = false → ownerFenced s d owner = false →
      (refCount (s.die d).bpm.refs addr < 255 → (s.die d).bpm.refs.length < refCap →
        ∃ t, exec (.bpmAdd d addr actor owner) s = .next t ∧ (t.die d).bpm.refs = (addr, owner) :: (s.die d).bpm.refs
          ∧ SameButDie d s t)
      ∧ ((addr, actor) ∈ (s.die d).bpm.refs →
        ∃ t, exec (.bpmMove d addr actor owner) s = .next t
          ∧ (t.die d).bpm.refs = (addr, owner) :: refDel (s.die d).bpm.refs addr actor ∧ SameButDie d s t)
      ∧ ((addr, owner) ∈ (s.die d).bpm.refs →
        ∃ t, exec (.bpmDrop d addr owner) s = .next t ∧ (t.die d).bpm.refs = refDel (s.die d).bpm.refs addr owner
          ∧ (∀ p, refCount (refDel (s.die d).bpm.refs addr owner) addr = 0 → poolOfBuf (s.die d) addr = some p →
              (poolAt t d p).head = addr ∧ (poolAt t d p).free = (poolAt s d p).free + 1)
          ∧ (refCount (refDel (s.die d).bpm.refs addr owner) addr ≠ 0 → (t.die d).bpm.pools = (s.die d).bpm.pools)))
    ∧ (∀ (p : Fin 16) addr, running s d = true → memoryOk s → isBuffer (poolAt s d p) addr = true →
      ∃ t, exec (.bpmFree d p addr) s = .next t ∧ (poolAt t d p).head = addr ∧ (poolAt t d p).free = (poolAt s d p).free + 1
        ∧ memRead t d addr 8 = leBytes 8 (poolAt s d p).head ∧ (t.die d).bpm.refs = (s.die d).bpm.refs)
    ∧ (∀ r v, HasSpace s r → RowWrites s .bpm (bpmBase d + 0x58) v → (s.die d).bpm.sweep = none →
      (bitAt v 31 = true →
        ∃ t, exec (.bpmSweep r d v) s = .next t ∧ (t.die d).bpm.sweep = some (fld v 7 0) ∧ ownerFenced t d (fld v 7 0) = true
          ∧ (t.die d).bpm.refs = (s.die d).bpm.refs.filter (fun q => q.2 != fld v 7 0)
          ∧ (regGet t (bpmBase d + 0x58)).getLsbD 31 = true)
      ∧ (bitAt v 31 = false → bitAt v 30 = true →
        ∃ t, exec (.bpmUnfence r d v) s = .next t ∧ ownerFenced t d (fld v 7 0) = false
          ∧ (t.die d).bpm.refs = (s.die d).bpm.refs ∧ (t.die d).bpm.pools = (s.die d).bpm.pools))
    ∧ (∀ o, running s d = true → (s.die d).bpm.sweep = some o →
      ∃ t, exec (.bpmSweepDone d) s = .next t ∧ (t.die d).bpm.sweep = none ∧ (regGet t (bpmBase d + 0x58)).getLsbD 31 = false
        ∧ (regGet t (bpmBase d + 0x10)).getLsbD 2 = true ∧ (t.die d).bpm.fenced = (s.die d).bpm.fenced)
    ∧ (∀ r, HasSpace s r → windowOpen s (bpmBase d + 0x84) = true →
      ∃ t, exec (.bpmMinFreeRead r d) s = .next t
        ∧ t.answer.data = BitVec.ofNat 32 ((poolAt s d (selPool s d)).minFree.getD 0)
        ∧ (poolAt t d (selPool s d)).minFree = none ∧ (poolAt t d (selPool s d)).free = (poolAt s d (selPool s d)).free
        ∧ t.regs = s.regs)

/-! ### Interrupts, Swarm links and the Waggle port (chapter 13) -/

/-- The interrupt controller (R466 to R472): a rise of a source and a software event are counted and make it pending while it is
enabled; a claim returns the source of highest priority and makes it active, and 0 when none is there; a completion returns it, to
pending when it was counted again or its level stays, its COUNT as it stands, and a stray one is ignored and counted; the end of a group's hold-off presents its next
source. -/
def Obligations.InterruptController : Prop :=
  ∀ (s : State) (d : DieId), registersOk s →
    (∀ n, running s d = true → icuLevel s d n = true → (srcAt (s.die d) n).raised = false →
      ∃ t, exec (.icuEvent d n) s = .next t ∧ (srcAt (t.die d) n).count = min 255 ((srcAt (s.die d) n).count + 1)
        ∧ (srcAt (t.die d) n).raised = true
        ∧ (srcAt (t.die d) n).st = (if (srcAt (s.die d) n).st = 0 ∧ (srcAt (s.die d) n).en = true then 1 else (srcAt (s.die d) n).st)
        ∧ (Serving s d → t.regs = s.regs))
    ∧ (∀ r v, HasSpace s r → RowWrites s .icu (icuBase d + 0xB4) v →
      ∃ t, exec (.icuSwset r d v) s = .next t
        ∧ (srcAt (t.die d) (fld v 8 0)).count = min 255 ((srcAt (s.die d) (fld v 8 0)).count + 1)
        ∧ (srcAt (t.die d) (fld v 8 0)).st
            = (if (srcAt (s.die d) (fld v 8 0)).st = 0 ∧ (srcAt (s.die d) (fld v 8 0)).en = true then 1
               else (srcAt (s.die d) (fld v 8 0)).st)
        ∧ t.regs = s.regs)
    ∧ (∀ c, running s d = true → coreOn s d c = true → (coreAt s d c).st ≠ .halted → (coreAt s d c).maskIrq = false →
      (∀ q, claimOf s d c = some q →
        ∃ t, exec (.icuClaim d c) s = .next t ∧ t.answer.data = BitVec.ofNat 32 (2 ^ 31 + q.count * 65536 + q.num)
          ∧ (srcAt (t.die d) q.num).st = 2 ∧ (srcAt (t.die d) q.num).count = 0
          ∧ (∀ m, m ≠ q.num → srcAt (t.die d) m = srcAt (s.die d) m) ∧ t.regs = s.regs)
      ∧ (claimOf s d c = none →
        ∃ t, exec (.icuClaim d c) s = .next t ∧ t.answer.data = 0 ∧ t.dies = s.dies ∧ t.regs = s.regs))
    ∧ (∀ r v, HasSpace s r → RowWrites s .icu (icuBase d + 0xB0) v →
      ((srcAt (s.die d) (fld v 8 0)).st = 2 →
        ∃ t, exec (.icuComplete r d v) s = .next t
          ∧ (srcAt (t.die d) (fld v 8 0)).st
              = (if 0 < (srcAt (s.die d) (fld v 8 0)).count ∨ icuLevel s d (fld v 8 0) = true then 1 else 0)
          ∧ (srcAt (t.die d) (fld v 8 0)).count = (srcAt (s.die d) (fld v 8 0)).count
          ∧ t.regs = s.regs)
      ∧ ((srcAt (s.die d) (fld v 8 0)).st ≠ 2 →
        ∃ t, exec (.icuComplete r d v) s = .next t ∧ (srcAt (t.die d) (fld v 8 0)).st = (srcAt (s.die d) (fld v 8 0)).st
          ∧ (srcAt (t.die d) (fld v 8 0)).count = (srcAt (s.die d) (fld v 8 0)).count
          ∧ regGet t (icuBase d + 0xC4) = satWord ((regGet s (icuBase d + 0xC4)).toNat + 1)
          ∧ (regGet t (icuBase d + 0x10)).getLsbD 1 = true))
    ∧ (∀ g : Fin 16, running s d = true → (s.die d).icu.hold.contains g.val = true →
      let w := (icuWaiting (s.die d)).filter (fun n => (srcAt (s.die d) n).group == g.val)
      (w = [] → ∃ t, exec (.icuHoldoffExpiry d g) s = .next t ∧ (t.die d).icu.hold.contains g.val = false)
      ∧ (∀ n rest, w = n :: rest → (srcAt (s.die d) n).st = 1 → (srcAt (s.die d) n).en = true → (srcAt (s.die d) n).shown = false →
        ∃ t, exec (.icuHoldoffExpiry d g) s = .next t ∧ (srcAt (t.die d) n).shown = true
          ∧ (t.die d).icu.hold.contains g.val = decide (holdOff s d g.val ≠ 0)))

/-- The Swarm links (R18, R20, R473 to R477): a good flit in its turn is taken and acknowledged; at its destination a message with a
number already seen is dropped and counted, at any other die it is forwarded; a bad one makes the sender replay; a replay timeout is a round, and RETRY_ROUNDS of them on one flit retrain the
link; a link that has trained is up, with all its credits where no flit waits for it, one that fails or is told to is retired with its flits ahead of its held
messages; these then go on the new route, which is claimed where no message waits at its source; a credit debt that stays holds the link and resets the partner. -/
def Obligations.SwarmLinks : Prop :=
  ∀ (s : State) (d : DieId) (k : SwmId), registersOk s → running s d = true →
    (∀ f, (linkOf (s.die d) k).st = .up → running s (partnerDie d k) = true →
      (f.crcOk = true → f.seq = (linkOf (s.die d) k).rxNext → f.dst = d →
        ∃ t, exec (.swmFlitRx d k f) s = .next t ∧ (linkOf (t.die d) k).rxNext = (linkOf (s.die d) k).rxNext + 1
          ∧ (∀ g ∈ (linkOf (t.die (partnerDie d k)) k).replay, f.seq < g.seq)
          ∧ ((∀ j, (f.src, f.dst, f.e2e) ∉ (linkOf (s.die d) j).seen) →
              (f.src, f.dst, f.e2e) ∈ (linkOf (t.die d) k).seen ∧ t.regs = s.regs)
          ∧ (∀ j, (f.src, f.dst, f.e2e) ∈ (linkOf (s.die d) j).seen →
              (linkOf (t.die d) k).seen = (linkOf (s.die d) k).seen
                ∧ regGet t (swmBase d k + 0x94) = satWord ((regGet s (swmBase d k + 0x94)).toNat + 1)))
      ∧ (f.crcOk = true → f.seq = (linkOf (s.die d) k).rxNext → f.dst ≠ d →
        ∃ t, exec (.swmFlitRx d k f) s = .next t ∧ (linkOf (t.die d) k).rxNext = (linkOf (s.die d) k).rxNext + 1 ∧ t.regs = s.regs
          ∧ ∀ j, portNow s d f.dst = some j → ∃ g ∈ (linkOf (t.die d) j).replay ++ (linkOf (t.die d) j).hold,
              g.src = f.src ∧ g.dst = f.dst ∧ g.e2e = f.e2e ∧ g.response = f.response)
      ∧ (f.crcOk = false →
        ∃ t, exec (.swmFlitRx d k f) s = .next t ∧ (linkOf (t.die d) k).rxNext = (linkOf (s.die d) k).rxNext
          ∧ regGet t (swmBase d k + 0x84) = satWord ((regGet s (swmBase d k + 0x84)).toNat + 1)
          ∧ regGet t (swmBase (partnerDie d k) k + 0x88) = satWord ((regGet s (swmBase (partnerDie d k) k + 0x88)).toNat + 1)))
    ∧ ((linkOf (s.die d) k).st = .up → (linkOf (s.die d) k).replay ≠ [] →
      ∃ t, exec (.swmReplayTimeout d k) s = .next t
        ∧ regGet t (swmBase d k + 0x88) = satWord ((regGet s (swmBase d k + 0x88)).toNat + 1)
        ∧ ((linkOf (s.die d) k).rounds + 1 < retryRounds s d k →
            (linkOf (t.die d) k).rounds = (linkOf (s.die d) k).rounds + 1 ∧ (linkOf (t.die d) k).st = .up)
        ∧ (retryRounds s d k ≤ (linkOf (s.die d) k).rounds + 1 →
            (linkOf (t.die d) k).st = .training
              ∧ regGet t (swmBase d k + 0x8C) = satWord ((regGet s (swmBase d k + 0x8C)).toNat + 1)))
    ∧ ((linkOf (s.die d) k).st = .training →
      ((∀ e : DieId, (s.die e).out = []) →
        ∃ t, exec (.swmRetrainDone d k true) s = .next t ∧ (linkOf (t.die d) k).st = .up ∧ (linkOf (t.die d) k).held = false
          ∧ ((linkOf (s.die d) k).hold = [] → (linkOf (t.die d) k).reqCred = 64 ∧ (linkOf (t.die d) k).rspCred = 64))
      ∧ (∃ t, exec (.swmRetrainDone d k false) s = .next t
        ∧ ((t.die d).phase = .up → (linkOf (t.die d) k).st = .retired ∧ (linkOf (t.die d) k).replay = []
            ∧ (linkOf (t.die d) k).hold = (linkOf (s.die d) k).replay ++ (linkOf (s.die d) k).hold)))
    ∧ (∀ r v, HasSpace s r → RowWrites s .swm (swmBase d k + 0x40) v → bitAt v 0 = true → partnerOf d k < partDies s.part →
      (linkOf (s.die d) k).st ≠ .retired →
      ∃ t, exec (.swmRetire r d k v) s = .next t
        ∧ ((t.die d).phase = .up → (linkOf (t.die d) k).st = .retired ∧ (linkOf (t.die d) k).replay = []
            ∧ (linkOf (t.die d) k).hold = (linkOf (s.die d) k).replay ++ (linkOf (s.die d) k).hold))
    ∧ ((linkOf (s.die d) k).st = .retired →
      (∀ e : DieId, (s.die e).out = []) →
      ∃ t, exec (.swmRouteSwitch d k) s = .next t ∧ (linkOf (t.die d) k).hold = [] ∧ (linkOf (t.die d) k).switching = false
        ∧ ((∀ i, i ≠ k → (linkOf (s.die d) i).switching = false) → ∀ f ∈ (linkOf (s.die d) k).hold, ∀ j, nextPort s d f.dst = some j →
            ∃ g ∈ (linkOf (t.die d) j).replay ++ (linkOf (t.die d) j).hold,
              g.src = f.src ∧ g.dst = f.dst ∧ g.e2e = f.e2e ∧ g.response = f.response))
    ∧ ((linkOf (s.die d) k).st = .up → ((linkOf (s.die d) k).reqCred < 64 ∨ (linkOf (s.die d) k).rspCred < 64) →
      partnerDie d k ≠ 0 → faultable s (partnerDie d k) = true → running s (partnerDie d k) = true →
      secondFault s (partnerDie d k) = false →
      ∃ t, exec (.swmCreditTimeout d k) s = .next t ∧ (linkOf (t.die d) k).reqCred = 64 ∧ (linkOf (t.die d) k).rspCred = 64
        ∧ (linkOf (t.die d) k).held = true ∧ (t.die (partnerDie d k)).phase = .dieReset)

/-- The Waggle port (R478 to R484): a carried-out transaction returns DONE and does what its op says; any transaction but a CLEAR_ERR
is refused while an error stands; a repeat has no further effect; a response is verified with its key and signature, three failures
lock the port out, and what it asks for is granted, MEM and HALT only with every key slot empty; a line sync lets either SEQ follow. -/
def Obligations.WaggleTransactions : Prop :=
  ∀ (s : State) (h : BitVec 16) (data : Word) (crc : Byte),
    (PortReads s 0 h → ∃ t, exec (.readStatus h) s = .next t ∧ PortRead t (statusWord s) ∧ SameButWgl s t)
    ∧ (PortReads s 7 h → ∃ t, exec (.readId h) s = .next t
        ∧ PortRead t (natWord (0x00190000 + partDies s.part * 256 + hdrDie h)) ∧ SameButWgl s t)
    ∧ (PortReads s 3 h → ∃ t, exec (.readData h) s = .next t
        ∧ PortRead t (readAligned s .waggle s.wgl.addr.toNat).answer.data ∧ t.wgl.addr = s.wgl.addr + 4
        ∧ t.regs = (readAligned s .waggle s.wgl.addr.toNat).regs ∧ t.dies = (readAligned s .waggle s.wgl.addr.toNat).dies)
    ∧ (PortReads s 5 h → s.wgl.busy = false →
      (s.wgl.chalIdx = 0 → s.pkg.entropyFail = false →
        ∃ t r, exec (.readChal h) s = .next t ∧ r.length = 16 ∧ PortRead t (natWord (beNat (r.take 4))) ∧ t.wgl.chalIdx = 1
          ∧ t.wgl.chal = r ++ (padTo 16 s.nor.unitId).take 16 ++ beBytes 4 (s.wgl.want * 256) ++ zeros 12
          ∧ t.wgl.resp = [] ∧ t.wgl.grant = none ∧ t.wgl.caps = s.wgl.caps ∧ t.dies = s.dies ∧ t.regs = s.regs)
      ∧ (s.wgl.chalIdx ≠ 0 →
        ∃ t, exec (.readChal h) s = .next t ∧ PortRead t (natWord (beNat (slice s.wgl.chal (4 * s.wgl.chalIdx) 4)))
          ∧ t.wgl.chalIdx = (s.wgl.chalIdx + 1) % 12 ∧ t.wgl.chal = s.wgl.chal ∧ SameButWgl s t))
    ∧ (PortWrites s 1 h data crc →
      ∃ t, exec (.writeCtrl h data crc) s = .next t ∧ t.wgl.status = 6 ∧ t.wgl.want = fld data 10 8
        ∧ t.wgl.lastSeq = some (hdrSeq h) ∧ t.wgl.caps = s.wgl.caps ∧ SameButWgl s t)
    ∧ (portLive s = true → hdrOp h = 1 → hdrOk s h = true → crc = writeCrc h data → bitAt data 31 = true →
      ∃ t, exec (.writeCtrl h data crc) s = .next t ∧ t.wgl.status = 6 ∧ t.wgl.err = false ∧ SameButWgl s t)
    ∧ (PortWrites s 2 h data crc →
      ∃ t, exec (.writeAddr h data crc) s = .next t ∧ t.wgl.status = 6 ∧ t.wgl.addr = data ∧ t.wgl.lastSeq = some (hdrSeq h)
        ∧ SameButWgl s t)
    ∧ (∀ q, PortWrites s 4 h data crc → RegOpen s .csq s.wgl.addr.toNat q → registersOk s → s.wgl.addr.toNat % 4 = 0 →
      locked s (baseOf s.wgl.addr.toNat) = false → valuesOk q data = true →
      ∃ t, exec (.writeData h data crc) s = .next t ∧ t.wgl.status = 6 ∧ t.wgl.addr = s.wgl.addr + 4
        ∧ regGet t s.wgl.addr.toNat = mergeFields false (regGet s s.wgl.addr.toNat) data q
        ∧ (∀ a, a ≠ s.wgl.addr.toNat → regGet t a = regGet s a) ∧ (offOf s.wgl.addr.toNat ≠ 0x48 → t.dies = s.dies))
    ∧ (PortWrites s 6 h data crc → s.wgl.busy = false →
      ∃ t, exec (.writeResp h data crc) s = .next t ∧ t.wgl.status = 6 ∧ t.wgl.resp = s.wgl.resp ++ beBytes 4 data.toNat
        ∧ t.wgl.busy = decide (200 ≤ s.wgl.resp.length + 4) ∧ SameButWgl s t)
    ∧ (portLive s = true → s.wgl.err = true →
      (hdrOp h = 0 → ∃ t, exec (.readStatus h) s = .next t ∧ t.wgl.status = 0xC ∧ t.wgl = { s.wgl with status := 0xC } ∧ SameButWgl s t)
      ∧ (hdrOp h = 4 → ∃ t, exec (.writeData h data crc) s = .next t ∧ t.wgl = { s.wgl with status := 0xC } ∧ SameButWgl s t))
    ∧ (portLive s = true → hdrOk s h = true → s.wgl.err = false →
      (∀ v, hdrOp h = 3 → opAllowed s 3 = true → s.wgl.readSeq = some (3, hdrSeq h, v) →
        ∃ t, exec (.readData h) s = .next t ∧ PortRead t v ∧ t.wgl.addr = s.wgl.addr ∧ SameButWgl s t)
      ∧ (hdrOp h = 4 → opAllowed s 4 = true → crc = writeCrc h data → s.wgl.lastSeq = some (hdrSeq h) →
        ∃ t, exec (.writeData h data crc) s = .next t ∧ t.wgl.status = 6 ∧ t.wgl.addr = s.wgl.addr ∧ SameButWgl s t))
    ∧ (portLive s = true →
      (∃ t, exec .wglLineSync s = .next t ∧ t.wgl = { s.wgl with lastSeq := none, readSeq := none } ∧ SameButWgl s t)
      ∧ (s.wgl.busy = true → responseOk s = true → s.wgl.lockout = false → chalCaps s.wgl < 2 →
        ∃ t, exec .wglResponseVerify s = .next t ∧ t.wgl.grant = some (chalCaps s.wgl) ∧ t.wgl.busy = false ∧ t.wgl.caps = s.wgl.caps
          ∧ SameButWgl s t)
      ∧ (s.wgl.busy = true → responseOk s = false → s.nor.dbgLock = false →
        ∃ t, exec .wglResponseVerify s = .next t ∧ t.wgl.fails = s.wgl.fails + 1 ∧ t.wgl.busy = false ∧ t.wgl.caps = s.wgl.caps
          ∧ t.wgl.grant = s.wgl.grant ∧ (3 ≤ s.wgl.fails + 1 → t.wgl.lockout = true))
      ∧ (∀ c, s.wgl.grant = some c → c < 2 ∨ (s.pkg.keysOut = true ∧ slotsZero s = true) →
        ∃ t, exec .wglGrant s = .next t ∧ t.wgl.caps = s.wgl.caps ||| c ∧ t.wgl.grant = none ∧ SameButWgl s t))

/-- Debugging through WGL (R485 to R488, R492): with HALT granted, RESUME lets halted cores go and HALT_REQ asks running ones to stop;
a core stops at its next instruction boundary, after a step, or at an enabled breakpoint, the first one at the address of its last halt
aside; a step runs a halted core for one instruction; without the capability a write is not carried out and is recorded; the memory
window and a halted core's registers are read and written. -/
def Obligations.WaggleDebug : Prop :=
  ∀ (s : State) (d : DieId), registersOk s →
    (∀ r v i, HasSpace s r → RowWrites s .wgl (wglBase d + 0x40) v →
      (i = .wglHaltReq r d v ∧ fld v 7 0 ≠ 0 ∨ i = .wglResume r d v ∧ fld v 15 8 ≠ 0) →
      (granted s 2 = true →
        ∃ t, exec i s = .next t ∧ t.regs = s.regs
          ∧ ∀ c : CoreId,
            let q := if bitAt v (8 + c.val) && isHalted (coreAt s d c) then
                { leaveHalt (s.die d).mon.devTime (coreAt s d c) with stepping := false, maskIrq := false } else coreAt s d c
            coreAt t d c = if bitAt v c.val && (q.st == .run || q.st == .idle) then { q with haltReq := true } else q)
      ∧ (granted s 2 = false → regGet s (wglBase d + 0x20) = 0 →
        ∃ t, exec i s = .next t ∧ (t.die d).cores = (s.die d).cores ∧ regGet t (wglBase d + 0x20) = 0x80))
    ∧ (∀ r v, HasSpace s r → RowWrites s .wgl (wglBase d + 0x44) v → granted s 2 = true → bitAt v 31 = true →
      isHalted (coreAt s d (coreOf (fld v 2 0))) = true →
      ∃ t, exec (.wglStep r d v) s = .next t ∧ (coreAt t d (coreOf (fld v 2 0))).st = .run
        ∧ (coreAt t d (coreOf (fld v 2 0))).stepping = true ∧ (coreAt t d (coreOf (fld v 2 0))).maskIrq = bitAt v 8
        ∧ ∀ c, c ≠ coreOf (fld v 2 0) → coreAt t d c = coreAt s d c)
    ∧ (∀ c pc, running s d = true →
      ((coreAt s d c).st = .run ∨ (coreAt s d c).st = .idle → (coreAt s d c).haltReq = true ∨ (coreAt s d c).stepping = true →
        ∃ t, exec (.coreHalt d c pc) s = .next t ∧ (coreAt t d c).st = .halted ∧ (coreAt t d c).pc = pc
          ∧ (coreAt t d c).reason = (if (coreAt s d c).stepping then 2 else 1) ∧ (coreAt t d c).haltReq = false
          ∧ (∀ e, e ≠ c → coreAt t d e = coreAt s d e) ∧ SameButDie d s t)
      ∧ ((coreAt s d c).st = .run → breaksAt (s.die d) c pc = true →
        (¬((coreAt s d c).skipBp = true ∧ (coreAt s d c).pc = pc) →
          ∃ t, exec (.wglBreakpoint d c pc) s = .next t ∧ (coreAt t d c).st = .halted ∧ (coreAt t d c).pc = pc
            ∧ (coreAt t d c).reason = 3 ∧ (regGet t (wglBase d + 0x10)).getLsbD 1 = true)
        ∧ ((coreAt s d c).skipBp = true → (coreAt s d c).pc = pc →
          ∃ t, exec (.wglBreakpoint d c pc) s = .next t ∧ coreAt t d c = { coreAt s d c with skipBp := false } ∧ t.regs = s.regs)))
    ∧ (∀ r, HasSpace s r → RowOpen s (wglBase d + 0x58) → granted s 1 = true → addrOk s d (wglAddr s d) 4 = true →
      (∃ t, exec (.wglMemAccess r d none) s = .next t ∧ t.answer.data = BitVec.ofNat 32 (leNat (memRead s d (wglAddr s d) 4))
        ∧ wglAddr t d = (wglAddr s d + 4) % 2 ^ 40 ∧ t.dies = s.dies)
      ∧ (∀ v, memoryOk s → RowWrites s .wgl (wglBase d + 0x58) v →
        ∃ t, exec (.wglMemAccess r d (some v)) s = .next t ∧ memRead t d (wglAddr s d) 4 = leBytes 4 v.toNat
          ∧ (∀ a, (a < wglAddr s d ∨ wglAddr s d + 4 ≤ a) → memGet t d a = memGet s d a)
          ∧ wglAddr t d = (wglAddr s d + 4) % 2 ^ 40))
    ∧ (∀ r, HasSpace s r → RowOpen s (wglBase d + 0x60) → granted s 2 = true → isHalted (coreAt s d (cregCore s d)) = true →
      (∃ t v, exec (.wglCregAccess r d none) s = .next t ∧ t.answer.data = v
        ∧ assocGet (cregNum s d) (coreAt t d (cregCore s d)).cregs = some v
        ∧ (∀ w, assocGet (cregNum s d) (coreAt s d (cregCore s d)).cregs = some w → v = w) ∧ t.regs = s.regs)
      ∧ (∀ v, RowWrites s .wgl (wglBase d + 0x60) v →
        ∃ t, exec (.wglCregAccess r d (some v)) s = .next t
          ∧ assocGet (cregNum s d) (coreAt t d (cregCore s d)).cregs = some v ∧ t.regs = s.regs))

/-! ### The boot NOR, the watchdog and the PMBus (chapters 15 and 16) -/

/-- The boot NOR (R518, R521, R522, R524, R546): a program or an erase of an open sector runs until it ends, and is refused while
another runs or where the sector is not open; at its end a program has cleared bits of its bytes only, an erase has set its sector to
0xFF, each is counted and interrupts; PE is set by die 0's cores, and by the Waggle port after a boot fault, OPT_WE by the Waggle port
alone. -/
def Obligations.BootNor : Prop :=
  ∀ (s : State), registersOk s → norOk s →
    (∀ r v k i erase, HasSpace s r → RowWrites s .nor (nreg 0x40) v → norRequester r = true → bitAt v 31 = true → s.guard.losing = false →
      (i = .norProgram r v ∧ fld v 30 29 = 1 ∧ erase = false ∨ i = .norErase r v ∧ fld v 30 29 = 2 ∧ erase = true) →
      norSector (fld (regGet s (nreg 0x44)) 26 0) = some k →
      (s.nor.op = none → sectorOpen s.nor k = true →
        (erase = true ∨ fld (regGet s (nreg 0x44)) 26 0 % 512 + (fld v 8 0 + 1) ≤ 512) →
        ∃ t o, exec i s = .next t ∧ t.nor.op = some o ∧ o.erase = erase ∧ o.sector = k ∧ t.nor.array = s.nor.array
          ∧ (erase = true → (o.addr, o.len) = sectorSpan k)
          ∧ (erase = false → o.addr = fld (regGet s (nreg 0x44)) 26 0 ∧ o.len = fld v 8 0 + 1
              ∧ o.data = ((List.range 128).flatMap (fun j => leBytes 4 (regGet s (nreg (0x100 + 4 * j))).toNat)).take (fld v 8 0 + 1)))
      ∧ (s.nor.op.isSome = true → regGet s (nreg 0x20) = 0 →
        ∃ t, exec i s = .next t ∧ t.nor = s.nor ∧ regGet t (nreg 0x20) = 0x80)
      ∧ (s.nor.op = none → sectorOpen s.nor k = false → regGet s (nreg 0x20) = 0 →
        ∃ t, exec i s = .next t ∧ t.nor = s.nor ∧ regGet t (nreg 0x20) = 0x81))
    ∧ (∀ o, s.nor.op = some o →
      ∃ t, exec .norOpDone s = .next t ∧ t.nor.op = none ∧ t.dies = s.dies
        ∧ regGet t (nreg (if o.erase then 0x88 else 0x84))
            = satWord ((regGet s (nreg (if o.erase then 0x88 else 0x84))).toNat + 1)
        ∧ (regGet t (nreg 0x10)).getLsbD 1 = true
        ∧ (o.erase = false → ∀ a, cellGet norBlank t.nor.array a
            = if o.addr ≤ a ∧ a < o.addr + o.data.length then
                cellGet norBlank s.nor.array a &&& o.data.getD (a - o.addr) 0 else cellGet norBlank s.nor.array a)
        ∧ (o.erase = true → ∀ a, cellGet norBlank t.nor.array a
            = if (sectorSpan o.sector).1 ≤ a ∧ a < (sectorSpan o.sector).1 + (sectorSpan o.sector).2 then 0xFF
              else cellGet norBlank s.nor.array a))
    ∧ (∀ r, HasSpace s r → RowOpen s (nreg 0x48) →
      (∃ t, exec (.norUnlockPe r) s = .next t
        ∧ t.nor.pe = (s.nor.pe || (r == .cores 0 || (r == .waggle && s.nor.bootFault))) ∧ t.nor.optWe = s.nor.optWe
        ∧ t.nor.array = s.nor.array ∧ t.regs = s.regs ∧ t.dies = s.dies)
      ∧ (∃ t, exec (.norUnlockOptWe r) s = .next t ∧ t.nor.optWe = (s.nor.optWe || r == .waggle) ∧ t.nor.pe = s.nor.pe
        ∧ t.nor.array = s.nor.array ∧ t.regs = s.regs ∧ t.dies = s.dies))

/-- The package watchdog and the PMBus master (R542, R556, R557, R559): only die 0's worker cores kick; an expiry while the watchdog
runs is a fault of die 0; a poll keeps what an output answers and asks for a second look at a fault, counts a poll without an answer,
and the third in a row, or a fault that stays, fails the output; a margin command goes to the selected output. An alert starts the
polls, which are rows of their own (log 96). -/
def Obligations.GuardServices : Prop :=
  ∀ (s : State),
    (∀ r, RowOpen s (greg Page.psu 0x1C4) →
      ∃ t, exec (.psuWdtKick r) s = .next t ∧ t.guard.psu.wdog = (s.guard.psu.wdog || r == .cores 0)
        ∧ t.nor.kicked = (s.nor.kicked || r == .cores 0) ∧ t.regs = s.regs ∧ t.dies = s.dies)
    ∧ (wdtRuns s = true → exec .packageWdtExpiry s = exec .die0Fault s
        ∧ (resetBlocked s = false → s.guard.resetLow = true →
            ∃ t, exec .packageWdtExpiry s = .next t ∧ t.guard.die0At = some s.guard.devTime
              ∧ ∀ d : DieId, (t.die d).phase = .reset))
    ∧ exec .pmbAlert s = .next s
    ∧ (∀ n : Fin 16, polled s n = true →
      (∀ st vin vout iout temp, registersOk s →
        ∃ t, exec (.pmbPoll n (.word st vin vout iout temp)) s = .next t
          ∧ railAt t n = { takeStatus st vin vout iout temp (railAt s n) with
              recheck := (railAt s n).recheck || faultBits st, failed := (railAt s n).failed && faultBits st }
          ∧ (∀ m, m ≠ n → railAt t m = railAt s m)
          ∧ regGet t (psuBase + 0x158) = satWord ((regGet s (psuBase + 0x158)).toNat + bitsSet st)
          ∧ (∀ a, a ≠ psuBase + 0x158 → regGet t a = regGet s a) ∧ t.dies = s.dies)
      ∧ ((railAt s n).noAns + 1 < 3 → registersOk s →
        ∃ t, exec (.pmbPoll n .none) s = .next t ∧ (railAt t n).noAns = (railAt s n).noAns + 1
          ∧ (railAt t n).failed = (railAt s n).failed
          ∧ regGet t (psuBase + 0x154) = satWord ((regGet s (psuBase + 0x154)).toNat + 1) ∧ t.dies = s.dies)
      ∧ (2 ≤ (railAt s n).noAns → ∃ t, exec (.pmbPoll n .none) s = .next t ∧ RailFailed s t n)
      ∧ ((railAt s n).recheck = true →
        (∀ st vin vout iout temp, faultBits st = false →
          ∃ t, exec (.pmbFaultRecheck n (.word st vin vout iout temp)) s = .next t
            ∧ railAt t n = { takeStatus st vin vout iout temp (railAt s n) with recheck := false } ∧ t.regs = s.regs
            ∧ t.dies = s.dies)
        ∧ (∀ st vin vout iout temp, faultBits st = true →
          ∃ t, exec (.pmbFaultRecheck n (.word st vin vout iout temp)) s = .next t ∧ RailFailed s t n)))
    ∧ (∀ r v i, HasSpace s r → RowWrites s .psu (psuBase + 0x10C) v → railUsed s (railSel s) = true →
      (i = .pmbMargin r v ∨ i = .pmbClear r v ∧ bitAt v 0 = true) →
      ∃ t, exec i s = .next t ∧ railAt t (railSel s) = { railAt s (railSel s) with margin := fld v 9 8, marginPct := fld v 23 16 }
        ∧ ∀ m, m ≠ railSel s → railAt t m = railAt s m)

/-! ### Resets and starts (chapters 1, 8 and 15) -/

/-- Resets of the package and what they keep (R11, R324, R535 to R537), stated with RESET_N held low, at which a start waits before
step 4: a cold reset leaves every register at its reset value and keeps what is on flash and in the NOR; a warm reset leaves every
register of the controller dies' windows at its reset value but for the kept ones; a short pulse is ignored; the restart after a power
loss turns the input and the charger on again, and in a hold that only a cold reset ends it starts no die. When RESET_N rises the start goes on: a bad option area or no valid slot stops it with
BOOT_FAULT, else the chosen slot runs and every present die that is not fenced comes up. -/
def Obligations.Resets : Prop :=
  ∀ (s : State), s.guard.resetLow = true →
    (∃ t, exec .coldReset s = .next t ∧ t.regs = [] ∧ t.part = s.part ∧ t.guard.devTime = 0 ∧ t.guard.off = false
      ∧ t.pkg.starting = true ∧ t.pkg.startCold = true ∧ t.nor.array = s.nor.array ∧ t.nor.journal = s.nor.journal
      ∧ t.nor.rootHash = s.nor.rootHash ∧ t.nor.svn = s.nor.svn ∧ t.mtr.log = s.mtr.log
      ∧ ∀ d : DieId, (t.die d).phase = .reset ∧ (t.die d).ktp.sessions = [] ∧ (t.die d).map.roots = (s.die d).map.roots
          ∧ (t.die d).map.journal = (s.die d).map.journal ∧ (t.die d).map.stored = (s.die d).map.stored ∧ (t.die d).mem = [])
    ∧ (resetBlocked s = false → s.pkg.starting = false →
      (∀ cause ns why, (cause = .resetN ∧ 1000 ≤ ns ∧ why = 1 ∨ cause = .resetDevice ∧ s.pkg.resetPend = true ∧ why = 2
          ∨ cause = .die0Fault ∧ why = 3 ∨ cause = .alarm ∧ why = 4) →
        ∃ t, exec (.warmReset cause ns) s = .next t ∧ t.pkg.starting = true ∧ t.pkg.startCold = false ∧ t.pkg.startWhy = why
          ∧ (∀ d : DieId, (t.die d).phase = .reset ∧ (t.die d).ktp.sessions = [] ∧ (t.die d).csq.cmds = [])
          ∧ ∀ a, winOf a < 8 → keptReg a = false → regGet t a = resetOf a)
      ∧ (∀ ns, ns < 100 → exec (.warmReset .resetN ns) s = .next s))
    ∧ (s.guard.losing = true → s.guard.lossDone = true → s.guard.off = false →
      s.guard.die0Hold = false → s.guard.alarmHold = false →
      ∃ t, exec .lossRestart s = .next t ∧ t.guard.losing = false ∧ t.guard.psu.orOn = true ∧ t.guard.psu.bank = .charging
        ∧ t.pkg.starting = true ∧ t.pkg.startWhy = 5 ∧ ∀ d : DieId, (t.die d).phase = .reset)
    ∧ (s.guard.losing = true → s.guard.lossDone = true → s.guard.off = false →
      s.guard.die0Hold = true ∨ s.guard.alarmHold = true →
      ∃ t, exec .lossRestart s = .next t ∧ t.guard.losing = false ∧ t.guard.psu.orOn = true ∧ t.guard.die0Hold = s.guard.die0Hold
        ∧ t.guard.alarmHold = s.guard.alarmHold ∧ t.dies = s.dies)
    ∧ (s.pkg.starting = false →
      ∃ t, exec .resetNRelease s = .next t ∧ t = { s with guard := { s.guard with resetLow := false } })
    ∧ (s.pkg.starting = true → (optLoad { s with guard := { s.guard with resetLow := false } }).nor.optOk = false →
      ∃ t, exec .resetNRelease s = .next t ∧ t.nor.bootFault = true ∧ t.pkg.starting = false ∧ (t.die 0).phase = .refused)
    ∧ (s.pkg.starting = true → s.pkg.startCold = false → s.guard.purge = false →
      (optLoad { s with guard := { s.guard with resetLow := false } }).nor.optOk = true →
      let c := chooseSlot (optLoad { s with guard := { s.guard with resetLow := false } }).nor s.pkg.startWhy
      (c.slot = none →
        ∃ t, exec .resetNRelease s = .next t ∧ t.nor.bootFault = true ∧ t.pkg.starting = false ∧ (t.die 0).phase = .refused)
      ∧ (∀ b, c.slot = some b →
        ∃ t, exec .resetNRelease s = .next t ∧ t.nor.running = b ∧ t.nor.cause = s.pkg.startWhy ∧ t.nor.pe = true
          ∧ t.nor.bootFault = false ∧ t.pkg.starting = false ∧ t.guard.resetLow = false
          ∧ ∀ d : DieId, present s d = true → (s.die d).phase ≠ .fenced → (t.die d).phase = .up))

/-! ### The cipher pipelines (chapter 9) -/

/-- The pipelines of CRY (R343, R355, R357): what one computes from the two key shares and two shares of the block is AES-256 of the
block, whatever its masks; a request's blocks count in one pipeline of the six, whose mask generator is seeded by a new draw of the
CTR_DRBG every 2^16 blocks. Which pipeline takes the request is a free choice (log 174). -/
def Obligations.CipherPipelines : Prop :=
  (∀ (masks : Nat → Byte) (s1 s2 blk : Bytes), s1.length = 32 → s2.length = 32 → blk.length = 16 →
    pipeEnc masks (s1, s2) blk = Crypto.aesEnc (xorBytes s1 s2) blk
      ∧ pipeDec masks (s1, s2) blk = Crypto.aesDec (xorBytes s1 s2) blk)
    ∧ (∀ (s : State) (d : DieId) (n : Nat), (s.die d).cry.pipes.length = 6 →
      ∃ i, i < 6 ∧
        let p := (s.die d).cry.pipes.getD i {}
        let q := ((cryBlocks s d n).die d).cry.pipes.getD i {}
        q.blocks = (p.blocks + n) % 65536
          ∧ (p.blocks + n < 65536 → q.seed = p.seed)
          ∧ (65536 ≤ p.blocks + n → s.draws < q.seed ∧ q.seed < (cryBlocks s d n).draws)
          ∧ (∀ j, j ≠ i → ((cryBlocks s d n).die d).cry.pipes.getD j {} = (s.die d).cry.pipes.getD j {})
          ∧ (∀ e, e ≠ d → (cryBlocks s d n).die e = s.die e) ∧ (cryBlocks s d n).regs = s.regs)
end

