-- ==== Sys2Proof/Laws/Cells.lean ====
section
/-! SUPPORT. The sparse stores: a read after a write, what a write leaves alone, and that every write keeps the canonical
form. Memory, the boot NOR and the registers are all of them such stores. -/
namespace Sys2Proof.Laws
open Sys2Proof Sys2Proof.Machine

variable {α : Type} [DecidableEq α] (dflt : Nat → α)

omit [DecidableEq α] in
/-- A list that lists only addresses above one reads that address as unlisted. -/
theorem cellGet_above (l : List (Nat × α)) (a : Nat) (h : l.all (fun p => decide (a < p.1)) = true) :
    cellGet dflt l a = dflt a := by
  induction l with
  | nil => rfl
  | cons p r ih =>
    simp only [List.all_cons, Bool.and_eq_true, decide_eq_true_eq] at h
    obtain ⟨b, w⟩ := p
    have hb : a ≠ b := Nat.ne_of_lt h.1
    simp only [cellGet, hb, if_false]
    exact ih h.2

/-- Addresses above one keep a bound when the list is written above it. -/
theorem cellSet_all_above (l : List (Nat × α)) (a b : Nat) (v : α) (hab : b < a)
    (h : l.all (fun p => decide (b < p.1)) = true) : (cellSet dflt l a v).all (fun p => decide (b < p.1)) = true := by
  induction l with
  | nil => unfold cellSet; split <;> simp [hab]
  | cons p r ih =>
    obtain ⟨c, w⟩ := p
    simp only [List.all_cons, Bool.and_eq_true, decide_eq_true_eq] at h
    unfold cellSet
    split
    · split
      · simp only [List.all_cons, Bool.and_eq_true, decide_eq_true_eq]; exact h
      · simp only [List.all_cons, Bool.and_eq_true, decide_eq_true_eq]; exact ⟨hab, h⟩
    · split
      · split
        · exact h.2
        · simp only [List.all_cons, Bool.and_eq_true, decide_eq_true_eq]; exact ⟨hab, h.2⟩
      · simp only [List.all_cons, Bool.and_eq_true, decide_eq_true_eq]; exact ⟨h.1, ih h.2⟩

/-- A write keeps the canonical form. -/
theorem cellSet_wf (l : List (Nat × α)) (a : Nat) (v : α) (h : cellWf dflt l = true) : cellWf dflt (cellSet dflt l a v) = true := by
  induction l with
  | nil =>
    unfold cellSet
    split
    · rfl
    · next hv => simp [cellWf, hv]
  | cons p r ih =>
    obtain ⟨b, w⟩ := p
    simp only [cellWf, Bool.and_eq_true, decide_eq_true_eq] at h
    unfold cellSet
    split
    · next hab =>
      split
      · simp only [cellWf, Bool.and_eq_true, decide_eq_true_eq]; exact h
      · next hv =>
        simp only [cellWf, List.all_cons, Bool.and_eq_true, decide_eq_true_eq]
        refine ⟨⟨hv, hab, ?_⟩, h⟩
        exact List.all_eq_true.2 (fun q hq => decide_eq_true (Nat.lt_trans hab (of_decide_eq_true (List.all_eq_true.1 h.1.2 q hq))))
    · split
      · next hab =>
        subst hab
        split
        · exact h.2
        · next hv => simp only [cellWf, Bool.and_eq_true, decide_eq_true_eq]; exact ⟨⟨hv, h.1.2⟩, h.2⟩
      · next hlt hne =>
        have hba : b < a := Nat.lt_of_le_of_ne (Nat.le_of_not_lt hlt) (fun q => hne q.symm)
        simp only [cellWf, Bool.and_eq_true, decide_eq_true_eq]
        exact ⟨⟨h.1.1, cellSet_all_above dflt r a b v hba h.1.2⟩, ih h.2⟩

/-- A read of the address written. -/
theorem cellGet_cellSet_self (l : List (Nat × α)) (a : Nat) (v : α) (h : cellWf dflt l = true) :
    cellGet dflt (cellSet dflt l a v) a = v := by
  induction l with
  | nil =>
    unfold cellSet
    split
    · next hv => exact hv.symm
    · simp [cellGet]
  | cons p r ih =>
    obtain ⟨b, w⟩ := p
    simp only [cellWf, Bool.and_eq_true, decide_eq_true_eq] at h
    unfold cellSet
    split
    · next hab =>
      split
      · next hv =>
        rw [hv]
        apply cellGet_above
        simp only [List.all_cons, Bool.and_eq_true, decide_eq_true_eq]
        exact ⟨hab, List.all_eq_true.2 (fun q hq => decide_eq_true (Nat.lt_trans hab (of_decide_eq_true (List.all_eq_true.1 h.1.2 q hq))))⟩
      · simp [cellGet]
    · split
      · next hab =>
        subst hab
        split
        · next hv => rw [hv]; exact cellGet_above dflt r a h.1.2
        · simp [cellGet]
      · next hne => simp only [cellGet, hne, if_false]; exact ih h.2

/-- A read of another address. -/
theorem cellGet_cellSet_ne (l : List (Nat × α)) (a c : Nat) (v : α) (hc : c ≠ a) :
    cellGet dflt (cellSet dflt l a v) c = cellGet dflt l c := by
  induction l with
  | nil =>
    unfold cellSet
    split
    · rfl
    · simp [cellGet, hc]
  | cons p r ih =>
    obtain ⟨b, w⟩ := p
    unfold cellSet
    split
    · split
      · rfl
      · simp [cellGet, hc]
    · split
      · next hab =>
        subst hab
        split <;> simp [cellGet, hc]
      · simp only [cellGet]
        split
        · rfl
        · exact ih

/-- Removing entries keeps the canonical form. -/
theorem cellWf_filter (l : List (Nat × α)) (p : Nat × α → Bool) (h : cellWf dflt l = true) : cellWf dflt (l.filter p) = true := by
  induction l with
  | nil => rfl
  | cons q r ih =>
    obtain ⟨b, w⟩ := q
    simp only [cellWf, Bool.and_eq_true, decide_eq_true_eq] at h
    rw [List.filter_cons]
    split
    · simp only [cellWf, Bool.and_eq_true, decide_eq_true_eq]
      exact ⟨⟨h.1.1, List.all_eq_true.2 (fun x hx => List.all_eq_true.1 h.1.2 x (List.mem_filter.1 hx).1)⟩, ih h.2⟩
    · exact ih h.2

omit [DecidableEq α] in
/-- A read of an address whose entry has not been removed. -/
theorem cellGet_filter_keep (l : List (Nat × α)) (p : Nat → Bool) (a : Nat) (h : p a = true) :
    cellGet dflt (l.filter (fun c => p c.1)) a = cellGet dflt l a := by
  induction l with
  | nil => rfl
  | cons q r ih =>
    obtain ⟨b, w⟩ := q
    rw [List.filter_cons]
    split
    · simp only [cellGet]; split
      · rfl
      · exact ih
    · next hp =>
      have : a ≠ b := fun e => hp (e ▸ h)
      simp only [cellGet, this, if_false]; exact ih

omit [DecidableEq α] in
/-- A read of an address whose entries have been removed. -/
theorem cellGet_filter_drop (l : List (Nat × α)) (p : Nat → Bool) (a : Nat) (h : p a = false) :
    cellGet dflt (l.filter (fun c => p c.1)) a = dflt a := by
  induction l with
  | nil => rfl
  | cons q r ih =>
    obtain ⟨b, w⟩ := q
    rw [List.filter_cons]
    split
    · next hp =>
      have : a ≠ b := fun e => by rw [← e, h] at hp; exact Bool.noConfusion hp
      simp only [cellGet, this, if_false]; exact ih
    · exact ih

/-! ### Byte strings -/

/-- Writing a byte string keeps the canonical form. -/
theorem cellsPut_wf (df : Nat → Byte) (m : List Host.Cell) (a : Nat) (b : Bytes) (h : cellWf df m = true) :
    cellWf df (cellsPut df m a b) = true := by
  induction b generalizing m a with
  | nil => exact h
  | cons x xs ih => exact ih _ _ (cellSet_wf df m a x h)

/-- A byte string leaves every address outside its span alone. -/
theorem cellGet_cellsPut_out (df : Nat → Byte) (m : List Host.Cell) (a c : Nat) (b : Bytes) (h : c < a ∨ a + b.length ≤ c) :
    cellGet df (cellsPut df m a b) c = cellGet df m c := by
  induction b generalizing m a with
  | nil => rfl
  | cons x xs ih =>
    simp only [List.length_cons] at h
    show cellGet df (cellsPut df (cellSet df m a x) (a + 1) xs) c = _
    rw [ih _ _ (by omega), cellGet_cellSet_ne df m a c x (by omega)]

/-- The byte string that was written is read back. -/
theorem cellsGet_cellsPut (df : Nat → Byte) (m : List Host.Cell) (a : Nat) (b : Bytes) (h : cellWf df m = true) :
    cellsGet df (cellsPut df m a b) a b.length = b := by
  induction b generalizing m a with
  | nil => rfl
  | cons x xs ih =>
    show cellGet df (cellsPut df (cellSet df m a x) (a + 1) xs) a :: cellsGet df (cellsPut df (cellSet df m a x) (a + 1) xs) (a + 1) xs.length = _
    rw [ih _ _ (cellSet_wf df m a x h), cellGet_cellsPut_out df _ _ _ _ (by omega), cellGet_cellSet_self df m a x h]

/-- A read of some cells and the cells after them is a read of all of them. -/
theorem cellsGet_add (df : Nat → Byte) (m : List Host.Cell) (a n k : Nat) :
    cellsGet df m a (n + k) = cellsGet df m a n ++ cellsGet df m (a + n) k := by
  induction n generalizing a with
  | zero => simp [cellsGet]
  | succ n ih =>
    rw [Nat.succ_add]
    show cellGet df m a :: cellsGet df m (a + 1) (n + k) = _
    rw [ih, show a + 1 + n = a + (n + 1) by omega]
    rfl

/-- A read does not see a front part of the store that lists none of its addresses. -/
theorem cellsGet_append_out (df : Nat → Byte) (m1 m2 : List Host.Cell) (a n : Nat)
    (h : m1.all (fun p => decide (p.1 < a) || decide (a + n ≤ p.1)) = true) : cellsGet df (m1 ++ m2) a n = cellsGet df m2 a n := by
  have key : ∀ (l : List Host.Cell) (c : Nat), l.all (fun p => decide (p.1 ≠ c)) = true →
      cellGet df (l ++ m2) c = cellGet df m2 c := by
    intro l c hl
    induction l with
    | nil => rfl
    | cons p r ih =>
      obtain ⟨b, w⟩ := p
      simp only [List.all_cons, Bool.and_eq_true, decide_eq_true_eq] at hl
      simp only [List.cons_append, cellGet, if_neg (Ne.symm hl.1)]
      exact ih hl.2
  simp only [List.all_eq_true, Bool.or_eq_true, decide_eq_true_eq] at h
  induction n generalizing a with
  | zero => rfl
  | succ n ih =>
    show cellGet df (m1 ++ m2) a :: _ = cellGet df m2 a :: _
    rw [key m1 a (by simp only [List.all_eq_true, decide_eq_true_eq]; intro p hp; have := h p hp; omega),
      ih (a + 1) (fun p hp => by have := h p hp; omega)]

/-- A read of addresses that a store does not list. -/
theorem cellsGet_unlisted (v : Byte) (m : List Host.Cell) (a n : Nat)
    (h : m.all (fun p => decide (p.1 < a) || decide (a + n ≤ p.1)) = true) :
    cellsGet (fun _ => v) m a n = List.replicate n v := by
  rw [← List.append_nil m, cellsGet_append_out _ _ _ _ _ h]
  induction n generalizing a with
  | zero => rfl
  | succ n ih => exact congrArg (v :: ·) (ih (a + 1) (by simp only [List.all_eq_true, Bool.or_eq_true, decide_eq_true_eq] at h ⊢; intro p hp; have := h p hp; omega))

end Sys2Proof.Laws
end

