-- ==== Sys2Proof/Laws/State.lean ====
section
/-! SUPPORT. What each update of the state leaves alone: one lemma per field and update, so that no later proof unfolds a
record update, and how `die` reads what `setDie` and `updDie` write. -/
namespace Sys2Proof.Laws
open Sys2Proof Sys2Proof.Machine

@[simp] theorem die_setDie_self (s : State) (d : DieId) (x : Die) : (s.setDie d x).die d = x := by
  show (s.dies.set d.val x d.isLt)[d.val] = x
  simp

theorem die_setDie_ne (s : State) (d e : DieId) (x : Die) (h : e ≠ d) : (s.setDie d x).die e = s.die e := by
  have hv : d.val ≠ e.val := fun q => h (Fin.ext q.symm)
  show (s.dies.set d.val x d.isLt)[e.val] = s.dies[e.val]
  rw [Vector.getElem_set_ne _ _ hv]

@[simp] theorem die_updDie_self (s : State) (d : DieId) (f : Die → Die) : (s.updDie d f).die d = f (s.die d) := by
  simp [State.updDie]

theorem die_updDie_ne (s : State) (d e : DieId) (f : Die → Die) (h : e ≠ d) : (s.updDie d f).die e = s.die e :=
  die_setDie_ne s d e _ h

theorem die_updDie (s : State) (d e : DieId) (f : Die → Die) :
    (s.updDie d f).die e = if e = d then f (s.die d) else s.die e := by
  by_cases h : e = d
  · subst h; simp
  · simp [h, die_updDie_ne s d e f h]

@[simp] theorem setDie_part (s : State) (d : DieId) (x : Die) : (s.setDie d x).part = s.part := rfl
@[simp] theorem updDie_part (s : State) (d : DieId) (f : Die → Die) : (s.updDie d f).part = s.part := rfl
@[simp] theorem setDie_guard (s : State) (d : DieId) (x : Die) : (s.setDie d x).guard = s.guard := rfl
@[simp] theorem updDie_guard (s : State) (d : DieId) (f : Die → Die) : (s.updDie d f).guard = s.guard := rfl
@[simp] theorem setDie_nor (s : State) (d : DieId) (x : Die) : (s.setDie d x).nor = s.nor := rfl
@[simp] theorem updDie_nor (s : State) (d : DieId) (f : Die → Die) : (s.updDie d f).nor = s.nor := rfl
@[simp] theorem setDie_wgl (s : State) (d : DieId) (x : Die) : (s.setDie d x).wgl = s.wgl := rfl
@[simp] theorem updDie_wgl (s : State) (d : DieId) (f : Die → Die) : (s.updDie d f).wgl = s.wgl := rfl
@[simp] theorem setDie_pkg (s : State) (d : DieId) (x : Die) : (s.setDie d x).pkg = s.pkg := rfl
@[simp] theorem updDie_pkg (s : State) (d : DieId) (f : Die → Die) : (s.updDie d f).pkg = s.pkg := rfl
@[simp] theorem setDie_mtr (s : State) (d : DieId) (x : Die) : (s.setDie d x).mtr = s.mtr := rfl
@[simp] theorem updDie_mtr (s : State) (d : DieId) (f : Die → Die) : (s.updDie d f).mtr = s.mtr := rfl
@[simp] theorem setDie_regs (s : State) (d : DieId) (x : Die) : (s.setDie d x).regs = s.regs := rfl
@[simp] theorem updDie_regs (s : State) (d : DieId) (f : Die → Die) : (s.updDie d f).regs = s.regs := rfl
@[simp] theorem setDie_latch (s : State) (d : DieId) (x : Die) : (s.setDie d x).latch = s.latch := rfl
@[simp] theorem updDie_latch (s : State) (d : DieId) (f : Die → Die) : (s.updDie d f).latch = s.latch := rfl
@[simp] theorem setDie_heldLo (s : State) (d : DieId) (x : Die) : (s.setDie d x).heldLo = s.heldLo := rfl
@[simp] theorem updDie_heldLo (s : State) (d : DieId) (f : Die → Die) : (s.updDie d f).heldLo = s.heldLo := rfl
@[simp] theorem setDie_answer (s : State) (d : DieId) (x : Die) : (s.setDie d x).answer = s.answer := rfl
@[simp] theorem updDie_answer (s : State) (d : DieId) (f : Die → Die) : (s.updDie d f).answer = s.answer := rfl
@[simp] theorem setDie_draws (s : State) (d : DieId) (x : Die) : (s.setDie d x).draws = s.draws := rfl
@[simp] theorem updDie_draws (s : State) (d : DieId) (f : Die → Die) : (s.updDie d f).draws = s.draws := rfl
@[simp] theorem setDie_pending (s : State) (d : DieId) (x : Die) : (s.setDie d x).pending = s.pending := rfl
@[simp] theorem updDie_pending (s : State) (d : DieId) (f : Die → Die) : (s.updDie d f).pending = s.pending := rfl
@[simp] theorem regSet_part (s : State) (a : Nat) (v : Word) : (regSet s a v).part = s.part := rfl
@[simp] theorem regSet_dies (s : State) (a : Nat) (v : Word) : (regSet s a v).dies = s.dies := rfl
@[simp] theorem regSet_guard (s : State) (a : Nat) (v : Word) : (regSet s a v).guard = s.guard := rfl
@[simp] theorem regSet_nor (s : State) (a : Nat) (v : Word) : (regSet s a v).nor = s.nor := rfl
@[simp] theorem regSet_wgl (s : State) (a : Nat) (v : Word) : (regSet s a v).wgl = s.wgl := rfl
@[simp] theorem regSet_pkg (s : State) (a : Nat) (v : Word) : (regSet s a v).pkg = s.pkg := rfl
@[simp] theorem regSet_mtr (s : State) (a : Nat) (v : Word) : (regSet s a v).mtr = s.mtr := rfl
@[simp] theorem regSet_latch (s : State) (a : Nat) (v : Word) : (regSet s a v).latch = s.latch := rfl
@[simp] theorem regSet_heldLo (s : State) (a : Nat) (v : Word) : (regSet s a v).heldLo = s.heldLo := rfl
@[simp] theorem regSet_answer (s : State) (a : Nat) (v : Word) : (regSet s a v).answer = s.answer := rfl
@[simp] theorem regSet_draws (s : State) (a : Nat) (v : Word) : (regSet s a v).draws = s.draws := rfl
@[simp] theorem regSet_pending (s : State) (a : Nat) (v : Word) : (regSet s a v).pending = s.pending := rfl
@[simp] theorem regSet_die (s : State) (a : Nat) (v : Word) (d : DieId) : (regSet s a v).die d = s.die d := rfl
@[simp] theorem regBump_part (s : State) (a k : Nat) : (regBump s a k).part = s.part := rfl
@[simp] theorem regBump_dies (s : State) (a k : Nat) : (regBump s a k).dies = s.dies := rfl
@[simp] theorem regBump_guard (s : State) (a k : Nat) : (regBump s a k).guard = s.guard := rfl
@[simp] theorem regBump_nor (s : State) (a k : Nat) : (regBump s a k).nor = s.nor := rfl
@[simp] theorem regBump_wgl (s : State) (a k : Nat) : (regBump s a k).wgl = s.wgl := rfl
@[simp] theorem regBump_pkg (s : State) (a k : Nat) : (regBump s a k).pkg = s.pkg := rfl
@[simp] theorem regBump_mtr (s : State) (a k : Nat) : (regBump s a k).mtr = s.mtr := rfl
@[simp] theorem regBump_latch (s : State) (a k : Nat) : (regBump s a k).latch = s.latch := rfl
@[simp] theorem regBump_heldLo (s : State) (a k : Nat) : (regBump s a k).heldLo = s.heldLo := rfl
@[simp] theorem regBump_answer (s : State) (a k : Nat) : (regBump s a k).answer = s.answer := rfl
@[simp] theorem regBump_draws (s : State) (a k : Nat) : (regBump s a k).draws = s.draws := rfl
@[simp] theorem regBump_pending (s : State) (a k : Nat) : (regBump s a k).pending = s.pending := rfl
@[simp] theorem regBump_die (s : State) (a k : Nat) (d : DieId) : (regBump s a k).die d = s.die d := rfl
@[simp] theorem regFld_part (s : State) (a hi lo x : Nat) : (regFld s a hi lo x).part = s.part := rfl
@[simp] theorem regFld_dies (s : State) (a hi lo x : Nat) : (regFld s a hi lo x).dies = s.dies := rfl
@[simp] theorem regFld_guard (s : State) (a hi lo x : Nat) : (regFld s a hi lo x).guard = s.guard := rfl
@[simp] theorem regFld_nor (s : State) (a hi lo x : Nat) : (regFld s a hi lo x).nor = s.nor := rfl
@[simp] theorem regFld_wgl (s : State) (a hi lo x : Nat) : (regFld s a hi lo x).wgl = s.wgl := rfl
@[simp] theorem regFld_pkg (s : State) (a hi lo x : Nat) : (regFld s a hi lo x).pkg = s.pkg := rfl
@[simp] theorem regFld_mtr (s : State) (a hi lo x : Nat) : (regFld s a hi lo x).mtr = s.mtr := rfl
@[simp] theorem regFld_latch (s : State) (a hi lo x : Nat) : (regFld s a hi lo x).latch = s.latch := rfl
@[simp] theorem regFld_heldLo (s : State) (a hi lo x : Nat) : (regFld s a hi lo x).heldLo = s.heldLo := rfl
@[simp] theorem regFld_answer (s : State) (a hi lo x : Nat) : (regFld s a hi lo x).answer = s.answer := rfl
@[simp] theorem regFld_draws (s : State) (a hi lo x : Nat) : (regFld s a hi lo x).draws = s.draws := rfl
@[simp] theorem regFld_pending (s : State) (a hi lo x : Nat) : (regFld s a hi lo x).pending = s.pending := rfl
@[simp] theorem regFld_die (s : State) (a hi lo x : Nat) (d : DieId) : (regFld s a hi lo x).die d = s.die d := rfl
@[simp] theorem regsDrop_part (s : State) (p : Nat → Bool) : (regsDrop s p).part = s.part := rfl
@[simp] theorem regsDrop_dies (s : State) (p : Nat → Bool) : (regsDrop s p).dies = s.dies := rfl
@[simp] theorem regsDrop_guard (s : State) (p : Nat → Bool) : (regsDrop s p).guard = s.guard := rfl
@[simp] theorem regsDrop_nor (s : State) (p : Nat → Bool) : (regsDrop s p).nor = s.nor := rfl
@[simp] theorem regsDrop_wgl (s : State) (p : Nat → Bool) : (regsDrop s p).wgl = s.wgl := rfl
@[simp] theorem regsDrop_pkg (s : State) (p : Nat → Bool) : (regsDrop s p).pkg = s.pkg := rfl
@[simp] theorem regsDrop_mtr (s : State) (p : Nat → Bool) : (regsDrop s p).mtr = s.mtr := rfl
@[simp] theorem regsDrop_latch (s : State) (p : Nat → Bool) : (regsDrop s p).latch = s.latch := rfl
@[simp] theorem regsDrop_heldLo (s : State) (p : Nat → Bool) : (regsDrop s p).heldLo = s.heldLo := rfl
@[simp] theorem regsDrop_answer (s : State) (p : Nat → Bool) : (regsDrop s p).answer = s.answer := rfl
@[simp] theorem regsDrop_draws (s : State) (p : Nat → Bool) : (regsDrop s p).draws = s.draws := rfl
@[simp] theorem regsDrop_pending (s : State) (p : Nat → Bool) : (regsDrop s p).pending = s.pending := rfl
@[simp] theorem regsDrop_die (s : State) (p : Nat → Bool) (d : DieId) : (regsDrop s p).die d = s.die d := rfl
@[simp] theorem drawBytes_part (s : State) (n : Nat) : (drawBytes s n).2.part = s.part := rfl
@[simp] theorem drawBytes_dies (s : State) (n : Nat) : (drawBytes s n).2.dies = s.dies := rfl
@[simp] theorem drawBytes_guard (s : State) (n : Nat) : (drawBytes s n).2.guard = s.guard := rfl
@[simp] theorem drawBytes_nor (s : State) (n : Nat) : (drawBytes s n).2.nor = s.nor := rfl
@[simp] theorem drawBytes_wgl (s : State) (n : Nat) : (drawBytes s n).2.wgl = s.wgl := rfl
@[simp] theorem drawBytes_pkg (s : State) (n : Nat) : (drawBytes s n).2.pkg = s.pkg := rfl
@[simp] theorem drawBytes_mtr (s : State) (n : Nat) : (drawBytes s n).2.mtr = s.mtr := rfl
@[simp] theorem drawBytes_regs (s : State) (n : Nat) : (drawBytes s n).2.regs = s.regs := rfl
@[simp] theorem drawBytes_latch (s : State) (n : Nat) : (drawBytes s n).2.latch = s.latch := rfl
@[simp] theorem drawBytes_heldLo (s : State) (n : Nat) : (drawBytes s n).2.heldLo = s.heldLo := rfl
@[simp] theorem drawBytes_answer (s : State) (n : Nat) : (drawBytes s n).2.answer = s.answer := rfl
@[simp] theorem drawBytes_pending (s : State) (n : Nat) : (drawBytes s n).2.pending = s.pending := rfl
@[simp] theorem drawBytes_die (s : State) (n : Nat) (d : DieId) : (drawBytes s n).2.die d = s.die d := rfl
@[simp] theorem drawBytes_draws (s : State) (n : Nat) : (drawBytes s n).2.draws = s.draws + n := rfl
@[simp] theorem memWrite_part (s : State) (d : DieId) (a : Nat) (b : Bytes) : (memWrite s d a b).part = s.part := rfl
@[simp] theorem memWrite_guard (s : State) (d : DieId) (a : Nat) (b : Bytes) : (memWrite s d a b).guard = s.guard := rfl
@[simp] theorem memWrite_nor (s : State) (d : DieId) (a : Nat) (b : Bytes) : (memWrite s d a b).nor = s.nor := rfl
@[simp] theorem memWrite_wgl (s : State) (d : DieId) (a : Nat) (b : Bytes) : (memWrite s d a b).wgl = s.wgl := rfl
@[simp] theorem memWrite_pkg (s : State) (d : DieId) (a : Nat) (b : Bytes) : (memWrite s d a b).pkg = s.pkg := rfl
@[simp] theorem memWrite_mtr (s : State) (d : DieId) (a : Nat) (b : Bytes) : (memWrite s d a b).mtr = s.mtr := rfl
@[simp] theorem memWrite_regs (s : State) (d : DieId) (a : Nat) (b : Bytes) : (memWrite s d a b).regs = s.regs := rfl
@[simp] theorem memWrite_latch (s : State) (d : DieId) (a : Nat) (b : Bytes) : (memWrite s d a b).latch = s.latch := rfl
@[simp] theorem memWrite_heldLo (s : State) (d : DieId) (a : Nat) (b : Bytes) : (memWrite s d a b).heldLo = s.heldLo := rfl
@[simp] theorem memWrite_answer (s : State) (d : DieId) (a : Nat) (b : Bytes) : (memWrite s d a b).answer = s.answer := rfl
@[simp] theorem memWrite_draws (s : State) (d : DieId) (a : Nat) (b : Bytes) : (memWrite s d a b).draws = s.draws := rfl
@[simp] theorem memWrite_pending (s : State) (d : DieId) (a : Nat) (b : Bytes) : (memWrite s d a b).pending = s.pending := rfl

end Sys2Proof.Laws
end

