-- ==== Sys2Proof/Laws/Registers.lean ====
section
/-! SUPPORT. The registers and the memory of the dies as stores: what each named operation over them does, once. -/
namespace Sys2Proof.Laws
open Sys2Proof Sys2Proof.Machine

/-- A register reads what it was set to. -/
theorem regGet_regSet_self (s : State) (a : Nat) (v : Word) (h : regsWf s.regs = true) : regGet (regSet s a v) a = v :=
  cellGet_cellSet_self resetOf s.regs a v h

/-- Setting a register leaves the others alone. -/
theorem regGet_regSet_ne (s : State) (a b : Nat) (v : Word) (h : b ≠ a) : regGet (regSet s a v) b = regGet s b :=
  cellGet_cellSet_ne resetOf s.regs a b v h

/-- Setting a register keeps the canonical form of the registers. -/
theorem regSet_wf (s : State) (a : Nat) (v : Word) (h : regsWf s.regs = true) : regsWf (regSet s a v).regs = true :=
  cellSet_wf resetOf s.regs a v h

/-- Dropping registers keeps their canonical form. -/
theorem regsDrop_wf (s : State) (p : Nat → Bool) (h : regsWf s.regs = true) : regsWf (regsDrop s p).regs = true :=
  cellWf_filter resetOf s.regs _ h

/-- A dropped register reads its reset value. -/
theorem regGet_regsDrop (s : State) (p : Nat → Bool) (a : Nat) :
    regGet (regsDrop s p) a = if p a then resetOf a else regGet s a := by
  unfold regGet regsDrop
  by_cases h : p a = true
  · rw [if_pos h]; exact cellGet_filter_drop resetOf s.regs (fun x => !p x) a (by simp [h])
  · rw [if_neg h]; exact cellGet_filter_keep resetOf s.regs (fun x => !p x) a (by simp [h])

@[simp] theorem regGet_updDie (s : State) (d : DieId) (f : Die → Die) (a : Nat) : regGet (s.updDie d f) a = regGet s a := rfl
@[simp] theorem regGet_setDie (s : State) (d : DieId) (x : Die) (a : Nat) : regGet (s.setDie d x) a = regGet s a := rfl

/-- Raising an interrupt sets its bit of INT_RAW and changes nothing else (R52). -/
theorem raiseInt_spec (s : State) (base bit : Nat) (h : regsWf s.regs = true) :
    regGet (raiseInt s base bit) (base + 0x10) = regGet s (base + 0x10) ||| BitVec.ofNat 32 (2 ^ bit)
      ∧ (∀ a, a ≠ base + 0x10 → regGet (raiseInt s base bit) a = regGet s a)
      ∧ (raiseInt s base bit).dies = s.dies ∧ (raiseInt s base bit).guard = s.guard := by
  refine ⟨regGet_regSet_self _ _ _ h, fun a ha => regGet_regSet_ne _ _ _ _ ha, rfl, rfl⟩

@[simp] theorem raiseInt_die (s : State) (base bit : Nat) (d : DieId) : (raiseInt s base bit).die d = s.die d := rfl
@[simp] theorem raiseInt_pending (s : State) (base bit : Nat) : (raiseInt s base bit).pending = s.pending := rfl
@[simp] theorem raiseInt_guard (s : State) (base bit : Nat) : (raiseInt s base bit).guard = s.guard := rfl

/-- Writing die-local memory keeps its canonical form on every die. -/
theorem memWrite_wf (s : State) (d e : DieId) (a : Nat) (b : Bytes) (h : memWf (s.die e).mem = true) :
    memWf ((memWrite s d a b).die e).mem = true := by
  unfold memWrite
  rw [die_updDie]
  split
  · next he => subst he; exact cellsPut_wf memBlank _ a b h
  · exact h

/-- Die-local memory reads back what was written. -/
theorem memRead_memWrite (s : State) (d : DieId) (a : Nat) (b : Bytes) (h : memWf (s.die d).mem = true) :
    memRead (memWrite s d a b) d a b.length = b := by
  unfold memRead memWrite
  rw [die_updDie_self]
  exact cellsGet_cellsPut memBlank _ a b h

/-- A write of die-local memory leaves every other byte of the package alone. -/
theorem memGet_memWrite_out (s : State) (d e : DieId) (a c : Nat) (b : Bytes) (h : e ≠ d ∨ c < a ∨ a + b.length ≤ c) :
    memGet (memWrite s d a b) e c = memGet s e c := by
  unfold memGet memWrite
  rw [die_updDie]
  split
  · next he =>
    subst he
    rcases h with h | h
    · exact absurd rfl h
    · exact cellGet_cellsPut_out memBlank _ a c b h
  · rfl

end Sys2Proof.Laws
end

