-- ==== Sys2Proof/Laws/Reply.lean ====
section
/-! SUPPORT. What sending on a session and completing a command can change, said once: the session's die, the counters, the
monitors and the ports, but nothing of what the dies store; and the one packet that a plain reply comes to. -/
namespace Sys2Proof.Laws
open Sys2Proof Sys2Proof.Machine Sys2Proof.Safety

/-- What replies and their bookkeeping leave alone: what the dies store, the commands that they hold, and the parts of the package
beside them; but the pipelines of CRY run, and an entry to DEEP may be abandoned. -/
structure Stores (s t : State) : Prop where
  map     : ∀ e, (t.die e).map = (s.die e).map
  comb    : ∀ e, (t.die e).comb = (s.die e).comb
  groups  : ∀ e, (t.die e).groups = (s.die e).groups
  fgr     : ∀ e, (t.die e).fgr = (s.die e).fgr
  flash   : ∀ e, (t.die e).flash = (s.die e).flash
  cry     : ∀ e, { (t.die e).cry with pipes := [] } = { (s.die e).cry with pipes := [] }
  tenants : ∀ e, (t.die e).tenants = (s.die e).tenants
  keys    : ∀ e, (t.die e).hashKeys = (s.die e).hashKeys
  phase   : ∀ e, (t.die e).phase = (s.die e).phase
  mem     : ∀ e, (t.die e).mem = (s.die e).mem
  cmds    : ∀ e, (t.die e).csq.cmds = (s.die e).csq.cmds
  inbox   : ∀ e, (t.die e).csq.inbox = (s.die e).csq.inbox
  marks   : ∀ e, (t.die e).csq.marks = (s.die e).csq.marks
  part    : t.part = s.part
  guard   : { t.guard with entry := 0 } = { s.guard with entry := 0 }
  nor     : t.nor = s.nor
  wgl     : t.wgl = s.wgl
  pkg     : t.pkg = s.pkg
  mtr     : t.mtr = s.mtr
  pending : t.pending = s.pending

theorem Stores.rfl' (s : State) : Stores s s := by constructor <;> intros <;> rfl

theorem Stores.trans {s t u : State} (h : Stores s t) (k : Stores t u) : Stores s u := by
  constructor <;> intros <;> first
    | rw [k.map, h.map] | rw [k.comb, h.comb] | rw [k.groups, h.groups] | rw [k.fgr, h.fgr] | rw [k.flash, h.flash]
    | rw [k.cry, h.cry] | rw [k.tenants, h.tenants] | rw [k.keys, h.keys] | rw [k.phase, h.phase] | rw [k.mem, h.mem]
    | rw [k.cmds, h.cmds] | rw [k.inbox, h.inbox] | rw [k.marks, h.marks] | rw [k.part, h.part] | rw [k.guard, h.guard]
    | rw [k.nor, h.nor] | rw [k.wgl, h.wgl] | rw [k.pkg, h.pkg] | rw [k.mtr, h.mtr] | rw [k.pending, h.pending]

/-- A change of one die that leaves the stores alone. -/
theorem Stores.upd (s : State) (d : DieId) (f : Die → Die)
    (h : ∀ x, (f x).map = x.map ∧ (f x).comb = x.comb ∧ (f x).groups = x.groups ∧ (f x).fgr = x.fgr ∧ (f x).flash = x.flash
      ∧ { (f x).cry with pipes := [] } = { x.cry with pipes := [] } ∧ (f x).tenants = x.tenants ∧ (f x).hashKeys = x.hashKeys ∧ (f x).phase = x.phase ∧ (f x).mem = x.mem
      ∧ (f x).csq.cmds = x.csq.cmds ∧ (f x).csq.inbox = x.csq.inbox ∧ (f x).csq.marks = x.csq.marks) : Stores s (s.updDie d f) := by
  have q := h (s.die d)
  constructor <;> first
    | rfl
    | (intro e; rw [die_updDie]; split
       · next he => subst he; simp only [q]
       · rfl)

theorem stores_reg (s : State) (a : Nat) (v : Word) : Stores s (regSet s a v) := by constructor <;> intros <;> rfl
theorem stores_raiseInt (s : State) (a n : Nat) : Stores s (raiseInt s a n) := stores_reg ..
theorem stores_regBump (s : State) (a n : Nat) : Stores s (regBump s a n) := stores_reg ..
theorem stores_putSess (s : State) (d : DieId) (k : Session) : Stores s (putSess s d k) := Stores.upd s d _ (fun _ => by simp)
theorem stores_delSess (s : State) (d : DieId) (n : Nat) : Stores s (delSess s d n) := Stores.upd s d _ (fun _ => by simp)
theorem stores_queueTx (s : State) (d : DieId) (p : PortId) (t : TxPkt) : Stores s (queueTx s d p t) := Stores.upd s d _ (fun _ => by simp)
theorem stores_meterAdd (s : State) (d : DieId) (t : Nat) (f : Meter → Meter) : Stores s (meterAdd s d t f) :=
  Stores.upd s d _ (fun _ => by simp)

theorem stores_draws (s : State) (n : Nat) : Stores s { s with draws := n } := by constructor <;> intros <;> rfl

theorem stores_cryBlocks (s : State) (d : DieId) (n : Nat) : Stores s (cryBlocks s d n) := by
  unfold cryBlocks pipeRun drawChoice
  exact ((stores_draws ..).trans (stores_draws ..)).trans (Stores.upd _ d _ (fun _ => by simp))

theorem stores_transmit (s : State) (d : DieId) (k : Session) (pt : Nat) (psn : Word) (re : Bool) (b : Bytes) :
    Stores s (transmit s d k pt psn re b).1 := by
  unfold transmit
  dsimp only
  generalize (k.enc && decide (2 ^ 64 ≤ k.txCtr + (if pt = 0x0A then 0 else 1))) = stop
  cases stop
  · simp only [Bool.false_eq_true, if_false]
    split
    · exact stores_putSess ..
    · refine Stores.trans ?_ (stores_putSess ..)
      refine Stores.trans ?_ (stores_queueTx ..)
      split
      · exact stores_cryBlocks ..
      · exact Stores.rfl' s
  · exact stores_putSess ..

theorem stores_sendNow (s : State) (d : DieId) (k : Session) (pt : Nat) (b : Bytes) : Stores s (sendNow s d k pt b).1 :=
  (stores_transmit ..).trans (stores_putSess ..)

theorem stores_sendSeq (s : State) (d : DieId) (k : Session) (pt : Nat) (b : Bytes) : Stores s (sendSeq s d k pt b).1 := by
  unfold sendSeq
  split
  · exact stores_sendNow ..
  · exact stores_putSess ..

theorem stores_foldSend (d : DieId) (l : List Bytes) (r : State × Session) (s : State) (h : Stores s r.1) :
    Stores s (l.foldl (fun r b => sendSeq r.1 d r.2 0x04 b) r).1 := by
  induction l generalizing r with
  | nil => exact h
  | cons b l ih => exact ih _ (h.trans (stores_sendSeq ..))

theorem stores_sendMsg (s : State) (d : DieId) (k : Session) (tag : Byte) (m : Bytes) : Stores s (sendMsg s d k tag m).1 :=
  stores_foldSend d _ _ s (Stores.rfl' s)

theorem stores_latSample (s : State) (d : DieId) (f : Monitor → Monitor) (b : Bool) :
    Stores s (if b then s.updDie d (fun x => { x with mon := f x.mon }) else s) := by
  split
  · exact Stores.upd s d _ (fun _ => by simp)
  · exact Stores.rfl' s

theorem stores_countReply (s : State) (d : DieId) (t c a st i o : Nat) (sent : Bool) : Stores s (countReply s d t c a st i o sent) := by
  unfold countReply
  dsimp only
  split
  · exact ((stores_meterAdd ..).trans (stores_latSample _ d (fun m => latSample m c t _) sent)).trans (stores_reg ..)
  · exact (stores_meterAdd ..).trans (stores_latSample _ d (fun m => latSample m c t _) sent)

/-- What a change of a die leaves alone when the die wakes. -/
abbrev Wakes (x y : Die) : Prop :=
  y.map = x.map ∧ y.comb = x.comb ∧ y.groups = x.groups ∧ y.fgr = x.fgr ∧ y.flash = x.flash
    ∧ { y.cry with pipes := [] } = { x.cry with pipes := [] } ∧ y.tenants = x.tenants ∧ y.hashKeys = x.hashKeys ∧ y.phase = x.phase
    ∧ y.mem = x.mem ∧ y.csq.cmds = x.csq.cmds ∧ y.csq.inbox = x.csq.inbox ∧ y.csq.marks = x.csq.marks

theorem wakeX_stores (x : Die) : Wakes x (wakeX x) := by
  unfold wakeX
  split
  · split <;> simp [Wakes]
  · simp [Wakes]

theorem undoDeepX_stores (n : Nat) (x : Die) : Wakes x (undoDeepX n x) := by
  unfold undoDeepX
  dsimp only
  split <;> split <;> simp [Wakes]

theorem stores_overDies (f : State → DieId → State) (h : ∀ s d, Stores s (f s d)) (ds : List DieId) (s : State) :
    Stores s (overDies f s ds) := by
  unfold overDies
  induction ds generalizing s with
  | nil => exact Stores.rfl' s
  | cons d ds ih => exact (h s d).trans (ih _)

theorem stores_noEntry (s : State) : Stores s (noEntry s) := by constructor <;> intros <;> rfl

theorem stores_undoDeep (s : State) (n : Nat) : Stores s (undoDeep s n) := by
  refine stores_overDies _ (fun u d => ?_) allDies s
  split
  · exact Stores.upd u d _ (fun x => undoDeepX_stores _ x)
  · exact Stores.rfl' u

theorem stores_abandonDeep (s : State) : Stores s (abandonDeep s) := by
  unfold abandonDeep
  split
  · exact Stores.rfl' s
  · exact ((stores_undoDeep s s.guard.entry).trans (stores_noEntry _)).trans ((stores_regBump ..).trans (stores_raiseInt ..))

theorem stores_wakeAt (s : State) (d : DieId) : Stores s (wakeAt s d) := by
  unfold wakeAt
  dsimp only
  refine (stores_abandonDeep s).trans ?_
  split
  · exact Stores.upd _ d _ (fun x => wakeX_stores x)
  · exact (Stores.upd _ d _ (fun x => wakeX_stores x)).trans (stores_reg ..)

theorem stores_giveBarrier (s : State) (e : DieId) (b : Barrier) : Stores s (giveBarrier s e b) :=
  (stores_wakeAt s e).trans (Stores.upd _ e _ (fun _ => by simp))

theorem stores_holdOut (s : State) (e : DieId) (m : Crossing) : Stores s (holdOut s e m) := Stores.upd s e _ (fun _ => by simp)

theorem stores_sendBarrier (s : State) (b : Barrier) : Stores s (sendBarrier s b) :=
  stores_overDies _ (fun s e => by
    split
    · exact stores_holdOut ..
    · exact stores_giveBarrier ..) _ s

theorem stores_endSession (s : State) (d : DieId) (k : Session) : Stores s (endSession s d k) :=
  ((((stores_delSess s d k.slot).trans (Stores.upd _ d _ (fun _ => by simp))).trans (stores_sendBarrier ..)).trans
    (stores_reg ..)).trans (stores_reg ..)

theorem stores_checkNonce (s : State) (d : DieId) (n : Nat) : Stores s (checkNonce s d n) := by
  unfold checkNonce
  split
  · exact Stores.rfl' s
  · split
    · exact (stores_transmit ..).trans (stores_endSession ..)
    · exact Stores.rfl' s

theorem stores_maybeClose (s : State) (d : DieId) (n g : Nat) : Stores s (maybeClose s d n g) := by
  unfold maybeClose
  split
  · exact Stores.rfl' s
  · split
    · exact (stores_sendSeq ..).trans (stores_checkNonce ..)
    · exact Stores.rfl' s

theorem stores_replyTo (s : State) (home : DieId) (slot gen : Nat) (tag : Byte) (a1 a2 a3 a4 op st a5 a6 a7 a8 : Nat) (data : Bytes)
    (nr : Bool) : Stores s (replyTo s home slot gen tag a1 a2 a3 a4 op st a5 a6 a7 a8 data nr) := by
  unfold replyTo
  split
  · exact stores_countReply ..
  · split
    · exact (stores_countReply ..).trans (stores_putSess ..)
    · dsimp only
      refine Stores.trans ?_ (stores_checkNonce ..)
      split
      · exact ((stores_countReply ..).trans (stores_sendMsg ..)).trans (Stores.upd _ home _ (fun _ => by simp [chargeReply]))
      · exact (stores_countReply ..).trans (stores_sendMsg ..)

theorem stores_answerAbort (s : State) (d : DieId) (a : Cmd) (n : Nat) : Stores s (answerAbort s d a n) :=
  ((Stores.upd s d _ (fun _ => by simp)).trans (stores_reg ..)).trans (stores_replyTo ..)

theorem stores_answerLate (n : Nat) (s : State) (d : DieId) (cid : Nat) : Stores s (answerLate n s d cid) := by
  induction n generalizing s with
  | zero => exact Stores.rfl' s
  | succ n ih =>
    unfold answerLate
    split
    · exact Stores.rfl' s
    · exact (stores_answerAbort ..).trans (ih _)

theorem stores_maybeReset (s : State) (d : DieId) (n g : Nat) : Stores s (maybeReset s d n g) := by
  unfold maybeReset
  split
  · exact Stores.rfl' s
  · split
    · exact Stores.rfl' s
    · split
      · exact Stores.rfl' s
      · split
        · exact (((stores_putSess ..).trans (Stores.upd _ d _ (fun _ => by simp))).trans (stores_replyTo ..)).trans
            (stores_answerLate ..)
        · exact Stores.rfl' s

theorem stores_afterReply (s : State) (d : DieId) (n g cid : Nat) : Stores s (afterReply s d n g cid) :=
  ((stores_answerLate ..).trans (stores_maybeReset ..)).trans (stores_maybeClose ..)

theorem stores_finish (s : State) (c : Cmd) (st aux ver len : Nat) (data : Bytes) : Stores s (finish s c st aux ver len data) :=
  (stores_replyTo ..).trans (stores_afterReply ..)

/-- A completing command leaves its die; beside that, nothing that the dies store or hold changes. -/
theorem complete_stores (s : State) (d : DieId) (c : Cmd) (st aux ver len : Nat) (data : Bytes) :
    Stores (dropCmd s d c.cid) (complete s d c st aux ver len data) := by
  unfold complete
  dsimp only
  split
  · exact stores_holdOut ..
  · exact stores_finish ..

/-! ### Waiting for a route -/

/-- Whether a message waits is a matter of the Swarm's ports alone. -/
theorem routeHeld_congr {s t : State} (hw : ∀ e, (t.die e).swm = (s.die e).swm) (hp : t.part = s.part) (n : Nat) (a b : DieId) :
    routeHeld t n a b = routeHeld s n a b := by
  induction n generalizing a with
  | zero => rfl
  | succ n ih => simp only [routeHeld, portNow, portWas, portOpen, linkWaits, linkOf, hw, hp, ih]

theorem waitsOut_congr {s t : State} (hw : ∀ e, (t.die e).swm = (s.die e).swm) (ho : ∀ e, (t.die e).out = (s.die e).out)
    (hp : t.part = s.part) (a b : DieId) : waitsOut t a b = waitsOut s a b := by
  simp only [waitsOut, routeHeld_congr hw hp, ho]

/-! ### The plain reply -/

/-- Storing a session makes it the one in its slot. -/
theorem sessGen_putSess (s : State) (d : DieId) (k : Session) : sessGen ((putSess s d k).die d) k.slot k.gen = some k := by
  simp [putSess, sessGen]

theorem sessOf_putSess (s : State) (d : DieId) (k : Session) : sessOf ((putSess s d k).die d) k.slot = some k := by
  simp [putSess, sessOf]

theorem ktp_queueTx (s : State) (d e : DieId) (p : PortId) (t : TxPkt) : ((queueTx s d p t).die e).ktp = (s.die e).ktp := by
  unfold queueTx; rw [die_updDie]; split
  · next h => subst h; rfl
  · rfl

/-- A sequenced packet sent on an unencrypted session: the session keeps it for acknowledgement. -/
theorem sendNow_plain (s : State) (d : DieId) (k : Session) (pt : Nat) (b : Bytes) (he : k.enc = false) :
    ∃ k' p, sendNow s d k pt b = (putSess (transmit s d k pt k.sndNext false b).1 d k', k')
      ∧ k'.slot = k.slot ∧ k'.gen = k.gen ∧ k'.unacked = k.unacked ++ [p] ∧ p.ptype = pt ∧ p.body = b
      ∧ k'.closeAt = k.closeAt ∧ k'.resetting = k.resetting ∧ k'.enc = k.enc := by
  have hk : (transmit s d k pt k.sndNext false b).2
      = { k with edge := nextEdge s d k, ackCount := 0 } := by
    unfold transmit; dsimp only; rw [he]; simp only [Bool.false_and, Bool.false_eq_true, if_false]; split <;> rfl
  refine ⟨_, { psn := k.sndNext, ptype := pt, body := b, retx := 0, fast := false, sacked := false,
               sentAt := (s.die d).mon.devTime }, rfl, ?_⟩
  rw [hk]
  simp

theorem chunks_one (n : Nat) (b : Bytes) (h0 : b ≠ []) (h : b.length ≤ n) : chunks n b = [b] := by
  unfold chunks
  cases b with
  | nil => exact absurd rfl h0
  | cons x r =>
    have h2 : (x :: r).drop n = [] := List.drop_eq_nil_of_le h
    have h3 : (x :: r).take n = x :: r := List.take_of_length_le h
    simp only [List.length_cons, chunksAux]
    rw [h2, h3]

theorem replyBytes_length (op st f a v o : Nat) (data : Bytes) : (replyBytes op st f a v o data).length = 24 + data.length := by
  simp [replyBytes, beBytes, leBytes]; omega

/-- A reply that fits one segment, on a session that is clear and whose window is open: one REPLY packet goes out. -/
theorem sendMsg_plain (s : State) (d : DieId) (k : Session) (tag : Byte) (m : Bytes) (h0 : m ≠ []) (hl : m.length ≤ k.maxSeg)
    (hw : txOpen k = true) (hb : k.backlog = []) (he : k.enc = false) :
    ∃ k' p, sessGen (((sendMsg s d k tag m).1).die d) k.slot k.gen = some k' ∧ k'.unacked = k.unacked ++ [p] ∧ p.ptype = 0x04
      ∧ p.body = segBytes tag true 0 ++ m ∧ k'.closeAt = k.closeAt ∧ k'.resetting = k.resetting ∧ k'.enc = k.enc
      ∧ sessOf (((sendMsg s d k tag m).1).die d) k.slot = some k' := by
  have hc : chunks (max 1 k.maxSeg) m = [m] := chunks_one _ m h0 (by omega)
  have hs : sendMsg s d k tag m = sendNow s d k 0x04 (segBytes tag true 0 ++ m) := by
    simp [sendMsg, hc, segmentsFrom, sendSeq, hw, hb]
  obtain ⟨k', p, hn, h1, h2, h3, h4, h5, h6, h7, h8⟩ := sendNow_plain s d k 0x04 (segBytes tag true 0 ++ m) he
  refine ⟨k', p, ?_, h3, h4, h5, h6, h7, h8, ?_⟩
  · rw [hs, hn, ← h1, ← h2]
    exact sessGen_putSess _ d k'
  · rw [hs, hn, ← h1]
    exact sessOf_putSess _ d k'

theorem ktp_countReply (s : State) (d e : DieId) (t c a st i o : Nat) (sent : Bool) :
    ((countReply s d t c a st i o sent).die e).ktp = (s.die e).ktp := by
  have hm : ∀ f, ((meterAdd s d t f).die e).ktp = (s.die e).ktp := by
    intro f; unfold meterAdd; rw [die_updDie]; split
    · next h => subst h; rfl
    · rfl
  have hl : ∀ (u : State) (f : Monitor → Monitor),
      ((if sent then u.updDie d (fun x => { x with mon := f x.mon }) else u).die e).ktp = (u.die e).ktp := by
    intro u f; split
    · rw [die_updDie]; split
      · next h => subst h; rfl
      · rfl
    · rfl
  unfold countReply
  dsimp only
  split
  · rw [raiseInt_die, hl _ (fun m => latSample m c t _), hm]
  · rw [hl _ (fun m => latSample m c t _), hm]

theorem ktp_charge (s : State) (d : DieId) (t n : Nat) :
    ((s.updDie d (fun x => chargeReply x t n)).die d).ktp = (s.die d).ktp := by
  rw [die_updDie_self]; rfl

/-- The reply of a command whose session can send it at once (R65, R80, R94). -/
theorem replyTo_plain (s : State) (c : Cmd) (k : Session) (inl st aux ver len : Nat) (data : Bytes) (h : CanReply s c k data.length) :
    ∃ k' p, sessGen ((replyTo s c.home c.slot c.gen c.tag c.tenant c.cls c.arrived inl c.hdr.opcode st 0 aux ver len data c.noReply).die
        c.home) c.slot c.gen = some k' ∧ k'.unacked = k.unacked ++ [p] ∧ p.ptype = 0x04
      ∧ p.body = segBytes c.tag true 0 ++ replyBytes c.hdr.opcode st 0 aux ver len data ∧ k'.closeAt = false ∧ k'.resetting = none := by
  have hid : k.slot = c.slot ∧ k.gen = c.gen := by
    have q := List.find?_some h.session
    simpa using q
  unfold replyTo
  rw [h.session]
  simp only [h.wanted]
  generalize hu : countReply s c.home c.tenant c.cls c.arrived st inl data.length true = u
  obtain ⟨k', p, e1, e2, e3, e4, e5, e6, e7, e8⟩ := sendMsg_plain u c.home k c.tag
    (replyBytes c.hdr.opcode st 0 aux ver len data) (by simp [replyBytes]) (by rw [replyBytes_length]; exact h.fits) h.window h.empty h.clear
  rw [hid.1, hid.2] at e1
  rw [hid.1] at e8
  refine ⟨k', p, ?_, e2, e3, e4, by rw [e5, h.stays], by rw [e6, h.free]⟩
  have hq : ∀ w : State, sessGen (w.die c.home) c.slot c.gen = some k' → sessOf (w.die c.home) c.slot = some k' →
      sessGen ((checkNonce w c.home c.slot).die c.home) c.slot c.gen = some k' := by
    intro w hw hw2
    unfold checkNonce
    rw [hw2]
    simp only [e7, h.clear, Bool.false_and]
    exact hw
  refine hq _ ?_ ?_
  · split
    · unfold sessGen; rw [ktp_charge]; exact e1
    · exact e1
  · split
    · unfold sessOf; rw [ktp_charge]; exact e8
    · exact e8

theorem sessGen_dropCmd (s : State) (d e : DieId) (cid slot gen : Nat) :
    sessGen ((dropCmd s d cid).die e) slot gen = sessGen (s.die e) slot gen := by
  unfold dropCmd sessGen; rw [die_updDie]; split
  · next h => subst h; rfl
  · rfl

theorem lateAbort_dropCmd (s : State) (d e : DieId) (cid n : Nat) :
    lateAbort ((dropCmd s d cid).die e) n = lateAbort (s.die e) n := by
  unfold dropCmd lateAbort; rw [die_updDie]; split
  · next h => subst h; rfl
  · rfl

theorem waitsOut_dropCmd (s : State) (d : DieId) (cid : Nat) (a b : DieId) : waitsOut (dropCmd s d cid) a b = waitsOut s a b := by
  have h : ∀ e, ((dropCmd s d cid).die e).swm = (s.die e).swm ∧ ((dropCmd s d cid).die e).out = (s.die e).out := by
    intro e; unfold dropCmd; rw [die_updDie]; split
    · next h => subst h; exact ⟨rfl, rfl⟩
    · exact ⟨rfl, rfl⟩
  exact waitsOut_congr (fun e => (h e).1) (fun e => (h e).2) rfl a b

theorem csq_sendMsg (s : State) (d e : DieId) (k : Session) (tag : Byte) (m : Bytes) :
    ((sendMsg s d k tag m).1.die e).csq = (s.die e).csq := by
  have hput : ∀ (u : State) (q : Session), ((putSess u d q).die e).csq = (u.die e).csq := by
    intro u q; unfold putSess; rw [die_updDie]; split
    · next h => subst h; rfl
    · rfl
  have htx : ∀ (u : State) (p : PortId) (t : TxPkt), ((queueTx u d p t).die e).csq = (u.die e).csq := by
    intro u p t; unfold queueTx; rw [die_updDie]; split
    · next h => subst h; rfl
    · rfl
  have hcry : ∀ (u : State) (n : Nat), ((cryBlocks u d n).die e).csq = (u.die e).csq := by
    intro u n; unfold cryBlocks pipeRun drawChoice; dsimp only; rw [die_updDie]; split
    · next h => subst h; rfl
    · rfl
  have htr : ∀ (u : State) (q : Session) (pt : Nat) (psn : Word) (re : Bool) (b : Bytes),
      (((transmit u d q pt psn re b).1).die e).csq = (u.die e).csq := by
    intro u q pt psn re b
    unfold transmit; dsimp only
    generalize (q.enc && decide (2 ^ 64 ≤ q.txCtr + (if pt = 0x0A then 0 else 1))) = stop
    cases stop
    · simp only [Bool.false_eq_true, if_false]
      split
      · exact hput ..
      · rw [hput, htx]; split
        · exact hcry ..
        · rfl
    · exact hput ..
  have hseq : ∀ (u : State) (q : Session) (b : Bytes), (((sendSeq u d q 0x04 b).1).die e).csq = (u.die e).csq := by
    intro u q b; unfold sendSeq; split
    · unfold sendNow; dsimp only; rw [hput, htr]
    · exact hput ..
  have hfold : ∀ (l : List Bytes) (r : State × Session),
      (((l.foldl (fun r b => sendSeq r.1 d r.2 0x04 b) r).1).die e).csq = (r.1.die e).csq := by
    intro l
    induction l with
    | nil => intro r; rfl
    | cons b l ih => intro r; rw [List.foldl_cons, ih, hseq]
  exact hfold _ _

theorem csq_countReply (s : State) (d e : DieId) (t c a st i o : Nat) (sent : Bool) :
    ((countReply s d t c a st i o sent).die e).csq = (s.die e).csq := by
  have hm : ∀ f, ((meterAdd s d t f).die e).csq = (s.die e).csq := by
    intro f; unfold meterAdd; rw [die_updDie]; split
    · next h => subst h; rfl
    · rfl
  have hl : ∀ (u : State) (f : Monitor → Monitor),
      ((if sent then u.updDie d (fun x => { x with mon := f x.mon }) else u).die e).csq = (u.die e).csq := by
    intro u f; split
    · rw [die_updDie]; split
      · next h => subst h; rfl
      · rfl
    · rfl
  unfold countReply
  dsimp only
  split
  · rw [raiseInt_die, hl _ (fun m => latSample m c t _), hm]
  · rw [hl _ (fun m => latSample m c t _), hm]

/-- A plain reply leaves the controls of the session's die alone. -/
theorem controls_replyTo (s : State) (c : Cmd) (k : Session) (inl st aux ver len : Nat) (data : Bytes)
    (h : CanReply s c k data.length) :
    ((replyTo s c.home c.slot c.gen c.tag c.tenant c.cls c.arrived inl c.hdr.opcode st 0 aux ver len data c.noReply).die
      c.home).csq.controls = (s.die c.home).csq.controls := by
  have hid : k.slot = c.slot ∧ k.gen = c.gen := by
    have q := List.find?_some h.session
    simpa using q
  unfold replyTo
  rw [h.session]
  simp only [h.wanted]
  generalize hu : countReply s c.home c.tenant c.cls c.arrived st inl data.length true = u
  have h1 : (u.die c.home).csq = (s.die c.home).csq := by rw [← hu]; exact csq_countReply ..
  obtain ⟨k', p, e1, e2, e3, e4, e5, e6, e7, e8⟩ := sendMsg_plain u c.home k c.tag
    (replyBytes c.hdr.opcode st 0 aux ver len data) (by simp [replyBytes]) (by rw [replyBytes_length]; exact h.fits) h.window h.empty
    h.clear
  rw [hid.1] at e8
  have h2 := csq_sendMsg u c.home c.home k c.tag (replyBytes c.hdr.opcode st 0 aux ver len data)
  generalize (sendMsg u c.home k c.tag (replyBytes c.hdr.opcode st 0 aux ver len data)).1 = w at e8 h2 ⊢
  have hn : ∀ w : State, sessOf (w.die c.home) c.slot = some k' → checkNonce w c.home c.slot = w := by
    intro w hw
    unfold checkNonce
    rw [hw]
    simp only [e7, h.clear, Bool.false_and, Bool.false_eq_true, if_false]
  simp only [Bool.false_eq_true, if_false]
  split
  · rw [hn]
    · rw [die_updDie_self]
      show (chargeReply (w.die c.home) c.tenant data.length).csq.controls = _
      unfold chargeReply
      rw [h2, h1]
    · unfold sessOf; rw [ktp_charge]; exact e8
  · rw [hn _ e8, h2, h1]

/-- A command that completes on a session that can answer at once: its reply goes out. -/
theorem complete_plain (s : State) (d : DieId) (c : Cmd) (k : Session) (st aux ver len : Nat) (data : Bytes)
    (h : CanReply s c k data.length) :
    Replied (complete s d c st aux ver len data) c k (replyBytes c.hdr.opcode st 0 aux ver len data) := by
  have h' : CanReply (dropCmd s d c.cid) c k data.length :=
    { h with
      session := by rw [sessGen_dropCmd]; exact h.session
      alone := by rw [lateAbort_dropCmd]; exact h.alone
      direct := fun e => by rw [waitsOut_dropCmd]; exact h.direct e }
  obtain ⟨k', p, e1, e2, e3, e4, e5, e6⟩ := replyTo_plain (dropCmd s d c.cid) c k (bytesIn c) st aux ver len data h'
  have hc := controls_replyTo (dropCmd s d c.cid) c k (bytesIn c) st aux ver len data h'
  refine ⟨k', p, ?_, e2, e3, e4⟩
  unfold complete
  dsimp only
  rw [h'.direct d]
  simp only [Bool.false_eq_true, if_false]
  unfold finish
  generalize replyTo (dropCmd s d c.cid) c.home c.slot c.gen c.tag c.tenant c.cls c.arrived (bytesIn c) c.hdr.opcode st 0 aux ver len
    data c.noReply = u at e1 hc ⊢
  have hl : lateAbort (u.die c.home) c.cid = none := by
    have q := h'.alone
    unfold lateAbort at q ⊢
    rw [hc]; exact q
  have ha : ∀ n, answerLate n u c.home c.cid = u := by
    intro n; cases n with
    | zero => rfl
    | succ n => unfold answerLate; rw [hl]
  unfold afterReply settleSess
  rw [ha]
  have hm : maybeReset u c.home c.slot c.gen = u := by unfold maybeReset; rw [e1]; simp only [e6]
  rw [hm]
  have hm2 : maybeClose u c.home c.slot c.gen = u := by unfold maybeClose; rw [e1]; simp [e5]
  rw [hm2]
  exact e1

/-- A command that completes is no longer on its die. -/
theorem complete_gone (s : State) (d : DieId) (c : Cmd) (st aux ver len : Nat) (data : Bytes) :
    cmdOf ((complete s d c st aux ver len data).die d) c.cid = none := by
  unfold cmdOf
  rw [(complete_stores s d c st aux ver len data).cmds d]
  simp [dropCmd]

end Sys2Proof.Laws
end

