-- ==== Sys2Proof/WellFormed.lean ====
section
/-! DEFINITION. The well-formed commands: what the spec's encodings and operand widths allow of a command's operands. A
command that is not well-formed is no event that the hardware can see; the machine's meanings do not depend on this check. -/
namespace Sys2Proof

/-- A UDP datagram over IP and Ethernet: addresses, ports and tags in their field widths, a payload that one datagram can
carry (R56 to R58). -/
def datagramOk (g : Datagram) : Bool :=
  decide (g.srcIp < if g.v6 then 2 ^ 128 else 2 ^ 32) && decide (g.srcUdp < 65536) && decide (g.dstUdp < 65536)
    && decide (g.srcMac < 2 ^ 48) && g.vlan.all (fun v => decide (v < 4096)) && decide (g.pcp < 8) && decide (g.dscp < 64)
    && decide (g.payload.length ≤ 65527)

/-- A frame has at least its two addresses and its type (R411). -/
def frameOk (f : Frame) : Bool := decide (14 ≤ f.bytes.length)

/-- An NSID names a namespace: neither 0 nor 0xFFFFFFFF (R339). -/
def nsidOk (n : Nat) : Bool := decide (1 ≤ n ∧ n < 0xFFFFFFFF)

/-- The base address of a 64 KiB page (R34). -/
def pageAligned (a : Word) : Bool := decide (a.toNat % 0x10000 = 0)

/-- The widths in which an access can be made, in bytes; only 4 is carried out (R7). -/
def widthOk (n : Nat) : Bool := [1, 2, 4, 8].contains n

/-- A signed 16-bit measurement (R305). -/
def half16 (i : Int) : Bool := decide (-32768 ≤ i ∧ i ≤ 32767)

/-- The sensors of a sample place: 12 on a controller die; 2 on the guard die, where up to 8 external readings may follow
(R510, R511). -/
def readingsOk (w : Site) (l : List Int) : Bool :=
  match w with
  | .die _ => decide (l.length = 12)
  | .guard => decide (2 ≤ l.length ∧ l.length ≤ 10)

/-- A sensor of a sample place. -/
def sensorAt (w : Site) (n : Fin 12) : Bool :=
  match w with
  | .die _ => true
  | .guard => decide (n.val < 2)

/-- Where an alarm source lies (R360): tamper inputs on the guard die, the unlock of Waggle at die 0, the others on a
controller die. -/
def alarmAt (src : AlarmSource) (w : Site) : Bool :=
  match src, w with
  | .tamper _, .guard => true
  | .tamper _, _ => false
  | .waggle, .die d => d == 0
  | _, .die _ => true
  | _, .guard => false

/-- A flit does not leave and arrive at one die (R18). -/
def flitOk (f : Flit) : Bool := f.src != f.dst

/-- The measured values of a PMBus answer are 16-bit words (R556). -/
def pmbOk (a : PmbAnswer) : Bool :=
  match a with
  | .none => true
  | .word _ vin vout iout temp => decide (vin < 65536) && decide (vout < 65536) && decide (iout < 65536) && decide (temp < 65536)

/-- A command's operands lie in the ranges that the spec gives them. -/
def WellFormed (i : Instr) : Bool :=
  match i with
  | .coldReset => true
  | .warmReset _ _ => true
  | .softReset _ base _ => pageAligned base
  | .softResetDone base => pageAligned base
  | .pageLock _ base _ => pageAligned base
  | .registerWrite _ _ width _ => widthOk width
  | .intStatClear _ base _ _ => pageAligned base
  | .intTest _ base _ => pageAligned base
  | .errCodeRead _ base => pageAligned base
  | .pairLoRead _ _ => true
  | .pairHiRead _ _ => true
  | .pairLoWrite _ _ _ => true
  | .pairHiWrite _ _ _ => true
  | .openPkt _ _ g => datagramOk g
  | .openRefuseWindow _ _ => true
  | .openRcvdTimeout _ slot => decide (slot < 4096)
  | .cmdSegment _ _ g => datagramOk g
  | .dataOut _ _ g => datagramOk g
  | .ack _ _ g => datagramOk g
  | .close _ _ g => datagramOk g
  | .closingTimeout _ slot => decide (slot < 4096)
  | .terminate _ _ g => datagramOk g
  | .terminateBarrier _ => true
  | .ackDelayExpiry _ slot => decide (slot < 4096)
  | .rtoExpiry _ slot => decide (slot < 4096)
  | .idleTimeout _ slot => decide (slot < 4096)
  | .grantIssue _ _ => true
  | .grantTimeout _ _ => true
  | .rateAdmit _ slot => decide (slot < 4096)
  | .tokenRefill _ tenant => decide (tenant < 4096)
  | .cmdIntake _ => true
  | .csqDispatch _ => true
  | .urgentRefill _ => true
  | .get _ _ => true
  | .put _ _ => true
  | .delete _ _ => true
  | .stat _ _ => true
  | .read _ _ => true
  | .write _ _ => true
  | .trim _ _ => true
  | .flush _ _ => true
  | .flushBarrier _ => true
  | .flushConfirm _ _ => true
  | .abort _ _ => true
  | .nop _ _ => true
  | .identifyTenant _ _ => true
  | .resetSession _ _ => true
  | .resetSessionBarrier _ => true
  | .meterRead _ _ => true
  | .regRead _ _ => true
  | .regWrite _ _ => true
  | .resetDevice _ _ => true
  | .tenantSet _ _ => true
  | .nsCreate _ _ => true
  | .nsDelete _ _ => true
  | .keyInstall _ _ => true
  | .fwDownload _ _ _ => true
  | .fwActivate _ _ => true
  | .actDrainDone => true
  | .actDrainTimeout => true
  | .format _ _ => true
  | .logRead _ _ => true
  | .clockSet _ _ => true
  | .bucketLookupDone _ _ _ => true
  | .nectarAdmit _ => true
  | .packerStripe _ => true
  | .checkpoint _ => true
  | .mapCkptNow _ _ => true
  | .slcTargetRecompute _ => true
  | .mapLockTimeout _ _ tenant nsid _ _ => decide (tenant < 4096) && nsidOk nsid
  | .fgrScore _ => true
  | .fgrReclaim _ => true
  | .cmbDrainFence _ => true
  | .fgrEraseStart _ => true
  | .fgrRecount _ _ => true
  | .fgrRecountDone _ => true
  | .readOnlyEnter _ => true
  | .flashOpIssue _ _ => true
  | .flashReadComplete _ _ _ => true
  | .flashProgramComplete _ _ _ => true
  | .flashEraseComplete _ _ _ _ _ => true
  | .lunTimeout _ _ => true
  | .rbStuck _ _ => true
  | .channelRetrainDone _ _ _ bad => bad.all (fun k => decide (k < 64))
  | .degradedReadTimeout _ _ => true
  | .tokenPeriod _ => true
  | .tokenAllocate => true
  | .cmbInvalidate _ _ _ => true
  | .cmbWrite _ _ _ => true
  | .cmbValidate _ _ _ => true
  | .cmbResult _ _ _ => true
  | .cmbInvMasked _ _ _ => true
  | .cmbUpdateDone _ => true
  | .cmbSlotReclaimDone _ => true
  | .cmbSearch _ _ _ => true
  | .cmbSearchResult _ => true
  | .cmbShift _ _ _ => true
  | .cmbShiftDone _ => true
  | .hceOuterSample _ meas => half16 meas
  | .hceInnerSample _ meas => half16 meas
  | .hceClampTimeout _ => true
  | .fanFault _ => true
  | .hceTraceArm _ _ _ => true
  | .hceTraceFire _ _ _ => true
  | .traceStop _ => true
  | .hceTrDataRead _ => true
  | .bankOv vbank => decide (vbank < 65536)
  | .chargerRestart => true
  | .bankTestStart => true
  | .bankTestDue => true
  | .psuTestNow _ => true
  | .bankTestDischarge _ _ => true
  | .bankTestLowReached => true
  | .bankTestDone _ => true
  | .bankTestTimeout => true
  | .dirtyLimitUpdate vin vbank vhold vLow => decide (vin < 65536) && decide (vbank < 65536) && decide (vhold < 65536) && decide (vLow < 65536)
  | .powerLoss => true
  | .dieFlushDone _ => true
  | .flushShort => true
  | .lossRestart => true
  | .psuLossInfoRead _ => true
  | .dieFault _ _ => true
  | .dieResetDone _ => true
  | .die0Fault => true
  | .coreWdtExpiry _ _ => true
  | .wrkKick _ _ _ => true
  | .idleEntry _ => true
  | .sleepEntry _ => true
  | .deepRequest _ => true
  | .deepEntry => true
  | .wake _ => true
  | .pllLock _ => true
  | .clockDomainRegate _ page => decide (page < 4096)
  | .pkgOff _ => true
  | .pkgWake _ => true
  | .rtcAlarm => true
  | .wakeNLow _ => true
  | .mgtHealth _ => true
  | .mgtState _ => true
  | .mgtTemp _ => true
  | .mgtVin _ => true
  | .mgtVbank _ => true
  | .mgtBank _ => true
  | .mgtDies _ => true
  | .mgtWake _ _ _ => true
  | .mgtUnknownCode _ _ => true
  | .mgtBusTimeout _ => true
  | .thmSample at_ readings => readingsOk at_ readings
  | .thmStateExit _ => true
  | .sensorRecover at_ n => sensorAt at_ n
  | .thmStage2 _ => true
  | .thermalRestart _ => true
  | .thmTrimUpdate _ => true
  | .thmLoaded _ _ _ => true
  | .alarm src at_ => alarmAt src at_
  | .alarmRecover => true
  | .entropyHealthFail _ => true
  | .drbgReseed _ => true
  | .ctrBoundRequest _ slot => decide (slot < 8192)
  | .minuteBoundary => true
  | .meterPartial _ => true
  | .meterSeal => true
  | .meterDieTimeout _ => true
  | .capSample _ => true
  | .devtimeSync _ _ => true
  | .wallMark => true
  | .levelSample _ => true
  | .latSel _ _ _ => true
  | .eventRecord _ _ value => decide (value < 2 ^ 32)
  | .evrRefill _ => true
  | .evrSel _ _ _ => true
  | .evrClearAll _ _ => true
  | .rxFrame _ _ f => frameOk f
  | .pfcPauseExpire _ _ _ => true
  | .pfcResend _ _ => true
  | .pfcWatchdog _ _ _ => true
  | .txFrame _ _ _ => true
  | .linkUp _ _ => true
  | .linkDown _ _ => true
  | .linkTrainFail _ _ => true
  | .ethSnap _ _ _ _ => true
  | .ethFltAct _ _ _ _ => true
  | .ethAddrCfg _ _ _ _ => true
  | .dmcRefresh _ _ => true
  | .neighbourRefresh _ _ _ _ => true
  | .dmcLfsrReseed _ => true
  | .dmcScrub _ addr _ => decide (addr < 2 ^ 40)
  | .dmcTrainOp _ _ _ => true
  | .dmcTrainDone _ errors _ => errors.all (fun e => decide (e < 2 ^ 32))
  | .bpmPoolEnable _ _ _ => true
  | .bpmAlloc _ _ owner => decide (owner < 256)
  | .bpmAdd _ addr actor owner => decide (addr < 2 ^ 40) && decide (actor < 256) && decide (owner < 256)
  | .bpmMove _ addr src dst => decide (addr < 2 ^ 40) && decide (src < 256) && decide (dst < 256)
  | .bpmDrop _ addr owner => decide (addr < 2 ^ 40) && decide (owner < 256)
  | .bpmFree _ _ addr => decide (addr < 2 ^ 40)
  | .bpmSweep _ _ _ => true
  | .bpmSweepDone _ => true
  | .bpmUnfence _ _ _ => true
  | .bpmMinFreeRead _ _ => true
  | .movDoorbell _ _ _ => true
  | .gather _ => true
  | .scatter _ => true
  | .copy _ => true
  | .movPulse _ => true
  | .icuEvent _ src => decide (src < 512)
  | .icuClaim _ _ => true
  | .icuComplete _ _ _ => true
  | .icuSwset _ _ _ => true
  | .icuHoldoffExpiry _ _ => true
  | .swmFlitRx _ _ f => flitOk f
  | .swmReplayTimeout _ _ => true
  | .swmRetrainDone _ _ _ => true
  | .swmRetire _ _ _ _ => true
  | .swmRouteSwitch _ _ => true
  | .swmCreditTimeout _ _ => true
  | .wglLineSync => true
  | .readStatus _ => true
  | .writeCtrl _ _ _ => true
  | .writeAddr _ _ _ => true
  | .readData _ => true
  | .writeData _ _ _ => true
  | .readChal _ => true
  | .writeResp _ _ _ => true
  | .readId _ => true
  | .wglResponseVerify => true
  | .wglGrant => true
  | .wglHaltReq _ _ _ => true
  | .wglResume _ _ _ => true
  | .wglStep _ _ _ => true
  | .coreHalt _ _ _ => true
  | .wglBreakpoint _ _ _ => true
  | .wglMemAccess _ _ _ => true
  | .wglCregAccess _ _ _ => true
  | .norProgram _ _ => true
  | .norErase _ _ => true
  | .norOpDone => true
  | .norUnlockPe _ => true
  | .norUnlockOptWe _ => true
  | .journalCompact => true
  | .fwConfirm => true
  | .svnCommit => true
  | .psuWdtKick _ => true
  | .packageWdtExpiry => true
  | .pmbPoll _ a => pmbOk a
  | .pmbAlert => true
  | .pmbFaultRecheck _ a => pmbOk a
  | .pmbMargin _ _ => true
  | .pmbClear _ _ => true
  | .resetNRelease => true
  | .bankExhausted => true
  | .entropyStartupPass _ => true

end Sys2Proof
end

