-- ==== Sys2Proof/Tests/Slice0.lean ====
section
/-! SUPPORT. The model's own tests: an ill-formed operand for each check of WellFormed; for each statement with hypotheses a
witness that meets them all, clause by clause; and single steps whose results the spec states in numbers. -/
namespace Sys2Proof.Tests
open Sys2Proof Sys2Proof.Machine Sys2Proof.Safety
set_option Elab.async false

/-! ### Small states -/

/-- Every die runs, and the blocks of dies 0, 1 and 7 are enabled; nothing else differs from reset. -/
def up : State :=
  { State.reset with
    dies := Vector.replicate 8 { phase := .up }
    regs := ([0, 1, 7] : List DieId).flatMap (fun d => workPages.map (fun p => (dreg d p 8, 1))) }

/-- `up` with one die changed. -/
def upDie (d : DieId) (f : Die → Die) : State := up.updDie d f

/-- `up` with the guard die changed. -/
def upGuard (f : Guard → Guard) : State := { up with guard := f up.guard }

/-- `up` with registers set, from the first to the last. -/
def upRegs (l : List (Nat × Word)) : State := l.foldl (fun s p => regSet s p.1 p.2) up

/-- Whether an exec answers a next state of which a test holds. -/
def gives (c : Instr) (s : State) (p : State → Bool) : Bool :=
  match exec c s with
  | .next t => p t
  | _ => false

/-- A window that answers, as a test. -/
def reachB (s : State) (a : Nat) : Bool :=
  windowOpen s a && allDies.all (fun d => winOf a != d.val || (running s d && (s.die d).csq.ps == .run && (s.die d).csq.stage == 0 && s.guard.entry == 0))

theorem all_dies : ∀ d : DieId, d ∈ allDies := by decide

theorem reachable_of {s : State} {a : Nat} (h : reachB s a = true) : Reachable s a := by
  simp only [reachB, Bool.and_eq_true, List.all_eq_true, Bool.or_eq_true, bne_iff_ne, beq_iff_eq] at h
  refine ⟨h.1, fun d hd => ?_⟩
  have := h.2 d (all_dies d)
  rcases this with h1 | h1
  · exact absurd hd h1
  · exact ⟨h1.1.1.1, h1.1.1.2, h1.1.2, h1.2⟩

/-- A page that answers, as a test. -/
theorem pageOpen_of {s : State} {b : Block} {a : Nat} (h : (offOf a == 0 && blockAt a == some b && reachB s a) = true) :
    PageOpen s b a := by
  simp only [Bool.and_eq_true, beq_iff_eq] at h
  exact ⟨h.1.1, h.1.2, reachable_of h.2⟩

/-- A register that is open, as a test. -/
theorem regOpen_of {s : State} {b : Block} {a : Nat} {q : RegSpec}
    (h : (blockAt a == some b && decide (0x40 ≤ offOf a) && regSpec b (offOf a) == some q && reachB s a
      && !softResetting s (baseOf a)) = true) : RegOpen s b a q := by
  simp only [Bool.and_eq_true, beq_iff_eq, decide_eq_true_eq, Bool.not_eq_true'] at h
  exact ⟨h.1.1.1.1, h.1.1.1.2, h.1.1.2, reachable_of h.1.2, h.2⟩

/-- A register whose write has an action of its own, as a test. -/
def rowB (s : State) (b : Block) (a : Nat) (v : Word) : Bool :=
  reachB s a && !softResetting s (baseOf a) && blockAt a == some b && condOk s b a v
    && (match regSpec b (offOf a) with
        | some q => valuesOk q v
        | none => false)

theorem rowOpen_of {s : State} {a : Nat} (h : (reachB s a && !softResetting s (baseOf a)) = true) : RowOpen s a := by
  simp only [Bool.and_eq_true, Bool.not_eq_true'] at h
  exact ⟨reachable_of h.1, h.2⟩

theorem rowWrites_of {s : State} {b : Block} {a : Nat} {v : Word} (h : rowB s b a v = true) : RowWrites s b a v := by
  unfold rowB at h
  simp only [Bool.and_eq_true, beq_iff_eq, Bool.not_eq_true'] at h
  obtain ⟨⟨⟨⟨h1, h2⟩, h3⟩, hc⟩, h4⟩ := h
  refine ⟨⟨reachable_of h1, h2⟩, h3, hc, ?_⟩
  split at h4
  · rename_i q hq
    exact ⟨q, hq, h4⟩
  · exact absurd h4 (by decide)

/-- An established, unencrypted session of tenant 3 in slot 5. -/
def sess : Session :=
  { slot := 5, gen := 1, tenant := 3, enc := false, st := .established, v6 := false, peerIp := 0x0A000001, peerUdp := 40000,
    peerMac := 0x020000000001, vlan := none, pcp := 0, dscp := 0, port := 0, hostNonce := [], openReply := [], maxSeg := 4096,
    rcvNext := 0xFFFFFFFF, rcvSeen := [], edge := 64, asm := [], ackCount := 0, replayTop := none, replaySet := [],
    sndNext := 0xFFFFFFFF, sndEdge := 64, unacked := [], backlog := [], srtt := none, rttvar := 0, rto := 100000, backoff := 100000,
    txCtr := 0, tags := [], held := [], rateHold := false, resetting := none, closeAt := false, closeSent := false }

/-- A command header with nothing but an opcode. -/
def hdr (op : Nat) : CmdHdr :=
  { opcode := op, cls := 1, mflags := 0, nsid := 1, keyLen := 0, valueLen := 0, version := 0, arg := 0 }

/-- A command of the session `sess` of die 1. -/
def cmd (op : Nat) : Cmd :=
  { cid := 9, home := 1, slot := 5, gen := 1, tag := 7, tenant := 3, hdr := hdr op, key := [], inline := [], hash := 0, cls := 1,
    owner := 1, seq := 0, phase := .dispatched, core := 0, arrived := 0, chgCls := 1, funded := false, noReply := false, grants := [],
    nextOff := 0, gseq := 0, got := [], value := [], fixed := none, ra := none, reads := 0, failed := false, waits := [],
    released := false }

/-- A packet sent and not yet acknowledged. -/
def sent : SentPkt :=
  { psn := 0xFFFFFFFF, ptype := 4, body := segBytes 7 true 0, retx := 0, fast := false, sacked := false, sentAt := 0 }

/-- A tenant context with no limits. -/
def tenant3 : Tenant :=
  { id := 3, enable := true, reqEnc := false, urgentOk := true, rules := false, reject := false, weight := 1, share := 0, sessMax := 4,
    nsMax := 4, opsRate := 0, opsBurst := 1, byteRate := 0, byteBurst := 1, refillUs := 100, limitLog2 := 64, adminPorts := 0 }

/-- The address 10.0.0.2, to which `gram` sends. -/
def addr2 : AddrSlot := { slot := 0, valid := true, v6 := false, tagged := false, vid := 0, data := 0x0A000002, next := 0x0A000002 }

/-- Every port of a die has that address. -/
def hosted (x : Die) : Die := { x with ports := x.ports.map (fun p => { p with slots := [addr2] }) }

/-- Die 1 with the session, the tenant and the commands given. -/
def on1 (k : Session) (l : List Cmd) : State :=
  upDie 1 (fun x => hosted { x with ktp := { sessions := [k] }, tenants := [tenant3], csq := { cmds := l } })

/-- A Kocel packet from the peer of `sess`. -/
def pkt (ptype : Nat) (sid : Nat) (psn : Word) (body : Bytes) : Bytes :=
  pktBytes { magic := 0x4B, ver := 1, ptype := ptype, flags := 0, sid := sid, psn := psn, ackPsn := 0, sack := 0, credit := 0,
             length := body.length } ++ body

/-- A datagram from the peer of `sess`. -/
def gram (payload : Bytes) : Datagram :=
  { v6 := false, srcIp := 0x0A000001, srcUdp := 40000, dstIp := 0x0A000002, dstUdp := 0xBA04, srcMac := 0x020000000001, vlan := none, pcp := 0, dscp := 0,
    fragment := false, options := false, csumOk := true, payload := payload }

/-! ### Witnesses: the block and its registers -/

theorem wit_StepTakesFront : State.reset.pending = [] ∧ step up = .next up := ⟨by decide, rfl⟩

theorem wit_Canonical : Canonical up ∧ (∃ t, step { up with pending := [.urgentRefill 0] } = .next t) :=
  ⟨⟨by unfold registersOk; decide +kernel, by unfold memoryOk; decide +kernel, by unfold norOk; decide +kernel⟩, ⟨_, rfl⟩⟩

theorem wit_PageControl : PageOpen up .csq 0x70200000 ∧ PageOpen up .hce 0xF0010000 ∧ registersOk up ∧ locked up 0x70200000 = false :=
  ⟨pageOpen_of (by decide +kernel), pageOpen_of (by decide +kernel), by unfold registersOk; decide +kernel, by decide +kernel⟩

theorem wit_SoftResetLocked :
    let s := upRegs [(0x70200008, 0x80000000)]
    PageOpen s .csq 0x70200000 ∧ registersOk s ∧ locked s 0x70200000 = true ∧ softResetting s 0x70200000 = false
      ∧ regGet s 0x70200020 = 0 :=
  ⟨pageOpen_of (by decide +kernel), by unfold registersOk; decide +kernel, by decide +kernel, by decide +kernel, by decide +kernel⟩

theorem wit_SoftResetDone :
    let s := upRegs [(0x70200008, 2)]
    PageOpen s .csq 0x70200000 ∧ registersOk s ∧ softResetting s 0x70200000 = true :=
  ⟨pageOpen_of (by decide +kernel), by unfold registersOk; decide +kernel, by decide +kernel⟩

theorem wit_RegisterWrite :
    let q : RegSpec := ⟨0x4C, 1, [⟨15, 0, .rw, 0x100, .between 64 16384⟩]⟩
    RegOpen up .csq 0x7020004C q ∧ registersOk up ∧ (0x7020004C : Nat) % 4 = 0 ∧ locked up (baseOf 0x7020004C) = false
      ∧ valuesOk q 64 = true ∧ valuesOk q 16384 = true ∧ valuesOk q 63 = false :=
  ⟨regOpen_of (by decide +kernel), by unfold registersOk; decide +kernel, by decide, by decide +kernel, by decide +kernel,
    by decide +kernel, by decide +kernel⟩

theorem wit_InterruptHeader :
    PageOpen up .fch 0x70470000 ∧ registersOk up ∧ softResetting up 0x70470000 = false :=
  ⟨pageOpen_of (by decide +kernel), by unfold registersOk; decide +kernel, by decide +kernel⟩

theorem wit_PairReads :
    let s : State := { up with latch := [(.guard, 0x00050084, 5)] }
    Reachable s 0x00050080 ∧ isLo 0x00050080 = true ∧ Reachable s 0x00050084 ∧ isHi 0x00050084 = true ∧ isLo 0x00050084 = false
      ∧ pairGet s.latch .guard 0x00050084 = some 5 ∧ pairGet s.latch .waggle 0x00050084 = none :=
  ⟨reachable_of (by decide +kernel), by decide +kernel, reachable_of (by decide +kernel), by decide +kernel, by decide +kernel,
    by decide +kernel, by decide +kernel⟩

theorem wit_PairWrites :
    let qlo : RegSpec := ⟨0x44, 1, [⟨31, 0, .rwl, 0, .any⟩]⟩
    let qhi : RegSpec := ⟨0x48, 1, [⟨15, 0, .rwl, 0, .any⟩]⟩
    let s : State := { up with heldLo := [(.guard, 0x70110048, 5)] }
    (0x70110044 : Nat) = dreg 7 (Page.eth 1) 0x44 ∧ (0x70110048 : Nat) = dreg 7 (Page.eth 1) 0x48
      ∧ RegOpen s .eth 0x70110044 qlo ∧ RegOpen s .eth 0x70110048 qhi ∧ registersOk s ∧ locked s (baseOf 0x70110044) = false
      ∧ valuesOk qlo 5 = true ∧ valuesOk qhi 0x01FF = true ∧ condOk s .eth 0x70110048 0x01FF = false
      ∧ condOk s .eth 0x70110048 0x02FE = true ∧ pairGet s.heldLo .guard 0x70110048 = some 5 :=
  ⟨by decide, by decide, regOpen_of (by decide +kernel), regOpen_of (by decide +kernel), by unfold registersOk; decide +kernel,
    by decide +kernel, by decide +kernel, by decide +kernel, by decide +kernel, by decide +kernel, by decide +kernel⟩

/-! ### Witnesses: sessions -/

theorem wit_SessionSlotTimeouts :
    let a := on1 { sess with st := .openRcvd, slot := 4095 } []
    let b := on1 { sess with st := .closing } []
    running a 1 = true ∧ sessOf (a.die 1) 4095 = some { sess with st := .openRcvd, slot := 4095 }
      ∧ running b 1 = true ∧ sessOf (b.die 1) 5 = some { sess with st := .closing } := by decide +kernel

/-- A session's packet bytes in the tests below name die 1, generation 1 and slot 5. -/
theorem wit_SessionEnds :
    let k := { sess with unacked := [{ sent with retx := 7 }] }
    let a := on1 k []
    let g := gram (pkt 0x0A (sidOf 1 1 5) 0 [1, 0, 0, 0])
    running (on1 sess []) 1 = true ∧ running (on1 sess []) 7 = true ∧ waitsOut (on1 sess []) 1 7 = false
      ∧ (on1 sess []).guard.entry = 0 ∧ sessOf ((on1 sess []).die 1) 5 = some sess
      ∧ idleRuns (on1 sess []) 1 sess = true
      ∧ running a 1 = true ∧ running a 7 = true ∧ waitsOut a 1 7 = false ∧ sessOf (a.die 1) 5 = some k ∧ portPaused a 1 k = false
      ∧ dfld a 1 Page.ktp 0x48 23 16 ≤ 7 ∧ Reaches (on1 sess []) 1 0 g
      ∧ arrive (on1 sess []) 1 g 0x0A = .good sess (parsePkt g.payload) [1, 0, 0, 0] := by decide +kernel

theorem wit_SessionTimersSend :
    let k := { sess with unacked := [{ sent with retx := 6 }], ackCount := 1 }
    let a := on1 k []
    running a 1 = true ∧ sessOf (a.die 1) 5 = some k ∧ k.enc = false ∧ portPaused a 1 k = false ∧ 6 < dfld a 1 Page.ktp 0x48 23 16
      ∧ 0 < k.ackCount := by decide +kernel

/-- Tenant 3 has an authentication key on die 1; K_MASK is empty, so that the key comes out empty. -/
def opening : State :=
  upDie 1 (fun x => hosted { x with tenants := [tenant3], cry := { x.cry with auth := [(3, List.replicate 32 0)] } })

/-- An OPEN body of tenant 3 up to its proof. -/
def openBody28 (maxSeg : Nat) : Bytes :=
  beBytes 2 3 ++ [0, 0] ++ beBytes 4 0xFFFFFFFF ++ beBytes 2 16 ++ beBytes 2 maxSeg ++ List.replicate 16 0x5A

/-- An OPEN of tenant 3. -/
def openGram (maxSeg : Nat) : Datagram :=
  gram (pkt 0x01 0 0 (openBody28 maxSeg ++ openProof ((authKey (opening.die 1).cry 3).getD []) (openBody28 maxSeg)))

theorem wit_OpenCreatesSession :
    let g := openGram 1024
    Reaches opening 1 0 g ∧ frontOk opening 1 g = true ∧ (parsePkt g.payload).ptype = 0x01 ∧ (parsePkt g.payload).enc = false
      ∧ g.payload.length = 68 ∧ repeatOf (opening.die 1) g (g.payload.drop 24) = none
      ∧ openStatus opening 1 0 (g.payload.drop 24) = Stat.ok ∧ opening.pkg.entropyFail = false := by decide +kernel

theorem wit_freeSlots : freeSlots (opening.die 1) ≠ [] := by
  intro h
  have : (0 : Nat) ∈ freeSlots (opening.die 1) := by
    simp only [freeSlots, List.mem_filter, List.mem_range]
    exact ⟨by decide, by decide +kernel⟩
  rw [h] at this
  exact absurd this (by simp)

theorem wit_OpenRefused :
    let g := openGram 1023
    Reaches opening 1 0 g ∧ frontOk opening 1 g = true ∧ (parsePkt g.payload).ptype = 0x01 ∧ (parsePkt g.payload).enc = false
      ∧ g.payload.length = 68 ∧ repeatOf (opening.die 1) g (g.payload.drop 24) = none
      ∧ openStatus opening 1 0 (g.payload.drop 24) ≠ Stat.ok ∧ refusedOn (opening.die 1) 0 < 16 := by decide +kernel

theorem wit_SessionPackets :
    let s := on1 sess []
    let a := gram (pkt 0x03 (sidOf 1 1 5) 0xFFFFFFFF (segBytes 7 false 0 ++ [1, 2]))
    let b := gram (pkt 0x08 (sidOf 1 1 5) 0xFFFFFFFF (segBytes 0 true 0))
    let c := gram (pkt 0x07 (sidOf 1 1 5) 0 [])
    Reaches s 1 0 a ∧ Reaches s 1 1 b ∧ Reaches s 1 0 c ∧ sess.enc = false ∧ sess.st = .established ∧ sess.unacked = [] ∧ sess.backlog = []
      ∧ (parsePkt a.payload).ackv = false ∧ (parsePkt a.payload).ping = false
      ∧ arrive s 1 a 0x03 = .good sess (parsePkt a.payload) (segBytes 7 false 0 ++ [1, 2]) ∧ seqSay sess (parsePkt a.payload).psn = .fresh
      ∧ arrive s 1 b 0x08 = .good sess (parsePkt b.payload) (segBytes 0 true 0) ∧ seqSay sess (parsePkt b.payload).psn = .fresh
      ∧ (parsePkt b.payload).psn = sess.rcvNext ∧ sess.asm = [] ∧ sess.rcvSeen = [] ∧ sess.held = [] ∧ sess.closeSent = false
      ∧ sess.asm.all (fun a => a.lastEnd.isNone) = true ∧ txOpen sess = true ∧ outstanding s 1 5 1 = false ∧ (s.die 1).csq.controls = []
      ∧ arrive s 1 c 0x07 = .good sess (parsePkt c.payload) [] ∧ (parsePkt c.payload).ackv = false ∧ (parsePkt c.payload).ping = false := by
  decide +kernel

/-- A PUT of 64 MiB that waits for its grants. -/
def granting (l : List Grant) : Cmd :=
  { cmd Op.put with hdr := { hdr Op.put with valueLen := 67108864 }, phase := .granting, grants := l }

theorem wit_Grants :
    let a := on1 sess [granting []]
    let b := on1 sess [granting [{ off := 0, len := 1048576, got := 0 }]]
    running a 1 = true ∧ cmdOf (a.die 1) 9 = some (granting []) ∧ (granting []).phase = .granting
      ∧ (granting []).nextOff < (granting []).hdr.valueLen ∧ (granting []).grants.length < dfld a 1 Page.ktp 0x54 15 8
      ∧ poolCrit (a.die 1) = false ∧ sessGen (a.die 1) 5 1 = some sess ∧ sess.enc = false
      ∧ txOpen sess = true ∧ cmdOf (b.die 1) 9 = some (granting [{ off := 0, len := 1048576, got := 0 }]) ∧ (b.die 1).csq.tmoStop = false := by
  decide +kernel

theorem wit_GrantedData :
    let c := granting [{ off := 0, len := 1048576, got := 0 }]
    let s := on1 sess [c]
    let g := gram (pkt 0x06 (sidOf 1 1 5) 0xFFFFFFFF (segBytes 7 false 1048575 ++ [1]))
    Reaches s 1 0 g ∧ sess.unacked = [] ∧ sess.backlog = [] ∧ (parsePkt g.payload).ackv = false
      ∧ arrive s 1 g 0x06 = .good sess (parsePkt g.payload) (segBytes 7 false 1048575 ++ [1])
      ∧ seqSay sess (parsePkt g.payload).psn = .fresh ∧ tagCmd s 1 5 1 7 = some (1, c) ∧ isGranted c.hdr.opcode = true
      ∧ 8192 < c.hdr.valueLen ∧ c.phase = .granting ∧ (grantFor c 1048575 1).isSome = true
      ∧ (∀ q ∈ (s.die 1).csq.cmds, q.cid = c.cid → q = c) := by decide +kernel

theorem wit_TerminateBarrier :
    let s := upDie 7 (fun x => { x with csq := { x.csq with barriers := [.terminate 1 5 1], cmds := [cmd Op.get] } })
    running s 7 = true ∧ (s.die 7).csq.barriers = .terminate 1 5 1 :: [] ∧ waitsOut s 7 1 = false := by decide +kernel

/-- A FLUSH of class 1 that a session holds for the rate limit of its tenant. -/
def heldFlush : Msg := { tag := 7, body := [0x20, 1] ++ zeros 30, arrived := 0 }

theorem wit_RateLimits :
    let t := { tenant3 with opsRate := 100, opsBurst := 8, byteRate := 100 }
    let k := { sess with rateHold := true, held := [heldFlush] }
    let s := upDie 1 (fun x => { x with tenants := [t], ktp := { sessions := [k] } })
    let u := s.updDie 1 (fun x => { x with csq := { x.csq with buckets := [(3, 0, 0)] } })
    running s 1 = true ∧ tenantOf (s.die 1) 3 = some t ∧ 0 < t.opsRate ∧ 0 < t.byteRate
      ∧ sessOf (s.die 1) 5 = some k ∧ k.enc = false ∧ k.resetting = none ∧ k.closeAt = false
      ∧ isControl (parseCmd heldFlush.body).opcode = false ∧ rateOk t (rateBucket s 1 t) = true
      ∧ routeOf (s.die 1) 1 3 (parseCmd heldFlush.body) [] = some (1, 0) ∧ (s.die 1).phase = .up
      ∧ ruleSearch s 1 k.port 3 0 0x20 1 [] = .proceed ∧ waitsOut s 1 1 = false ∧ s.guard.entry = 0
      ∧ running u 1 = true ∧ sessOf (u.die 1) 5 = some k ∧ rateOk t (rateBucket u 1 t) = false ∧ t.reject = false ∧ k.heldOld = 0 := by
  decide +kernel

/-! ### Witnesses: scheduling and the data path -/

theorem wit_IntakeQueues :
    let s := upDie 7 (fun x => { x with csq := { x.csq with inbox := [cmd Op.get] }, map := { x.map with mounted := true } })
    TakesWork s 7 Page.csq ∧ (s.die 7).csq.inbox = cmd Op.get :: [] ∧ (s.die 7).csq.intake = true ∧ (s.die 7).map.mounted = true
      ∧ intakeRoom s 7 (cmd Op.get).cls = true := by decide +kernel

/-- A queued command of a class. -/
def queued (op cls : Nat) : Cmd := { cmd op with phase := .queued, cls := cls }

theorem wit_UrgentClass :
    let s := regSet (upDie 1 (fun x => { x with csq := { x.csq with cmds := [queued Op.put 0], tokens := 1 } })) (dreg 1 Page.csq 8) 1
    let u := s.updDie 1 (fun x => { x with csq := { x.csq with tokens := 0 } })
    running s 1 = true ∧ mayDispatch s 1 = true ∧ urgentNext (s.die 1) = some (queued Op.put 0)
      ∧ 0 < (s.die 1).csq.tokens ∧ cmdOf (s.die 1) 9 = some (queued Op.put 0)
      ∧ running u 1 = true ∧ mayDispatch u 1 = true ∧ urgentNext (u.die 1) = some (queued Op.put 0)
      ∧ (u.die 1).csq.tokens = 0 ∧ otherReady (u.die 1) = false := by decide +kernel

/-- Class 7 of die 1 holds one command, and its tenant is alone in the round. -/
def turn7 : State :=
  regSet (upDie 1 (fun x => { x with
      tenants := [tenant3]
      csq := { x.csq with
        cmds := [queued Op.get 7], cur := 7, rounds := [[], [], [], [], [], [], [], [{ tenant := 3, deficit := 0, credited := false }]] } }))
    (dreg 1 Page.csq 8) 1

theorem wit_DeficitRound :
    running turn7 1 = true ∧ mayDispatch turn7 1 = true ∧ readyIn (turn7.die 1) 0 = [] ∧ inherited (turn7.die 1) 0 = []
      ∧ (turn7.die 1).csq.cur = 7 ∧ (turn7.die 1).csq.inTurn = false ∧ (turn7.die 1).csq.cdef.length = 8
      ∧ inherited (turn7.die 1) 7 = [] ∧ readyIn (turn7.die 1) 7 = [queued Op.get 7]
      ∧ (turn7.die 1).csq.rounds.getD 7 [] = [{ tenant := 3, deficit := 0, credited := false }]
      ∧ cmdOf (turn7.die 1) 9 = some (queued Op.get 7)
      ∧ (costOf turn7 1 (queued Op.get 7) : Int) ≤ 0 + (tenantWeight (turn7.die 1) 3 * dfld turn7 1 Page.csq 0x4C 15 0 : Nat)
      ∧ (costOf turn7 1 (queued Op.get 7) : Int)
          ≤ (turn7.die 1).csq.cdef.getD 7 0 + (classWeight turn7 1 7 * dfld turn7 1 Page.csq 0x4C 15 0 : Nat) := by decide +kernel

/-- A key-value and a block namespace of tenant 3. -/
def kvNs : NsEntry := { nsid := 1, tenant := 3, ntype := 0, bucketBits := 8, chunkShift := 30, lbaSize := 4096, blocks := 0 }
def blkNs : NsEntry := { nsid := 2, tenant := 3, ntype := 1, bucketBits := 8, chunkShift := 30, lbaSize := 512, blocks := 1024 }

/-! A key slot holds its key XOR a mask that rests on a free value (R343), so the key that a slot gives back is found by the
lemma below and not by evaluation. -/

theorem xorBytes_length (a b : Bytes) (h : a.length = b.length) : (xorBytes a b).length = a.length := by
  induction a generalizing b with
  | nil => simp [xorBytes]
  | cons x xs ih =>
    cases b with
    | nil => simp at h
    | cons y ys => simp [xorBytes, ih ys (by simpa using h)]

theorem xorBytes_twice (a b : Bytes) (h : a.length = b.length) : xorBytes (xorBytes a b) b = a := by
  induction a generalizing b with
  | nil => simp [xorBytes]
  | cons x xs ih =>
    cases b with
    | nil => simp at h
    | cons y ys => simp [xorBytes, ih ys (by simpa using h)]

/-- K_MASK in the tests. -/
def mask1 : Bytes := List.replicate 32 1

theorem aes_length (blk : Bytes) : (Crypto.aesEnc mask1 blk).length = 16 := by
  unfold Crypto.aesEnc
  have h : ((Crypto.aesRoundKeys mask1).getD 14 []).length = 16 := by decide +kernel
  rw [xorBytes_length _ _ (by simp only [Crypto.shiftRows, List.length_map, List.length_range, h])]
  simp only [Crypto.shiftRows, List.length_map, List.length_range]

theorem mask_length (bank slot : Nat) : (maskBytes mask1 bank slot 32).length = 32 := by
  simp only [maskBytes, show ceilDiv 32 16 = 2 from rfl, List.length_take, List.length_flatMap, List.map_congr_left (fun _ _ => aes_length _)]
  decide

/-- The share of a 32-byte key gives the key back. -/
theorem shareOf_twice (bank slot : Nat) (key : Bytes) (h : key.length = 32) :
    shareOf mask1 bank slot (shareOf mask1 bank slot key) = key := by
  have hm : (shareOf mask1 bank slot key).length = 32 := by
    unfold shareOf
    rw [xorBytes_length _ _ (by rw [h, mask_length]), h]
  rw [shareOf, hm]
  unfold shareOf
  rw [h]
  exact xorBytes_twice _ _ (by rw [h, mask_length])

/-- A data key of tenant 3, and an XTS key of its block namespace. -/
def key3 : Bytes := List.replicate 32 7
def dataSlot3 : DataSlot :=
  { num := 0, st := .current, tenant := 3, gen := 1, xts := none, share := shareOf mask1 0 0 key3, ctr := 0, bound := 4096 }
def xtsSlot3 : DataSlot := { dataSlot3 with num := 1, xts := some 2, share := List.replicate 64 0 }

/-- The keys of die 1. -/
def cry3 : Cry := { data := [dataSlot3, xtsSlot3], kmask := mask1 }

/-- The value record of key [1] and value [2, 3], sealed outside the model under tenant 3's key. -/
def held : Rec :=
  { tenant := 3, nsid := 1, keyLen := 1, valueLen := 2, version := 5, nonce := zeros 12, keygen := 1, cipher := [96, 218, 167],
    gtag := [240, 202, 11, 12, 92, 90, 234, 89, 113, 87, 158, 249, 250, 142, 214, 142] }

/-- The record opens under the tenant's key, and only its bytes come out. -/
theorem test_record_opens : openRec cry3 held = some ([1], [2, 3]) := by
  have hs : dataSlot cry3 held.tenant held.keygen = some dataSlot3 := rfl
  have hk : dataKey cry3 dataSlot3 = key3 := by
    simp only [dataKey, cry3, dataSlot3]
    exact shareOf_twice 0 0 key3 (by decide)
  simp only [openRec, hs, hk]
  decide +kernel

/-- The record in the Nectar buffer at address 8. -/
def ringed : RingEntry :=
  { wid := 0, addr := 8, payload := .record held [1] 0 0, dirty := 128, placed := [], stripes := [], through := none, poison := false }

/-- The bucket entry of key [1]. -/
def entry (nectar : Bool) (loc : BitVec 56) : BEntry :=
  { tenant := 3, nsid := 1, bucket := 0, key := [1], htag := 0, version := 5, loc := loc, valid := true, nectar := nectar, stLen := 67,
    keyLen := 1, durable := none }

/-- Die 1 with the session, both namespaces, both keys, and a command. -/
def data1 (c : Cmd) (f : MapEng → MapEng) : State :=
  upDie 1 (fun x => { x with
    ktp := { sessions := [sess] }
    tenants := [tenant3]
    csq := { cmds := [c] }
    cry := cry3
    map := f { x.map with mounted := true, nstab := [kvNs, blkNs] } })

/-- A command on key [1]. -/
def kcmd (op : Nat) : Cmd := { cmd op with key := [1], hdr := { hdr op with keyLen := 1 } }

/-- A free QLC group. -/
def freeGroup (n : Nat) : Group :=
  { num := n, st := .free, qlc := true, copy := false, good := 255, layout := 255, wear := 0, valid := 0, closedS := 0, used := 0,
    rebuild := false, failed := false, badCh := [] }

/-- What the commands that look their pages up find: a named command, its pages, and the state after the lookup. -/
def seen1 (s : State) (c : Cmd) : State := touchAll s 1 c (lookupPages (s.die 1) 1 c)
def here1 (s : State) (c : Cmd) : Bool := pagesHere (s.die 1) c (lookupPages (s.die 1) 1 c)

/-- The leaf page of a command lies on flash, and is neither in DRAM nor in SRAM. -/
def away (c : Cmd) (s : State) : State :=
  s.updDie 1 (fun x => { x with map := { x.map with
    places := (lookupPages x 1 c).map (fun i =>
      { id := pageIdOf (c.tenant, c.hdr.nsid, i, true), locs := [locOf 2 0 0 0 false], jseq := 0, dirty := false }) } })

theorem wit_WritersWait :
    let p := kcmd Op.put
    let w := { cmd Op.write with hdr := { hdr Op.write with nsid := 2, valueLen := 4096 } }
    let r := { cmd Op.trim with hdr := { hdr Op.trim with nsid := 2, valueLen := 4096 } }
    let e := kcmd Op.delete
    let big := { kcmd Op.put with hdr := { hdr Op.put with valueLen := 8193 } }
    (let s := (data1 p id).updDie 1 (fun x => { x with groups := (List.range 64).map freeGroup })
     HasCmd s 1 9 Op.put p ∧ p.failed = false ∧ here1 s p = true ∧ putRefusal (seen1 s p) 1 p = none
      ∧ HasCmd (away p s) 1 9 Op.put p ∧ here1 (away p s) p = false)
    ∧ (let s := data1 w id
       HasCmd s 1 9 Op.write w ∧ here1 s w = true ∧ writeRefusal ((seen1 s w).die 1) w = none
        ∧ HasCmd (away w s) 1 9 Op.write w ∧ here1 (away w s) w = false)
    ∧ (let s := data1 e (fun m => { m with kv := [entry true 8], ring := [ringed] })
       HasCmd s 1 9 Op.delete e ∧ here1 s e = true ∧ deleteRefusal ((seen1 s e).die 1) e = none
        ∧ HasCmd (away e s) 1 9 Op.delete e ∧ here1 (away e s) e = false)
    ∧ (let s := data1 r id
       HasCmd s 1 9 Op.trim r ∧ here1 s r = true ∧ ((seen1 s r).die 1).map.readOnly = false
        ∧ (nsOf ((seen1 s r).die 1) 3 2).isSome = true ∧ HasCmd (away r s) 1 9 Op.trim r ∧ here1 (away r s) r = false)
    ∧ (kcmd Op.put).hdr.valueLen ≤ 8192 ∧ 8192 < big.hdr.valueLen := by decide +kernel

/-- What CanReply asks, as a test. -/
def canReplyB (s : State) (c : Cmd) (k : Session) (n : Nat) : Bool :=
  sessGen (s.die c.home) c.slot c.gen == some k && !c.noReply && !k.enc && txOpen k && k.backlog.isEmpty && decide (24 + n ≤ k.maxSeg)
    && !k.closeAt && k.resetting.isNone && (lateAbort (s.die c.home) c.cid).isNone && allDies.all (fun d => !waitsOut s d c.home)

theorem canReply_of {s : State} {c : Cmd} {k : Session} {n : Nat} (h : canReplyB s c k n = true) : CanReply s c k n := by
  simp only [canReplyB, Bool.and_eq_true, beq_iff_eq, Bool.not_eq_true', List.isEmpty_iff, decide_eq_true_eq,
    Option.isNone_iff_eq_none, List.all_eq_true] at h
  obtain ⟨⟨⟨⟨⟨⟨⟨⟨⟨h1, h2⟩, h3⟩, h4⟩, h5⟩, h6⟩, h7⟩, h8⟩, h9⟩, ha⟩ := h
  exact ⟨h1, h2, h3, h4, h5, h6, h7, h8, h9, fun d => ha d (all_dies d)⟩

/-- The Comb's entry for key [1], in the Nectar buffer. -/
def hotEntry : CombEntry :=
  { idx := 16, val := hotWord 3 1 0x3FFFF 0, care := hotMask, prio := 0, res := hotResult 5 2 8, valid := true, refd := false }

theorem wit_ReadersSearch :
    let s := data1 (kcmd Op.get) (fun m => { m with kv := [entry true 8], ring := [ringed] })
    let t := s.updDie 1 (fun x => { x with comb := { x.comb with entries := [hotEntry] } })
    regsWf s.regs = true ∧ combSearch (s.die 1).comb 1 (hotWord 3 1 0 0) hotMask = none
      ∧ (running s 1 = true ∧ cmdOf (s.die 1) 9 = some (kcmd Op.get) ∧ (kcmd Op.get).phase = .dispatched)
      ∧ regsWf t.regs = true ∧ (∃ w, combSearch (t.die 1).comb 1 (hotWord 3 1 0 0) hotMask = some w ∧ w.multi = false ∧ resKind w.entry.res = 2
          ∧ ringRec (t.die 1) (resLoc w.entry.res).toNat = some (held, false))
      ∧ hasDataKey (t.die 1).cry held.tenant = true ∧ openRec (t.die 1).cry held = some ([1], [2, 3])
      ∧ (running t 1 = true ∧ cmdOf (t.die 1) 9 = some (kcmd Op.get)) ∧ (kcmd Op.get).hdr.ifVersion = false
      ∧ (kcmd Op.get).hdr.partialGet = false ∧ canReplyB t (kcmd Op.get) sess 2 = true :=
  ⟨by decide +kernel, by decide +kernel, by decide +kernel, by decide +kernel, ⟨_, rfl, by decide +kernel⟩, by decide +kernel,
    test_record_opens, by decide +kernel, by decide +kernel, by decide +kernel, by decide +kernel⟩

/-- An open group, and the record of key [1] stored in it. -/
def group1 : Group :=
  { num := 1, st := .opened, qlc := true, copy := false, good := 255, layout := 255, wear := 0, valid := 2, closedS := 0, used := 2,
    rebuild := false, failed := false, badCh := [] }
def kept : Stored :=
  { loc := locOf 0 1 0 0 false, extents := [{ group := 1, first := 0, count := 2 }], payload := .record held [1] 0 0, poison := false,
    verOk := true }

/-- The record of BucketLookup's third clause opens by `test_record_opens`. -/
theorem wit_BucketLookup :
    let c := { kcmd Op.stat with phase := .lookup }
    let g := { kcmd Op.get with phase := .lookup }
    let s := data1 c id
    let t := data1 g (fun m => { m with kv := [entry true 8], ring := [ringed] })
    let u := (data1 c (fun m => { m with kv := [entry false kept.loc], stored := [kept] })).updDie 1 (fun x => { x with groups := [group1] })
    (running s 1 = true ∧ cmdOf (s.die 1) 9 = some c ∧ c.phase = .lookup ∧ c.ra = none ∧ c.hdr.ifVersion = false
        ∧ c.hdr.partialGet = false ∧ c.hdr.opcode = Op.stat ∧ c.failed = false)
      ∧ here1 s c = true ∧ (htagEntries (s.die 1) c (bucketPage (s.die 1) c)).drop c.tried = [] ∧ canReplyB s c sess 0 = true
      ∧ (running t 1 = true ∧ cmdOf (t.die 1) 9 = some g) ∧ here1 t g = true
      ∧ (htagEntries (t.die 1) g (bucketPage (t.die 1) g)).drop g.tried = [entry true 8] ∧ (entry true 8).nectar = true
      ∧ (entry true 8).key = g.key ∧ ringRec (t.die 1) 8 = some (held, false) ∧ hasDataKey (t.die 1).cry 3 = true
      ∧ canReplyB t g sess 2 = true
      ∧ (running u 1 = true ∧ cmdOf (u.die 1) 9 = some c) ∧ here1 u c = true
      ∧ (htagEntries (u.die 1) c (bucketPage (u.die 1) c)).drop c.tried = [entry false kept.loc]
      ∧ wantPages u 1 c (extentsAt (u.die 1) kept.loc) = [(kept.loc, 1)] := by decide +kernel

/-- A dense entry of unit 0 of the block namespace, on flash. -/
def dense0 : DEntry := { tenant := 3, nsid := 2, unit := 0, entry := denseOf 0 1 0 0 false, nectar := none, durable := denseOf 0 1 0 0 false }

theorem wit_ReadBlocks :
    let c := { cmd Op.read with hdr := { hdr Op.read with nsid := 2, valueLen := 512 } }
    let s := data1 c (fun m => { m with dense := [dense0] })
    let t := data1 c id
    HasCmd s 1 9 Op.read c ∧ c.failed = false ∧ here1 s c = true ∧ HasCmd (seen1 s c) 1 9 Op.read c
      ∧ nsOf ((seen1 s c).die 1) 3 2 = some blkNs ∧ xtsSlot ((seen1 s c).die 1).cry 3 2 = some xtsSlot3
      ∧ readLocs ((seen1 s c).die 1) 1 c blkNs ≠ []
      ∧ HasCmd t 1 9 Op.read c ∧ here1 t c = true ∧ HasCmd (seen1 t c) 1 9 Op.read c
      ∧ nsOf ((seen1 t c).die 1) 3 2 = some blkNs ∧ xtsSlot ((seen1 t c).die 1).cry 3 2 = some xtsSlot3
      ∧ readLocs ((seen1 t c).die 1) 1 c blkNs = []
      ∧ readData ((seen1 t c).die 1) 1 c blkNs (dataKey ((seen1 t c).die 1).cry xtsSlot3) = (zeros 512, true)
      ∧ canReplyB (seen1 t c) c sess 512 = true
      ∧ HasCmd (away c t) 1 9 Op.read c ∧ here1 (away c t) c = false := by decide +kernel

theorem wit_Flush :
    let c := cmd Op.flush
    let s := on1 sess [c]
    let t := upDie 1 (fun x => { x with csq := { x.csq with barriers := [.flush 7 9] }, map := { x.map with ring := [ringed] } })
    let w := { c with phase := .barrier, waits := [7] }
    let u := (on1 sess [w]).updDie 7 (fun x => { x with csq := { x.csq with marks := [(1, 9, [0])] } })
    HasCmd s 1 9 Op.flush c ∧ running s 7 = true ∧ waitsOut s 1 7 = false ∧ s.guard.entry = 0
      ∧ running t 1 = true ∧ waitsOut t 1 7 = false ∧ (t.die 1).csq.barriers = .flush 7 9 :: []
      ∧ running u 7 = true ∧ running u 1 = true ∧ waitsOut u 7 1 = false ∧ (u.die 7).csq.marks.find? (fun m => m.2.1 == 9) = some (1, 9, [0])
      ∧ (∀ r ∈ (u.die 7).map.ring, r.wid ∉ [0]) ∧ cmdOf (u.die 1) 9 = some w ∧ w.waits = [7] ∧ w.failed = false ∧ w.offline = false
      ∧ canReplyB u w sess 0 = true := by decide +kernel

theorem wit_Abort :
    let a := { cmd Op.abort with tag := 8, hdr := { hdr Op.abort with arg := 7 } }
    let s := (on1 sess [queued Op.get 1]).updDie 1 (fun x => { x with csq := { x.csq with controls := [a] } })
    let t := (on1 sess []).updDie 1 (fun x => { x with csq := { x.csq with controls := [a] } })
    let late := { queued Op.get 1 with phase := .reading }
    let u := (on1 sess [late]).updDie 1 (fun x => { x with csq := { x.csq with controls := [a] } })
    running s 1 = true ∧ ctrlOf (s.die 1) 9 Op.abort = some a ∧ s.pkg.act.on = false ∧ a.target = none
      ∧ tagCmd s 1 5 1 (BitVec.ofNat 8 (a.hdr.arg % 256)) = some (1, queued Op.get 1) ∧ beforeMedia (queued Op.get 1) = true
      ∧ canReplyB s (queued Op.get 1) sess 0 = true ∧ psnBefore (sess.sndNext + 1) sess.sndEdge = true ∧ a.noReply = false
      ∧ lateAbort (s.die 1) a.cid = none
      ∧ running u 1 = true ∧ ctrlOf (u.die 1) 9 Op.abort = some a ∧ beforeMedia late = false
      ∧ tagCmd u 1 5 1 (BitVec.ofNat 8 (a.hdr.arg % 256)) = some (1, late)
      ∧ running t 1 = true ∧ ctrlOf (t.die 1) 9 Op.abort = some a ∧ tagCmd t 1 5 1 (BitVec.ofNat 8 (a.hdr.arg % 256)) = none
      ∧ inboxTag t 1 5 1 (BitVec.ofNat 8 (a.hdr.arg % 256)) = none ∧ replyOut t 1 5 1 (BitVec.ofNat 8 (a.hdr.arg % 256)) = none
      ∧ tagCtrl (t.die 1) a (BitVec.ofNat 8 (a.hdr.arg % 256)) = none ∧ canReplyB t a sess 0 = true ∧ a.home = 1
      ∧ (∀ m ∈ sess.held, m.tag ≠ BitVec.ofNat 8 (a.hdr.arg % 256)) := by decide +kernel

theorem wit_ResetSession :
    let c := cmd Op.resetSession
    let s := (on1 { sess with resetting := some 9 } []).updDie 1 (fun x => { x with csq := { x.csq with controls := [c] } })
    let t := (on1 { sess with resetting := some 9 } []).updDie 7 (fun x =>
      { x with csq := { x.csq with barriers := [.reset 1 5 1 9], cmds := [cmd Op.get] } })
    running s 1 = true ∧ running s 7 = true ∧ waitsOut s 1 7 = false ∧ s.guard.entry = 0
      ∧ ctrlOf (s.die 1) 9 Op.resetSession = some c ∧ c.phase ≠ .barrier
      ∧ sessGen (s.die 1) 5 1 = some { sess with resetting := some 9 } ∧ sess.heldOld = 0 ∧ sess.enc = false
      ∧ running t 7 = true ∧ running t 1 = true ∧ waitsOut t 7 1 = false ∧ (t.die 7).csq.barriers = .reset 1 5 1 9 :: []
      ∧ sessGen (t.die 1) 5 1 = some { sess with resetting := some 9 } := by decide +kernel

/-! ### Witnesses: admin commands -/

theorem wit_AdminReads :
    let c := { cmd Op.meterRead with hdr := { hdr Op.meterRead with arg := 1, valueLen := 1 } }
    let s := { on1 sess [c] with mtr := { ({} : Metering) with log := [{ minute := 1, dies := 8, records := [[0]], head := [] }] } }
    let l := { cmd Op.logRead with hdr := { hdr Op.logRead with arg := 1 * 2 ^ 56 + 7 * 2 ^ 32 + 255, valueLen := 4 } }
    let r := { cmd Op.regRead with hdr := { hdr Op.regRead with arg := 0x7020004C, valueLen := 1 } }
    (running (on1 sess [cmd Op.nop]) 1 = true ∧ cmdOf ((on1 sess [cmd Op.nop]).die 1) 9 = some (cmd Op.nop)
        ∧ canReplyB (on1 sess [cmd Op.nop]) (cmd Op.nop) sess 0 = true)
      ∧ canReplyB (on1 sess [cmd Op.identify]) (cmd Op.identify) sess (identify (on1 sess [cmd Op.identify]) 1 3).length = true
      ∧ (running s 1 = true ∧ cmdOf (s.die 1) 9 = some c ∧ c.phase = .dispatched)
      ∧ s.mtr.log.dropWhile (fun q => q.minute != c.hdr.arg) = { minute := 1, dies := 8, records := [[0]], head := [] } :: []
      ∧ takeWhole 1 ((s.mtr.log).map (minuteFor 3)) = ([0], 0 + 1) ∧ canReplyB s c sess 1 = true
      ∧ l.hdr.arg = 1 * 2 ^ 56 + (7 : DieId).val * 2 ^ 32 + 255 ∧ present (on1 sess [l]) 7 = true
      ∧ ((on1 sess [l]).die 7).phase ≠ .fenced
      ∧ takeWhole 4 ((logEntries (on1 sess [l]) 7 1 255).map (fun p => p.2)) = ([], 0) ∧ canReplyB (on1 sess [l]) l sess 0 = true
      ∧ r.hdr.arg % 2 ^ 32 = 0x7020004C ∧ canReplyB (on1 sess [r]) r sess 4 = true := by decide +kernel

theorem wit_AdminReads_register :
    let r := { cmd Op.regRead with hdr := { hdr Op.regRead with arg := 0x7020004C, valueLen := 1 } }
    RegOpen (on1 sess [r]) .csq 0x7020004C ⟨0x4C, 1, [⟨15, 0, .rw, 0x100, .between 64 16384⟩]⟩ := regOpen_of (by decide +kernel)

/-- A tenant context as TENANT_SET carries it: enabled, weight 1, one session, LIMIT_LOG2 64 (R332). -/
def ctxBytes : Bytes :=
  beBytes 2 1 ++ [1, 0] ++ beBytes 2 1 ++ beBytes 2 0 ++ zeros 16 ++ beBytes 4 1000000 ++ [64, 0] ++ zeros 34

theorem wit_AdminSettings :
    let w := { cmd Op.regWrite with hdr := { hdr Op.regWrite with arg := 0x7020004C }, inline := [0, 64, 0, 0] }
    let t := { cmd Op.tenantSet with hdr := { hdr Op.tenantSet with arg := 4095 }, inline := ctxBytes }
    let k := { cmd Op.keyInstall with hdr := { hdr Op.keyInstall with arg := 4095 }, inline := [2, 1, 0, 0, 0, 0, 0, 0] }
    canReplyB (on1 sess [w]) w sess 0 = true ∧ running (on1 sess [w]) 7 = true
      ∧ (running (on1 sess [w]) 1 = true ∧ cmdOf ((on1 sess [w]).die 1) 9 = some w ∧ w.phase = .dispatched) ∧ w.inline.length = 4
      ∧ w.hdr.arg % 2 ^ 32 = 0x7020004C ∧ locked (on1 sess [w]) (baseOf 0x7020004C) = false
      ∧ valuesOk ⟨0x4C, 1, [⟨15, 0, .rw, 0x100, .between 64 16384⟩]⟩ (BitVec.ofNat 32 (leNat w.inline)) = true
      ∧ canReplyB (on1 sess [t]) t sess 0 = true ∧ cmdOf ((on1 sess [t]).die 1) 9 = some t ∧ tenantOk 4095 t.inline = true
      ∧ tenantRefused (on1 sess [t]) t (parseTenant 4095 t.inline) = false ∧ (parseTenant 4095 t.inline).enable = true
      ∧ canReplyB (on1 sess [k]) k sess 0 = true ∧ cmdOf ((on1 sess [k]).die 1) 9 = some k ∧ keyBodyOk k.inline = true
      ∧ byteAt k.inline 0 = 2 ∧ (byteAt k.inline 1).testBit 0 = true ∧ (liveGens (on1 sess [k]) 4095).length < 4
      ∧ slotsShort (on1 sess [k]) 1 = false ∧ freeDataSlot ((on1 sess [k]).die 7).cry ≠ none
      ∧ canReplyB (on1 sess [cmd Op.resetDevice]) (cmd Op.resetDevice) sess 0 = true
      ∧ canReplyB (on1 sess [cmd Op.clockSet]) (cmd Op.clockSet) sess 0 = true := by decide +kernel

/-- A key-value namespace descriptor of tenant 3, and a format descriptor (R339, R183). -/
def nsBytes : Bytes := beBytes 2 3 ++ [0, 0, 28, 0] ++ zeros 10
def fmtBytes : Bytes := beBytes 2 16 ++ [0, 0, 7, 0] ++ zeros 10

theorem wit_Namespaces :
    let c := { cmd Op.nsCreate with hdr := { hdr Op.nsCreate with nsid := 0xFFFFFFFE }, inline := nsBytes }
    let s := upDie 1 (fun x => { x with ktp := { sessions := [sess] }, csq := { cmds := [c] } })
    let s0 := s.updDie 0 (fun x => { x with tenants := [tenant3] })
    let n := { cmd Op.nsDelete with hdr := { hdr Op.nsDelete with arg := 3 } }
    let u := (on1 sess [n]).updDie 0 (fun x => { x with map := { x.map with nstab := [kvNs] } })
    let f := { cmd Op.format with inline := fmtBytes }
    running s0 7 = true ∧ (running s0 1 = true ∧ cmdOf (s0.die 1) 9 = some c ∧ c.phase = .dispatched) ∧ nsOk c.hdr.nsid c.inline = true
      ∧ nsRefused (s0.die 0) (parseNs c.hdr.nsid c.inline) = false ∧ nsNoSpace s0 (parseNs c.hdr.nsid c.inline) = false
      ∧ nsWrapped c.inline = false ∧ canReplyB s0 c sess 0 = true ∧ nsCount (s0.die 0) 3 = 0
      ∧ (running u 1 = true ∧ cmdOf (u.die 1) 9 = some n) ∧ 3 = n.hdr.arg % 4096 ∧ (nsOf (u.die 0) 3 n.hdr.nsid).isSome = true
      ∧ HasCmd (on1 sess [f]) 1 9 Op.format f ∧ formatRefused (on1 sess [f]) f.inline = false ∧ allRun (on1 sess [f]) = true
      ∧ (let v := (on1 sess [f]).updDie 6 (fun x => { x with phase := .hot })
         running v 7 = true ∧ HasCmd v 1 9 Op.format f ∧ formatRefused v f.inline = false ∧ allRun v = false) := by decide +kernel

/-- The manifest of slot B, bytes 0 to 287 (R529), signed outside the model: root key 2, COMMIT, SVN 64, a one-byte image. -/
def manifestB : Bytes :=
  [83, 75, 77, 70, 1, 0, 2, 1, 64, 0, 0, 0, 0, 0, 0, 0, 5, 0, 0, 0, 0, 0, 0, 0, 1, 0, 0, 0, 0, 0, 0, 0, 64, 205, 5, 107, 180,
   141, 37, 202, 203, 52, 226, 177, 177, 232, 28, 83, 239, 77, 33, 11, 87, 89, 123, 250, 50, 60, 162, 212, 48, 209, 51, 175,
   154, 167, 11, 93, 176, 180, 9, 55, 86, 27, 245, 231, 225, 148, 32, 83, 4, 241, 188, 53, 249, 101, 108, 110, 234, 215, 183,
   88, 16, 206, 85, 78, 229, 110, 10, 244, 244, 28, 188, 222, 80, 250, 70, 208, 79, 77, 77, 252, 162, 173, 105, 228, 7, 245,
   123, 30, 39, 151, 123, 184, 59, 30, 177, 163, 115, 36, 88, 73, 122, 85, 155, 205, 204, 247, 51, 197, 71, 192, 242, 179,
   220, 141, 122, 236, 119, 109, 148, 252, 112, 83, 31, 112, 150, 10, 48, 232, 56, 63, 254, 143, 81, 71, 132, 138, 14, 83,
   224, 208, 94, 242, 143, 175, 41, 0, 0, 0, 0, 0, 0, 0, 0, 0, 0, 0, 0, 0, 0, 0, 122, 233, 225, 219, 17, 96, 121, 76, 112,
   193, 239, 7, 27, 229, 25, 31, 108, 102, 36, 15, 70, 8, 251, 232, 164, 78, 205, 54, 195, 237, 93, 185, 117, 0, 242, 228,
   216, 78, 63, 180, 88, 80, 253, 111, 67, 3, 48, 43, 74, 6, 151, 187, 159, 100, 191, 97, 8, 167, 253, 38, 49, 52, 158, 232,
   241, 251, 11, 174, 137, 168, 158, 201, 68, 37, 86, 40, 155, 227, 117, 201, 91, 128, 41, 130, 77, 166, 213, 170, 86, 215,
   137, 17, 116, 85, 47, 28]

/-- The slot record of slot B (R530), made outside the model. -/
def recordB : Bytes :=
  [83, 76, 82, 68, 1, 64, 0, 0, 5, 0, 0, 0, 0, 0, 0, 0, 255, 121, 199, 241, 189, 74, 117, 242, 57, 219, 156, 23, 131, 146,
   188, 7, 34, 186, 135, 227, 22, 238, 46, 96, 174, 13, 229, 225, 148, 224, 94, 212, 204, 42, 59, 116, 187, 162, 13, 23, 235,
   53, 247, 186, 149, 245, 57, 172, 0, 0, 0, 0, 0, 0, 0, 0, 0, 0, 0, 0, 0, 0, 0, 0, 0, 0, 0, 0, 0, 0, 0, 0, 0, 0, 0, 0, 39,
   250, 203, 95]

/-- The SHA-384 of root key 2 (R365). -/
def rootKey2 : Bytes :=
  [78, 105, 232, 189, 134, 25, 1, 140, 130, 93, 92, 210, 245, 188, 218, 95, 92, 197, 16, 66, 219, 115, 226, 190, 15, 51, 66,
   13, 33, 3, 99, 190, 147, 44, 229, 175, 82, 160, 36, 188, 50, 133, 114, 31, 143, 26, 240, 116]

/-- The boot NOR with a valid slot B, while slot A runs; unlisted bytes are erased. -/
def norB : Nor :=
  { array := (recordB.zipIdx.map (fun (p : Byte × Nat) => (0x2000 + p.2, p.1))
      ++ manifestB.zipIdx.map (fun (p : Byte × Nat) => (0x3040000 + p.2, p.1))
      ++ [(0x3041000, 0x5A)]).filter (fun (p : Nat × Byte) => p.2 != 0xFF)
    rootHash := [[], [], rootKey2, []] }

theorem test_image_verifies : recordValid norB true = true ∧ imageOk norB true = true := by decide +kernel

theorem wit_FirmwareCommands :
    let c := { cmd Op.fwDownload with hdr := { hdr Op.fwDownload with arg := 48 * 2 ^ 20 - 8193, valueLen := 8193 } }
    let s := { on1 sess [c] with nor := { ({} : Nor) with dlOn := true, dlGot := 48 * 2 ^ 20 - 8193, dlLen := 48 * 2 ^ 20 } }
    let d := { cmd Op.fwDownload with hdr := { hdr Op.fwDownload with arg := 4096, valueLen := 1 }, inline := [0x5A] }
    let t := { on1 sess [d] with nor := { ({} : Nor) with dlOn := true, dlGot := 4096, dlLen := 4098 } }
    let a := { cmd Op.fwActivate with hdr := { hdr Op.fwActivate with arg := 1 } }
    let u := { on1 sess [a] with nor := norB }
    (running s 1 = true ∧ cmdOf (s.die 1) 9 = some c ∧ c.phase = .dispatched) ∧ placeOk s c = true ∧ 8192 < c.hdr.valueLen
      ∧ c.value.length < c.hdr.valueLen
      ∧ (running t 1 = true ∧ cmdOf (t.die 1) 9 = some d) ∧ norWf t.nor.array = true ∧ placeOk t d = true ∧ d.hdr.arg ≠ 0
      ∧ d.hdr.valueLen ≤ 8192 ∧ t.nor.dlGot + d.inline.length < t.nor.dlLen ∧ canReplyB t d sess 0 = true
      ∧ (running u 1 = true ∧ cmdOf (u.die 1) 9 = some a ∧ a.phase = .dispatched ∧ a.hdr.opcode = Op.fwActivate)
      ∧ a.hdr.arg.testBit 0 = true ∧ u.nor.dlOn = false ∧ true = !u.nor.running ∧ u.pkg.act.on = false := by
  decide +kernel

theorem wit_ActivationEnds :
    let s := { up with pkg := { up.pkg with act := { on := true, cid := 9, slot := true, old := false } } }
    running s 0 = true ∧ s.pkg.act.on = true ∧ (upDies s).any (fun e => draining (s.die e) s.pkg.act.cid) = false := by decide +kernel

theorem wit_FirmwareDuties :
    let s := { up with guard := { up.guard with devTime := 600000000000 }, pkg := { up.pkg with mountedAt := some 0 } }
    let t := { up with nor := { norB with running := true }, pkg := { up.pkg with mountedAt := some 0 } }
    let u := { up with nor := { up.nor with cjErased := 3 } }
    running s 0 = true ∧ s.pkg.mountedAt = some 0 ∧ s.guard.die0At = none ∧ onTrial s.nor = true
      ∧ 0 + 600000000000 ≤ s.guard.devTime
      ∧ running t 0 = true ∧ t.pkg.mountedAt.isSome = true ∧ (leAt (manifest t.nor t.nor.running) 7 1).testBit 0 = true
      ∧ running u 0 = true ∧ u.nor.cjErased < 4 ∧ u.pkg.act.on = false := by decide +kernel

/-! ### Witnesses: the map, the Nectar buffer and the Forager -/

/-- A group of the rescue reserve: 112 MiB of erased SLC capacity at the reset geometry (R209). -/
def rescue2 : Group := { freeGroup 2 with st := .rescue, qlc := false }

/-- Die 1 with a budget of 96 MiB. -/
def budget1 (c : Cmd) (f : MapEng → MapEng) : State :=
  (data1 c (fun m => f { m with limShare := 2 ^ 40 })).updDie 1 (fun x => { x with groups := [freeGroup 1, rescue2] })

theorem wit_NectarAdmit :
    let c := { kcmd Op.put with phase := .admitting }
    let e := { kcmd Op.delete with phase := .admitting }
    let s := budget1 c (fun m => { m with wseq := 7, wbound := 8 })
    let t := budget1 e (fun m => { m with kv := [entry true 8], ring := [ringed] })
    TakesWork s 1 Page.map ∧ admitRefusal s 1 c = none ∧ firstWaiting (s.die 1) = some c ∧ canReplyB s c sess 0 = true
      ∧ dirtySize (s.die 1) c + dirtyBytes (s.die 1) ≤ budgetOf s 1 ∧ c.hdr.opcode = Op.put ∧ goesThrough s 1 c = false
      ∧ nsOf (s.die 1) 3 1 = some kvNs ∧ hasDataKey (s.die 1).cry 3 = true
      ∧ TakesWork t 1 Page.map ∧ admitRefusal t 1 e = none ∧ goesThrough t 1 e = false ∧ firstWaiting (t.die 1) = some e ∧ canReplyB t e sess 0 = true
      ∧ dirtySize (t.die 1) e + dirtyBytes (t.die 1) ≤ budgetOf t 1 ∧ e.hdr.opcode = Op.delete
      ∧ kvLive (t.die 1) 3 1 [1] = some (entry true 8) := by decide +kernel

theorem wit_NectarAdmit_key : askEncrypt ((budget1 (kcmd Op.put) id).die 1) 3 = .ready dataSlot3 := rfl

theorem wit_PackerStripe :
    let s := (data1 (kcmd Op.put) (fun m => { m with ring := [ringed] })).updDie 1 (fun x => { x with groups := [group1] })
    running s 1 = true ∧ (s.die 1).fgr.mode ≠ .stall ∧ (s.die 1).map.ring.find? (fun r => !fullyPlaced r) = some ringed
      ∧ (∃ t, openFor s 1 (wantsQlc s 1 ringed) false = some (group1, t)) :=
  ⟨by decide +kernel, by decide +kernel, rfl, ⟨_, rfl⟩⟩

/-- Die 7 with a map to write, free groups and its anchor groups. -/
def mapped : State :=
  upDie 7 (fun x => { x with
    map := { x.map with mounted := true, ckpt := true, nstab := [kvNs] }
    groups := { freeGroup 0 with st := .anchor } :: (List.range 40).map (fun n => freeGroup (n + 1)) })

theorem wit_MapEngine :
    let t := (ensureJournal mapped 7).updDie 7 (fun x => jAppendTo x 0 0 (.ckptBegin ((ensureJournal mapped 7).die 7).map.jseq))
    running mapped 7 = true ∧ (mapped.die 7).map.mounted = true ∧ ckptDue mapped 7 = true
      ∧ ((writeMap t 7).bind (fun s2 => rootPlace s2 7)).isSome = true := by decide +kernel

theorem wit_MapCkptNow : RowOpen up (dreg 7 Page.map 0x54) := rowOpen_of (by decide +kernel)

theorem wit_MapLock :
    let s := upRegs [(dreg 7 Page.map 0x50, 255)]
    running s 7 = true ∧ regsWf s.regs = true ∧ coreOn s 7 7 = true ∧ (coreAt s 7 7).st ≠ .halted ∧ dfld s 7 Page.map 0x50 7 0 < 256
      ∧ 3 ≤ (coresOn s 7).length := by decide +kernel

/-- Die 1 with a victim, group 1, at a step of its reclaim. -/
def victim1 (st : ReclaimStep) (g : Group) : State :=
  upDie 1 (fun x => { x with fgr := { x.fgr with victim := some 1, step := st }, groups := [g] })

theorem wit_ForagerReclaim :
    let g := { group1 with st := .closed }
    let s := upDie 1 (fun x => { x with groups := [g] })
    TakesWork s 1 Page.fgr ∧ (s.die 1).fgr.victim = none
      ∧ nextVictim (fgrReval s 1) 1 = some (g, false)
      ∧ running (victim1 .chosen g) 1 = true ∧ groupOf ((victim1 .chosen g).die 1) 1 = some g ∧ liveItems ((victim1 .chosen g).die 1) 1 = []
      ∧ victimReading ((victim1 .reading g).die 1) = false ∧ liveItems ((victim1 .reading g).die 1) 1 = []
      ∧ copiesPending ((victim1 .copying g).die 1) = false
      ∧ (∀ o ∈ ((victim1 .fencing g).die 1).comb.fence, o ∉ raOpen ((victim1 .fencing g).die 1))
      ∧ readersIn ((victim1 .waiting { g with good := 15 }).die 1) 1 = false ∧ g.badCh = []
      ∧ deadChans ((victim1 .waiting { g with good := 15 }).die 1) { g with good := 15 } = [] ∧ 4 ≤ members 15 := by decide +kernel

theorem wit_ForagerDuties :
    let s := upDie 7 (fun x => { x with fgr := { x.fgr with recount := true, roReport := true } })
    running s 7 = true ∧ running s 0 = true ∧ (s.die 7).fgr.recount = true ∧ (s.die 7).fgr.roReport = true := by decide +kernel

theorem wit_FgrRecount : RowOpen up (dreg 7 Page.fgr 0x60) := rowOpen_of (by decide +kernel)

/-! ### Witnesses: flash and power tokens -/

/-- A flash operation of die 1 on channel 7. -/
def fop (kind : OpKind) (src : OpFrom) : FlashOp :=
  { op := 3, kind := kind, src := src, chan := 7, ce := 0, lun := 0, block := 1, page := 0, slc := false, urgent := false, cost := 4,
    running := true, susp := 0, paused := false, stripe := none, parity := false, cws := 1, since := 0, serve := [], retries := 0,
    drop := false }

/-- Die 1 with one flash operation. -/
def flash1 (o : FlashOp) (c : Cmd) : State :=
  (on1 sess [c]).updDie 1 (fun x => { x with flash := { x.flash with ops := [o], balance := 4 }, groups := [group1] })

/-- A READ that waits for n reads, with a one-byte value. -/
def reading (n : Nat) : Cmd := { cmd Op.read with phase := .reading, reads := n, value := [1] }

theorem wit_FlashReads :
    let o := { fop .read (.host 9) with running := false }
    let s := flash1 o (reading 2)
    let t := flash1 (fop .read (.host 9)) (reading 2)
    let u := flash1 (fop .read (.host 9)) (reading 1)
    running s 1 = true ∧ opOf (s.die 1) 3 = some o ∧ takesWork s (fchReg 1 o.chan 0) = true ∧ o.late = none ∧ eligible s 1 o = true ∧ lunBusy (s.die 1) o = none
      ∧ (o.urgent = true ∨ splitAllows s 1 o = true ∧ tokenTurn s 1 o = true ∧ (o.cost : Int) ≤ (s.die 1).flash.balance)
      ∧ opOf (t.die 1) 3 = some (fop .read (.host 9)) ∧ cmdOf (t.die 1) 9 = some (reading (0 + 2))
      ∧ opOf (u.die 1) 3 = some (fop .read (.host 9)) ∧ cmdOf (u.die 1) 9 = some (reading 1) ∧ (reading 1).hdr.opcode = Op.read
      ∧ (reading 1).failed = false ∧ canReplyB u (reading 1) sess 1 = true := by decide +kernel

/-- A stripe of die 1 with n members left. -/
def stripe (n : Nat) : Stripe :=
  { sid := 4, group := 1, page := 0, first := 0, count := 2, writes := [], left := n, pulsed := [], forager := false, qlc := true }

theorem wit_FlashPrograms :
    let o := { fop .program .packer with stripe := some 4 }
    let s (n : Nat) := (flash1 o (cmd Op.nop)).updDie 1 (fun x => { x with flash := { x.flash with stripes := [stripe n] } })
    let e := fop .erase .forager
    let g := { group1 with st := .erasePending }
    let t := (flash1 e (cmd Op.nop)).updDie 1 (fun x => { x with flash := { x.flash with balance := 1000000 }, groups := [g] })
    running (s 2) 1 = true ∧ opOf ((s 2).die 1) 3 = some o ∧ o.running = true ∧ o.paused = false
      ∧ stripeOf ((s 2).die 1) 4 = some (stripe (0 + 2)) ∧ stripeOf ((s 1).die 1) 4 = some (stripe 1) ∧ (stripe 1).forager = false
      ∧ running t 1 = true ∧ opOf (t.die 1) 3 = some e ∧ groupOf (t.die 1) (opGroup e) = some g ∧ g.st = .erasePending
      ∧ Affords (t.die 1) e (2 * (if e.slc then 1 else wlPages t 1) * opCost t 1 .read e.slc)
      ∧ (∀ p ∈ (t.die 1).flash.ops, p.op ≠ 3 → p.kind = .erase → opGroup p ≠ opGroup e) := by decide +kernel

theorem wit_FlashFaults :
    let o := fop .program .packer
    let s := (flash1 o (cmd Op.nop)).updDie 1 (fun x => updChan x 7 (fun c => { c with timeouts := [(0, 2)] }))
    let h := { fop .read (.host 9) with running := false }
    let t := (flash1 h (reading 2)).updDie 1 (fun x => updChan { x with flash := { x.flash with balance := 1000 } } 7 (fun c => { c with st := .training, heldOp := some 3, failed := 1 }))
    running s 1 = true ∧ opOf (s.die 1) 3 = some o ∧ o.running = true ∧ o.kind ≠ .read
      ∧ 3 = (assocGet (o.ce * 16 + o.lun) ((s.die 1).flash.chans.get o.chan).timeouts).getD 0 + 1
      ∧ ((s.die 1).flash.chans.get 7).st ≠ .retired
      ∧ running t 1 = true ∧ ((t.die 1).flash.chans.get 7).st = .training
      ∧ (∀ i < 4, rbBusy (t.die 1) 7 i = false) ∧ lunRetired (t.die 1) 7 h.ce h.lun = false ∧ ((t.die 1).flash.chans.get 7).heldOp = some 3
      ∧ opOf (t.die 1) 3 = some h ∧ ((t.die 1).flash.chans.get 7).failed < 2
      ∧ inService (t.die 1) h.chan h.ce h.lun = false ∧ cmdOf (t.die 1) 9 = some (reading (0 + 2)) ∧ missingMembers (t.die 1) h = 0
      ∧ Affords (t.die 1) h (memberReads (t.die 1) h * h.cost) := by
  decide +kernel

theorem wit_PowerTokens :
    let s := upDie 7 (fun x => { x with flash := { x.flash with gotAlloc := true } })
    running s 7 = true ∧ (s.die 7).flash.gotAlloc = true ∧ s.pkg.demand.length = 8 ∧ running s 0 = true ∧ present s 7 = true
      ∧ (s.die 7).phase ≠ .fenced := by decide +kernel

/-! ### Witnesses: the Comb -/

/-- CMB_UPD_CTRL (R176). -/
def updSpec : RegSpec :=
  ⟨0x80, 1, [⟨31, 24, .rw, 0, .any⟩, ⟨23, 23, .ro, 0, .any⟩, ⟨22, 22, .ro, 0, .any⟩, ⟨20, 20, .rw, 0, .any⟩,
    ⟨19, 16, .rw, 0, .between 1 5⟩, ⟨15, 0, .rw, 0, .any⟩]⟩

/-- Die 7 with one Comb entry at index 0. -/
def comb7 (valid : Bool) : State :=
  upDie 7 (fun x => { x with comb := { x.comb with entries := [{ hotEntry with idx := 0, valid := valid, val := 0, res := 0 }] } })

/-- A RESULT for a version that the entry does not hold (R160, R176). -/
def resKept : State :=
  ([0xB8, 0xBC, 0xC0, 0xC4] : List Nat).foldl (fun s off => regSet s (dreg 7 Page.cmb off) 0xFFFFFFFF) (comb7 true)

theorem wit_CombUpdates :
    regSpec .cmb 0x80 = some updSpec ∧ valuesOk updSpec 0x00010000 = true ∧ valuesOk updSpec 0x00050000 = true
      ∧ valuesOk updSpec 0x00060000 = false ∧ TakesWork (comb7 true) 7 Page.cmb ∧ TakesWork (comb7 false) 7 Page.cmb
      ∧ ((comb7 true).die 7).comb.busy = none ∧ updRefused (comb7 true) 7 0x00010000 = none ∧ fld (0x00010000 : Word) 19 16 = 1
      ∧ updRefused (comb7 false) 7 0x00020000 = none ∧ fld (0x00020000 : Word) 19 16 = 2
      ∧ (Machine.combEntry ((comb7 false).die 7).comb 0).valid = false
      ∧ updRefused (comb7 false) 7 0x00030000 = none ∧ fld (0x00030000 : Word) 19 16 = 3 ∧ combWritten ((comb7 false).die 7).comb 0 = true
      ∧ updRefused (comb7 true) 7 0x00040000 = none ∧ fld (0x00040000 : Word) 19 16 = 4 ∧ combWritten ((comb7 true).die 7).comb 0 = true
      ∧ resultTakes (comb7 true) 7 0 = true ∧ updRefused (comb7 true) 7 0x00050000 = none ∧ fld (0x00050000 : Word) 19 16 = 5
      ∧ bitAt (0x00050000 : Word) 20 = false ∧ updRefused (comb7 true) 7 0x00150000 = none ∧ bitAt (0x00150000 : Word) 20 = true
      ∧ 0 ∉ ((comb7 false).die 7).comb.reclaimIx
      ∧ (let s := (comb7 false).updDie 7 (fun x => { x with comb := { x.comb with reclaimIx := [0] } })
         TakesWork s 7 Page.cmb ∧ updRefused s 7 0x00020000 = none ∧ (s.die 7).comb.busy = none ∧ 0 ∈ (s.die 7).comb.reclaimIx)
      ∧ (let s := resKept
         TakesWork s 7 Page.cmb ∧ updRefused s 7 0x01040000 = none ∧ fld (0x01040000 : Word) 19 16 = 4
          ∧ combWritten (s.die 7).comb 0 = true ∧ resultTakes s 7 0 = false ∧ regsWf s.regs = true) := by decide +kernel

theorem wit_CombUpdates_open (b : Bool) : RowOpen (comb7 b) (updCtrl 7) := by
  cases b <;> exact rowOpen_of (by decide +kernel)

theorem wit_CombEnds :
    let s := upDie 7 (fun x => { x with comb := { x.comb with reclaimOn := true, shift := some { first := 0, last := 0, down := false } } })
    let t := s.updDie 7 (fun x => { x with comb := { x.comb with late := some hotEntry, shift := some { first := 1, last := 3, down := true } } })
    running s 7 = true ∧ (s.die 7).comb.late = none ∧ (s.die 7).comb.reclaimOn = true
      ∧ (s.die 7).comb.shift = some { first := 0, last := 0, down := false }
      ∧ shiftHeld (s.die 7).comb { first := 0, last := 0, down := false } = false
      ∧ running t 7 = true ∧ (t.die 7).comb.reclaimOn = true ∧ (t.die 7).comb.late = some hotEntry
      ∧ (t.die 7).comb.shift = some { first := 1, last := 3, down := true }
      ∧ shiftHeld (t.die 7).comb { first := 1, last := 3, down := true } = false := by
  decide +kernel

/-- CMB_SRCH_CTRL and CMB_SHIFT_CTRL (R176). -/
def srchSpec : RegSpec := ⟨0xC8, 1, [⟨31, 31, .w1s, 0, .any⟩, ⟨1, 1, .rw, 0, .any⟩, ⟨0, 0, .rw, 1, .any⟩]⟩
def shiftSpec : RegSpec := ⟨0xFC, 1, [⟨2, 2, .ro, 0, .any⟩, ⟨1, 1, .rw, 0, .any⟩, ⟨0, 0, .w1s, 0, .any⟩]⟩

theorem wit_CombSearches :
    let s := upRegs [(dreg 7 Page.cmb 0xF8, 0x000E000E)]
    let p : CombSearch := { word := 0, mask := 0, cascade := false }
    let t := (comb7 true).updDie 7 (fun x => { x with comb := { x.comb with search := some p } })
    let c : CombSearch := { p with cascade := true }
    let u := (upRegs [(dreg 7 Page.cmb 0x40, 4)]).updDie 7 (fun x => { x with comb := { x.comb with search := some c } })
    TakesWork up 7 Page.cmb ∧ TakesWork s 7 Page.cmb ∧ running u 7 = true ∧ (u.die 7).comb.search = some c
      ∧ dfld u 7 Page.cmb 0x40 2 2 = 1
      ∧ (reachB up (dreg 7 Page.cmb 0xC8) && !softResetting up (baseOf (dreg 7 Page.cmb 0xC8))) = true
      ∧ regSpec .cmb 0xC8 = some srchSpec ∧ valuesOk srchSpec 0x80000000 = true ∧ bitAt (0x80000000 : Word) 31 = true
      ∧ (up.die 7).comb.search = none
      ∧ (reachB s (dreg 7 Page.cmb 0xFC) && !softResetting s (baseOf (dreg 7 Page.cmb 0xFC))) = true
      ∧ regSpec .cmb 0xFC = some shiftSpec ∧ valuesOk shiftSpec 1 = true ∧ bitAt (1 : Word) 0 = true ∧ (s.die 7).comb.shift = none
      ∧ shiftOk s 7 (dfld s 7 Page.cmb 0xF8 15 0) (dfld s 7 Page.cmb 0xF8 31 16) (bitAt (1 : Word) 1) = true
      ∧ running t 7 = true ∧ (t.die 7).comb.search = some p ∧ ((t.die 7).comb.entries.map (fun e => e.idx)).Nodup
      ∧ (∃ e ∈ (t.die 7).comb.entries, combMatch p.word p.mask e = true)
      ∧ (∀ e ∈ (up.die 7).comb.entries, combMatch p.word p.mask e = false) := by decide +kernel

/-! ### Witnesses: hold-up control and power loss -/

/-- Every slot of HCE is on, with an output limit of 0x7FFF. -/
def loops : State :=
  upRegs (([0, 1, 2, 3] : List SlotId).flatMap (fun n => [(hreg n 0, 1), (hreg n 0x10, 0x7FFF0000), (hreg n 0x14, 0x7FFF0000)]))

theorem wit_ControlLoops :
    loops.guard.off = false ∧ slotOn loops 3 = true ∧ (hceSlot loops 3).fixedIn = none ∧ outMin loops 3 0x10 ≤ outMax loops 3 0x10
      ∧ (hceSlot loops 3).forced0 = false ∧ slotOn up 3 = false
      ∧ (let s := updHce loops 0 (fun k => { k with forced0 := true })
         slotOn s 0 = true ∧ (hceSlot s 0).fixedIn = none ∧ (hceSlot s 0).forced0 = true) := by decide +kernel

theorem wit_TraceBuffers :
    let s := updHce loops 3 (fun k => { k with iout := 0x7FFF })
    let t := updHce up 3 (fun k => { k with armed := true })
    let u := updHce up 3 (fun k => { k with trig := true, left := 0 })
    s.guard.off = false ∧ regsWf s.regs = true ∧ slotOn s 3 = true ∧ (hceSlot s 3).iout = outMax s 3 0x14
      ∧ 2 ≤ (3 : SlotId).val ∧ 32768 < 5 * (hceSlot s 3).iout ∧ (hceSlot s 3).imeas = 0
      ∧ rowB up .hce (hreg 3 0x1C) 0x80000000 = true ∧ bitAt (0x80000000 : Word) 31 = true ∧ bitAt (0x80000000 : Word) 27 = false
      ∧ rowB t .hce (hreg 3 0x1C) 0x08000000 = true ∧ bitAt (0x08000000 : Word) 31 = false ∧ bitAt (0x08000000 : Word) 27 = true
      ∧ trigSource (storeReg t (hreg 3 0x1C) 0x08000000) 3 = 0 ∧ (hceSlot t 3).armed = true ∧ (hceSlot t 3).trig = false
      ∧ (hceSlot u 3).trig = true ∧ (hceSlot u 3).left = 0
      ∧ fld (regGet (upRegs [(greg Page.hce 0x140, 6)]) (greg Page.hce 0x140)) 2 0 < 7
      ∧ fld (regGet (upRegs [(greg Page.hce 0x140, 0x7FF7)]) (greg Page.hce 0x140)) 2 0 = 7
      ∧ fld (regGet (upRegs [(greg Page.hce 0x140, 0x7FF7)]) (greg Page.hce 0x140)) 15 3 < 4095 := by decide +kernel

theorem wit_BankTest :
    let p (f : Psu → Psu) : State := upGuard (fun g => { g with psu := f g.psu })
    let due := p (fun q => { q with testDue := true })
    let high := p (fun q => { q with ovStop := true, ovRead := true, vbank := 3799 })
    up.guard.off = false ∧ 4200 < 4201 ∧ up.guard.psu.ovStop = false
      ∧ high.guard.psu.ovStop = true ∧ high.guard.psu.ovRead = true ∧ high.guard.psu.vbank < vSet high
      ∧ testFree due = true ∧ (due.guard.psu.testDue = true ∨ due.guard.psu.begun = false ∧ vSet due ≤ due.guard.psu.vbank)
      ∧ (reachB due (greg Page.psu 0x60) && !softResetting due (baseOf (greg Page.psu 0x60))) = true
      ∧ (p (fun q => { q with test := .waitFit })).guard.psu.test = .waitFit ∧ diesFit (p (fun q => { q with test := .waitFit })) = true
      ∧ (0 : Nat) < 1 ∧ (p (fun q => { q with test := .waitFit })).guard.losing = false
      ∧ (p (fun q => { q with test := .discharge })).guard.psu.test = .discharge
      ∧ (p (fun q => { q with test := .recharge })).guard.psu.test = .recharge := by decide +kernel

theorem wit_PowerLoss :
    let s := upGuard (fun g => { g with losing := true })
    let t := upGuard (fun g => { g with losing := true, psu := { g.psu with flushed := [0, 1, 2, 3, 4, 5, 6] } })
    up.guard.off = false ∧ up.guard.losing = false ∧ up.guard.deep = false ∧ 7 ∈ flushers up
      ∧ ((upDie 7 (fun x => { x with map := { x.map with mounted := true } })).die 7).map.mounted = true
      ∧ s.guard.losing = true ∧ s.guard.lossDone = false ∧ 7 ∈ flushers s ∧ 7 ∉ s.guard.psu.flushed
      ∧ (∃ e ∈ flushers s, e ≠ 7 ∧ e ∉ s.guard.psu.flushed) ∧ (∀ e ∈ flushers t, e = 7 ∨ e ∈ t.guard.psu.flushed) ∧ regsWf s.regs = true
      ∧ 7 ∉ t.guard.psu.flushed
      ∧ (let u := { mapped with guard := s.guard }
         7 ∈ flushers u ∧ (u.die 7).map.mounted = true ∧ (rootPlace (spillMeters (flushRing u 7) 7) 7).isSome = true) := by
  decide +kernel


/-! ### Witnesses: faults, power states, the sideband and temperatures -/

/-- Die 1 has been mounted and has a place for a root. -/
def mounted1 : State :=
  upDie 1 (fun x => { x with map := { x.map with mounted := true }, groups := [{ freeGroup 0 with st := .anchor }] })

/-- A time ten minutes after the last fault of die 0, with RESET_N low. -/
def lateFault : State := upGuard (fun g => { g with devTime := 700000000000, die0At := some 0, resetLow := true })

theorem wit_DieFaults :
    faultable mounted1 1 = true ∧ running mounted1 1 = true ∧ secondFault mounted1 1 = false ∧ (mounted1.die 1).map.mounted = true
      ∧ DieFaultCause.cores ≠ .rail
      ∧ (let s0 : State := { mounted1 with guard := { mounted1.guard with faultAt := assocSet 1 mounted1.guard.devTime mounted1.guard.faultAt } }
         (rootPlace (spillMeters (flushRing (handBack (endAll s0 1) 1 (fun _ => Stat.busyRetry)) 1) 1) 1).isSome = true)
      ∧ (let s := upGuard (fun g => { g with faultAt := [(1, 0)] })
         faultable s 1 = true ∧ secondFault s 1 = true)
      ∧ (let s := upDie 1 (fun x => { x with phase := .dieReset })
         present s 1 = true ∧ (s.die 1).phase = .dieReset ∧ resetBlocked s = false ∧ s.pkg.starting = false)
      ∧ (let s := upGuard (fun g => { g with devTime := 5, die0At := some 5 })
         resetBlocked s = false ∧ s.guard.die0At = some 5 ∧ s.guard.devTime - 5 < 600000000000)
      ∧ resetBlocked lateFault = false ∧ lateFault.guard.die0At = some 0 ∧ 600000000000 ≤ lateFault.guard.devTime - 0
      ∧ lateFault.guard.resetLow = true := by decide +kernel

/-- Die 1's clock stands at 10 s. -/
def clock1 : State := upDie 1 (fun x => { x with mon := { x.mon with devTime := 10000000000 } })

theorem wit_CoreWatchdog :
    rowB up .wrk (wrkBase 1 + 0x48) 5 = true ∧ running clock1 1 = true ∧ regsWf clock1.regs = true ∧ coreOn clock1 1 2 = true
      ∧ (coreAt clock1 1 2).st ≠ .halted ∧ (coreAt clock1 1 2).kickAt + wdtNs clock1 1 ≤ (clock1.die 1).mon.devTime
      ∧ 2 < (coresOn clock1 1).length := by decide +kernel

/-- Die 1 in a power state that MAX_STATE allows. -/
def resting (p : PowerState) : State :=
  (upRegs [(dreg 1 Page.csq 0x68, 3)]).updDie 1 (fun x =>
    { x with csq := { x.csq with ps := p }, mon := { x.mon with devTime := 10 ^ 15 } })

/-- The same within the entry to the next state. -/
def entering (p : PowerState) (n : Nat) : State := (resting p).updDie 1 (fun x => { x with csq := { x.csq with stage := n } })

theorem wit_DiePowerStates :
    running (resting .run) 1 = true ∧ ((resting .run).die 1).csq.ps = .run ∧ dieIdle ((resting .run).die 1) = true
      ∧ 1 ≤ maxState (resting .run) 1 ∧ regsWf (resting .run).regs = true ∧ ((resting .run).die 1).csq.stage = 0
      ∧ idleFor ((resting .run).die 1) (idleUs (resting .run) 1) = true ∧ dieIdle ((entering .run 1).die 1) = true
      ∧ ((entering .run 1).die 1).csq.ps = .run ∧ ((entering .run 1).die 1).csq.stage ≠ 0 ∧ (entering .run 1).guard.entry = 0
      ∧ running (resting .idle) 1 = true ∧ ((resting .idle).die 1).csq.ps = .idle ∧ dieIdle ((resting .idle).die 1) = true
      ∧ 2 ≤ maxState (resting .idle) 1 ∧ ((resting .idle).die 1).csq.stage = 0
      ∧ idleFor ((resting .idle).die 1) (sleepUs (resting .idle) 1) = true ∧ dieIdle ((entering .idle 2).die 1) = true
      ∧ ((entering .idle 2).die 1).csq.ps = .idle ∧ 2 ≤ ((entering .idle 2).die 1).csq.stage
      ∧ running (resting .sleep) 1 = true ∧ ((resting .sleep).die 1).csq.ps = .sleep ∧ dieIdle ((resting .sleep).die 1) = true
      ∧ idleFor ((resting .sleep).die 1) (deepUs (resting .sleep) 1) = true ∧ (resting .sleep).guard.entry = 0
      ∧ 3 ≤ maxState (resting .sleep) 1 ∧ ((resting .sleep).die 1).csq.ps ≠ .run ∧ (resting .sleep).guard.off = false
      ∧ ((resting .idle).die 1).csq.ps ≠ .sleep := by decide +kernel

/-- A Swarm port of a die changed. -/
def updLinkOf (x : Die) (k : SwmId) (f : Swm → Swm) : Die := { x with swm := vset x.swm k (f (x.swm.get k)) }

/-- Every die has asked for DEEP. -/
def allAsk : State :=
  { State.reset with dies := Vector.replicate 8 { phase := .up, csq := { ps := .sleep, deepReq := true } } }

/-- Within the entry to DEEP. -/
def entryAt (n : Nat) : State := { allAsk with guard := { allAsk.guard with entry := n } }

/-- The package is in DEEP, its alarm clock set to 1 s and come. -/
def inDeep : State :=
  { upRegs [(pkgBase + 0x44, 3), (pkgBase + 0x48, 1)] with guard := { up.guard with deep := true, devTime := 2000000000 } }

theorem wit_PackagePowerStates_steps :
    ([2, 3, 4] : List Nat).all (fun n => (entryAt n).guard.entry == n
        && (deepDies (entryAt n)).all (fun d => dieIdle ((entryAt n).die d) && creditsHome ((entryAt n).die d))) = true
      ∧ (let s := (entryAt 2).updDie 2 (fun x => updLinkOf x 1 (fun q => { q with st := .up, reqCred := 63 }))
         2 ∈ deepDies s ∧ creditsHome (s.die 2) = false ∧ (deepDies s).all (fun d => dieIdle (s.die d)) = true) := by decide +kernel

theorem wit_PackagePowerStates :
    allAsk.guard.losing = false ∧ allAsk.guard.off = false ∧ allAsk.guard.deep = false ∧ allAsk.guard.shutting = false
      ∧ allAsk.pkg.starting = false ∧ deepDies allAsk ≠ []
      ∧ (∀ d ∈ deepDies allAsk, (allAsk.die d).phase = .up ∧ (allAsk.die d).csq.deepReq = true)
      ∧ (∀ d ∈ deepDies allAsk, dieIdle (allAsk.die d) = true) ∧ allAsk.guard.entry = 0
      ∧ (let s := allAsk.updDie 2 (fun x => { x with csq := { x.csq with cmds := [cmd 0] } })
         (∀ d ∈ deepDies s, (s.die d).phase = .up ∧ (s.die d).csq.deepReq = true) ∧ 2 ∈ deepDies s ∧ dieIdle (s.die 2) = false
           ∧ regsWf s.regs = true ∧ s.guard.losing = false)
      ∧ inDeep.guard.losing = false ∧ inDeep.guard.off = false ∧ inDeep.guard.deep = true ∧ gfld inDeep Page.pkg 0x44 1 1 = 1
      ∧ 0 < (regGet inDeep (pkgBase + 0x48)).toNat
      ∧ (regGet inDeep (pkgBase + 0x48)).toNat * 1000000000 ≤ inDeep.guard.devTime
      ∧ (reachB inDeep (pkgBase + 0x40) && !softResetting inDeep (baseOf (pkgBase + 0x40))) = true
      ∧ (reachB mounted1 (pkgBase + 0x40) && !softResetting mounted1 (baseOf (pkgBase + 0x40))) = true
      ∧ 1 ∈ upDies mounted1 ∧ (mounted1.die 1).map.mounted = true
      ∧ (let s := upGuard (fun g => { g with off := true, resetLow := true })
         s.guard.losing = false ∧ s.guard.off = true ∧ s.guard.resetLow = true) := by decide +kernel

theorem wit_Sideband :
    up.guard.off = false ∧ (1 : Fin 2).val < up.guard.mgtOut.length ∧ smbusWakes (upRegs [(pkgBase + 0x44, 0)]) 1 = false
      ∧ hottestOf ((thmDies up).flatMap (fun d => goodTemps (up.die d).thm) ++ goodTemps up.guard.thm) = some 400
      ∧ inDeep.guard.off = false ∧ (1 : Fin 2).val < inDeep.guard.mgtOut.length ∧ inDeep.guard.deep = true
      ∧ gfld inDeep Page.pkg 0x44 0 0 = 1 := by decide +kernel

/-- Twelve readings of a die, in 1/16 °C. -/
def twelve (t : Int) : List Int := List.replicate 12 t

/-- The thermal state that a sample comes to. -/
def sampled (s : State) (w : Site) (readings : List Int) : Nat :=
  let l := readings.take (sensorsOf w)
  let bad := (thmAt s w).bad ++ (badIn l).filter (fun n => !(thmAt s w).bad.contains n)
  let good := goodTemps { thmAt s w with temps := l, bad := bad }
  max (max (thmCode (thmAt s w).st) (reachedState s w good)) (countState w good.length)

theorem wit_ThermalSamples :
    thmRuns up (.die 1) = true ∧ sampled up (.die 1) (twelve 400) = 0 ∧ sampled up (.die 1) (twelve 1600) = 2
      ∧ thmCode (up.die 1).thm.st < 2 ∧ (1 : DieId).val < up.pkg.lims.length
      ∧ sampled up (.die 1) (twelve 2000) = 3 ∧ up.guard.losing = false ∧ up.guard.thermHold = false ∧ up.pkg.starting = false
      ∧ resetBlocked up = false ∧ running up 1 = true ∧ running up 0 = true ∧ thmRuns up (.die 0) = true
      ∧ sampled up (.die 0) (twelve 2000) = 3 ∧ thmRuns up .guard = true ∧ sampled up .guard [2000, 2000] = 3 := by decide +kernel

/-- Die 1 with its thermal management changed. -/
def therm1 (f : Thm → Thm) : State := upDie 1 (fun x => { x with thm := f x.thm })

theorem wit_ThermalRecovery :
    thmRuns (therm1 (fun t => { t with st := .throttle })) (.die 1) = true
      ∧ (let s := therm1 (fun t => { t with bad := [3] })
         thmRuns s (.die 1) = true ∧ 3 ∈ (thmAt s (.die 1)).bad ∧ readsBad (thmAt s (.die 1)).temps 3 = false)
      ∧ (let s0 := therm1 (fun t => { t with st := .throttle })
         let s := { s0 with pkg := { s0.pkg with lims := s0.pkg.lims.set 1 (some 1) } }
         running s 1 = true ∧ throttled (s.die 1).thm.st = true ∧ s.pkg.lims.getD 1 none = some 1 ∧ 1 ≤ limFloor s)
      ∧ (let s := upDie 1 (fun x => { x with phase := .hot, thm := { x.thm with st := .shutdown } })
         s.guard.losing = false ∧ s.guard.off = false ∧ s.guard.thermHold = false ∧ (s.die 1).phase = .hot ∧ cooled s (.die 1) = true)
      ∧ (let s := upGuard (fun g => { g with thermHold := true, resetLow := true })
         s.guard.thermHold = true ∧ cooled s (.die 0) = true ∧ cooled s .guard = true ∧ s.guard.resetLow = true)
      ∧ (let s := therm1 (fun t => { t with loaded := true })
         thmRuns s (.die 1) = true ∧ (thmAt s (.die 1)).loaded = true ∧ goodTemps (thmAt s (.die 1)) ≠ []
           ∧ 0 ≤ (goodTemps (thmAt s (.die 1))).sum + 640 * (goodTemps (thmAt s (.die 1))).length
           ∧ (goodTemps (thmAt s (.die 1))).sum < 1760 * (goodTemps (thmAt s (.die 1))).length)
      ∧ rowB up .thm (thmBase (.die 1) + 0x48) 0x80000012 = true ∧ bitAt (0x80000012 : Word) 31 = true
      ∧ locked up (thmBase (.die 1)) = false := by decide +kernel

/-! ### Witnesses: alarms, metering and monitors -/

/-- Alarms have come all through the last hour. -/
def alarmed (n : Nat) : State := upGuard (fun g => { g with devTime := 5, alarms := List.replicate n 5 })

theorem wit_Alarms :
    up.guard.off = false ∧ up.guard.losing = false ∧ isAlarm up .glitch (.die 1) = true ∧ regsWf up.regs = true
      ∧ (alarmHour up).length + 1 < gfld up Page.psu 0x180 31 24
      ∧ isAlarm (alarmed 40) .glitch (.die 1) = true
      ∧ gfld (alarmed 40) Page.psu 0x180 31 24 ≤ (alarmHour (alarmed 40)).length + 1 ∧ (alarmed 40).guard.alarmHold = false
      ∧ (let s := upGuard (fun g => { g with alarmSrc := [(.glitch, .die 1)], resetLow := true })
         s.guard.alarmSrc ≠ [] ∧ resetBlocked s = false ∧ s.pkg.starting = false ∧ s.guard.resetLow = true) := by decide +kernel

/-- Die 1 holds a data slot that has used up its bound. -/
def spent1 : State :=
  upDie 1 (fun x => { x with cry := { x.cry with
    data := [{ num := 4, st := .current, tenant := 3, gen := 1, xts := none, share := [], ctr := 100, bound := 100 }] } })

theorem wit_Randomness :
    running spent1 1 = true ∧ spent1.pkg.entropyFail = false ∧ running spent1 0 = true
      ∧ ∃ k, (spent1.die 1).cry.data.find? (fun k => k.num == 4) = some k ∧ k.bound < k.ctr + 2 ^ (resvLog2 spent1 1 - 2) := by
  refine ⟨by decide +kernel, by decide +kernel, by decide +kernel, _, rfl, ?_⟩
  decide +kernel

/-- Minute 7 waits for its seal; the dies of a list have reported. -/
def closing7 (l : List DieId) : State := { up with mtr := { up.mtr with minute := 8, closing := some 7, got := l } }

theorem wit_MeteringMinutes :
    running up 0 = true
      ∧ (let s := (closing7 [0]).updDie 1 (fun x => { x with mon := { x.mon with prevSent := false } })
         running s 1 = true ∧ s.mtr.closing.isSome = true ∧ (s.die 1).mon.prevSent = false ∧ 1 ∉ s.mtr.got ∧ 1 ∉ s.mtr.missing)
      ∧ present (closing7 [0]) 1 = true ∧ (closing7 [0]).mtr.closing.isSome = true ∧ 1 ∉ (closing7 [0]).mtr.got
      ∧ 1 ∉ (closing7 [0]).mtr.missing
      ∧ running (closing7 allDies) 0 = true ∧ regsWf (closing7 allDies).regs = true ∧ (closing7 allDies).mtr.closing = some 7
      ∧ allReported (closing7 allDies) = true
      ∧ logBytes ((closing7 allDies).mtr.log ++ [sealedMinute (closing7 allDies) 7])
          ≤ dfld (closing7 allDies) 0 Page.mtr 0x48 15 0 * 10 ^ 9 := by decide +kernel

theorem wit_Monitors :
    let slow := upDie 1 (fun x => { x with mon := { x.mon with rates := [{ code := 8, burst := 1, rate := 1, tokens := 0 }] } })
    let full := upDie 1 (fun x => { x with mon := { x.mon with rates := [{ code := 8, burst := 1, rate := 1, tokens := 1000 }] } })
    running up 1 = true ∧ rowB up .lat (dreg 1 Page.lat 0x50) 0x20010003 = true ∧ latIndexOk 2 3 = true
      ∧ fld (0x20010003 : Word) 29 28 = 2 ∧ fld (0x20010003 : Word) 11 0 = 3 ∧ bitAt (0x20010003 : Word) 16 = true
      ∧ running full 1 = true ∧ 1000 ≤ (rateOf 8 (full.die 1).mon.rates).tokens ∧ (rateOf 8 (full.die 1).mon.rates).rate ≠ 0
      ∧ running slow 1 = true ∧ (rateOf 8 (slow.die 1).mon.rates).tokens < 1000 ∧ (rateOf 8 (slow.die 1).mon.rates).rate ≠ 0
      ∧ rowB up .evr (dreg 1 Page.evr 0x40) 0x108 = true ∧ bitAt (0x108 : Word) 8 = true ∧ locked up (dreg 1 Page.evr 0) = false
      ∧ (reachB up (dreg 1 Page.evr 0x48) && !softResetting up (baseOf (dreg 1 Page.evr 0x48))) = true := by decide +kernel

/-! ### Witnesses: Ethernet, DRAM, the mover and the buffer pools -/

/-- Die 1 with port 0 changed. -/
def port1 (f : EthPort → EthPort) : State := updPort up 1 0 f

/-- Port 0 of die 1 is up, with the IPv4 address 10.0.0.9 and the IPv6 address fe80::9, a filter that takes UDP port 0xBA04 to
queue 2, and pool 0 enabled with four buffers. -/
def netted : State :=
  let s := port1 (fun q => { q with
    up := true
    slots := [{ slot := 0, valid := true, v6 := false, tagged := false, vid := 0, data := 0x0A000009, next := 0x0A000009 },
              { slot := 1, valid := true, v6 := true, tagged := false, vid := 0, data := 0xFE800000000000000000000000000009, next := 0 }]
    filters := [{ idx := 4, matchA := 0x08000000, matchB := 0xBA041100, act := 0x8E000002 }] })
  enablePool (regSet s (ethBase 1 0 + 0x50) 0x00100600) 1 0 { sizeLog2 := 11, count := 4, base := 0x2000 }

/-- A frame with good sums. -/
def frame (b : Bytes) : Frame := { bytes := b, fcsOk := true, fecOk := true }

/-- An ARP request for 10.0.0.9 from 02:00:00:00:00:01, 10.0.0.1. -/
def arpReq : Bytes :=
  List.replicate 6 0xFF ++ [2, 0, 0, 0, 0, 1, 8, 6, 0, 1, 8, 0, 6, 4, 0, 1, 2, 0, 0, 0, 0, 1, 10, 0, 0, 1] ++ zeros 6 ++ [10, 0, 0, 9]
    ++ zeros 18

/-- A Neighbor Solicitation for fe80::9. -/
def nsReq : Bytes :=
  zeros 6 ++ [2, 0, 0, 0, 0, 1, 0x86, 0xDD, 0x60, 0, 0, 0, 0, 24, 58, 255] ++ zeros 32 ++ [135, 0, 0, 0, 0, 0, 0, 0, 0xFE, 0x80]
    ++ zeros 13 ++ [9]

/-- A UDP datagram to port 0xBA04 over IPv4. -/
def udpFrame : Bytes :=
  zeros 6 ++ [2, 0, 0, 0, 0, 1, 8, 0, 0x45, 0, 0, 0, 0, 0, 0, 0, 64, 17] ++ zeros 10 ++ [0, 0, 0xBA, 4] ++ zeros 22

/-- A PFC frame that pauses priority 2. -/
def pfcFrame : Bytes := zeros 12 ++ [0x88, 8, 1, 1, 0, 4, 0, 0, 0, 0, 1, 0] ++ zeros 36

/-- What a receiving port asks of its state. -/
theorem wit_EthernetReceive_state :
    Serving netted 1 ∧ TakesWork netted 1 (Page.eth 0) ∧ (portOf (netted.die 1) 0).up = true ∧ (frame udpFrame).fecOk = true
      ∧ (zeros 20).length + 4 < 64
      ∧ 64 ≤ ([2] ++ zeros 59 : Bytes).length + 4 ∧ beAt ([2] ++ zeros 59) 12 2 ≠ 0x8808
      ∧ dstOk netted 1 0 (rxHead ([2] ++ zeros 59)) = false
      ∧ 64 ≤ pfcFrame.length + 4 ∧ beAt pfcFrame 12 2 = 0x8808 ∧ beAt pfcFrame 14 2 = 0x0101 ∧ (beAt pfcFrame 16 2).testBit 2 = true
      ∧ (efld netted 1 0 0x50 15 8).testBit 2 = true := by decide +kernel

theorem wit_EthernetReceive_answers :
    dstOk netted 1 0 (rxHead arpReq) = true ∧ 64 ≤ arpReq.length + 4 ∧ beAt arpReq 12 2 ≠ 0x8808 ∧ (rxHead arpReq).etype = 0x0806
      ∧ beAt arpReq ((rxHead arpReq).l3 + 6) 2 = 1
      ∧ (validSlots netted 1 0).any (fun a => !a.v6 && slotIp a == beAt arpReq ((rxHead arpReq).l3 + 24) 4
          && vlanFits a (rxHead arpReq)) = true
      ∧ mayAnswer netted 1 0 = true ∧ mayAnswer (updPort netted 1 0 (fun q => { q with arpSent := 1000 })) 1 0 = false
      ∧ dstOk netted 1 0 (rxHead nsReq) = true ∧ 64 ≤ nsReq.length + 4 ∧ icmp6 nsReq (rxHead nsReq) = some 135
      ∧ (validSlots netted 1 0).any (fun a => a.v6 && slotIp a == beAt nsReq ((rxHead nsReq).l3 + 48) 16
          && vlanFits a (rxHead nsReq)) = true := by decide +kernel

theorem wit_EthernetReceive_queue :
    let h := rxHead udpFrame
    let r := takeBuffers 1 (poolOfQueue netted 1 2) (ceilDiv (udpFrame.length + 4) (2 ^ (poolAt netted 1 (poolOfQueue netted 1 2)).sizeLog2))
      netted []
    filterQueue netted 1 0 (rxHead (zeros 60)) (zeros 60) = none ∧ (rxHead (zeros 60)).etype ≠ 0x0806
      ∧ dstOk netted 1 0 (rxHead (zeros 60)) = true
      ∧ dstOk netted 1 0 h = true ∧ 64 ≤ udpFrame.length + 4 ∧ beAt udpFrame 12 2 ≠ 0x8808
      ∧ (h.etype ≠ 0x0806 ∧ icmp6 udpFrame h ≠ some 135 ∧ icmp6 udpFrame h ≠ some 134 ∧ icmp6 udpFrame h ≠ some 137)
      ∧ filterQueue netted 1 0 h udpFrame = some 2
      ∧ udpFrame.length + 4 ≤ efld netted 1 0 0x4C 13 0 + (if h.tagged then 22 else 18)
      ∧ r.1.length = ceilDiv (udpFrame.length + 4) (2 ^ (poolAt netted 1 (poolOfQueue netted 1 2)).sizeLog2)
      ∧ (poolAt r.2 1 (poolOfQueue netted 1 2)).corrupt = (poolAt netted 1 (poolOfQueue netted 1 2)).corrupt := by decide +kernel

/-- A frame of priority 2 to be sent, its body n bytes long. -/
def txOf (n : Nat) : TxPkt :=
  { pcp := 2, dscp := 0, vlan := none, dstMac := 1, v6 := false, dstIp := 2, dstUdp := 3, kind := .kocel (zeros n) }

theorem wit_EthernetSend :
    let q (f : EthPort → EthPort) : State := port1 (fun x => f { x with txq := [txOf 3000] })
    let short := upRegs [(ethBase 1 0 + 0x58, 0)]
    running (q id) 1 = true ∧ takesWork (q id) (dreg 1 (Page.eth 0) 0) = true ∧ regsWf up.regs = true ∧ txNext (portOf ((q id).die 1) 0) = some (txOf 3000)
      ∧ (portOf ((q id).die 1) 0).up = false
      ∧ txNext (portOf ((q (fun x => { x with up := true, discard := [2] })).die 1) 0) = some (txOf 3000)
      ∧ (portOf ((q (fun x => { x with up := true, discard := [2] })).die 1) 0).discard.contains (txOf 3000).pcp = true
      ∧ (portOf ((q (fun x => { x with up := true })).die 1) 0).discard.contains (txOf 3000).pcp = false
      ∧ canUnderrun short 1 0 (txOf 3000) = true ∧ regsWf short.regs = true
      ∧ (let s := updPort (upRegs [(ethBase 1 0 + 0x54, 5), (ethBase 1 0 + 0x50, 0x00100006)]) 1 0 (fun x =>
           { x with up := true, paused := [2], sending := true, txq := [txOf 30] })
         running s 1 = true ∧ regsWf s.regs = true ∧ efld s 1 0 0x54 15 0 ≠ 0 ∧ (portOf (s.die 1) 0).paused.contains (2 : Fin 8).val = true
           ∧ (portOf (s.die 1) 0).sending = true ∧ (portOf (s.die 1) 0).up = true ∧ efld s 1 0 0x50 7 0 ≠ 0) := by decide +kernel

theorem wit_EthernetLinks :
    let s := upRegs [(ethBase 1 0 + 0x40, 0x8001), (ethBase 1 0 + 0x78, 3), (ethBase 1 0 + 0x7C, 7), (ethBase 1 0 + 0x80, 8)]
    running s 1 = true ∧ takesWork s (dreg 1 (Page.eth 0) 0) = true ∧ regsWf s.regs = true ∧ portIsOff s 1 0 = false ∧ (portOf (s.die 1) 0).up = false ∧ s.pkg.clockFault = false
      ∧ (portOf (netted.die 1) 0).up = true ∧ running netted 1 = true ∧ regsWf netted.regs = true
      ∧ rowB s .eth (ethBase 1 0 + 0x5C) 3 = true ∧ bitAt (3 : Word) 0 = true
      ∧ rowB s .eth (ethBase 1 0 + 0x84) 0x8E000002 = true
      ∧ rowB s .eth (ethBase 1 0 + 0x64) 0xA0000FFE = true ∧ bitAt (0xA0000FFE : Word) 29 = true ∧ fld (0xA0000FFE : Word) 11 0 = 4094 := by
  decide +kernel

/-- Die 1's DRAM channel runs, a training operation with it. -/
def dram1 (training : Bool) : State := (upRegs [(dmcBase 1 + 0x40, 0x100012C0)]).updDie 1 (fun x => { x with dmc := { x.dmc with st := 2, training := training } })

theorem wit_DramController :
    running (dram1 false) 1 = true ∧ takesWork (dram1 false) (dmcBase 1) = true ∧ regsWf (dram1 false).regs = true ∧ ((dram1 false).die 1).dmc.st = 2
      ∧ fld (regGet (dram1 false) (dmcBase 1 + 0x48)) 7 0 ≠ 0 ∧ inDram (dram1 false) 1 dramBase 64 = true ∧ dramBase % 64 = 0
      ∧ dramBase + 64 < dramBase + dramSize (dram1 false) 1
      ∧ rowB (dram1 false) .dmc (dmcBase 1 + 0x4C) 0x80000001 = true ∧ bitAt (0x80000001 : Word) 31 = true
      ∧ ((dram1 false).die 1).dmc.training = false ∧ ((dram1 true).die 1).dmc.training = true
      ∧ assocGet 0 ((dram1 false).die 1).dmc.inorder = none ∧ 0 < 1
      ∧ ((({ inorder := [(0, 1)] } : Dmc).inorder.map (fun o => o.1)).contains 0) = true := by decide +kernel

/-- Die 1 with MOV running and one descriptor in its ring, which lies at 0x1000. -/
def moving (op m pj cw len : Nat) : State :=
  let s := upRegs [(movBase 1 + 0x40, 0x1000), (movBase 1 + 0x48, 2), (movBase 1 + 8, 1)]
  (memStore s 1 0x1000 ([BitVec.ofNat 8 op, 0x12, 5, 0, BitVec.ofNat 8 m, BitVec.ofNat 8 pj, BitVec.ofNat 8 cw, 0] ++ leBytes 8 0x10000
      ++ leBytes 8 0x80000 ++ leBytes 8 0x20000 ++ leBytes 4 len)).updDie 1 (fun x => { x with
    mov := { x.mov with running := true, tail := 1 } })

/-- The mover can run its descriptor, as a test. -/
def moverB (s : State) (op : Nat) : Bool :=
  present s 1 && decide ((s.die 1).phase = .up) && !s.guard.deep && (s.die 1).mov.running && !(s.die 1).mov.stopped
    && decide ((s.die 1).mov.consumed ≠ (s.die 1).mov.tail) && takesWork s (movBase 1)
    && decide ((descAt s 1 (s.die 1).mov.consumed).op = op) && !(descAt s 1 (s.die 1).mov.consumed).bad
    && (descAt s 1 (s.die 1).mov.consumed).addrsOk s 1

theorem wit_Mover :
    moverB (moving 1 4 3 2 0) 1 = true ∧ moverB (moving 2 4 3 2 0) 2 = true ∧ moverB (moving 3 0 0 0 64) 3 = true
      ∧ memWf ((moving 1 4 3 2 0).die 1).mem = true ∧ regsWf (moving 1 4 3 2 0).regs = true
      ∧ rowB (moving 3 0 0 0 64) .mov (movBase 1 + 0x4C) 1 = true
      ∧ ((moving 3 0 0 0 64).die 1).mov.consumed ≠ fld (1 : Word) 7 0 % ringSize (moving 3 0 0 0 64) 1
      ∧ (descAt (moving 3 0 0 0 64) 1 0).bad = false ∧ (descAt (moving 3 0 0 0 65) 1 0).bad = true
      ∧ (let s := upDie 1 (fun x => { x with mov := { x.mov with pulses := [(2, 0, 5)] } })
         present s 1 = true ∧ (s.die 1).phase = .up ∧ s.guard.deep = false ∧ (s.die 1).mov.pulses = [(2, 0, 5)]) := by decide +kernel

theorem wit_Mover_pulse :
    let s := upDie 1 (fun x => { x with flash := { x.flash with
      stripes :=
        [{ sid := 3, group := 2, page := 0, first := 0, count := 1, writes := [], left := 1, pulsed := [], forager := false,
                    qlc := false }]
      ops := [{ fop .program .packer with chan := 7, parity := true, stripe := some 3 }] } })
    (waitingStripe (s.die 1) 7).map (fun q => q.sid) = some 3 := by decide +kernel

/-- Pool 0 of die 1 is enabled with two buffers, one of them handed out to owner 7. -/
def pooled : State :=
  let s := enablePool up 1 0 { sizeLog2 := 11, count := 2, base := 0x2000 }
  (allocBuf s 1 0 7).2

/-- Pool 0 of die 1 is off, its base set. -/
def based (a : Nat) : State :=
  upDie 1 (fun x => { x with bpm := { x.bpm with pools := vset x.bpm.pools 0 { x.bpm.pools.get 0 with base := a } } })

/-- The pool that a write of BPM_POOL_CFG of size 2^11 and count 2 describes. -/
def described (s : State) : Pool := { poolAt s 1 (selPool s 1) with bpKtp := false, sizeLog2 := 11, count := 2 }

theorem wit_BufferPools_settings :
    regsWf (based 0x2000).regs = true ∧ rowB (based 0x2000) .bpm (bpmBase 1 + 0x44) 0x80B00002 = true
      ∧ rowB (based 0x2100) .bpm (bpmBase 1 + 0x44) 0x80B00002 = true ∧ locked (based 0x2000) (bpmBase 1) = false
      ∧ bitAt (0x80B00002 : Word) 31 = true ∧ (poolAt (based 0x2000) 1 (selPool (based 0x2000) 1)).pen = false
      ∧ (bitAt (0x80B00002 : Word) 30, fld (0x80B00002 : Word) 24 20, fld (0x80B00002 : Word) 19 0) = (false, 11, 2)
      ∧ poolOk (based 0x2000) 1 (selPool (based 0x2000) 1) (described (based 0x2000)) = true
      ∧ poolOk (based 0x2100) 1 (selPool (based 0x2100) 1) (described (based 0x2100)) = false := by decide +kernel

theorem wit_BufferPools_refs :
    running pooled 1 = true ∧ regsWf pooled.regs = true ∧ ownerFenced pooled 1 7 = false ∧ ownerFenced pooled 1 9 = false
      ∧ takesWork pooled (bpmBase 1) = true ∧ (pooled.die 1).bpm.refs.length < refCap ∧ (poolAt pooled 1 0).corrupt = false ∧ (poolAt pooled 1 0).pen = true
      ∧ (poolAt pooled 1 0).head ≠ 0 ∧ leNat (memRead pooled 1 (poolAt pooled 1 0).head 8) = 0
      ∧ (poolAt (allocBuf pooled 1 0 9).2 1 0).head = 0
      ∧ refCount (pooled.die 1).bpm.refs 0x2000 < 255 ∧ (0x2000, 7) ∈ (pooled.die 1).bpm.refs
      ∧ refCount (refDel (pooled.die 1).bpm.refs 0x2000 7) 0x2000 = 0 ∧ poolOfBuf (pooled.die 1) 0x2000 = some 0
      ∧ isBuffer (poolAt pooled 1 0) 0x2000 = true ∧ memWf (pooled.die 1).mem = true := by decide +kernel

theorem wit_BufferPools_sweep :
    rowB pooled .bpm (bpmBase 1 + 0x58) 0x80000007 = true ∧ (pooled.die 1).bpm.sweep = none ∧ bitAt (0x80000007 : Word) 31 = true
      ∧ rowB pooled .bpm (bpmBase 1 + 0x58) 0x40000007 = true ∧ bitAt (0x40000007 : Word) 31 = false ∧ bitAt (0x40000007 : Word) 30 = true
      ∧ (let s := pooled.updDie 1 (fun x => { x with bpm := { x.bpm with sweep := some 7 } })
         running s 1 = true ∧ (s.die 1).bpm.sweep = some 7 ∧ regsWf s.regs = true)
      ∧ windowOpen pooled (bpmBase 1 + 0x84) = true := by decide +kernel

/-! ### Witnesses: interrupts, Swarm links and the Waggle port -/

/-- Die 1's interrupt controller knows one source. -/
def source1 (q : IcuSrc) (hold : List Nat) : State := upDie 1 (fun x => { x with icu := { srcs := [q], hold := hold } })

theorem wit_InterruptController :
    let lvl := upRegs [(dreg 1 Page.csq 0x10, 1), (dreg 1 Page.csq 0x14, 1)]
    let shown := source1 { num := 300, en := true, prio := 3, st := 1, count := 2, shown := true } []
    let act := source1 { num := 300, en := true, st := 2, count := 1 } []
    let held := source1 { num := 300, en := true, group := 2, st := 1, count := 1 } [2]
    regsWf lvl.regs = true ∧ running lvl 1 = true ∧ icuLevel lvl 1 Page.csq = true ∧ (srcAt (lvl.die 1) Page.csq).raised = false
      ∧ rowB up .icu (icuBase 1 + 0xB4) 300 = true ∧ fld (300 : Word) 8 0 = 300
      ∧ running shown 1 = true ∧ coreOn shown 1 0 = true ∧ (coreAt shown 1 0).st ≠ .halted ∧ (coreAt shown 1 0).maskIrq = false ∧ (coreAt up 1 0).maskIrq = false
      ∧ (claimOf shown 1 0).map (fun q => q.num) = some 300 ∧ claimOf up 1 0 = none
      ∧ rowB act .icu (icuBase 1 + 0xB0) 300 = true ∧ (srcAt (act.die 1) 300).st = 2 ∧ (srcAt (up.die 1) 300).st ≠ 2
      ∧ rowB up .icu (icuBase 1 + 0xB0) 300 = true
      ∧ (held.die 1).icu.hold.contains (2 : Fin 16).val = true
      ∧ (icuWaiting (held.die 1)).filter (fun n => (srcAt (held.die 1) n).group == 2) = [300]
      ∧ (srcAt (held.die 1) 300).st = 1 ∧ (srcAt (held.die 1) 300).en = true ∧ (srcAt (held.die 1) 300).shown = false
      ∧ ((source1 { num := 300 } [2]).die 1).icu.hold.contains (2 : Fin 16).val = true
      ∧ icuWaiting ((source1 { num := 300 } [2]).die 1) = [] := by decide +kernel

/-- Every link is up; port 1 of die 1, whose partner is die 3, is changed. -/
def linked (f : Swm → Swm) : State :=
  let s : State := { State.reset with dies := Vector.replicate 8 { phase := .up, swm := Vector.replicate 3 { st := .up } } }
  updLink s 1 1 f

/-- A flit from die 3 to die 1. -/
def flit0 : Flit := { response := false, seq := 0, crcOk := true, src := 3, dst := 1, e2e := 9 }

/-- A flit from die 3 that die 1 has to forward to die 5. -/
def flit5 : Flit := { flit0 with dst := 5 }

theorem wit_SwarmLinks :
    regsWf (linked id).regs = true ∧ running (linked id) 1 = true ∧ (linkOf ((linked id).die 1) 1).st = .up ∧ partnerDie 1 1 = 3
      ∧ running (linked id) (partnerDie 1 1) = true ∧ flit0.crcOk = true ∧ flit0.seq = (linkOf ((linked id).die 1) 1).rxNext ∧ flit0.dst = 1
      ∧ flit5.crcOk = true ∧ flit5.seq = (linkOf ((linked id).die 1) 1).rxNext ∧ flit5.dst ≠ 1 ∧ (portNow (linked id) 1 flit5.dst).isSome = true
      ∧ (∀ j : Fin 3, (flit0.src, flit0.dst, flit0.e2e) ∉ (linkOf ((linked id).die 1) j).seen)
      ∧ (flit0.src, flit0.dst, flit0.e2e) ∈ (linkOf ((linked (fun q => { q with seen := [(3, 1, 9)] })).die 1) 1).seen
      ∧ (linkOf ((linked (fun q => { q with replay := [flit0] })).die 1) 1).replay ≠ []
      ∧ (linkOf ((linked id).die 1) 1).rounds + 1 < retryRounds (linked id) 1 1
      ∧ retryRounds (linked id) 1 1 ≤ (linkOf ((linked (fun q => { q with rounds := 15 })).die 1) 1).rounds + 1
      ∧ (linkOf ((linked (fun q => { q with st := .training })).die 1) 1).st = .training
      ∧ (linkOf ((linked (fun q => { q with st := .training })).die 1) 1).hold = []
      ∧ (∀ e : DieId, ((linked (fun q => { q with st := .training })).die e).out = [])
      ∧ rowB (linked id) .swm (swmBase 1 1 + 0x40) 0x00000401 = true ∧ bitAt (0x401 : Word) 0 = true
      ∧ partnerOf 1 1 < partDies (linked id).part ∧ (linkOf ((linked id).die 1) 1).st ≠ .retired := by decide +kernel

theorem wit_SwarmLinks_routes :
    let s := linked (fun q => { q with st := .retired, hold := [{ flit0 with src := 1, dst := 3 }] })
    let c := linked (fun q => { q with reqCred := 60 })
    (linkOf (s.die 1) 1).st = .retired ∧ (linkOf (s.die 1) 1).hold = [{ flit0 with src := 1, dst := 3 }] ∧ running s 1 = true
      ∧ (∀ e : DieId, (s.die e).out = []) ∧ (nextPort s 1 3).isSome = true ∧ (∀ i : SwmId, i ≠ 1 → (linkOf (s.die 1) i).switching = false)
      ∧ (linkOf (c.die 1) 1).st = .up ∧ (linkOf (c.die 1) 1).reqCred < 64 ∧ partnerDie 1 1 ≠ 0 ∧ faultable c (partnerDie 1 1) = true
      ∧ running c (partnerDie 1 1) = true ∧ secondFault c (partnerDie 1 1) = false := by decide +kernel

/-- A header of the Waggle port for die 0. -/
def wglHdr (op seq : Nat) : BitVec 16 :=
  let x := 5 * 256 + op * 4 + seq
  BitVec.ofNat 16 (x * 32 + Hash.crc5 x)

/-- The port's state is changed; REG, MEM and HALT are granted. -/
def wag (f : Waggle → Waggle) : State := { up with wgl := f { up.wgl with caps := 7 } }

/-- The port carries out a read of this op, as a test. -/
def portReadsB (s : State) (op : Nat) (h : BitVec 16) : Bool :=
  portLive s && hdrOp h == op && hdrOk s h && !s.wgl.err && opAllowed s op && s.wgl.readSeq == none

/-- The port carries out a write of this op, as a test. -/
def portWritesB (s : State) (op : Nat) (h : BitVec 16) (data : Word) (crc : Byte) : Bool :=
  portLive s && hdrOp h == op && hdrOk s h && crc == writeCrc h data && !s.wgl.err && opAllowed s op
    && s.wgl.lastSeq != some (hdrSeq h)

theorem portReads_of {s : State} {op : Nat} {h : BitVec 16} (w : portReadsB s op h = true) : Safety.PortReads s op h := by
  simp only [portReadsB, Bool.and_eq_true, beq_iff_eq, Bool.not_eq_true'] at w
  refine ⟨w.1.1.1.1.1, w.1.1.1.1.2, w.1.1.1.2, w.1.1.2, w.1.2, fun o q v hv => ?_⟩
  rw [w.2] at hv
  exact absurd hv (by simp)

theorem portWrites_of {s : State} {op : Nat} {h : BitVec 16} {data : Word} {crc : Byte} (w : portWritesB s op h data crc = true) :
    Safety.PortWrites s op h data crc := by
  simp only [portWritesB, Bool.and_eq_true, beq_iff_eq, Bool.not_eq_true', bne_iff_ne] at w
  exact ⟨w.1.1.1.1.1.1, w.1.1.1.1.1.2, w.1.1.1.1.2, w.1.1.1.2, w.1.1.2, w.1.2, w.2⟩

theorem wit_WaggleTransactions_reads :
    Safety.PortReads up 0 (wglHdr 0 1) ∧ Safety.PortReads up 7 (wglHdr 7 1)
      ∧ Safety.PortReads (wag (fun w => { w with addr := 0x00100040 })) 3 (wglHdr 3 1)
      ∧ Safety.PortReads up 5 (wglHdr 5 1) ∧ up.wgl.busy = false ∧ up.wgl.chalIdx = 0 ∧ up.pkg.entropyFail = false
      ∧ Safety.PortReads (wag (fun w => { w with chalIdx := 11, chal := zeros 48 })) 5 (wglHdr 5 1) := by
  refine ⟨portReads_of ?_, portReads_of ?_, portReads_of ?_, portReads_of ?_, ?_, ?_, ?_, portReads_of ?_⟩ <;> decide +kernel

/-- An address of CSQ's first register of die 1. -/
def csqA : Nat := dreg 1 Page.csq 0x40

theorem wit_WaggleTransactions_writes :
    let s := wag (fun w => { w with addr := BitVec.ofNat 32 csqA })
    Safety.PortWrites up 1 (wglHdr 1 2) 0x700 (writeCrc (wglHdr 1 2) 0x700)
      ∧ (portLive (wag (fun w => { w with err := true })) = true ∧ hdrOp (wglHdr 1 2) = 1 ∧ hdrOk up (wglHdr 1 2) = true
          ∧ bitAt (0x80000000 : Word) 31 = true)
      ∧ Safety.PortWrites s 2 (wglHdr 2 2) 0x1234 (writeCrc (wglHdr 2 2) 0x1234)
      ∧ Safety.PortWrites s 4 (wglHdr 4 2) 0x01010101 (writeCrc (wglHdr 4 2) 0x01010101)
      ∧ (∃ q, RegOpen s .csq s.wgl.addr.toNat q ∧ valuesOk q 0x01010101 = true) ∧ offOf s.wgl.addr.toNat ≠ 0x48 ∧ regsWf s.regs = true ∧ s.wgl.addr.toNat % 4 = 0
      ∧ locked s (baseOf s.wgl.addr.toNat) = false
      ∧ Safety.PortWrites up 6 (wglHdr 6 2) 0x1234 (writeCrc (wglHdr 6 2) 0x1234) := by
  refine ⟨portWrites_of ?_, ?_, portWrites_of ?_, portWrites_of ?_, ⟨_, regOpen_of (q := csqRegs.head (by decide)) ?_, ?_⟩, ?_, ?_, ?_, ?_,
    portWrites_of ?_⟩ <;> decide +kernel

theorem wit_WaggleTransactions_repeats :
    let r := wag (fun w => { w with readSeq := some (3, 1, 77), lastSeq := some 2 })
    (portLive (wag (fun w => { w with err := true })) = true ∧ (wag (fun w => { w with err := true })).wgl.err = true
        ∧ hdrOp (wglHdr 0 1) = 0 ∧ hdrOp (wglHdr 4 1) = 4)
      ∧ portLive r = true ∧ hdrOk r (wglHdr 3 1) = true ∧ r.wgl.err = false ∧ hdrOp (wglHdr 3 1) = 3 ∧ opAllowed r 3 = true
      ∧ r.wgl.readSeq = some (3, hdrSeq (wglHdr 3 1), 77) ∧ hdrOp (wglHdr 4 2) = 4 ∧ hdrOk r (wglHdr 4 2) = true
      ∧ opAllowed r 4 = true ∧ r.wgl.lastSeq = some (hdrSeq (wglHdr 4 2)) := by decide +kernel

/-- The signature of root key 2 over the challenge below, made outside the model. -/
def chalSig : Bytes :=
  [133, 104, 163, 90, 135, 155, 13, 80, 97, 50, 153, 60, 109, 145, 29, 49, 54, 167, 49, 64, 154, 184, 197, 210, 111, 215, 160,
   30, 129, 66, 82, 129, 69, 58, 108, 106, 223, 76, 210, 243, 140, 119, 165, 4, 40, 21, 234, 72, 84, 137, 215, 36, 74, 233,
   213, 57, 98, 189, 73, 170, 148, 93, 73, 76, 158, 194, 80, 60, 67, 138, 214, 220, 184, 95, 239, 239, 33, 218, 59, 119, 219,
   81, 47, 253, 186, 101, 250, 159, 206, 104, 216, 133, 80, 172, 94, 102]

/-- The port has a response to verify: to a challenge for REG, with root key 2. -/
def answered : State :=
  { up with
    wgl := { up.wgl with
      busy := true
      chal := (List.range 16).map (fun n => BitVec.ofNat 8 (n + 1)) ++ zeros 16 ++ [0, 0, 1, 0] ++ zeros 12
      resp := [2, 0, 0, 0] ++ slice manifestB 80 97 ++ zeros 3 ++ chalSig }
    nor := { up.nor with rootHash := [[], [], rootKey2, []] } }

theorem wit_WaggleTransactions_unlock :
    portLive answered = true ∧ answered.wgl.busy = true ∧ responseOk answered = true ∧ answered.wgl.lockout = false
      ∧ chalCaps answered.wgl < 2
      ∧ (let s := { up with wgl := { up.wgl with busy := true } }
         responseOk s = false ∧ s.nor.dbgLock = false ∧ portLive s = true)
      ∧ (let s := { up with wgl := { up.wgl with grant := some 7 }, pkg := { up.pkg with keysOut := true } }
         s.wgl.grant = some 7 ∧ s.pkg.keysOut = true ∧ slotsZero s = true) := by decide +kernel

/-- A core of die 1 is changed, with every capability granted. -/
def cored (c : CoreId) (f : Core → Core) : State := updCore (wag id) 1 c f

theorem wit_WaggleDebug_halts :
    rowB (cored 2 (fun q => { q with st := .halted })) .wgl (wglBase 1 + 0x40) 0x401 = true ∧ fld (0x401 : Word) 7 0 ≠ 0
      ∧ fld (0x401 : Word) 15 8 ≠ 0 ∧ granted (wag id) 2 = true ∧ granted up 2 = false ∧ regGet up (wglBase 1 + 0x20) = 0
      ∧ rowB up .wgl (wglBase 1 + 0x40) 0x401 = true
      ∧ rowB (cored 2 (fun q => { q with st := .halted })) .wgl (wglBase 1 + 0x44) 0x80000102 = true
      ∧ bitAt (0x80000102 : Word) 31 = true ∧ isHalted (coreAt (cored 2 (fun q => { q with st := .halted })) 1 (coreOf 2)) = true
      ∧ running up 1 = true ∧ (coreAt (cored 2 (fun q => { q with haltReq := true })) 1 2).haltReq = true
      ∧ (coreAt (cored 2 (fun q => { q with haltReq := true })) 1 2).st = .run
      ∧ (let s := (cored 2 (fun q => { q with skipBp := true, pc := 0x100 })).updDie 1 (fun x => { x with
           bps := [{ core := 2, bp := 0, addr := 0x101 }] })
         running s 1 = true ∧ (coreAt s 1 2).st = .run ∧ breaksAt (s.die 1) 2 0x100 = true ∧ (coreAt s 1 2).skipBp = true
           ∧ (coreAt s 1 2).pc = 0x100 ∧ breaksAt (s.die 1) 2 0x102 = true ∧ (coreAt s 1 2).pc ≠ 0x102) := by decide +kernel

theorem wit_WaggleDebug_window :
    let s := { upRegs [(wglBase 1 + 0x50, 0x1000)] with wgl := (wag id).wgl }
    let t := updCore { upRegs [(wglBase 1 + 0x5C, 0x805)] with wgl := (wag id).wgl } 1 2 (fun q => { q with st := .halted })
    (reachB s (wglBase 1 + 0x58) && !softResetting s (baseOf (wglBase 1 + 0x58))) = true ∧ regsWf s.regs = true
      ∧ granted s 1 = true ∧ addrOk s 1 (wglAddr s 1) 4 = true ∧ memWf (s.die 1).mem = true
      ∧ rowB s .wgl (wglBase 1 + 0x58) 0x12345678 = true
      ∧ (reachB t (wglBase 1 + 0x60) && !softResetting t (baseOf (wglBase 1 + 0x60))) = true ∧ regsWf t.regs = true
      ∧ granted t 2 = true ∧ isHalted (coreAt t 1 (cregCore t 1)) = true ∧ rowB t .wgl (wglBase 1 + 0x60) 5 = true := by decide +kernel

/-! ### Witnesses: the boot NOR, the guard's services and resets -/

/-- The NOR is open for programs; NADDR is set. -/
def norUp (addr : Word) (f : Nor → Nor) : State :=
  { upRegs [(nreg 0x44, addr)] with nor := f { ({} : Nor) with pe := true } }

/-- A program of two bytes that runs, and an erase of sector 3. -/
def norRun (erase : Bool) : NorOp :=
  if erase then { erase := true, addr := 0x3000, len := 0x1000, sector := 3, data := [] }
  else { erase := false, addr := 0x1FE, len := 2, sector := 0, data := [0x0F, 0xF0] }

theorem wit_BootNor :
    let s := norUp 0x10FE id
    let shut := norUp 0x1FE id
    let busy := norUp 0x10FE (fun n => { n with op := some (norRun true) })
    regsWf s.regs = true ∧ norWf s.nor.array = true ∧ rowB s .nor (nreg 0x40) 0xA0000001 = true ∧ norRequester (.cores 0) = true
      ∧ bitAt (0xA0000001 : Word) 31 = true ∧ s.guard.losing = false ∧ fld (0xA0000001 : Word) 30 29 = 1
      ∧ rowB s .nor (nreg 0x40) 0xC0000000 = true ∧ fld (0xC0000000 : Word) 30 29 = 2
      ∧ norSector (fld (regGet s (nreg 0x44)) 26 0) = some 1 ∧ s.nor.op = none ∧ sectorOpen s.nor 1 = true
      ∧ fld (regGet s (nreg 0x44)) 26 0 % 512 + (fld (0xA0000001 : Word) 8 0 + 1) ≤ 512
      ∧ rowB busy .nor (nreg 0x40) 0xA0000001 = true ∧ busy.nor.op.isSome = true ∧ regGet busy (nreg 0x20) = 0
      ∧ rowB shut .nor (nreg 0x40) 0xA0000001 = true ∧ norSector (fld (regGet shut (nreg 0x44)) 26 0) = some 0
      ∧ shut.nor.op = none ∧ sectorOpen shut.nor 0 = false ∧ regGet shut (nreg 0x20) = 0
      ∧ busy.nor.op = some (norRun true) ∧ (norUp 0 (fun n => { n with op := some (norRun false) })).nor.op = some (norRun false)
      ∧ regsWf busy.regs = true ∧ norWf busy.nor.array = true
      ∧ (reachB up (nreg 0x48) && !softResetting up (baseOf (nreg 0x48))) = true := by decide +kernel

/-- Output 9 is on and has answered as its record says. -/
def railed (f : Rail → Rail) : State :=
  upGuard (fun g => { g with rails := vset g.rails 9 (f { on := true }), resetLow := true })

theorem wit_GuardServices :
    (reachB up (greg Page.psu 0x1C4) && !softResetting up (baseOf (greg Page.psu 0x1C4))) = true
      ∧ wdtRuns up = true ∧ resetBlocked (railed id) = false ∧ (railed id).guard.resetLow = true ∧ wdtRuns (railed id) = true
      ∧ polled (railed id) 9 = true ∧ regsWf (railed id).regs = true ∧ (railAt (railed id) 9).noAns + 1 < 3
      ∧ polled (railed (fun r => { r with noAns := 2 })) 9 = true ∧ 2 ≤ (railAt (railed (fun r => { r with noAns := 2 })) 9).noAns
      ∧ polled (railed (fun r => { r with recheck := true })) 9 = true
      ∧ (railAt (railed (fun r => { r with recheck := true })) 9).recheck = true ∧ faultBits 2 = false ∧ faultBits 0x8000 = true
      ∧ faultable (railed id) 1 = true ∧ running (railed id) 1 = true
      ∧ rowB up .psu (psuBase + 0x10C) 0x00050101 = true ∧ railUsed up (railSel up) = true ∧ bitAt (0x00050101 : Word) 0 = true := by
  decide +kernel

/-- Reset state with RESET_N low. -/
def low (f : State → State) : State := f (upGuard (fun g => { g with resetLow := true }))

/-- The cells of an option area: its magic number, four bytes, and its CRC over them and the erased bytes between (R526). -/
def optCells : List Host.Cell :=
  [(0, 0x53), (1, 0x4B), (2, 0x50), (3, 0x4F), (4, 204), (5, 160), (6, 68), (7, 246), (4092, 101), (4093, 27), (4094, 156), (4095, 171)]

/-- A NOR with a good option area beside what another one holds. -/
def norOpt (n : Nor) : Nor := { n with array := optCells ++ n.array }

theorem opt_bytes (n : Nor) (m : Nat) (hm : m = 4084) (h : n.array.all (fun p => decide (4096 ≤ p.1)) = true) :
    norRead (norOpt n) 0 4096 = [0x53, 0x4B, 0x50, 0x4F, 204, 160, 68, 246] ++ List.replicate m 0xFF ++ [101, 27, 156, 171] := by
  have out (a k : Nat) (hk : a + k ≤ 4096) : n.array.all (fun p => decide (p.1 < a) || decide (a + k ≤ p.1)) = true := by
    simp only [List.all_eq_true, Bool.or_eq_true, decide_eq_true_eq] at h ⊢
    exact fun p hp => .inr (Nat.le_trans hk (h p hp))
  have gap : norRead (norOpt n) 8 m = List.replicate m 0xFF := Laws.cellsGet_unlisted 0xFF _ 8 m (by
    show (optCells ++ n.array).all _ = true
    rw [List.all_append, out 8 m (by omega), hm]
    decide)
  have low8 : norRead (norOpt n) 0 8 = [0x53, 0x4B, 0x50, 0x4F, 204, 160, 68, 246] := rfl
  have top : norRead (norOpt n) (8 + m) 4 = [101, 27, 156, 171] := by
    rw [show 8 + m = 4092 by omega]
    rfl
  have split : norRead (norOpt n) 0 (8 + m + 4) = norRead (norOpt n) 0 8 ++ norRead (norOpt n) 8 m ++ norRead (norOpt n) (8 + m) 4 := by
    simp only [norRead, Laws.cellsGet_add, Nat.zero_add]
  rw [show (4096 : Nat) = 8 + m + 4 by omega, split, low8, gap, top]

/-- CRC32C stays where it is over erased bytes at this value. -/
theorem crc_erased (k : Nat) :
    (List.replicate k (0xFF : Byte)).foldl (fun c x => Hash.crc32cBits 8 (c ^^^ x.setWidth 32)) 0x5463E49A#32 = 0x5463E49A#32 := by
  induction k with
  | zero => rfl
  | succ k ih =>
    rw [List.replicate_succ, List.foldl_cons, show Hash.crc32cBits 8 (0x5463E49A#32 ^^^ (0xFF : Byte).setWidth 32) = 0x5463E49A#32 from by decide +kernel]
    exact ih

theorem opt_good (n : Nor) (h : n.array.all (fun p => decide (4096 ≤ p.1)) = true) : optGood (norRead (norOpt n) 0 4096) = true := by
  obtain ⟨m, hm⟩ : ∃ m : Nat, m = 4084 := ⟨_, rfl⟩
  rw [opt_bytes n m hm h]
  have crc : Hash.crc32c (([0x53, 0x4B, 0x50, 0x4F, 204, 160, 68, 246] : Bytes) ++ List.replicate m 0xFF) = 0xAB9C1B65 := by
    unfold Hash.crc32c
    rw [List.foldl_append, show ([0x53, 0x4B, 0x50, 0x4F, 204, 160, 68, 246] : Bytes).foldl
      (fun c x => Hash.crc32cBits 8 (c ^^^ x.setWidth 32)) 0xFFFFFFFF#32 = 0x5463E49A#32 from by decide +kernel, crc_erased]
    decide
  unfold optGood
  rw [List.take_left' (by rw [List.length_append, List.length_replicate]; show 8 + m = 4092; omega), crc, hm]
  decide +kernel

/-- A NOR read above the option area is that of the NOR without it. -/
theorem opt_above (n : Nor) (sh : Bytes) (ok : Bool) (a k : Nat) (h : 4096 ≤ a) :
    norRead { norOpt n with shadow := sh, optOk := ok } a k = norRead n a k := by
  refine Laws.cellsGet_append_out norBlank optCells n.array a k ?_
  simp only [List.all_eq_true, Bool.or_eq_true, decide_eq_true_eq]
  intro p hp
  refine .inl (Nat.lt_of_lt_of_le ?_ h)
  revert p
  decide

theorem wit_Resets :
    (low id).guard.resetLow = true ∧ resetBlocked (low id) = false ∧ (low id).pkg.starting = false
      ∧ (low (fun s => { s with pkg := { s.pkg with resetPend := true } })).pkg.resetPend = true ∧ 1000 ≤ 1000 ∧ 99 < 100
      ∧ (let s := low (fun s => { s with guard := { s.guard with losing := true, lossDone := true } })
         s.guard.losing = true ∧ s.guard.lossDone = true ∧ s.guard.off = false ∧ s.guard.resetLow = true
           ∧ s.guard.die0Hold = false ∧ s.guard.alarmHold = false)
      ∧ (let s := low (fun s => { s with guard := { s.guard with losing := true, lossDone := true, die0Hold := true } })
         s.guard.resetLow = true ∧ s.guard.losing = true ∧ s.guard.lossDone = true ∧ s.guard.off = false ∧ s.guard.die0Hold = true)
      ∧ (let s := low (fun s => { s with pkg := { s.pkg with starting := true } })
         s.pkg.starting = true ∧ (optLoad { s with guard := { s.guard with resetLow := false } }).nor.optOk = false)
      ∧ present (low id) 1 = true ∧ ((low id).die 1).phase ≠ .fenced := by decide +kernel

/-- A start that waits for RESET_N with a NOR. -/
def startWith (n : Nor) : State := low (fun s => { s with nor := norOpt n, pkg := { s.pkg with starting := true, startWhy := 1 } })

/-- The NOR once its option area has been loaded. -/
def loaded (n : Nor) : Nor := { norOpt n with shadow := norRead (norOpt n) 0 4096, optOk := true }

theorem optLoad_good (s : State) (n : Nor) (r : Bytes) (hn : s.nor = n) (hr : norRead n 0 4096 = r) (h : optGood r = true) :
    (optLoad s).nor = { n with shadow := r, optOk := true } := by
  subst hn
  unfold optLoad
  rw [hr, if_pos h]

theorem loaded_eq (n : Nor) (h : n.array.all (fun p => decide (4096 ≤ p.1)) = true) :
    (optLoad { startWith n with guard := { (startWith n).guard with resetLow := false } }).nor = loaded n :=
  optLoad_good { startWith n with guard := { (startWith n).guard with resetLow := false } } (norOpt n) (norRead (norOpt n) 0 4096)
    rfl rfl (opt_good n h)

theorem loaded_valid (n : Nor) (b : Bool) : slotValid (loaded n) b = slotValid n b := by
  have e (a k : Nat) (h : 4096 ≤ a) := opt_above n (norRead (norOpt n) 0 4096) true a k h
  have er : recordValid { norOpt n with shadow := norRead (norOpt n) 0 4096, optOk := true } b = recordValid n b := by
    simp only [recordValid, slotRecord, manifest, e _ _ (show 4096 ≤ slotRecAddr b by cases b <;> decide),
      e _ _ (show 4096 ≤ slotBase b by cases b <;> decide)]
  have ei : imageOk { norOpt n with shadow := norRead (norOpt n) 0 4096, optOk := true } b = imageOk n b := by
    simp only [imageOk, manifest, e _ _ (show 4096 ≤ slotBase b by cases b <;> decide),
      e _ _ (show 4096 ≤ slotBase b + 4096 by cases b <;> decide)]
    rfl
  rw [slotValid, slotValid, loaded, er, ei]

/-- A NOR whose boot-control sectors are erased holds no entry. -/
theorem boot_blank (n : Nor) (h : n.array.all (fun p => decide (p.1 < 0x3000) || decide (0x5000 ≤ p.1)) = true) : bootEntries n = [] := by
  have blank (a : Nat) (h1 : 0x3000 ≤ a) (h2 : a + 16 ≤ 0x5000) : bootEntryOf (norRead n a 16) = none := by
    rw [show norRead n a 16 = List.replicate 16 0xFF from Laws.cellsGet_unlisted 0xFF _ a 16 (by
      simp only [List.all_eq_true, Bool.or_eq_true, decide_eq_true_eq] at h ⊢
      intro p hp
      have := h p hp
      omega)]
    decide +kernel
  have none_in (base : Nat) (h1 : 0x3000 ≤ base) (h2 : base ≤ 0x4000) : bootEntriesIn n base = [] := by
    unfold bootEntriesIn
    rw [List.filterMap_eq_nil_iff]
    intro i hi
    have := List.mem_range.mp hi
    rw [blank (base + 16 * i) (by omega) (by omega)]
    rfl
  rw [bootEntries, none_in 0x3000 (by decide) (by decide), none_in 0x4000 (by decide) (by decide)]
  rfl

/-- With no boot-control entry slot A is tried, and slot B where A is not valid (R532). -/
theorem chosen (n : Nor) (b : Bool) (hb : bootEntries n = []) (ha : slotValid n false = false) (h : slotValid n true = b) :
    (chooseSlot n 1).slot = if b then some true else none := by
  cases b <;> simp [chooseSlot, newestActive, hb, ha, h, argMax]

theorem loaded_blank (n : Nor) (hb : n.array.all (fun p => decide (p.1 < 0x3000) || decide (0x5000 ≤ p.1)) = true) :
    bootEntries (loaded n) = [] := by
  refine boot_blank _ ?_
  show (optCells ++ n.array).all _ = true
  rw [List.all_append, hb]
  decide

/-- Every requester has a space: firmware always, the Waggle port once REG is granted. -/
theorem wit_HasSpace : HasSpace up .guard ∧ HasSpace up (.cores 1) ∧ HasSpace (wag id) .waggle := by decide +kernel

theorem wit_Resets_slots (n : Nor) (h : n = norB ∨ n = {}) :
    (startWith n).pkg.starting = true ∧ (startWith n).pkg.startCold = false ∧ (startWith n).guard.purge = false
      ∧ (startWith n).guard.resetLow = true
      ∧ (optLoad { startWith n with guard := { (startWith n).guard with resetLow := false } }).nor.optOk = true
      ∧ (chooseSlot (optLoad { startWith n with guard := { (startWith n).guard with resetLow := false } }).nor 1).slot
          = if n = norB then some true else none := by
  have hB : norB.array.all (fun p => decide (4096 ≤ p.1)) = true := by decide +kernel
  have hn : n.array.all (fun p => decide (4096 ≤ p.1)) = true := by
    rcases h with rfl | rfl
    · exact hB
    · rfl
  refine ⟨rfl, rfl, rfl, rfl, ?_, ?_⟩
  · rw [loaded_eq n hn]
    rfl
  · rw [loaded_eq n hn]
    rcases h with rfl | rfl
    · rw [if_pos rfl]
      refine chosen (loaded norB) true (loaded_blank norB (by decide +kernel)) ?_ ?_
      · rw [loaded_valid norB false]
        decide +kernel
      · rw [loaded_valid norB true, slotValid, test_image_verifies.1, test_image_verifies.2]
        rfl
    · rw [if_neg (by decide +kernel)]
      refine chosen (loaded {}) false (loaded_blank {} rfl) ?_ ?_
      · rw [loaded_valid {} false]
        decide +kernel
      · rw [loaded_valid {} true]
        decide +kernel

theorem wit_Resets_chosen :
    (chooseSlot (optLoad { startWith norB with guard := { (startWith norB).guard with resetLow := false } }).nor 1).slot = some true :=
  (wit_Resets_slots norB (.inl rfl)).2.2.2.2.2.trans (if_pos rfl)

theorem wit_Resets_none :
    (chooseSlot (optLoad { startWith {} with guard := { (startWith {}).guard with resetLow := false } }).nor 1).slot = none :=
  (wit_Resets_slots {} (.inr rfl)).2.2.2.2.2.trans (if_neg (by decide +kernel))

theorem wit_CipherPipelines :
    (zeros 32).length = 32 ∧ (zeros 16).length = 16 ∧ (up.die 1).cry.pipes.length = 6 ∧ ((up.die 1).cry.pipes.getD 0 {}).blocks + 1 < 65536
      ∧ 65536 ≤ ((up.die 1).cry.pipes.getD 0 {}).blocks + 65536 := by decide +kernel

/-- A pipeline encrypts the block of FIPS 197, appendix C.3, whatever its masks. -/
theorem test_pipe_enc :
    beNat (pipeEnc (fun n => BitVec.ofNat 8 (n * n + 3)) ((List.range 32).map (BitVec.ofNat 8), zeros 32)
      ((List.range 16).map (fun n => BitVec.ofNat 8 (17 * n)))) = 0x8ea2b7ca516745bfeafc49904b496089 := by decide +kernel

/-! ### Operands that are not well-formed, one for each check -/

/-- Checks on what comes in from a network: source address, source and destination port, MAC address, VLAN, PCP, DSCP and length of
a datagram; the length of a frame. -/
theorem test_illformed_packets :
    WellFormed (.openPkt 1 0 (gram [])) = true
      ∧ WellFormed (.openPkt 1 0 { gram [] with srcIp := 2 ^ 32 }) = false
      ∧ WellFormed (.cmdSegment 1 0 { gram [] with srcUdp := 65536 }) = false
      ∧ WellFormed (.dataOut 1 0 { gram [] with dstUdp := 65536 }) = false
      ∧ WellFormed (.ack 1 0 { gram [] with srcMac := 2 ^ 48 }) = false
      ∧ WellFormed (.close 1 0 { gram [] with vlan := some 4096 }) = false
      ∧ WellFormed (.terminate 1 0 { gram [] with pcp := 8 }) = false
      ∧ WellFormed (.openPkt 1 0 { gram [] with dscp := 64 }) = false
      ∧ datagramOk { gram [] with v6 := true, srcIp := 2 ^ 128 } = false
      ∧ WellFormed (.rxFrame 1 0 (frame (zeros 13))) = false := by decide +kernel

/-- A payload longer than a datagram can carry. -/
theorem test_illformed_payload (b : Bytes) (h : b.length = 65528) : datagramOk (gram b) = false := by
  simp [datagramOk, gram, h]

/-- Checks on numbers of pages, slots, tenants, owners and sources. -/
theorem test_illformed_numbers :
    WellFormed (.softReset .guard 0x70200040 true) = false ∧ WellFormed (.softResetDone 4) = false
      ∧ WellFormed (.pageLock .guard 0x8 true) = false ∧ WellFormed (.intStatClear .guard 0x10 0 0) = false
      ∧ WellFormed (.intTest .guard 0x1C 0) = false ∧ WellFormed (.errCodeRead .guard 0x20) = false
      ∧ WellFormed (.registerWrite .guard 0 3 0) = false ∧ WellFormed (.registerWrite .guard 0 8 0) = true
      ∧ WellFormed (.openRcvdTimeout 0 4096) = false ∧ WellFormed (.closingTimeout 0 4096) = false
      ∧ WellFormed (.ackDelayExpiry 0 4096) = false ∧ WellFormed (.rtoExpiry 0 4096) = false
      ∧ WellFormed (.idleTimeout 0 4096) = false ∧ WellFormed (.rateAdmit 0 4096) = false
      ∧ WellFormed (.tokenRefill 0 4096) = false ∧ WellFormed (.mapLockTimeout 0 0 4096 1 0 0) = false
      ∧ WellFormed (.mapLockTimeout 0 0 0 0 0 0) = false ∧ WellFormed (.mapLockTimeout 0 0 0 0xFFFFFFFF 0 0) = false
      ∧ WellFormed (.ctrBoundRequest 0 8192) = false ∧ WellFormed (.clockDomainRegate 0 4096) = false
      ∧ WellFormed (.bpmAlloc 0 0 256) = false ∧ WellFormed (.bpmAdd 0 (2 ^ 40) 0 0) = false ∧ WellFormed (.bpmAdd 0 0 256 0) = false
      ∧ WellFormed (.bpmMove 0 (2 ^ 40) 0 0) = false ∧ WellFormed (.bpmMove 0 0 0 256) = false ∧ WellFormed (.bpmDrop 0 (2 ^ 40) 0) = false
      ∧ WellFormed (.bpmDrop 0 0 256) = false ∧ WellFormed (.bpmFree 0 0 (2 ^ 40)) = false ∧ WellFormed (.icuEvent 0 512) = false := by
  decide +kernel

/-- Checks on measured values, places and messages. -/
theorem test_illformed_values :
    WellFormed (.hceOuterSample 0 32768) = false ∧ WellFormed (.hceInnerSample 0 (-32769)) = false
      ∧ WellFormed (.bankOv 65536) = false ∧ WellFormed (.dirtyLimitUpdate 65536 0 0 0) = false
      ∧ WellFormed (.dirtyLimitUpdate 0 0 0 65536) = false ∧ WellFormed (.thmSample (.die 1) [400]) = false
      ∧ WellFormed (.thmSample .guard [400]) = false ∧ WellFormed (.sensorRecover .guard 2) = false
      ∧ WellFormed (.alarm (.tamper 0) (.die 0)) = false ∧ WellFormed (.alarm .waggle (.die 1)) = false
      ∧ WellFormed (.alarm .glitch .guard) = false ∧ WellFormed (.eventRecord 0 8 (2 ^ 32)) = false
      ∧ WellFormed (.dmcScrub 0 (2 ^ 40) .good) = false ∧ WellFormed (.dmcTrainDone 0 [2 ^ 32] none) = false
      ∧ WellFormed (.swmFlitRx 1 1 { flit0 with src := 1 }) = false
      ∧ WellFormed (.pmbPoll 0 (.word 0 65536 0 0 0)) = false ∧ WellFormed (.pmbFaultRecheck 0 (.word 0 0 0 0 65536)) = false := by
  decide +kernel

/-! ### Numbers that the spec or a published standard states -/

/-- The example under R43: FCH instance 3 of die 6, and its ID. -/
theorem test_fch_example :
    dreg 6 (Page.fch 3) 0 = 0x60430000 ∧ (readAligned up .guard 0x60430000).answer.data = 0x00070003 := by decide +kernel

/-- The test vector of R141. -/
theorem test_siphash :
    Hash.siphash128 ((List.range 16).map (BitVec.ofNat 8)) [0] = 0x45FC229B1159763444AF996BD8C187DA := by decide +kernel

/-- The check value of CRC32C for the digits 1 to 9. -/
theorem test_crc32c : Hash.crc32c [0x31, 0x32, 0x33, 0x34, 0x35, 0x36, 0x37, 0x38, 0x39] = 0xE3069283 := by decide +kernel

/-- SHA-384 of "abc" (FIPS 180-4). -/
theorem test_sha384 : beNat (Crypto.sha384 [0x61, 0x62, 0x63])
    = 0xcb00753f45a35e8bb5a03d699ac65007272c32ab0eded1631a8b605a43ff5bed8086072ba1e7cc2358baeca134c825a7 := by decide +kernel

/-- AES-256 (FIPS 197, appendix C.3). -/
theorem test_aes256 :
    beNat (Crypto.aesEnc ((List.range 32).map (BitVec.ofNat 8)) ((List.range 16).map (fun n => BitVec.ofNat 8 (17 * n))))
      = 0x8ea2b7ca516745bfeafc49904b496089 := by decide +kernel

/-- The reference example of R315 to R317: 20 mF, 38 V, 14 V. -/
theorem test_dirty_limit :
    let s := upRegs [(psuBase + 0x48, 1400 * 65536 + 3800), (psuBase + 0x50, 2000 * 65536 + 77 * 256 + 230), (psuBase + 0x54, 6250)]
    let t := { s with guard := { s.guard with psu := { s.guard.psu with tested := true, cMeas := 2000 } } }
    cUsed t = 2000 ∧ limitAt t 3800 = 934395904 ∧ limitAt t 3800 / 1024 = 912496 ∧ limitAt t 3800 / 8 = 116799488 := by decide +kernel

/-- The worked example of R508: the first allocation, and three periods of stage 1. -/
theorem test_token_example :
    allocations (List.replicate 8 none) [30000, 30000, 30000, 30000, 30000, 45000, 30000, 30000] 300000 37500 0 allDies
        = allDies.map (fun d => (d, if d = 5 then 45000 else 30000))
      ∧ (let s (l : Nat) : State := { upDie 5 (fun x => { x with thm := { x.thm with st := .throttle } }) with
           pkg := { up.pkg with lims := (List.replicate 8 none).set 5 (some l) } }
         limNext (s 45000) 300000 37500 64 16 5 = some 42187 ∧ limNext (s 42187) 300000 37500 64 16 5 = some 39550
           ∧ limNext (s 39550) 300000 37500 64 16 5 = some 37078 ∧ limNext (s 9500) 300000 37500 64 16 5 = some 9375) := by decide +kernel

/-- R21: one retired link leaves every die of the cube reachable, and die 0 of the square reaches die 1 over dies 2 and 3. -/
theorem test_routes :
    allDies.all (fun d => allLinks.all (fun k => (unreached (updLink (updLink (linked id) d k (fun q => { q with st := .retired }))
        (partnerDie d k) k (fun q => { q with st := .retired }))).isEmpty)) = true
      ∧ (let s0 := { linked id with part := .stz8840 }
         let s := updLink (updLink s0 0 0 (fun q => { q with st := .retired })) 1 0 (fun q => { q with st := .retired })
         nextPort s 0 1 = some 1 ∧ nextPort s 2 1 = some 0 ∧ nextPort s 3 1 = some 1) := by decide +kernel

/-- The example before R415: Kocel on VLAN 210 with PCP 6 goes to queue 1, with another PCP to queue 0. -/
theorem test_vlan_filters :
    let s := port1 (fun q => { q with filters :=
      [{ idx := 0, matchA := 0x00000D2D, matchB := 0xBA041100, act := 0xF6000001 },
       { idx := 1, matchA := 0x00000D21, matchB := 0xBA041100, act := 0xE6000000 }] })
    let b (tci : Byte) : Bytes := zeros 12 ++ [0x81, 0, tci, 0xD2, 8, 0, 0x45, 0, 0, 0, 0, 0, 0, 0, 64, 17] ++ zeros 12 ++ [0xBA, 4] ++ zeros 4
    filterQueue s 1 0 (rxHead (b 0xC0)) (b 0xC0) = some 1 ∧ filterQueue s 1 0 (rxHead (b 0x20)) (b 0x20) = some 0
      ∧ filterQueue s 1 0 (rxHead (udpFrame)) udpFrame = none := by decide +kernel

/-- No table word spells a command. -/
theorem test_table_words : decodeTableWord 8 5 = none ∧ up.withFetchWord 8 5 = up := ⟨rfl, rfl⟩
end Sys2Proof.Tests
end

section
namespace Sys2Proof.Frame
open Sys2Proof Sys2Proof.Machine Sys2Proof.Laws Sys2Proof.Safety

/-- What no command takes away, from a state to a later one: the part, the waiting commands, the count of draws, and the
canonical forms of the registers, of every die's memory and of the boot NOR. -/
structure Kept (s t : State) : Prop where
  part    : t.part = s.part
  pending : t.pending = s.pending
  draws   : s.draws ≤ t.draws
  regs    : registersOk s → registersOk t
  mem     : memoryOk s → memoryOk t
  nor     : norOk s → norOk t

/-- Every next state of an outcome keeps what a command has to keep. -/
def OutKept (s : State) (o : Out) : Prop := ∀ t, o = .next t → Kept s t

variable {s0 s t : State}

protected theorem Kept.rfl (s : State) : Kept s s := ⟨rfl, rfl, le_refl _, id, id, id⟩

section
variable {guard : Guard} {nor : Nor} {wgl : Waggle} {pkg : Package} {mtr : Metering} {answer : Answer}
  {latch heldLo : List (Requester × Nat × Word)}

/-- The other parts of the state may change freely. -/
protected theorem Kept.same (h : Kept s0 s) : Kept s0 { s with
    guard := guard, wgl := wgl, pkg := pkg, mtr := mtr, latch := latch, heldLo := heldLo, answer := answer } :=
  ⟨h.part, h.pending, h.draws, h.regs, h.mem, h.nor⟩

/-- The boot NOR may change as long as its array keeps its form. -/
protected theorem Kept.setNor (h : Kept s0 s) (hn : norWf s.nor.array = true → norWf nor.array = true) : Kept s0 { s with
    guard := guard, nor := nor, wgl := wgl, pkg := pkg, mtr := mtr, latch := latch, heldLo := heldLo, answer := answer } :=
  ⟨h.part, h.pending, h.draws, h.regs, h.mem, fun q => hn (h.nor q)⟩

/-- Free values may be drawn. -/
protected theorem Kept.draw {n : Nat} (h : Kept s0 s) : Kept s0 { s with
    guard := guard, wgl := wgl, pkg := pkg, mtr := mtr, latch := latch, heldLo := heldLo, answer := answer,
    draws := s.draws + n } :=
  ⟨h.part, h.pending, h.draws.trans (Nat.le_add_right _ _), h.regs, h.mem, h.nor⟩
end

section
variable {op : Option NorOp} {pe optWe optOk running bootFault dlSlot dlOn kicked dbgLock : Bool}
  {journal : List CjRec} {shadow secret mfgKey unitId : Bytes} {rootHash : List Bytes}
  {cjSeq cjHead cjAt cjSectors cjErased dlGot dlLen cause revoke svn : Nat} {guard : Guard} {wgl : Waggle} {pkg : Package}
  {mtr : Metering} {answer : Answer} {latch heldLo : List (Requester × Nat × Word)}

/-- The fields of the boot NOR beside its array may change freely. -/
protected theorem Kept.norFields (h : Kept s0 s) : Kept s0 { s with
    guard := guard, wgl := wgl, pkg := pkg, mtr := mtr, latch := latch, heldLo := heldLo, answer := answer,
    nor := { array := s.nor.array, op := op, pe := pe, optWe := optWe, shadow := shadow, optOk := optOk, journal := journal,
             cjSeq := cjSeq, cjHead := cjHead, cjAt := cjAt, cjSectors := cjSectors, cjErased := cjErased,
             running := running, bootFault := bootFault, dlSlot := dlSlot, dlOn := dlOn, dlGot := dlGot, dlLen := dlLen,
             cause := cause, kicked := kicked, rootHash := rootHash, revoke := revoke, svn := svn, secret := secret,
             dbgLock := dbgLock, mfgKey := mfgKey, unitId := unitId } } :=
  h.setNor id
end

protected theorem Kept.ite {p : Prop} [Decidable p] (hs : Kept s0 s) (ht : Kept s0 t) : Kept s0 (if p then s else t) := by
  split
  · exact hs
  · exact ht

protected theorem Kept.ite_snd {α : Type} {p : Prop} [Decidable p] {a b : α × State} (ha : Kept s0 a.2) (hb : Kept s0 b.2) :
    Kept s0 (if p then a else b).2 := by
  split
  · exact ha
  · exact hb

protected theorem Kept.foldl {α : Type} {f : State → α → State} {l : List α} (h : Kept s0 s)
    (hf : ∀ t a, Kept s0 t → Kept s0 (f t a)) : Kept s0 (l.foldl f s) :=
  List.foldlRecOn l f h (fun t ht a _ => hf t a ht)

/-- A fold that carries a state and another value. -/
protected theorem Kept.foldl_fst {α β : Type} {f : State × β → α → State × β} {l : List α} {p : State × β}
    (h : Kept s0 p.1) (hf : ∀ q a, Kept s0 q.1 → Kept s0 (f q a).1) : Kept s0 (l.foldl f p).1 :=
  List.foldlRecOn (motive := fun q => Kept s0 q.1) l f h (fun q hq a _ => hf q a hq)

protected theorem Kept.foldl_snd {α β : Type} {f : β × State → α → β × State} {l : List α} {p : β × State}
    (h : Kept s0 p.2) (hf : ∀ q a, Kept s0 q.2 → Kept s0 (f q a).2) : Kept s0 (l.foldl f p).2 :=
  List.foldlRecOn (motive := fun q => Kept s0 q.2) l f h (fun q hq a _ => hf q a hq)

protected theorem Kept.fst_eq {α : Type} {p : State × α} {a : α} (h : Kept s0 p.1) (e : p = (s, a)) : Kept s0 s := by
  rw [e] at h
  exact h

protected theorem Kept.snd_eq {α : Type} {p : α × State} {a : α} (h : Kept s0 p.2) (e : p = (a, s)) : Kept s0 s := by
  rw [e] at h
  exact h

protected theorem Kept.out (h : Kept s0 s) : OutKept s0 (.next s) := by
  rintro _ ⟨⟩
  exact h

/-! ### The dies and the registers -/

/-- A fold of changes of a die that leave its memory alone leaves it alone. -/
@[simp] theorem foldl_mem {α : Type} (f : Die → α → Die) (l : List α) (x : Die) (hf : ∀ x a, (f x a).mem = x.mem) :
    (l.foldl f x).mem = x.mem := by
  induction l generalizing x with
  | nil => rfl
  | cons a l ih => exact (ih (f x a)).trans (hf x a)

@[simp] theorem ite_mem {p : Prop} [Decidable p] (x y : Die) : (if p then x else y).mem = if p then x.mem else y.mem :=
  apply_ite Die.mem p x y

/-- A die may change as long as its memory does not. -/
protected theorem Kept.setDieOf {d : DieId} {x : Die} (h : Kept s0 s) (hx : x.mem = (s.die d).mem) : Kept s0 (s.setDie d x) := by
  refine ⟨h.part, h.pending, h.draws, h.regs, fun q e => ?_, h.nor⟩
  by_cases he : e = d
  · rw [he, die_setDie_self, hx]
    exact h.mem q d
  · rw [die_setDie_ne s d e x he]
    exact h.mem q e

protected theorem Kept.updDieOf {d : DieId} {f : Die → Die} (h : Kept s0 s) (hf : ∀ x, (f x).mem = x.mem) :
    Kept s0 (s.updDie d f) := h.setDieOf (hf _)

/-- Every field of a die but its memory may change, each as it depends on the die before. -/
protected theorem Kept.updDie {d : DieId} {phase : Die → DiePhase} {ktp : Die → Ktp} {csq : Die → Csq} {comb : Die → Comb}
    {map : Die → MapEng} {groups : Die → List Machine.Group} {fgr : Die → Fgr} {flash : Die → Flash} {cry : Die → Cry}
    {tenants : Die → List Tenant} {hashKeys : Die → List (Nat × Bytes)} {mon : Die → Monitor}
    {ports : Die → Vector EthPort 2} {rxq : Die → List RxHeld} {dmc : Die → Dmc} {bpm : Die → Bpm} {mov : Die → Mov}
    {cores : Die → Vector Core 8} {icu : Die → Icu} {swm : Die → Vector Swm 3} {out : Die → List Crossing}
    {bps : Die → List Bp} {thm : Die → Thm} {pll pllCores : Die → Bool} {gated : Die → List Nat} (h : Kept s0 s) :
    Kept s0 (s.updDie d fun x => {
      phase := phase x, ktp := ktp x, csq := csq x, comb := comb x, map := map x, groups := groups x, fgr := fgr x,
      flash := flash x, cry := cry x, tenants := tenants x, hashKeys := hashKeys x, mon := mon x, ports := ports x,
      rxq := rxq x, dmc := dmc x, bpm := bpm x, mov := mov x, cores := cores x, icu := icu x, swm := swm x, out := out x,
      bps := bps x, thm := thm x, pll := pll x, pllCores := pllCores x, gated := gated x, mem := x.mem }) :=
  h.updDieOf fun _ => rfl

protected theorem Kept.memWrite {d : DieId} {a : Nat} {b : Bytes} (h : Kept s0 s) : Kept s0 (memWrite s d a b) :=
  ⟨h.part, h.pending, h.draws, h.regs, fun q e => memWrite_wf s d e a b (h.mem q e), h.nor⟩

protected theorem Kept.regSet {a : Nat} {v : Word} (h : Kept s0 s) : Kept s0 (regSet s a v) :=
  ⟨h.part, h.pending, h.draws, fun q => regSet_wf s a v (h.regs q), h.mem, h.nor⟩

protected theorem Kept.regsDrop {p : Nat → Bool} (h : Kept s0 s) : Kept s0 (regsDrop s p) :=
  ⟨h.part, h.pending, h.draws, fun q => regsDrop_wf s p (h.regs q), h.mem, h.nor⟩

protected theorem Kept.drawBytes {n : Nat} (h : Kept s0 s) : Kept s0 (drawBytes s n).2 := h.draw

protected theorem Kept.drawChoice (h : Kept s0 s) : Kept s0 (drawChoice s).2 := h.draw

/-! ### Ops -/

protected theorem Kept.overDies {f : State → DieId → State} {ds : List DieId}
    (h : Kept s0 s) (hf : ∀ t x1, Kept s0 t → Kept s0 (f t x1)) : Kept s0 (overDies f s ds) :=
  h.foldl (fun _ _ hu => hf _ _ hu)

protected theorem Kept.onDie {d : DieId} {f : State → State}
    (h : Kept s0 s) (hf : ∀ t, Kept s0 t → Kept s0 (f t)) : Kept s0 (onDie s d f) := by
  unfold onDie
  exact .ite (hf _ h) h

protected theorem Kept.regBump {a k : Nat} (h : Kept s0 s) : Kept s0 (regBump s a k) := h.regSet

protected theorem Kept.regFld {a hi lo n : Nat} (h : Kept s0 s) : Kept s0 (regFld s a hi lo n) := h.regSet

protected theorem Kept.onBlock {d : DieId} {page : Nat} {f : State → State}
    (h : Kept s0 s) (hf : ∀ t, Kept s0 t → Kept s0 (f t)) : Kept s0 (onBlock s d page f) :=
  h.onDie (fun _ hu => .ite (hf _ hu) hu)

protected theorem Kept.byReq {r : Requester} {f : State → State}
    (h : Kept s0 s) (hf : ∀ t, Kept s0 t → Kept s0 (f t)) : Kept s0 (byReq s r f) := by
  unfold byReq
  exact .ite h (hf _ h)

/-! ### Flags -/

protected theorem Kept.raiseInt {base bit : Nat} (h : Kept s0 s) : Kept s0 (raiseInt s base bit) := h.regSet

protected theorem Kept.recordEvent {d : DieId} {code v : Nat} (h : Kept s0 s) : Kept s0 (recordEvent s d code v) := by
  unfold recordEvent
  extract_lets _ s1 s2
  have hs1 : Kept s0 s1 := h.updDie
  have hs2 : Kept s0 s2 := hs1.regBump
  exact .ite hs1 (.ite hs2.raiseInt hs2)

protected theorem Kept.recordErr {base code off : Nat} (h : Kept s0 s) : Kept s0 (recordErr s base code off) := by
  unfold recordErr
  extract_lets s1
  have hs1 : Kept s0 s1 := .ite h.regSet.regSet.raiseInt h.regFld
  split
  · exact hs1.recordEvent
  · exact hs1

protected theorem Kept.badValue {a : Nat} (h : Kept s0 s) : Kept s0 (badValue s a) := h.recordErr

protected theorem Kept.storeFields {a : Nat} {r : RegSpec} {v : Word} (h : Kept s0 s) : Kept s0 (storeFields s a r v) := by
  unfold storeFields
  extract_lets _ _ s1
  have hs1 : Kept s0 s1 := h.regSet
  exact .ite hs1.recordErr hs1

@[simp] theorem wakeX_mem (x : Die) : (wakeX x).mem = x.mem := by
  simp [wakeX]

@[simp] theorem undoDeepX_mem (entry : Nat) (x : Die) : (undoDeepX entry x).mem = x.mem := by
  simp [undoDeepX]

protected theorem Kept.undoDeep {entry : Nat} (h : Kept s0 s) : Kept s0 (undoDeep s entry) :=
  h.overDies (fun _ _ hu => .ite (hu.updDieOf (by simp)) hu)

protected theorem Kept.noEntry (h : Kept s0 s) : Kept s0 (noEntry s) := h.same

protected theorem Kept.abandonDeep (h : Kept s0 s) : Kept s0 (abandonDeep s) := by
  unfold abandonDeep
  exact .ite h h.undoDeep.noEntry.regBump.raiseInt

protected theorem Kept.wakeAt {d : DieId} (h : Kept s0 s) : Kept s0 (wakeAt s d) := by
  unfold wakeAt
  extract_lets s1
  have hs1 : Kept s0 s1 := h.abandonDeep
  exact .ite (hs1.updDieOf (by simp)) ((hs1.updDieOf (by simp)).raiseInt)

@[simp] theorem wakeDeepX_mem (x : Die) : (wakeDeepX x).mem = x.mem := by
  simp [wakeDeepX]

protected theorem Kept.wakePackage {src : Option Nat} (h : Kept s0 s) : Kept s0 (wakePackage s src) := by
  unfold wakePackage
  extract_lets s1
  have hs1 : Kept s0 s1 := h.overDies (fun _ _ hu => .ite ((hu.updDieOf (by simp)).raiseInt) hu)
  exact .ite hs1.same.raiseInt h.abandonDeep

protected theorem Kept.accessWake {a : Nat} (h : Kept s0 s) : Kept s0 (accessWake s a) := by
  unfold accessWake
  extract_lets s1
  have hs1 : Kept s0 s1 := h.wakePackage
  split
  · exact .ite hs1.updDie hs1
  · exact h

protected theorem Kept.rowWrite {a : Nat} {v : Word} {act : State → State}
    (h : Kept s0 s) (hact : ∀ t, Kept s0 t → Kept s0 (act t)) : Kept s0 (rowWrite s a v act) := by
  unfold rowWrite
  extract_lets s
  have hs : Kept s0 s := h.accessWake
  refine .ite hs ?_
  split
  · exact hs
  · split
    · exact hs
    · exact .ite (hact _ hs) hs.badValue

protected theorem Kept.storeReg {a : Nat} {v : Word} (h : Kept s0 s) : Kept s0 (storeReg s a v) := by
  unfold storeReg
  split
  · exact h
  · split
    · exact h
    · exact h.storeFields

protected theorem Kept.meterAdd {d : DieId} {t1 : Nat} {f : Meter → Meter} (h : Kept s0 s) : Kept s0 (meterAdd s d t1 f) :=
  h.updDie

/-! ### Comb -/

protected theorem Kept.hotInsert {d : DieId} {tenant nsid : Nat} {h1 : BitVec 128} {version kind : Nat} {loc : BitVec 56}
    (h : Kept s0 s) : Kept s0 (hotInsert s d tenant nsid h1 version kind loc) := by
  unfold hotInsert
  extract_lets
  refine .ite h ?_
  split
  · exact h
  · exact h.setDieOf (by rfl)

protected theorem Kept.slotFill {d : DieId} {tenant nsid : Nat} {h1 : BitVec 128} {version : Nat} {v : CacheSlot}
    (h : Kept s0 s) : Kept s0 (slotFill s d tenant nsid h1 version v) := by
  unfold slotFill
  extract_lets
  split
  · refine .ite ?_ h
    split
    · exact h
    · exact h.setDieOf (by rfl)
  · exact h

protected theorem Kept.invOnDie {v m : BitVec 192} {d : DieId} (h : Kept s0 s) : Kept s0 (invOnDie v m s d) := h.updDie

protected theorem Kept.combErr {d : DieId} {code idx : Nat} (h : Kept s0 s) : Kept s0 (combErr s d code idx) := h.recordErr

protected theorem Kept.updFail {d : DieId} {b : Bool} (h : Kept s0 s) : Kept s0 (updFail s d b) := h.regFld

protected theorem Kept.updBegin {d : DieId} {v : Word} (h : Kept s0 s) : Kept s0 (updBegin s d v) := h.storeReg.updDie

protected theorem Kept.updInvalidate {d : DieId} {v : Word} (h : Kept s0 s) : Kept s0 (updInvalidate s d v) :=
  h.updBegin.updDie

protected theorem Kept.updWrite {d : DieId} {v : Word} (h : Kept s0 s) : Kept s0 (updWrite s d v) := by
  unfold updWrite
  exact .ite h.combErr h.updBegin.updDie

protected theorem Kept.updValidate {d : DieId} {v : Word} (h : Kept s0 s) : Kept s0 (updValidate s d v) := by
  unfold updValidate
  exact .ite h.combErr h.updBegin.updDie

protected theorem Kept.updResult {d : DieId} {v : Word} (h : Kept s0 s) : Kept s0 (updResult s d v) := by
  unfold updResult
  exact .ite h.combErr.updFail (.ite h.updBegin.updFail.updDie h.updBegin.updFail)

protected theorem Kept.updInvMasked {d : DieId} {v : Word} (h : Kept s0 s) : Kept s0 (updInvMasked s d v) := by
  unfold updInvMasked
  exact .ite (h.updBegin.overDies (fun _ _ hu => hu.invOnDie)) h.updBegin.invOnDie

protected theorem Kept.updOp {d : DieId} {v : Word} {op : Nat} {act : State → DieId → Word → State}
    (h : Kept s0 s) (hact : ∀ t x1 x2, Kept s0 t → Kept s0 (act t x1 x2)) : Kept s0 (updOp s d v op act) := by
  unfold updOp
  refine h.rowWrite (fun u hu => ?_)
  refine .ite hu ?_
  refine .ite hu.combErr ?_
  split
  · exact hu.combErr
  · exact hact _ _ _ hu

protected theorem Kept.combUpdWrite {d : DieId} {v : Word} (h : Kept s0 s) : Kept s0 (combUpdWrite s d v) := by
  unfold combUpdWrite
  split
  · exact h.updOp (fun _ _ _ hu => hu.updInvalidate)
  · exact h.updOp (fun _ _ _ hu => hu.updWrite)
  · exact h.updOp (fun _ _ _ hu => hu.updValidate)
  · exact h.updOp (fun _ _ _ hu => hu.updResult)
  · exact h.updOp (fun _ _ _ hu => hu.updInvMasked)
  · exact h.rowWrite (fun _ hu => hu)

protected theorem Kept.execCmbInvalidate {r : Requester} {d : DieId} {v : Word}
    (h : Kept s0 s) : OutKept s0 (execCmbInvalidate r d v s) :=
  (h.byReq (fun _ hu => hu.updOp (fun _ _ _ hw => hw.updInvalidate))).out

protected theorem Kept.execCmbWrite {r : Requester} {d : DieId} {v : Word}
    (h : Kept s0 s) : OutKept s0 (execCmbWrite r d v s) :=
  (h.byReq (fun _ hu => hu.updOp (fun _ _ _ hw => hw.updWrite))).out

protected theorem Kept.execCmbValidate {r : Requester} {d : DieId} {v : Word}
    (h : Kept s0 s) : OutKept s0 (execCmbValidate r d v s) :=
  (h.byReq (fun _ hu => hu.updOp (fun _ _ _ hw => hw.updValidate))).out

protected theorem Kept.execCmbResult {r : Requester} {d : DieId} {v : Word}
    (h : Kept s0 s) : OutKept s0 (execCmbResult r d v s) :=
  (h.byReq (fun _ hu => hu.updOp (fun _ _ _ hw => hw.updResult))).out

protected theorem Kept.execCmbInvMasked {r : Requester} {d : DieId} {v : Word}
    (h : Kept s0 s) : OutKept s0 (execCmbInvMasked r d v s) :=
  (h.byReq (fun _ hu => hu.updOp (fun _ _ _ hw => hw.updInvMasked))).out

protected theorem Kept.execCmbUpdateDone {d : DieId} (h : Kept s0 s) : OutKept s0 (execCmbUpdateDone d s) :=
  (h.onDie (fun _ hu => hu.updDieOf (by simp))).out

protected theorem Kept.execCmbSlotReclaimDone {d : DieId} (h : Kept s0 s) : OutKept s0 (execCmbSlotReclaimDone d s) :=
  (h.onDie (fun _ hu => .ite hu.updDie.raiseInt hu)).out

protected theorem Kept.combSrchWrite {d : DieId} {v : Word} (h : Kept s0 s) : Kept s0 (combSrchWrite s d v) := by
  unfold combSrchWrite
  refine h.rowWrite (fun u hu => ?_)
  extract_lets s1
  have hs1 : Kept s0 s1 := hu.storeReg.updDie
  exact .ite (.ite hu.combErr (.ite hs1.regBump hs1)) hu.storeReg

protected theorem Kept.execCmbSearch {r : Requester} {d : DieId} {v : Word}
    (h : Kept s0 s) : OutKept s0 (execCmbSearch r d v s) :=
  (h.byReq (fun _ hu => hu.combSrchWrite)).out

protected theorem Kept.execCmbSearchResult {d : DieId} (h : Kept s0 s) : OutKept s0 (execCmbSearchResult d s) := by
  unfold execCmbSearchResult
  apply Kept.out
  refine h.onDie (fun u hu => ?_)
  split
  · exact hu
  · exact hu.updDie

protected theorem Kept.combShiftWrite {d : DieId} {v : Word} (h : Kept s0 s) : Kept s0 (combShiftWrite s d v) :=
  h.rowWrite (fun _ hu => .ite (.ite hu (.ite hu.storeReg.updDie hu.combErr)) hu.storeReg)

protected theorem Kept.execCmbShift {r : Requester} {d : DieId} {v : Word}
    (h : Kept s0 s) : OutKept s0 (execCmbShift r d v s) :=
  (h.byReq (fun _ hu => hu.combShiftWrite)).out

protected theorem Kept.execCmbShiftDone {d : DieId} (h : Kept s0 s) : OutKept s0 (execCmbShiftDone d s) := by
  unfold execCmbShiftDone
  apply Kept.out
  refine h.onDie (fun u hu => ?_)
  split
  · exact hu
  · exact .ite hu hu.updDie.raiseInt

/-! ### Journal -/

theorem norWrite_wf {n : Nor} {a : Nat} {b : Bytes} (h : norWf n.array = true) : norWf (norWrite n a b).array = true :=
  cellsPut_wf norBlank n.array a b h

theorem norProgram_wf {n : Nor} {a : Nat} {b : Bytes} (h : norWf n.array = true) : norWf (norProgram n a b).array = true :=
  norWrite_wf h

theorem norClear_wf {n : Nor} {k : Nat} (h : norWf n.array = true) : norWf (norClear n k).array = true :=
  cellWf_filter norBlank n.array _ h

theorem norEraseSpan_wf {n : Nor} {k : Nat} (h : norWf n.array = true) : norWf (norEraseSpan n k).array = true := by
  unfold norEraseSpan
  exact norClear_wf h

theorem cjOpen_wf {n : Nor} {k : Nat} (h : norWf n.array = true) : norWf (cjOpen n k).array = true := by
  unfold cjOpen
  exact norProgram_wf (norClear_wf h)

theorem cjRoom_wf {n : Nor} {k : Nat} (h : norWf n.array = true) : norWf (cjRoom n k).array = true := by
  unfold cjRoom
  split
  · exact cjOpen_wf h
  · split
    · show norWf (cjOpen n (cjNext n.cjHead)).array = true
      exact cjOpen_wf h
    · exact h

theorem norWf_cjAt {n : Nor} {k : Nat} (h : norWf n.array = true) : norWf { n with cjAt := k }.array = true := h

theorem cjWrite_wf {b : CjBody} {deleted : Bool} {f : Nat} {n : Nor} (h : norWf n.array = true) :
    norWf (cjWrite b deleted f n).array = true := by
  induction f generalizing n with
  | zero => exact h
  | succ f ih =>
    unfold cjWrite
    extract_lets m bytes p q
    have hp : norWf p.array = true := norProgram_wf (cjRoom_wf h)
    have hq : norWf q.array = true := norWf_cjAt hp
    split
    · exact hq
    · exact ih hq

theorem cjAppend_wf {n : Nor} {b : CjBody} {deleted : Bool} (h : norWf n.array = true) :
    norWf (cjAppend n b deleted).array = true := cjWrite_wf h

theorem cjReload_wf {n : Nor} (h : norWf n.array = true) : norWf (cjReload n).array = true := h

theorem norApply_wf {n : Nor} {o : NorOp} (h : norWf n.array = true) : norWf (norApply n o).array = true := by
  unfold norApply
  split
  · exact cjReload_wf (norEraseSpan_wf h)
  · exact cjReload_wf (norProgram_wf h)

theorem bootPut_wf {n : Nor} {base i : Nat} {e : BootEntry} (h : norWf n.array = true) :
    norWf (bootPut n base i e).array = true := norWrite_wf h

theorem bootAppend_wf {n : Nor} {e : BootEntry} (h : norWf n.array = true) : norWf (bootAppend n e).array = true := by
  unfold bootAppend
  dsimp only
  split
  · exact bootPut_wf h
  · split
    · exact bootPut_wf (norEraseSpan_wf h)
    · split
      · exact bootPut_wf (bootPut_wf (bootPut_wf (norEraseSpan_wf h)))
      · exact bootPut_wf (bootPut_wf (norEraseSpan_wf h))

theorem foldl_nor_wf {α : Type} {f : Nor → α → Nor} {l : List α} {n : Nor} (h : norWf n.array = true)
    (hf : ∀ m a, norWf m.array = true → norWf (f m a).array = true) : norWf (l.foldl f n).array = true :=
  List.foldlRecOn (motive := fun m => norWf m.array = true) l f h (fun m hm a _ => hf m a hm)

theorem norWf_cjErased {n : Nor} {k : Nat} (h : norWf n.array = true) : norWf { n with cjErased := k }.array = true := h

theorem journalCompact_wf {n : Nor} (h : norWf n.array = true) : norWf (journalCompact n).array = true := by
  unfold journalCompact
  exact norWf_cjErased (norEraseSpan_wf (foldl_nor_wf h fun _ _ hm => cjAppend_wf hm))

theorem purgeJournal_wf {n : Nor} (h : norWf n.array = true) : norWf (purgeJournal n).array = true := by
  unfold purgeJournal
  split
  · exact h
  · exact foldl_nor_wf (foldl_nor_wf (norWf_cjErased (cjOpen_wf h)) fun _ _ hm => cjAppend_wf hm)
      fun _ _ hm => norWf_cjErased (norEraseSpan_wf hm)

theorem chooseSlot_wf {n : Nor} {cause : Nat} (h : norWf n.array = true) : norWf (chooseSlot n cause).nor.array = true := by
  unfold chooseSlot
  extract_lets act a seq trial started back a1 n1
  have h1 : norWf n1.array = true := by
    unfold n1
    split
    · exact bootAppend_wf (bootAppend_wf h)
    · exact h
  split
  · dsimp only
    exact bootAppend_wf h1
  · split
    · dsimp only
      exact bootAppend_wf (bootAppend_wf (bootAppend_wf h1))
    · exact h1

theorem norWf_op {n : Nor} {o : Option NorOp} (h : norWf n.array = true) : norWf { n with op := o }.array = true := h

theorem norWf_dl {n : Nor} {slot on : Bool} {got len : Nat} (h : norWf n.array = true) :
    norWf { n with dlSlot := slot, dlOn := on, dlGot := got, dlLen := len }.array = true := h

protected theorem Kept.norCount {progs erases : Nat} (h : Kept s0 s) : Kept s0 (norCount s progs erases) :=
  h.regBump.regBump.raiseInt

protected theorem Kept.journalPut {b : CjBody} (h : Kept s0 s) : Kept s0 (journalPut s b) :=
  (h.setNor (fun n => cjAppend_wf n)).norCount

protected theorem Kept.journalDel {b : CjBody} (h : Kept s0 s) : Kept s0 (journalDel s b) :=
  (h.setNor (fun n => cjAppend_wf n)).norCount

/-! ### Shares -/

protected theorem Kept.pipeRun {p : Pipe} {n : Nat} (h : Kept s0 s) : Kept s0 (pipeRun s p n).2 := by
  unfold pipeRun
  extract_lets
  exact h.draw

protected theorem Kept.cryBlocks {d : DieId} {n : Nat} (h : Kept s0 s) : Kept s0 (cryBlocks s d n) := by
  unfold cryBlocks
  extract_lets r _ _ q
  have hr : Kept s0 r.2 := h.drawChoice
  have hq : Kept s0 q.2 := hr.pipeRun
  exact hq.updDie

protected theorem Kept.cryUnits {d : DieId} {n : Nat} (h : Kept s0 s) : Kept s0 (cryUnits d n s) := by
  induction n generalizing d s with
  | zero =>
    exact h
  | succ n ih =>
    exact ih h.cryBlocks

/-! ### Keys -/

@[simp] theorem retireSpent_mem (x : Die) (t : Nat) : (retireSpent x t).mem = x.mem := by rfl

/-! ### Routes -/

protected theorem Kept.updLink {d : DieId} {k : SwmId} {f : Swm → Swm} (h : Kept s0 s) : Kept s0 (updLink s d k f) := h.updDie

protected theorem Kept.holdOut {src : DieId} {m : Crossing} (h : Kept s0 s) : Kept s0 (holdOut s src m) := h.updDie

/-! ### Reply -/

protected theorem Kept.putSess {d : DieId} {k : Session} (h : Kept s0 s) : Kept s0 (putSess s d k) := h.updDie

protected theorem Kept.delSess {d : DieId} {slot : Nat} (h : Kept s0 s) : Kept s0 (delSess s d slot) := h.updDie

protected theorem Kept.queueTx {d : DieId} {p : PortId} {t1 : TxPkt} (h : Kept s0 s) : Kept s0 (queueTx s d p t1) := h.updDie

protected theorem Kept.transmit {d : DieId} {k : Session} {ptype : Nat} {psn : Word} {retx : Bool} {body : Bytes}
    (h : Kept s0 s) : Kept s0 (transmit s d k ptype psn retx body).1 := by
  unfold transmit
  extract_lets _ _ s1
  have hs1 : Kept s0 s1 := .ite h.cryBlocks h
  split
  · split
    · exact h.putSess
    · split
      · exact h.putSess
      · exact hs1.queueTx.putSess
  · split
    · exact h.putSess
    · split
      · exact h.putSess
      · exact hs1.queueTx.putSess

protected theorem Kept.sendNow {d : DieId} {k : Session} {ptype : Nat} {body : Bytes}
    (h : Kept s0 s) : Kept s0 (sendNow s d k ptype body).1 := by
  unfold sendNow
  extract_lets r
  have hr : Kept s0 r.1 := h.transmit
  exact hr.putSess

protected theorem Kept.sendSeq {d : DieId} {k : Session} {ptype : Nat} {body : Bytes}
    (h : Kept s0 s) : Kept s0 (sendSeq s d k ptype body).1 := by
  unfold sendSeq
  split
  · exact h.sendNow
  · extract_lets
    exact h.putSess

protected theorem Kept.pump {n : Nat} {d : DieId} {k : Session} (h : Kept s0 s) : Kept s0 (pump n s d k).1 := by
  induction n generalizing s d k with
  | zero =>
    exact h
  | succ n ih =>
    unfold pump
    split
    · exact h
    · extract_lets r
      have hr : Kept s0 r.1 := h.sendNow
      split
      · exact ih hr
      · exact h

protected theorem Kept.sendMsg {d : DieId} {k : Session} {tag : Byte} {msg : Bytes}
    (h : Kept s0 s) : Kept s0 (sendMsg s d k tag msg).1 :=
  h.foldl_fst (fun _ _ hu => hu.sendSeq)

protected theorem Kept.giveBarrier {e : DieId} {b : Barrier} (h : Kept s0 s) : Kept s0 (giveBarrier s e b) := h.wakeAt.updDie

protected theorem Kept.sendBarrier {b : Barrier} (h : Kept s0 s) : Kept s0 (sendBarrier s b) :=
  h.overDies (fun _ _ hu => .ite hu.holdOut hu.giveBarrier)

protected theorem Kept.freeSlot {d : DieId} {slot : Nat} (h : Kept s0 s) : Kept s0 (freeSlot s d slot) := h.delSess.updDie

protected theorem Kept.endSession {d : DieId} {k : Session} (h : Kept s0 s) : Kept s0 (endSession s d k) := by
  unfold endSession
  extract_lets s1 s2
  have hs1 : Kept s0 s1 := h.delSess
  have hs2 : Kept s0 s2 := hs1.updDie
  exact hs2.sendBarrier.regBump.raiseInt

protected theorem Kept.terminateSession {d : DieId} {k : Session} {reason : Nat}
    (h : Kept s0 s) : Kept s0 (terminateSession s d k reason) := by
  unfold terminateSession
  extract_lets r
  have hr : Kept s0 r.1 := h.transmit
  exact hr.endSession

protected theorem Kept.terminateWhere {d : DieId} {p : Session → Bool} {reason : Nat}
    (h : Kept s0 s) : Kept s0 (terminateWhere s d p reason) :=
  h.foldl (fun _ _ hu => hu.terminateSession)

protected theorem Kept.checkNonce {d : DieId} {slot : Nat} (h : Kept s0 s) : Kept s0 (checkNonce s d slot) := by
  unfold checkNonce
  split
  · exact h
  · exact .ite h.terminateSession h

protected theorem Kept.maybeClose {d : DieId} {slot gen : Nat} (h : Kept s0 s) : Kept s0 (maybeClose s d slot gen) := by
  unfold maybeClose
  split
  · exact h
  · exact .ite h.sendSeq.checkNonce h

protected theorem Kept.countReply {d : DieId} {tenant cls arrived status inLen outLen : Nat} {sent : Bool}
    (h : Kept s0 s) : Kept s0 (countReply s d tenant cls arrived status inLen outLen sent) := by
  unfold countReply
  extract_lets _ _ _ s1 s2
  have hs1 : Kept s0 s1 := h.meterAdd
  have hs2 : Kept s0 s2 := .ite hs1.updDie hs1
  exact .ite hs2.raiseInt hs2

@[simp] theorem chargeReply_mem (x : Die) (tenant len : Nat) : (chargeReply x tenant len).mem = x.mem := by rfl

protected theorem Kept.replyTo {home : DieId} {slot gen : Nat} {tag : Byte}
    {tenant cls arrived inLen opcode status rflags aux version objLen : Nat} {data : Bytes} {noReply : Bool} (h : Kept s0 s) :
    Kept s0 (replyTo s home slot gen tag tenant cls arrived inLen opcode status rflags aux version objLen data noReply) := by
  unfold replyTo
  extract_lets s1
  have hs1 : Kept s0 s1 := h.countReply
  split
  · exact h.countReply
  · extract_lets s2 s3
    have hs2 : Kept s0 s2 := hs1.sendMsg
    have hs3 : Kept s0 s3 := .ite hs2.updDie hs2
    exact .ite h.countReply.putSess hs3.checkNonce

protected theorem Kept.dropCmd {d : DieId} {cid : Nat} (h : Kept s0 s) : Kept s0 (dropCmd s d cid) := h.updDie

protected theorem Kept.putCmd {d : DieId} {c : Cmd} (h : Kept s0 s) : Kept s0 (putCmd s d c) := h.updDie

protected theorem Kept.answerAbort {d : DieId} {a : Cmd} {aux : Nat} (h : Kept s0 s) : Kept s0 (answerAbort s d a aux) := by
  unfold answerAbort
  extract_lets s1
  have hs1 : Kept s0 s1 := h.updDie
  exact hs1.regBump.replyTo

protected theorem Kept.answerLate {n : Nat} {d : DieId} {n1 : Nat} (h : Kept s0 s) : Kept s0 (answerLate n s d n1) := by
  induction n generalizing s d n1 with
  | zero =>
    exact h
  | succ n ih =>
    unfold answerLate
    split
    · exact h
    · exact ih h.answerAbort

protected theorem Kept.maybeReset {d : DieId} {slot gen : Nat} (h : Kept s0 s) : Kept s0 (maybeReset s d slot gen) := by
  unfold maybeReset
  split
  · exact h
  · split
    · exact h
    · split
      · exact h
      · extract_lets _ s1 s2
        have hs1 : Kept s0 s1 := h.putSess
        have hs2 : Kept s0 s2 := hs1.updDie
        exact .ite hs2.replyTo.answerLate h

protected theorem Kept.settleSess {d : DieId} {slot gen : Nat} (h : Kept s0 s) : Kept s0 (settleSess s d slot gen) :=
  h.maybeReset.maybeClose

protected theorem Kept.afterReply {d : DieId} {slot gen cid : Nat} (h : Kept s0 s) : Kept s0 (afterReply s d slot gen cid) :=
  h.answerLate.settleSess

protected theorem Kept.finish {c : Cmd} {status aux version objLen : Nat} {data : Bytes}
    (h : Kept s0 s) : Kept s0 (finish s c status aux version objLen data) :=
  h.replyTo.afterReply

protected theorem Kept.complete {d : DieId} {c : Cmd} {status aux version objLen : Nat} {data : Bytes}
    (h : Kept s0 s) : Kept s0 (complete s d c status aux version objLen data) := by
  unfold complete
  extract_lets s1
  have hs1 : Kept s0 s1 := h.dropCmd
  exact .ite hs1.holdOut hs1.finish

protected theorem Kept.fail {d : DieId} {c : Cmd} {status : Nat} (h : Kept s0 s) : Kept s0 (fail s d c status) := h.complete

/-! ### Transport -/

protected theorem Kept.dropHdr {d : DieId} (h : Kept s0 s) : Kept s0 (dropHdr s d) := h.regBump

protected theorem Kept.dropAuth {d : DieId} (h : Kept s0 s) : Kept s0 (dropAuth s d) := h.regBump.raiseInt

protected theorem Kept.dropWindow {d : DieId} (h : Kept s0 s) : Kept s0 (dropWindow s d) := h.regBump

protected theorem Kept.onPort {d : DieId} {p : PortId} {g : Datagram} {f : State → State}
    (h : Kept s0 s) (hf : ∀ t, Kept s0 t → Kept s0 (f t)) : Kept s0 (onPort s d p g f) :=
  h.onBlock (fun _ hu => .ite (hf _ hu) hu)

protected theorem Kept.deciphered {d : DieId} {g : Datagram} {want : Nat}
    (h : Kept s0 s) : Kept s0 (deciphered s d g want) := by
  unfold deciphered
  extract_lets
  split
  · exact h
  · exact .ite h.cryBlocks h

protected theorem Kept.retransmit {d : DieId} {k : Session} {p : SentPkt} {fast : Bool}
    (h : Kept s0 s) : Kept s0 (retransmit s d k p fast).1 := by
  unfold retransmit
  extract_lets r
  have hr : Kept s0 r.1 := h.transmit
  exact hr.putSess.regBump

protected theorem Kept.ackIn {d : DieId} {k : Session} {h1 : PktHdr} (h : Kept s0 s) : Kept s0 (ackIn s d k h1) := by
  unfold ackIn
  extract_lets _ _ _ r r2
  have hr : Kept s0 r.1 := h.putSess.foldl_fst (fun _ _ hu => hu.retransmit)
  have hr2 : Kept s0 r2.1 := hr.pump
  exact .ite hr2.freeSlot hr2.checkNonce

protected theorem Kept.sendAck {d : DieId} {slot : Nat} (h : Kept s0 s) : Kept s0 (sendAck s d slot) := by
  unfold sendAck
  split
  · exact h
  · exact h.transmit.checkNonce

protected theorem Kept.ackIfDue {d : DieId} {slot : Nat} {due : Bool} (h : Kept s0 s) : Kept s0 (ackIfDue s d slot due) := by
  unfold ackIfDue
  split
  · exact h
  · exact .ite h.sendAck h

protected theorem Kept.refuse {d : DieId} {k : Session} {m : Msg} {status rflags : Nat}
    (h : Kept s0 s) : Kept s0 (refuse s d k m status rflags) :=
  h.replyTo

protected theorem Kept.putBucket {d : DieId} {t1 : Nat} {b : Int × Int} (h : Kept s0 s) : Kept s0 (putBucket s d t1 b) :=
  h.updDie

protected theorem Kept.beginReset {c : Cmd} (h : Kept s0 s) : Kept s0 (beginReset s c) := by
  unfold beginReset
  split
  · exact h
  · exact h.putSess

protected theorem Kept.giveCmd {c : Cmd} (h : Kept s0 s) : Kept s0 (giveCmd s c) := h.wakeAt.updDie

protected theorem Kept.hand {c : Cmd} (h : Kept s0 s) : Kept s0 (hand s c) := by
  unfold hand
  extract_lets _ s1 s2
  have hs1 : Kept s0 s1 := h.same.wakeAt
  have hs2 : Kept s0 s2 := hs1.updDie
  exact .ite (.ite hs2.beginReset hs2) (.ite hs1.holdOut hs1.giveCmd)

protected theorem Kept.routeCmd {d : DieId} {k : Session} {m : Msg} {h1 : CmdHdr} {key inline : Bytes} {owner : DieId}
    {hash : BitVec 128} (h : Kept s0 s) : Kept s0 (routeCmd s d k m h1 key inline owner hash) := by
  unfold routeCmd
  extract_lets s1
  have hs1 : Kept s0 s1 := .ite h.regBump h
  split
  · exact hs1.refuse
  · exact .ite hs1.refuse hs1.hand
  · exact .ite hs1.refuse hs1.hand

protected theorem Kept.checkRoute {d : DieId} {k : Session} {m : Msg} {h1 : CmdHdr} {key inline : Bytes}
    (h : Kept s0 s) : Kept s0 (checkRoute s d k m h1 key inline) := by
  unfold checkRoute
  split
  · exact h.refuse
  · split
    · exact h.refuse
    · exact h.routeCmd

protected theorem Kept.checkRate {d : DieId} {k : Session} {m : Msg} {h1 : CmdHdr} {key inline : Bytes}
    (h : Kept s0 s) : Kept s0 (checkRate s d k m h1 key inline) := by
  unfold checkRate
  refine .ite h.checkRoute ?_
  split
  · exact h.checkRoute
  · exact .ite h.putBucket.checkRoute (.ite h.refuse h.putSess.meterAdd)

protected theorem Kept.checkMsg {d : DieId} {k : Session} {m : Msg} (h : Kept s0 s) : Kept s0 (checkMsg s d k m) := by
  unfold checkMsg
  refine .ite h.refuse ?_
  extract_lets
  refine .ite h.refuse ?_
  refine .ite h.refuse ?_
  refine .ite h.refuse ?_
  refine .ite h.refuse ?_
  refine .ite h.refuse ?_
  refine .ite h.refuse ?_
  refine .ite h.refuse ?_
  refine .ite h.refuse ?_
  split
  · exact h.refuse
  · exact h.checkRate

protected theorem Kept.deliver {d : DieId} {k : Session} {m : Msg} (h : Kept s0 s) : Kept s0 (deliver s d k m) := by
  unfold deliver
  exact .ite h.putSess (.ite h.putSess h.checkMsg)

protected theorem Kept.deliverClose {d : DieId} {k : Session} (h : Kept s0 s) : Kept s0 (deliverClose s d k) :=
  h.putSess.maybeClose

protected theorem Kept.deliverAll {n : Nat} {d : DieId} {n1 : Nat} (h : Kept s0 s) : Kept s0 (deliverAll n s d n1) := by
  induction n generalizing s d n1 with
  | zero =>
    exact h
  | succ n ih =>
    unfold deliverAll
    split
    · exact h
    · split
      · exact h
      · extract_lets _ s1
        have hs1 : Kept s0 s1 := h.putSess
        exact .ite (ih hs1.deliverClose) (ih hs1.deliver)

protected theorem Kept.redeliver {d : DieId} {slot : Nat} {m : Msg} (h : Kept s0 s) : Kept s0 (redeliver s d slot m) := by
  unfold redeliver
  split
  · exact h
  · exact h.deliver

protected theorem Kept.resumeRate {d : DieId} {slot : Nat} {m : Msg} (h : Kept s0 s) : Kept s0 (resumeRate s d slot m) := by
  unfold resumeRate
  split
  · exact h
  · exact .ite h.putSess h.checkRate

protected theorem Kept.drainHeld {d : DieId} {slot : Nat} (h : Kept s0 s) : Kept s0 (drainHeld s d slot) := by
  unfold drainHeld
  split
  · exact h
  · extract_lets s1
    have hs1 : Kept s0 s1 := h.putSess
    refine .ite h ?_
    split
    · exact h
    · extract_lets s2
      have hs2 : Kept s0 s2 := .ite hs1.resumeRate hs1.redeliver
      exact (hs2.foldl (fun _ _ hu => hu.redeliver)).settleSess

protected theorem Kept.tellEdge {d : DieId} {slot : Nat} (h : Kept s0 s) : Kept s0 (tellEdge s d slot) := by
  unfold tellEdge
  split
  · exact h
  · exact .ite h.sendAck h

protected theorem Kept.sequenced {d : DieId} {p : PortId} {g : Datagram} {ptype : Nat}
    {act : State → Session → PktHdr → Bytes → State} (h : Kept s0 s)
    (hact : ∀ t x1 x2 x3, Kept s0 t → Kept s0 (act t x1 x2 x3)) : Kept s0 (sequenced s d p g ptype act) := by
  have hu : Kept s0 (deciphered s d g ptype) := h.deciphered
  unfold sequenced
  dsimp only
  split
  · exact hu.dropHdr
  · exact hu.dropAuth
  · split
    · exact hu.putSess.dropWindow
    · exact hu.putSess.sendAck
    · refine .ite hu.putSess.terminateSession ?_
      apply Kept.ackIfDue
      split
      · exact hu.putSess.ackIn
      · exact hact _ _ _ _ hu.putSess.ackIn

protected theorem Kept.cmdSegment {d : DieId} {p : PortId} {g : Datagram} (h : Kept s0 s) : Kept s0 (cmdSegment s d p g) :=
  h.sequenced (fun _ _ _ _ hu => hu.putSess.deliverAll)

protected theorem Kept.execCmdSegment {d : DieId} {p : PortId} {g : Datagram}
    (h : Kept s0 s) : OutKept s0 (execCmdSegment d p g s) :=
  (h.onPort (fun _ hu => hu.cmdSegment)).out

protected theorem Kept.execClose {d : DieId} {p : PortId} {g : Datagram} (h : Kept s0 s) : OutKept s0 (execClose d p g s) :=
  (h.onPort (fun _ hu => hu.sequenced (fun _ _ _ _ hw => hw.putSess.deliverAll))).out

protected theorem Kept.execAck {d : DieId} {p : PortId} {g : Datagram} (h : Kept s0 s) : OutKept s0 (execAck d p g s) := by
  refine (h.onPort fun t ht => ?_).out
  dsimp only
  split
  · exact ht.deciphered.dropHdr
  · exact ht.deciphered.dropAuth
  · exact .ite ht.deciphered.putSess.ackIn.sendAck ht.deciphered.putSess.ackIn

protected theorem Kept.execTerminate {d : DieId} {p : PortId} {g : Datagram} (h : Kept s0 s) :
    OutKept s0 (execTerminate d p g s) := by
  refine (h.onPort fun t ht => ?_).out
  dsimp only
  split
  · exact ht.deciphered.dropHdr
  · exact ht.deciphered.dropAuth
  · exact ht.deciphered.endSession

protected theorem Kept.refuseCmd {c : Cmd} {status : Nat} (h : Kept s0 s) : Kept s0 (refuseCmd s c status) :=
  h.replyTo.afterReply

protected theorem Kept.refuseInbox {e : DieId} {c : Cmd} {status : Nat}
    (h : Kept s0 s) : Kept s0 (refuseInbox s e c status) :=
  h.updDie.refuseCmd

protected theorem Kept.dropHeld {d : DieId} {slot gen : Nat} {tag : Byte}
    (h : Kept s0 s) : Kept s0 (dropHeld s d slot gen tag) := by
  unfold dropHeld
  split
  · exact h
  · exact h.putSess

protected theorem Kept.refuseOneHeld {d : DieId} {k : Session} {m : Msg} {status : Nat}
    (h : Kept s0 s) : Kept s0 (refuseOneHeld s d k m status) := by
  unfold refuseOneHeld
  extract_lets s1
  have hs1 : Kept s0 s1 := h.dropHeld.refuse
  split
  · exact hs1
  · exact .ite hs1 hs1.drainHeld.tellEdge

protected theorem Kept.earlyData {d : DieId} {k : Session} {tag : Byte} (h : Kept s0 s) : Kept s0 (earlyData s d k tag) := by
  unfold earlyData
  split
  · exact .ite h.refuseInbox h
  · split
    · exact h
    · exact .ite h.refuseOneHeld h

protected theorem Kept.dataOut {d : DieId} {p : PortId} {g : Datagram} (h : Kept s0 s) : Kept s0 (dataOut s d p g) := by
  unfold dataOut
  refine h.sequenced (fun u k x body hu => ?_)
  extract_lets
  split
  · exact hu.earlyData
  · exact .ite hu (.ite hu.putCmd (.ite hu.fail hu))

protected theorem Kept.execDataOut {d : DieId} {p : PortId} {g : Datagram}
    (h : Kept s0 s) : OutKept s0 (execDataOut d p g s) :=
  (h.onPort (fun _ hu => hu.dataOut)).out

protected theorem Kept.execGrantIssue {d : DieId} {cid : Nat} (h : Kept s0 s) : OutKept s0 (execGrantIssue d cid s) := by
  unfold execGrantIssue
  apply Kept.out
  refine h.onDie (fun u hu => ?_)
  extract_lets
  split
  · exact hu
  · extract_lets _ s1
    have hs1 : Kept s0 s1 := hu.putCmd
    refine .ite ?_ hu
    split
    · exact hu
    · exact hs1.sendSeq.checkNonce

protected theorem Kept.execGrantTimeout {d : DieId} {cid : Nat} (h : Kept s0 s) : OutKept s0 (execGrantTimeout d cid s) := by
  unfold execGrantTimeout
  apply Kept.out
  refine h.onDie (fun u hu => ?_)
  split
  · exact hu
  · exact .ite hu.fail hu

protected theorem Kept.refuseOpen {d : DieId} {p : PortId} {g : Datagram} {status : Nat}
    (h : Kept s0 s) : Kept s0 (refuseOpen s d p g status) := by
  unfold refuseOpen
  extract_lets s1 s2
  have hs1 : Kept s0 s1 := h.regBump
  have hs2 : Kept s0 s2 := .ite hs1.raiseInt hs1
  exact .ite hs2.updDie.queueTx hs2

protected theorem Kept.nextGen {d : DieId} {slot : Nat} (h : Kept s0 s) : Kept s0 (nextGen s d slot).2 := by
  unfold nextGen
  extract_lets r
  have hr : Kept s0 r.2 := h.drawBytes
  split
  · exact h
  · exact hr

protected theorem Kept.createSession {d : DieId} {p : PortId} {g : Datagram} {body : Bytes}
    (h : Kept s0 s) : Kept s0 (createSession s d p g body) := by
  unfold createSession
  extract_lets _ _ _ c _ _ gn rp rn s1 _ _ _ _ _ _ _ _ s2
  have hc : Kept s0 c.2 := h.drawChoice
  have hgn : Kept s0 gn.2 := hc.nextGen
  have hrp : Kept s0 rp.2 := hgn.drawBytes
  have hrn : Kept s0 rn.2 := hrp.drawBytes
  have hs2 : Kept s0 s2 := hrn.updDie
  exact hs2.queueTx

protected theorem Kept.openIn {d : DieId} {p : PortId} {g : Datagram} (h : Kept s0 s) : Kept s0 (openIn s d p g) := by
  unfold openIn
  extract_lets
  refine .ite h.dropHdr ?_
  split
  · exact h.queueTx
  · exact .ite h.refuseOpen (.ite h.updDie h.createSession)

protected theorem Kept.openWaiting {d : DieId} (h : Kept s0 s) : Kept s0 (openWaiting s d) :=
  h.updDie.foldl (fun _ _ hu => hu.openIn)

protected theorem Kept.entropyUpdate (h : Kept s0 s) : Kept s0 (entropyUpdate s) := by
  unfold entropyUpdate
  extract_lets _ s1 _ s2
  have hs1 : Kept s0 s1 := h.overDies (fun _ _ hu => hu.updDie)
  have hs2 : Kept s0 s2 := hs1.same
  exact .ite hs2 (hs2.overDies (fun _ _ hu => hu.openWaiting))

protected theorem Kept.execOpen {d : DieId} {p : PortId} {g : Datagram} (h : Kept s0 s) : OutKept s0 (execOpen d p g s) :=
  (h.onPort (fun _ hu => hu.openIn)).out

protected theorem Kept.execOpenRefuseWindow {d : DieId} {p : PortId}
    (h : Kept s0 s) : OutKept s0 (execOpenRefuseWindow d p s) :=
  (h.onDie (fun _ hu => hu.updDie)).out

protected theorem Kept.onSess {d : DieId} {slot : Nat} {f : State → Session → State}
    (h : Kept s0 s) (hf : ∀ t x1, Kept s0 t → Kept s0 (f t x1)) : Kept s0 (onSess s d slot f) := by
  unfold onSess
  refine h.onDie (fun u hu => ?_)
  split
  · exact hu
  · exact hf _ _ hu

protected theorem Kept.execOpenRcvdTimeout {d : DieId} {slot : Nat}
    (h : Kept s0 s) : OutKept s0 (execOpenRcvdTimeout d slot s) :=
  (h.onSess (fun _ _ hu => .ite hu.freeSlot hu)).out

protected theorem Kept.execClosingTimeout {d : DieId} {slot : Nat}
    (h : Kept s0 s) : OutKept s0 (execClosingTimeout d slot s) :=
  (h.onSess (fun _ _ hu => .ite hu.freeSlot hu)).out

protected theorem Kept.execAckDelayExpiry {d : DieId} {slot : Nat}
    (h : Kept s0 s) : OutKept s0 (execAckDelayExpiry d slot s) :=
  (h.onSess (fun _ _ hu => .ite hu.sendAck hu)).out

protected theorem Kept.execRtoExpiry {d : DieId} {slot : Nat} (h : Kept s0 s) : OutKept s0 (execRtoExpiry d slot s) := by
  unfold execRtoExpiry
  apply Kept.out
  refine h.onSess (fun u k hu => ?_)
  extract_lets
  refine .ite hu ?_
  split
  · exact hu
  · extract_lets r
    have hr : Kept s0 r.1 := hu.retransmit
    exact .ite hu.terminateSession hr.putSess.checkNonce

protected theorem Kept.execIdleTimeout {d : DieId} {slot : Nat} (h : Kept s0 s) : OutKept s0 (execIdleTimeout d slot s) :=
  (h.onSess (fun _ _ hu => .ite hu.terminateSession hu)).out

protected theorem Kept.execRateAdmit {d : DieId} {slot : Nat} (h : Kept s0 s) : OutKept s0 (execRateAdmit d slot s) :=
  (h.onSess (fun _ _ hu => .ite hu.drainHeld.tellEdge hu.drainHeld)).out

protected theorem Kept.execTokenRefill {d : DieId} {tenant : Nat}
    (h : Kept s0 s) : OutKept s0 (execTokenRefill d tenant s) := by
  unfold execTokenRefill
  apply Kept.out
  refine h.onDie (fun u hu => ?_)
  split
  · exact hu
  · exact hu.putBucket

protected theorem Kept.actTerminate {d home : DieId} {slot gen : Nat}
    (h : Kept s0 s) : Kept s0 (actTerminate s d home slot gen) := by
  unfold actTerminate
  extract_lets _ s1
  have hs1 : Kept s0 s1 := h.updDie
  exact hs1.updDie

protected theorem Kept.execTerminateBarrier {d : DieId} (h : Kept s0 s) : OutKept s0 (execTerminateBarrier d s) := by
  unfold execTerminateBarrier
  apply Kept.out
  refine h.onDie (fun u hu => ?_)
  split
  · exact .ite hu hu.updDie.actTerminate
  · exact hu

/-! ### Sched -/

protected theorem Kept.chargeRead {d : DieId} {c : Cmd} {units : Nat} (h : Kept s0 s) : Kept s0 (chargeRead s d c units) := by
  unfold chargeRead
  extract_lets _ _ s1
  have hs1 : Kept s0 s1 := h.updDie
  exact hs1.meterAdd

protected theorem Kept.enqueue {d : DieId} {c : Cmd} (h : Kept s0 s) : Kept s0 (enqueue s d c) := h.updDie

protected theorem Kept.cmdIntake {d : DieId} (h : Kept s0 s) : Kept s0 (cmdIntake s d) := by
  unfold cmdIntake
  split
  · exact h
  · extract_lets s1
    have hs1 : Kept s0 s1 := h.updDie
    exact .ite h (.ite hs1.refuseCmd (.ite hs1.enqueue hs1.refuseCmd.regBump.raiseInt))

protected theorem Kept.execCmdIntake {d : DieId} (h : Kept s0 s) : OutKept s0 (execCmdIntake d s) :=
  (h.onBlock (fun _ hu => hu.cmdIntake)).out

@[simp] theorem dispatchCmd_mem (x : Die) (c : Cmd) (cls : Nat) (funded : Bool) : (dispatchCmd x c cls funded).mem = x.mem :=
  by rfl

@[simp] theorem leaveRound_mem (x : Die) (cls tenant : Nat) : (leaveRound x cls tenant).mem = x.mem := by
  simp [leaveRound]

/-- The die that a turn of a class leaves. -/
def turnDie : Turn → Die
  | .took x => x
  | .over x => x

@[simp] theorem visitLoop_mem (s : State) (d : DieId) (cls n : Nat) (x : Die) (passed : List Nat) :
    (turnDie (visitLoop s d cls n x passed)).mem = x.mem := by
  induction n generalizing x passed with
  | zero => rfl
  | succ n ih =>
    unfold visitLoop
    split
    · rfl
    · extract_lets q r _ rotated kept
      have hr : rotated.mem = x.mem := rfl
      have hk : kept.mem = x.mem := rfl
      split
      · split
        · split
          · exact hr
          · exact (ih _ _).trans hr
        · exact (ih _ _).trans (leaveRound_mem _ _ _)
      · extract_lets cost
        split
        · exact (ih _ _).trans hr
        · split
          · exact hk
          · exact (leaveRound_mem _ _ _).trans hk

@[simp] theorem serve_mem (s : State) (d : DieId) (n : Nat) (x : Die) : (serve s d n x).mem = x.mem := by
  induction n generalizing x with
  | zero => rfl
  | succ n ih =>
    unfold serve
    extract_lets c step _ y
    split
    · simp [ih, step]
    · have hy : y.mem = x.mem := by simp [y]
      split
      · exact hy
      · have hv := (visitLoop_mem s d c visitFuel y []).trans hy
        split
        · next z hz =>
          rw [hz] at hv
          exact hv
        · next z hz =>
          rw [hz] at hv
          exact (ih _).trans hv

protected theorem Kept.dispatchOne {d : DieId} (h : Kept s0 s) : Kept s0 (dispatchOne s d) := by
  unfold dispatchOne
  extract_lets
  split
  · exact .ite (h.setDieOf (by rfl)) (h.setDieOf (by simp +zetaDelta))
  · exact .ite (h.setDieOf (by simp +zetaDelta)) h

protected theorem Kept.execCsqDispatch {d : DieId} (h : Kept s0 s) : OutKept s0 (execCsqDispatch d s) :=
  (h.onDie (fun _ hu => .ite hu.dispatchOne hu)).out

protected theorem Kept.execUrgentRefill {d : DieId} (h : Kept s0 s) : OutKept s0 (execUrgentRefill d s) :=
  (h.onDie (fun _ hu => hu.updDie)).out

protected theorem Kept.onCmd {d : DieId} {cid op : Nat} {f : State → Cmd → State}
    (h : Kept s0 s) (hf : ∀ t x1, Kept s0 t → Kept s0 (f t x1)) : Kept s0 (onCmd s d cid op f) := by
  unfold onCmd
  refine h.onDie (fun u hu => ?_)
  split
  · exact hu
  · exact .ite (hf _ _ hu) hu

protected theorem Kept.dropCtrl {d : DieId} {cid : Nat} (h : Kept s0 s) : Kept s0 (dropCtrl s d cid) := h.updDie

protected theorem Kept.abortHeld {d : DieId} {a : Cmd} {tag : Byte} (h : Kept s0 s) (e : abortHeld s d a tag = .caught t) :
    Kept s0 t := by
  unfold abortHeld at e
  split at e
  · nomatch e
  · split at e
    · nomatch e
    · split at e
      · nomatch e
      · exact AbortSay.caught.inj e ▸ h.refuseOneHeld

protected theorem Kept.abortTarget {d : DieId} {a : Cmd} (h : Kept s0 s) (e : abortTarget s d a = .caught t) : Kept s0 t := by
  unfold abortTarget at e
  dsimp only at e
  split at e
  · split at e
    · exact AbortSay.caught.inj e ▸ h.fail
    · nomatch e
  · split at e
    · exact AbortSay.caught.inj e ▸ h.refuseInbox
    · split at e
      · nomatch e
      · exact h.abortHeld e

protected theorem Kept.abortNow {d : DieId} {a : Cmd} (h : Kept s0 s) : Kept s0 (abortNow s d a) := by
  unfold abortNow
  split
  · next e => exact (h.abortTarget e).answerAbort.afterReply
  · exact h.answerAbort.afterReply
  · exact h.updDie

protected theorem Kept.execAbort {d : DieId} {cid : Nat} (h : Kept s0 s) : OutKept s0 (execAbort d cid s) := by
  unfold execAbort
  apply Kept.out
  refine h.onDie (fun u hu => ?_)
  split
  · exact hu
  · exact .ite hu hu.abortNow

protected theorem Kept.refuseHeld {d : DieId} {slot gen status : Nat}
    (h : Kept s0 s) : Kept s0 (refuseHeld s d slot gen status) := by
  unfold refuseHeld
  split
  · exact h
  · extract_lets s1
    have hs1 : Kept s0 s1 := h.putSess
    exact (hs1.foldl (fun _ _ hu => .ite hu.refuse hu.refuse)).tellEdge

protected theorem Kept.execResetSession {d : DieId} {cid : Nat} (h : Kept s0 s) : OutKept s0 (execResetSession d cid s) := by
  unfold execResetSession
  apply Kept.out
  refine h.onDie (fun u hu => ?_)
  split
  · exact hu
  · extract_lets s3
    have hs3 : Kept s0 s3 := hu.refuseHeld.updDie
    split
    · exact hu.dropCtrl
    · exact .ite hu hs3.sendBarrier

protected theorem Kept.resetQueued {d home : DieId} {slot gen : Nat}
    (h : Kept s0 s) : Kept s0 (resetQueued s d home slot gen) := by
  unfold resetQueued
  extract_lets _ _ s1 s2
  have hs1 : Kept s0 s1 := h.updDie
  have hs2 : Kept s0 s2 := hs1.foldl (fun _ _ hu => hu.refuseCmd)
  exact hs2.foldl (fun _ _ hu => hu.fail)

protected theorem Kept.actReset {d home : DieId} {slot gen cid : Nat}
    (h : Kept s0 s) : Kept s0 (actReset s d home slot gen cid) := by
  unfold actReset
  extract_lets s1 s2 s3
  have hs1 : Kept s0 s1 := h.resetQueued
  have hs2 : Kept s0 s2 := hs1.updDie
  have hs3 : Kept s0 s3 := hs2.updDie
  exact hs3.settleSess

protected theorem Kept.execResetSessionBarrier {d : DieId} (h : Kept s0 s) : OutKept s0 (execResetSessionBarrier d s) := by
  unfold execResetSessionBarrier
  apply Kept.out
  refine h.onDie (fun u hu => ?_)
  split
  · exact .ite hu hu.updDie.actReset
  · exact hu

protected theorem Kept.execFlush {d : DieId} {cid : Nat} (h : Kept s0 s) : OutKept s0 (execFlush d cid s) :=
  (h.onCmd (fun _ _ hu => hu.putCmd.sendBarrier)).out

protected theorem Kept.execFlushBarrier {d : DieId} (h : Kept s0 s) : OutKept s0 (execFlushBarrier d s) := by
  unfold execFlushBarrier
  apply Kept.out
  refine h.onDie (fun u hu => ?_)
  split
  · exact hu.updDie
  · exact hu

protected theorem Kept.flushConfirmed {home : DieId} {cid : Nat} {e : DieId}
    (h : Kept s0 s) : Kept s0 (flushConfirmed s home cid e) := by
  unfold flushConfirmed
  split
  · exact h
  · exact .ite h.fail h.putCmd

protected theorem Kept.execFlushConfirm {d : DieId} {cid : Nat} (h : Kept s0 s) : OutKept s0 (execFlushConfirm d cid s) := by
  unfold execFlushConfirm
  apply Kept.out
  refine h.onDie (fun u hu => ?_)
  split
  · exact hu
  · exact .ite hu.updDie.flushConfirmed hu

/-! ### Groups -/

@[simp] theorem updGroup_mem (x : Die) (n : Nat) (f : Machine.Group → Machine.Group) : (updGroup x n f).mem = x.mem := by rfl

@[simp] theorem validAdd_mem (x : Die) (e : Extent) : (validAdd x e).mem = x.mem := by rfl

@[simp] theorem validSub_mem (x : Die) (e : Extent) : (validSub x e).mem = x.mem := by rfl

@[simp] theorem release_mem (x : Die) (l : BitVec 56) : (release x l).mem = x.mem := by
  simp [release]

@[simp] theorem retain_mem (x : Die) (l : BitVec 56) : (retain x l).mem = x.mem := by
  simp [retain]

protected theorem Kept.queueOp {d : DieId} {kind : OpKind} {src : OpFrom} {l : BitVec 56} {urgent : Bool}
    {stripe : Option Nat} {parity : Bool} {cws : Nat} (h : Kept s0 s) :
    Kept s0 (queueOp s d kind src l urgent stripe parity cws) :=
  h.updDie

@[simp] theorem putPlace_mem (x : Die) (p : PageAt) : (putPlace x p).mem = x.mem := by rfl

@[simp] theorem markLeaf_mem (tenant nsid jseq : Nat) (x : Die) (index : Nat) :
    (markLeaf tenant nsid jseq x index).mem = x.mem :=
  by rfl

@[simp] theorem jAppendTo_mem (x : Die) (tenant nsid : Nat) (b : JBody) : (jAppendTo x tenant nsid b).mem = x.mem := by
  simp [jAppendTo]

@[simp] theorem takeVersion_mem (x : Die) : (takeVersion x).2.mem = x.mem := by
  simp [takeVersion]

theorem takeFree_mem {x y : Die} {st : GroupState} {qlc copy : Bool} {purpose n : Nat}
    (e : takeFree x st qlc copy purpose = some (n, y)) : y.mem = x.mem := by
  unfold takeFree at e
  split at e
  · cases e
  · cases e
    simp

protected theorem Kept.refillRescue {d : DieId} {n : Nat} (h : Kept s0 s) : Kept s0 (refillRescue s d n) := by
  induction n generalizing s with
  | zero => exact h
  | succ n ih =>
    unfold refillRescue
    extract_lets
    refine .ite ?_ h
    split
    · exact h
    · next e => exact ih (h.setDieOf (takeFree_mem e))

@[simp] theorem kvPut_mem (x : Die) (e : BEntry) : (kvPut x e).mem = x.mem := by rfl

@[simp] theorem kvDel_mem (x : Die) (e : BEntry) : (kvDel x e).mem = x.mem := by rfl

@[simp] theorem densePut_mem (x : Die) (e : DEntry) : (densePut x e).mem = x.mem := by rfl

protected theorem Kept.setSpaceStop {d : DieId} {on : Bool} (h : Kept s0 s) : Kept s0 (setSpaceStop s d on) := by
  unfold setSpaceStop
  exact .ite h h.updDie.raiseInt

protected theorem Kept.shrink {d : DieId} (h : Kept s0 s) : Kept s0 (shrink s d) := by
  unfold shrink
  extract_lets _ s1
  have hs1 : Kept s0 s1 := h.updDie
  exact .ite hs1.setSpaceStop.raiseInt h.setSpaceStop

protected theorem Kept.reportReadOnly {d : DieId} (h : Kept s0 s) : Kept s0 (reportReadOnly s d) := by
  unfold reportReadOnly
  exact .ite h h.updDie

protected theorem Kept.applyPolicy {d : DieId} (h : Kept s0 s) : Kept s0 (applyPolicy s d) := by
  unfold applyPolicy
  exact .ite h (.ite h.shrink h.reportReadOnly)

protected theorem Kept.fillRescue {d : DieId} (h : Kept s0 s) : Kept s0 (fillRescue s d) := by
  unfold fillRescue
  extract_lets s1
  have hs1 : Kept s0 s1 := h.refillRescue
  exact .ite hs1 hs1.applyPolicy

protected theorem Kept.takeSys {d : DieId} {purpose n : Nat} (h : Kept s0 s) (e : takeSys s d purpose = some (n, t)) :
    Kept s0 t := by
  unfold takeSys at e
  obtain ⟨⟨m, x⟩, hx, ⟨⟩⟩ := Option.map_eq_some_iff.1 e
  exact (h.fillRescue.setDieOf (takeFree_mem hx)).applyPolicy

protected theorem Kept.ensureJournal {d : DieId} (h : Kept s0 s) : Kept s0 (ensureJournal s d) := by
  unfold ensureJournal
  extract_lets
  refine .ite h ?_
  split
  · exact h
  · next x g s1 e =>
      have hs1 : Kept s0 s1 := h.takeSys e
      exact hs1.updDie

protected theorem Kept.retryShrink {d : DieId} (h : Kept s0 s) : Kept s0 (retryShrink s d) := by
  unfold retryShrink
  exact .ite h.shrink h

/-! ### Pages -/

protected theorem Kept.mapGroup {d : DieId} {g : Group} (h : Kept s0 s) (e : mapGroup s d = some (g, t)) : Kept s0 t := by
  unfold mapGroup at e
  split at e
  · cases e
    exact h
  · obtain ⟨⟨n, u⟩, hu, e⟩ := Option.bind_eq_some_iff.1 e
    obtain ⟨g, hg, ⟨⟩⟩ := Option.map_eq_some_iff.1 e
    exact h.takeSys hu

protected theorem Kept.writePage {d : DieId} {id : PageId} {jseq : Nat} {body : MapBody} {l : BitVec 56} (h : Kept s0 s)
    (e : writePage s d id jseq body = some (l, t)) : Kept s0 t := by
  obtain ⟨⟨g, u⟩, hu, ⟨⟩⟩ := Option.map_eq_some_iff.1 e
  exact (h.mapGroup hu).updDie

protected theorem Kept.writeChain {d : DieId} {id : PageId} {jseq : Nat} {bs : List MapBody} {r : List (BitVec 56)}
    (h : Kept s0 s) (e : writeChain s d id jseq bs = some (r, t)) : Kept s0 t := by
  induction bs generalizing t r with
  | nil =>
    cases e
    exact h
  | cons b bs ih =>
    unfold writeChain at e
    split at e
    · cases e
    · next q hq =>
      obtain ⟨p, hp, ⟨⟩⟩ := Option.map_eq_some_iff.1 e
      exact (ih hq).writePage hp

@[simp] theorem markParent_mem (d : DieId) (jseq : Nat) (id : PageId) (x : Die) : (markParent d jseq id x).mem = x.mem := by
  simp [markParent]

protected theorem Kept.writePlace {d : DieId} {p : PageAt} (h : Kept s0 s) (e : writePlace s d p = some t) : Kept s0 t := by
  obtain ⟨r, hr, ⟨⟩⟩ := Option.map_eq_some_iff.1 e
  exact (h.writeChain hr).updDieOf (by simp)

/-- A fold that stops at the first failure. -/
theorem Kept.foldl_bind {α : Type} {f : State → α → Option State} {l : List α} {o : Option State}
    (h : ∀ u ∈ o, Kept s0 u) (hf : ∀ u a v, Kept s0 u → f u a = some v → Kept s0 v)
    (e : l.foldl (fun o a => o.bind (fun u => f u a)) o = some t) :
    Kept s0 t := by
  induction l generalizing o with
  | nil => exact h t e
  | cons a l ih =>
    refine ih (fun u hu => ?_) e
    obtain ⟨v, hv, hu⟩ := Option.bind_eq_some_iff.1 hu
    exact hf v a u (h v hv) hu

protected theorem Kept.writeLevel {d : DieId} {tables : Bool} {level : Nat} (h : Kept s0 s)
    (e : writeLevel d tables s level = some t) : Kept s0 t :=
  Kept.foldl_bind (by rintro u ⟨⟩; exact h) (fun _ _ _ hu e => hu.writePlace e) e

protected theorem Kept.writeTrees {d : DieId} {tables : Bool} (h : Kept s0 s) (e : writeTrees s d tables = some t) :
    Kept s0 t :=
  Kept.foldl_bind (by rintro u ⟨⟩; exact h) (fun _ _ _ hu e => hu.writeLevel e) e

protected theorem Kept.writeMap {d : DieId} (h : Kept s0 s) (e : writeMap s d = some t) : Kept s0 t := by
  obtain ⟨u, hu, e⟩ := Option.bind_eq_some_iff.1 e
  exact ((h.writeTrees hu).updDieOf (by simp)).writeTrees e

protected theorem Kept.releaseSys {d : DieId} {n : Nat} (h : Kept s0 s) : Kept s0 (releaseSys s d n) := h.updDie

protected theorem Kept.dropPages {d : DieId} (h : Kept s0 s) : Kept s0 (dropPages s d) := by
  unfold dropPages
  extract_lets _ _ s1
  have hs1 : Kept s0 s1 := h.updDieOf (by simp)
  exact hs1.foldl (fun _ _ hu => hu.releaseSys)

protected theorem Kept.dropJournal {d : DieId} {jseq : Nat} (h : Kept s0 s) : Kept s0 (dropJournal s d jseq) := by
  unfold dropJournal
  extract_lets _ s1
  have hs1 : Kept s0 s1 := h.foldl (fun _ _ hu => hu.releaseSys)
  exact hs1.updDie

protected theorem Kept.evictPage {d : DieId} {p : MapPage} (h : Kept s0 s) : Kept s0 (evictPage d s p) := by
  unfold evictPage
  refine .ite ?_ h
  cases e : writePlace s d (placeAt (s.die d) (pageIdOf p)) with
  | none => exact h
  | some t => exact h.writePlace e

protected theorem Kept.pageIn {d : DieId} {tenant nsid index : Nat}
    (h : Kept s0 s) : Kept s0 (pageIn s d tenant nsid index) := by
  unfold pageIn
  extract_lets _ _ _ s1
  have hs1 : Kept s0 s1 := h.foldl (fun _ _ hu => hu.evictPage)
  exact hs1.updDie

protected theorem Kept.mapTouch {d : DieId} {c : Cmd} {index : Nat} (h : Kept s0 s) : Kept s0 (mapTouch s d c index) := by
  unfold mapTouch
  dsimp only
  refine .ite (Kept.pageIn ?_) (.ite h (h.foldl fun _ _ hu => hu.regBump.queueOp))
  split
  · exact .ite h h.regBump
  · exact h

protected theorem Kept.touchAll {d : DieId} {c : Cmd} {l : List Nat} (h : Kept s0 s) : Kept s0 (touchAll s d c l) :=
  h.foldl (fun _ _ hu => hu.mapTouch)

protected theorem Kept.withPages {d : DieId} {c : Cmd} {l : List Nat} {f : State → Cmd → State}
    (h : Kept s0 s) (hf : ∀ t x1, Kept s0 t → Kept s0 (f t x1)) : Kept s0 (withPages s d c l f) := by
  unfold withPages
  exact .ite (hf _ _ h.touchAll) h.touchAll.putCmd

/-! ### Map -/

protected theorem Kept.endQuiet {d : DieId} {c : Cmd} (h : Kept s0 s) : Kept s0 (endQuiet s d c) := h.fail

protected theorem Kept.exhaust {d : DieId} {c : Cmd} (h : Kept s0 s) : Kept s0 (exhaust s d c) := h.fail.regBump.raiseInt

protected theorem Kept.queuePrograms {d : DieId} {g : Machine.Group} {page run sid : Nat} {src : OpFrom}
    {fills : Nat → List (Nat × Nat)} (h : Kept s0 s) : Kept s0 (queuePrograms s d g page run sid src fills) :=
  h.foldl (fun _ _ hu => hu.queueOp.updDie)

protected theorem Kept.addStripe {d : DieId} {g : Machine.Group} {first count : Nat} {l : List RingEntry} {forager : Bool}
    (h : Kept s0 s) : Kept s0 (addStripe s d g first count l forager) := by
  unfold addStripe
  extract_lets _ _ _ _ _ s1
  have hs1 : Kept s0 s1 := h.updDie
  exact hs1.queuePrograms

protected theorem Kept.openFor {d : DieId} {qlc copy : Bool} {g : Machine.Group} (h : Kept s0 s)
    (e : openFor s d qlc copy = some (g, t)) : Kept s0 t := by
  rw [openFor] at e
  obtain ⟨u, hu, hd⟩ : ∃ u, Kept s0 u ∧ fillRescue s d = u := ⟨_, h.fillRescue, rfl⟩
  rw [hd] at e
  split at e
  · cases e
    exact h
  · dsimp only at e
    split at e
    · cases e
    · next hx =>
      obtain ⟨g, hg, ⟨⟩⟩ := Option.map_eq_some_iff.1 e
      exact hu.setDieOf (takeFree_mem hx)

protected theorem Kept.packStripe {d : DieId} (h : Kept s0 s) : Kept s0 (packStripe s d) := by
  unfold packStripe
  split
  · exact h
  · extract_lets
    split
    · exact h
    · next x g s1 e =>
        have hs1 : Kept s0 s1 := h.openFor e
        extract_lets _ _ _ _ s2
        have hs2 : Kept s0 s2 := hs1.updDie
        exact hs2.addStripe

@[simp] theorem addStored_mem (x : Die) (r : Stored) : (addStored x r).mem = x.mem := by rfl

protected theorem Kept.drainRecord {d : DieId} {e : RingEntry} {r : Rec} {key : Bytes} {htag : BitVec 64} {bucket : Nat}
    (h : Kept s0 s) : Kept s0 (drainRecord s d e r key htag bucket) := by
  unfold drainRecord
  extract_lets loc len s1
  have hs1 : Kept s0 s1 := by
    refine h.updDieOf fun x => ?_
    simp
  refine hs1.updDieOf fun x => ?_
  dsimp only
  cases kvOf x r.tenant r.nsid key <;> simp

protected theorem Kept.drainUnit {d : DieId} {e : RingEntry} {p : Blk × Extent}
    (h : Kept s0 s) : Kept s0 (drainUnit d e s p) := by
  unfold drainUnit
  exact h.updDieOf (by simp)

protected theorem Kept.drainRun {d : DieId} {e : RingEntry} {run : List (Blk × Extent)}
    (h : Kept s0 s) : Kept s0 (drainRun d e s run) := by
  unfold drainRun
  split
  · exact h
  · exact (h.updDieOf (by simp)).foldl (fun _ _ hu => hu.drainUnit)

@[simp] theorem drainErase_mem (x : Die) (t n : Nat) (key : Bytes) (htag : BitVec 64) (bucket version : Nat) (old : BitVec 56) :
    (drainErase x t n key htag bucket version old).mem = x.mem := by
  unfold drainErase
  dsimp only
  split <;> simp

@[simp] theorem drainTrim_mem (x : Die) (t n first count : Nat) : (drainTrim x t n first count).mem = x.mem := by
  simp [drainTrim]

@[simp] theorem unmapUnits_mem (x : Die) (tenant nsid first count : Nat) :
    (unmapUnits x tenant nsid first count).mem = x.mem := by
  simp [unmapUnits]

@[simp] theorem deleteEntry_mem (x : Die) (t n : Nat) (key : Bytes) (h1 : BitVec 128) (version : Nat) :
    (deleteEntry x t n key h1 version).mem = x.mem := by
  unfold deleteEntry
  split <;> simp

protected theorem Kept.drainWrite {d : DieId} {e : RingEntry} (h : Kept s0 s) : Kept s0 (drainWrite s d e).1 := by
  unfold drainWrite
  have hv (n : Nat) : (if e.through.isSome then takeVersion (s.die d) else (n, s.die d)).2.mem = (s.die d).mem := by
    split
    · exact takeVersion_mem _
    · rfl
  split
  · exact (h.setDieOf (hv _)).drainRecord
  · exact h.foldl fun _ _ hu => hu.drainRun
  · refine h.setDieOf ?_
    simp only [drainErase_mem, ite_mem, deleteEntry_mem, hv, ite_self]
  · dsimp only
    refine h.updDieOf fun x => ?_
    simp

protected theorem Kept.freed {d : DieId} {p : Payload} (h : Kept s0 s) : Kept s0 (freed s d p) := by
  unfold freed
  split
  · exact h.retryShrink
  · exact h.retryShrink
  · exact h

protected theorem Kept.ackThrough {d : DieId} {e : RingEntry} {version : Nat}
    (h : Kept s0 s) : Kept s0 (ackThrough s d e version) := by
  unfold ackThrough
  split
  · exact h
  · refine .ite h ?_
    split
    · exact h
    · exact h.freed.complete

protected theorem Kept.drainRing {n : Nat} {d : DieId} (h : Kept s0 s) : Kept s0 (drainRing n s d) := by
  induction n generalizing s d with
  | zero =>
    exact h
  | succ n ih =>
    unfold drainRing
    split
    · exact h
    · extract_lets r
      have hr : Kept s0 r.1 := h.updDie.drainWrite
      exact .ite (ih hr.ackThrough) h

@[simp] theorem ringPush_mem (x : Die) (p : Payload) (dirty : Nat) (through : Option Nat) :
    (ringPush x p dirty through).mem = x.mem :=
  by rfl

@[simp] theorem putEntry_mem (x : Die) (c : Cmd) (bucket version addr stLen : Nat) :
    (putEntry x c bucket version addr stLen).mem = x.mem := by
  unfold putEntry
  dsimp only
  split <;> simp

protected theorem Kept.writeThrough {d : DieId} {c : Cmd} (h : Kept s0 s) : Kept s0 (writeThrough s d c) := h.regBump.putCmd

protected theorem Kept.admitPut {d : DieId} {c : Cmd} {n : NsEntry} {k : DataSlot} {through : Bool} (h : Kept s0 s) :
    Kept s0 (admitPut s d c n k through) := by
  unfold admitPut
  extract_lets s x v r _ y addr p z z2
  have hs : Kept s0 s := h.cryBlocks
  have hv : v.2.mem = x.mem := by
    unfold v
    split
    · rfl
    · exact takeVersion_mem x
  have hz : z2.mem = x.mem := by simpa [z2, z, y] using hv
  exact .ite (hs.setDieOf (by simpa using hv)).writeThrough (hs.setDieOf hz).complete

protected theorem Kept.admitDelete {d : DieId} {c : Cmd} {through : Bool}
    (h : Kept s0 s) : Kept s0 (admitDelete s d c through) := by
  unfold admitDelete
  split
  · exact h.fail
  · exact .ite h.updDie.writeThrough (((h.setDieOf (by simp)).retryShrink).complete)

@[simp] theorem blockEntries_mem (x : Die) (wid : Nat) (bs : List Blk) : (blockEntries x wid bs).mem = x.mem := by
  simp [blockEntries]

protected theorem Kept.admitWrite {d : DieId} {c : Cmd} {n : NsEntry} {k : DataSlot} {through : Bool}
    (h : Kept s0 s) : Kept s0 (admitWrite s d c n k through) := by
  unfold admitWrite
  extract_lets _ s'
  have hs' : Kept s0 s' := h.cryUnits
  exact .ite hs'.fail (.ite (hs'.setDieOf (by rfl)).writeThrough ((hs'.setDieOf (by simp +zetaDelta)).complete))

protected theorem Kept.trimAdmitted {d : DieId} {c : Cmd} {through : Bool}
    (h : Kept s0 s) : Kept s0 (trimAdmitted s d c through) := by
  unfold trimAdmitted
  exact .ite h.writeThrough h.retryShrink.complete

protected theorem Kept.admitTrim {d : DieId} {c : Cmd} {n : NsEntry} {through : Bool}
    (h : Kept s0 s) : Kept s0 (admitTrim s d c n through) := by
  unfold admitTrim
  extract_lets
  refine .ite ((h.setDieOf (by simp +zetaDelta)).trimAdmitted) ?_
  split
  · exact h.endQuiet
  · exact ((h.setDieOf (by simp +zetaDelta)).cryUnits).trimAdmitted

protected theorem Kept.reserveWait {d : DieId} {k : DataSlot} (h : Kept s0 s) : Kept s0 (reserveWait s d k) := h.recordErr

protected theorem Kept.admitNow {d : DieId} {c : Cmd} {through : Bool}
    (h : Kept s0 s) : Kept s0 (admitNow s d c through) := by
  unfold admitNow
  refine .ite h.admitDelete ?_
  split
  · exact h.fail
  · refine .ite h.admitTrim ?_
    refine .ite ?_ ?_
    · split
      · exact h.endQuiet
      · exact .ite h.exhaust (.ite h.reserveWait h.admitWrite)
    · refine .ite h.endQuiet ?_
      split
      · exact h.updDie.exhaust
      · exact h.reserveWait
      · exact h.admitPut

protected theorem Kept.endWait {d : DieId} (h : Kept s0 s) : Kept s0 (endWait s d) := by
  unfold endWait
  exact .ite h.updDie.recordEvent h

protected theorem Kept.beginWait {d : DieId} (h : Kept s0 s) : Kept s0 (beginWait s d) := by
  unfold beginWait
  exact .ite h h.updDie.raiseInt

protected theorem Kept.nectarAdmit {d : DieId} (h : Kept s0 s) : Kept s0 (nectarAdmit s d) := by
  unfold nectarAdmit
  split
  · exact h
  · split
    · exact h.endWait.fail
    · exact .ite h.endWait.admitNow (.ite h.endWait.admitNow h.beginWait)

protected theorem Kept.finishWrites {d : DieId} (h : Kept s0 s) : Kept s0 (finishWrites s d) :=
  h.foldl (fun _ _ hu => hu.nectarAdmit)

protected theorem Kept.execNectarAdmit {d : DieId} (h : Kept s0 s) : OutKept s0 (execNectarAdmit d s) :=
  (h.onBlock (fun _ hu => .ite hu hu.nectarAdmit)).out

/-! ### KvCommands -/

protected theorem Kept.takeData {d : DieId} {c : Cmd} (h : Kept s0 s) : Kept s0 (takeData s d c) := by
  unfold takeData
  exact .ite h.putCmd h.putCmd

protected theorem Kept.afterLookup {d : DieId} {c : Cmd} {f : State → Cmd → State}
    (h : Kept s0 s) (hf : ∀ t x1, Kept s0 t → Kept s0 (f t x1)) : Kept s0 (afterLookup s d c f) := by
  unfold afterLookup
  exact .ite h.fail (h.withPages hf)

protected theorem Kept.execPut {d : DieId} {cid : Nat} (h : Kept s0 s) : OutKept s0 (execPut d cid s) := by
  unfold execPut
  apply Kept.out
  refine h.onCmd (fun u c hu => ?_)
  refine hu.afterLookup (fun u_1 c hw => ?_)
  split
  · exact hw.fail
  · exact hw.takeData

protected theorem Kept.execDelete {d : DieId} {cid : Nat} (h : Kept s0 s) : OutKept s0 (execDelete d cid s) := by
  unfold execDelete
  apply Kept.out
  refine h.onCmd (fun u c hu => ?_)
  refine hu.afterLookup (fun u_1 c hw => ?_)
  split
  · exact hw.fail
  · exact hw.putCmd

protected theorem Kept.execWrite {d : DieId} {cid : Nat} (h : Kept s0 s) : OutKept s0 (execWrite d cid s) := by
  unfold execWrite
  apply Kept.out
  refine h.onCmd (fun u c hu => ?_)
  refine hu.afterLookup (fun u_1 c hw => ?_)
  split
  · exact hw.fail
  · exact hw.takeData

protected theorem Kept.execTrim {d : DieId} {cid : Nat} (h : Kept s0 s) : OutKept s0 (execTrim d cid s) :=
  (h.onCmd (fun _ _ hu => hu.afterLookup (fun _ _ hw => .ite hw.fail (.ite hw.fail hw.putCmd)))).out

protected theorem Kept.answerStat {d : DieId} {c : Cmd} {version len : Nat}
    (h : Kept s0 s) : Kept s0 (answerStat s d c version len) :=
  h.complete

protected theorem Kept.answerValue {d : DieId} {c : Cmd} {version : Nat} {value : Bytes}
    (h : Kept s0 s) : Kept s0 (answerValue s d c version value) := by
  unfold answerValue
  exact .ite h.answerStat (.ite h.complete h.fail)

protected theorem Kept.answerRec {d : DieId} {c : Cmd} {r : Rec} {bad : Bool}
    (h : Kept s0 s) : Kept s0 (answerRec s d c r bad) := by
  unfold answerRec
  extract_lets s1
  have hs1 : Kept s0 s1 := h.cryBlocks
  refine .ite h.endQuiet ?_
  refine .ite h.fail ?_
  split
  · exact hs1.fail
  · exact hs1.answerValue

protected theorem Kept.queueReads {d : DieId} {c : Cmd} {pages : List (BitVec 56 × Nat)}
    (h : Kept s0 s) : Kept s0 (queueReads s d c pages) :=
  h.foldl (fun _ _ hu => hu.queueOp)

protected theorem Kept.countHit {d : DieId} {c : Cmd} (h : Kept s0 s) : Kept s0 (countHit s d c) := h.regBump.updDie

protected theorem Kept.goLookup {d : DieId} {c : Cmd} (h : Kept s0 s) : Kept s0 (goLookup s d c) := h.touchAll.putCmd

protected theorem Kept.countMiss {d : DieId} {c : Cmd} (h : Kept s0 s) : Kept s0 (countMiss s d c) := h.regBump.goLookup

protected theorem Kept.runAhead {d : DieId} {c : Cmd} {version : Nat} {l : BitVec 56}
    (h : Kept s0 s) : Kept s0 (runAhead s d c version l) := by
  unfold runAhead
  extract_lets _ s1
  have hs1 : Kept s0 s1 := h.queueOp
  exact hs1.regBump.goLookup

protected theorem Kept.serveSlot {d : DieId} {c : Cmd} {n : Nat} (h : Kept s0 s) : Kept s0 (serveSlot s d c n) := by
  unfold serveSlot
  extract_lets s1
  have hs1 : Kept s0 s1 := h.countHit.updDie
  split
  · exact h.countMiss
  · exact .ite hs1.regBump.answerRec h.countMiss

protected theorem Kept.serveNectar {d : DieId} {c : Cmd} {addr : Nat} (h : Kept s0 s) : Kept s0 (serveNectar s d c addr) := by
  unfold serveNectar
  split
  · exact h.countMiss
  · exact h.countHit.answerRec

protected theorem Kept.hotSearch {d : DieId} {c : Cmd} (h : Kept s0 s) : Kept s0 (hotSearch s d c) := by
  unfold hotSearch
  extract_lets _ s1
  have hs1 : Kept s0 s1 := h.updDie
  split
  · exact h.countMiss
  · exact .ite hs1.regBump.raiseInt.countMiss (.ite h.serveSlot (.ite h.serveNectar
      (.ite h.countHit.runAhead (.ite h.countHit.goLookup h.countMiss))))

protected theorem Kept.execGet {d : DieId} {cid : Nat} (h : Kept s0 s) : OutKept s0 (execGet d cid s) :=
  (h.onCmd (fun _ _ hu => hu.hotSearch)).out

protected theorem Kept.execStat {d : DieId} {cid : Nat} (h : Kept s0 s) : OutKept s0 (execStat d cid s) :=
  (h.onCmd (fun _ _ hu => hu.hotSearch)).out

protected theorem Kept.squash {d : DieId} {c : Cmd} (h : Kept s0 s) : Kept s0 (squash s d c) := by
  unfold squash
  split
  · exact h
  · extract_lets _ s1 s2
    have hs1 : Kept s0 s1 := h.updDie
    have hs2 : Kept s0 s2 := hs1.regBump.recordEvent
    exact .ite hs2.chargeRead hs2

protected theorem Kept.lookupFail {d : DieId} {c : Cmd} {status : Nat} (h : Kept s0 s) : Kept s0 (lookupFail s d c status) :=
  h.squash.fail

protected theorem Kept.cacheFill {d : DieId} {c : Cmd} {r : Rec} {loc : BitVec 56}
    (h : Kept s0 s) : Kept s0 (cacheFill s d c r loc) := by
  unfold cacheFill
  exact .ite h.slotFill h

protected theorem Kept.recordRead {d : DieId} {c : Cmd} {q : Stored} {r : Rec}
    (h : Kept s0 s) : Kept s0 (recordRead s d c q r) := by
  unfold recordRead
  extract_lets _ s1
  have hs1 : Kept s0 s1 := .ite h h.cacheFill
  exact .ite hs1.answerStat hs1.answerRec

protected theorem Kept.readAt {d : DieId} {c : Cmd} {e : BEntry} (h : Kept s0 s) : Kept s0 (readAt s d c e) := by
  unfold readAt
  extract_lets _ s1 s2
  have hs1 : Kept s0 s1 := .ite h h.squash
  have hs2 : Kept s0 s2 := .ite hs1.hotInsert hs1
  exact hs2.putCmd.queueReads

protected theorem Kept.tryEntry {n : Nat} {d : DieId} {c : Cmd} (h : Kept s0 s) : Kept s0 (tryEntry n s d c) := by
  induction n generalizing s d c with
  | zero =>
    exact h.lookupFail
  | succ n ih =>
    unfold tryEntry
    extract_lets
    split
    · exact h.lookupFail
    · extract_lets s1
      have hs1 : Kept s0 s1 := h.squash.hotInsert
      refine .ite ?_ h.readAt
      refine .ite (ih h) ?_
      split
      · exact hs1.fail
      · exact hs1.answerRec

protected theorem Kept.finishRead {d : DieId} {c : Cmd} (h : Kept s0 s) : Kept s0 (finishRead s d c) := by
  unfold finishRead
  extract_lets s1
  have hs1 : Kept s0 s1 := h.squash.tryEntry
  split
  · exact h.fail
  · split
    · exact h.fail
    · split
      · refine .ite h.recordRead ?_
        split
        · exact .ite hs1.fail hs1
        · exact hs1
      · exact h.fail

protected theorem Kept.lookupDone {d : DieId} {c : Cmd} (h : Kept s0 s) : Kept s0 (lookupDone s d c) := by
  unfold lookupDone
  extract_lets s1
  have hs1 : Kept s0 s1 := h.tryEntry
  split
  · exact .ite hs1.finishRead hs1
  · exact hs1

protected theorem Kept.execBucketLookupDone {d : DieId} {cid : Nat} {pageOk : Bool}
    (h : Kept s0 s) : OutKept s0 (execBucketLookupDone d cid pageOk s) := by
  unfold execBucketLookupDone
  apply Kept.out
  refine h.onDie (fun u hu => ?_)
  split
  · exact hu
  · exact .ite (.ite hu.lookupFail (.ite hu.lookupDone hu)) hu

protected theorem Kept.finishBlocks {d : DieId} {c : Cmd} (h : Kept s0 s) : Kept s0 (finishBlocks s d c) := by
  unfold finishBlocks
  exact .ite h.fail h.complete

protected theorem Kept.readBlocks {d : DieId} {c : Cmd} (h : Kept s0 s) : Kept s0 (readBlocks s d c) := by
  unfold readBlocks
  extract_lets
  split
  · exact h.fail
  · extract_lets
    split
    · exact h.endQuiet
    · extract_lets _ _ s2
      have hs2 : Kept s0 s2 := h.putCmd.cryUnits.queueReads
      exact .ite hs2.finishBlocks hs2

protected theorem Kept.execRead {d : DieId} {cid : Nat} (h : Kept s0 s) : OutKept s0 (execRead d cid s) :=
  (h.onCmd (fun _ _ hu => hu.afterLookup (fun _ _ hw => hw.readBlocks))).out

protected theorem Kept.readEnded {d : DieId} {cid : Nat} {ok : Bool} (h : Kept s0 s) : Kept s0 (readEnded s d cid ok) := by
  unfold readEnded
  split
  · exact h
  · exact .ite (.ite (.ite h.finishBlocks h.finishRead) h.putCmd) h

protected theorem Kept.runAheadEnded {d : DieId} {cid : Nat} {o : FlashOp} {ok : Bool}
    (h : Kept s0 s) : Kept s0 (runAheadEnded s d cid o ok) := by
  unfold runAheadEnded
  refine .ite h ?_
  split
  · exact h
  · refine .ite (.ite h.readEnded h.queueOp) ?_
    split
    · exact h
    · exact h.putCmd

/-! ### Roots -/

@[simp] theorem eraseAnchor_mem (x : Die) (b : Nat × Nat) : (eraseAnchor x b).mem = x.mem := by rfl

theorem rootPlace_mem {d : DieId} {g c page : Nat} {y : Die} (e : rootPlace s d = some (g, c, page, y)) :
    y.mem = (s.die d).mem := by
  unfold rootPlace at e
  dsimp only at e
  split at e
  · next r hr =>
    cases e
    split at hr
    · cases hr
    · split at hr
      · cases hr
        rfl
      · cases hr
  · obtain ⟨b, hb, e⟩ := Option.map_eq_some_iff.1 e
    cases e
    simp

protected theorem Kept.spaceChanged {was : Nat} {d : DieId} (h : Kept s0 s) : Kept s0 (spaceChanged was s d) := by
  unfold spaceChanged
  exact .ite h h.raiseInt

protected theorem Kept.writeRoot {d : DieId} {r : Root} (h : Kept s0 s) : Kept s0 (writeRoot s d r) := by
  unfold writeRoot
  split
  · exact h
  · next y hy =>
    have hm := rootPlace_mem hy
    extract_lets _ _ s1 s2
    have hs1 : Kept s0 s1 := h.setDieOf hm
    have hs2 : Kept s0 s2 := hs1.raiseInt.spaceChanged
    exact .ite hs2.recordErr hs2

protected theorem Kept.reRoot {d : DieId} {loss : Bool} (h : Kept s0 s) : Kept s0 (reRoot s d loss) := by
  unfold reRoot
  split
  · exact h.writeRoot
  · exact h.writeRoot

protected theorem Kept.checkpoint {d : DieId} (h : Kept s0 s) : Kept s0 (checkpoint s d) := by
  unfold checkpoint
  extract_lets s0' _ s1
  have hs0' : Kept s0 s0' := h.ensureJournal
  have hs1 : Kept s0 s1 := hs0'.updDie
  split
  · exact h.reRoot
  · next x s2 e =>
      have hs2 : Kept s0 s2 := hs1.writeMap e
      extract_lets _ s3
      have hs3 : Kept s0 s3 := hs2.writeRoot
      exact hs3.dropPages.dropJournal

protected theorem Kept.execCheckpoint {d : DieId} (h : Kept s0 s) : OutKept s0 (execCheckpoint d s) :=
  (h.onDie (fun _ hu => .ite hu.checkpoint hu)).out

protected theorem Kept.execMapCkptNow {r : Requester} {d : DieId} (h : Kept s0 s) : OutKept s0 (execMapCkptNow r d s) :=
  (h.byReq (fun _ hu => hu.rowWrite (fun _ hw => hw.updDie))).out

/-! ### Forager -/

protected theorem Kept.fgrReval {d : DieId} (h : Kept s0 s) : Kept s0 (fgrReval s d) := by
  unfold fgrReval
  extract_lets _ s1
  have hs1 : Kept s0 s1 := h.updDie
  exact .ite hs1.raiseInt hs1

protected theorem Kept.execFgrScore {d : DieId} (h : Kept s0 s) : OutKept s0 (execFgrScore d s) := by
  unfold execFgrScore
  apply Kept.out
  refine h.onDie (fun u hu => ?_)
  extract_lets s1
  have hs1 : Kept s0 s1 := hu.fgrReval
  refine .ite hs1 ?_
  split
  · exact hs1
  · exact hs1.updDie

theorem copyItem_mem {x y : Die} {d : DieId} {q : Stored} {lost : Bool} {p : Payload}
    (e : copyItem x d q lost = .fresh p y) : y.mem = x.mem := by
  unfold copyItem at e
  split at e
  · split at e
    · cases e
    · split at e
      · cases e
      · cases e
      · cases e
        rfl
  · cases e

theorem copyItems_mem (s : State) (d : DieId) (c : Copies) (q : Stored) : (copyItems s d c q).die.mem = c.die.mem := by
  unfold copyItems
  split
  · rfl
  · split
    · rfl
    · dsimp only
      split
      · simp
      · rfl
    · next e => exact copyItem_mem e

theorem foldl_copyItems_mem (s : State) (d : DieId) (c : Copies) (l : List Stored) :
    (l.foldl (copyItems s d) c).die.mem = c.die.mem := by
  induction l generalizing c with
  | nil => rfl
  | cons q l ih => exact (ih _).trans (copyItems_mem s d c q)

protected theorem Kept.placeCopies {qlcOf : RingEntry → Bool} {n : Nat} {d : DieId} {l r : List RingEntry} (h : Kept s0 s)
    (e : placeCopies qlcOf n s d l = some (t, r)) : Kept s0 t := by
  induction n generalizing s l with
  | zero =>
    cases e
    exact h
  | succ n ih =>
    unfold placeCopies at e
    split at e
    · cases e
      exact h
    · split at e
      · cases e
      · next hg =>
        dsimp only at e
        split at e
        · cases e
        · exact ih (h.openFor hg).updDie.addStripe e

protected theorem Kept.readVictim {d : DieId} {g : Machine.Group} (h : Kept s0 s) : Kept s0 (readVictim s d g) :=
  (h.foldl (fun _ _ hu => hu.queueOp)).updDie

protected theorem Kept.copyBlocks {d : DieId} {m : Move} (h : Kept s0 s) : Kept s0 (copyBlocks s d m) := by
  unfold copyBlocks
  split
  · exact .ite h.cryBlocks.cryBlocks (.ite h h.cryBlocks)
  · exact h

protected theorem Kept.copyVictim {d : DieId} {g : Machine.Group} (h : Kept s0 s) : Kept s0 (copyVictim s d g) := by
  unfold copyVictim
  extract_lets _ _ c s1
  have hc : c.die.mem = (s.die d).mem := foldl_copyItems_mem ..
  have hs1 : Kept s0 s1 := (h.setDieOf hc).foldl (fun _ _ hu => hu.copyBlocks)
  split
  · exact h.reserveWait
  · split
    · exact h.recordErr
    · next e =>
      have hs2 := hs1.placeCopies e
      extract_lets _ s3
      have hs3 : Kept s0 s3 := hs2.updDie
      exact (Kept.ite hs3 hs3.regBump.recordErr).fgrReval

protected theorem Kept.commitRecord {d : DieId} {m : Move} {r : Rec} {htag : BitVec 64} {bucket : Nat}
    (h : Kept s0 s) : Kept s0 (commitRecord s d m r htag bucket) := by
  unfold commitRecord
  extract_lets _ _ _ s1
  have hs1 : Kept s0 s1 := h.updDieOf (by simp)
  exact .ite hs1 hs1.regBump

protected theorem Kept.commitBlock {d : DieId} {m : Move} {b : Blk} (h : Kept s0 s) : Kept s0 (commitBlock s d m b) := by
  unfold commitBlock
  extract_lets _ _ _ s1
  have hs1 : Kept s0 s1 := h.updDieOf (by simp)
  exact .ite hs1 hs1.regBump

protected theorem Kept.commitMove {d : DieId} {m : Move} (h : Kept s0 s) : Kept s0 (commitMove s d m) := by
  unfold commitMove
  split
  · exact h.commitRecord
  · exact h.commitBlock
  · exact h

protected theorem Kept.commitVictim {d : DieId} {n : Nat} (h : Kept s0 s) : Kept s0 (commitVictim s d n) := by
  unfold commitVictim
  extract_lets s1
  have hs1 : Kept s0 s1 := h.foldl (fun _ _ hu => hu.commitMove)
  exact hs1.updDie

protected theorem Kept.execFgrReclaim {d : DieId} (h : Kept s0 s) : OutKept s0 (execFgrReclaim d s) := by
  unfold execFgrReclaim
  apply Kept.out
  refine h.onDie (fun u hu => ?_)
  split
  · exact hu
  · refine .ite hu ?_
    split
    · exact hu
    · exact .ite hu.readVictim (.ite hu.copyVictim (.ite hu.commitVictim hu))

protected theorem Kept.execCmbDrainFence {d : DieId} (h : Kept s0 s) : OutKept s0 (execCmbDrainFence d s) :=
  (h.onDie (fun _ hu => .ite hu.updDie hu)).out

protected theorem Kept.retireBlock {d : DieId} {n chan : Nat} (h : Kept s0 s) : Kept s0 (retireBlock s d n chan) := by
  unfold retireBlock
  extract_lets s1 s2 s3
  have hs1 : Kept s0 s1 := h.updDie
  have hs2 : Kept s0 s2 := hs1.regBump.recordEvent.raiseInt
  have hs3 : Kept s0 s3 := by
    unfold s3
    split
    · exact hs2
    · exact .ite hs2.regBump.updDie hs2
  exact hs3.applyPolicy

protected theorem Kept.endVictim {d : DieId} (h : Kept s0 s) : Kept s0 (endVictim s d) := h.updDie.fgrReval

protected theorem Kept.queueErases {d : DieId} {g : Machine.Group} (h : Kept s0 s) : Kept s0 (queueErases s d g) :=
  h.foldl (fun _ _ hu => hu.queueOp)

protected theorem Kept.eraseGroup {d : DieId} {n : Nat} (h : Kept s0 s) : Kept s0 (eraseGroup s d n) := by
  unfold eraseGroup
  extract_lets s1 s2 s3
  have hs1 : Kept s0 s1 := h.updDie
  have hs2 : Kept s0 s2 := by
    unfold s2
    split
    · exact hs1
    · exact hs1.foldl (fun _ _ hu => hu.retireBlock)
  have hs3 : Kept s0 s3 := hs2.updDie
  split
  · exact hs3
  · exact .ite hs3 (.ite hs3.regBump.updDie.applyPolicy hs3.queueErases)

protected theorem Kept.execFgrEraseStart {d : DieId} (h : Kept s0 s) : OutKept s0 (execFgrEraseStart d s) := by
  unfold execFgrEraseStart
  apply Kept.out
  refine h.onDie (fun u hu => ?_)
  split
  · exact hu
  · extract_lets s1
    have hs1 : Kept s0 s1 := hu.eraseGroup
    exact .ite (.ite hs1.endVictim hs1.updDie) hu

protected theorem Kept.eraseDone {d : DieId} {g : Machine.Group} (h : Kept s0 s) : Kept s0 (eraseDone s d g) := by
  unfold eraseDone
  extract_lets _ s1 s2 s3
  have hs1 : Kept s0 s1 := h.updDie
  have hs2 : Kept s0 s2 := .ite hs1.raiseInt hs1
  have hs3 : Kept s0 s3 := hs2.fillRescue
  exact .ite hs3.endVictim hs3.fgrReval

protected theorem Kept.execPackerStripe {d : DieId} (h : Kept s0 s) : OutKept s0 (execPackerStripe d s) :=
  (h.onDie (fun _ hu => .ite hu.drainRing hu.packStripe.fgrReval.drainRing)).out

protected theorem Kept.execFgrRecount {r : Requester} {d : DieId} (h : Kept s0 s) : OutKept s0 (execFgrRecount r d s) :=
  (h.byReq (fun _ hu => hu.rowWrite (fun _ hw => hw.updDie))).out

@[simp] theorem recounted_mem (x : Die) : (recounted x).mem = x.mem := by
  simp [recounted]

protected theorem Kept.dropGen {tenant gen : Nat} (h : Kept s0 s) : Kept s0 (dropGen s tenant gen) :=
  (h.overDies (fun _ _ hu => hu.updDie)).journalDel

protected theorem Kept.execFgrRecountDone {d : DieId} (h : Kept s0 s) : OutKept s0 (execFgrRecountDone d s) := by
  unfold execFgrRecountDone
  apply Kept.out
  refine h.onDie (fun u hu => ?_)
  extract_lets s1
  have hs1 : Kept s0 s1 := hu.updDieOf (by simp)
  exact .ite ((hs1.foldl (fun _ _ hw => hw.dropGen)).raiseInt) hu

protected theorem Kept.execSlcTargetRecompute {d : DieId} (h : Kept s0 s) : OutKept s0 (execSlcTargetRecompute d s) :=
  (h.onDie (fun _ hu => hu.updDie)).out

protected theorem Kept.enterReadOnly {d : DieId} (h : Kept s0 s) : Kept s0 (enterReadOnly s d) := by
  unfold enterReadOnly
  extract_lets s1
  have hs1 : Kept s0 s1 := h.updDie
  exact .ite h.updDie hs1.checkpoint.raiseInt

protected theorem Kept.execReadOnlyEnter {d : DieId} (h : Kept s0 s) : OutKept s0 (execReadOnlyEnter d s) :=
  (h.onDie (fun _ hu => .ite (hu.overDies (fun _ _ hw => hw.enterReadOnly)) hu)).out

/-! ### Nand -/

@[simp] theorem updChan_mem (x : Die) (c : ChanId) (f : Chan → Chan) : (updChan x c f).mem = x.mem := by rfl

protected theorem Kept.sendNand {d : DieId} {c : ChanId} {l : List NandCmd} (h : Kept s0 s) : Kept s0 (sendNand s d c l) :=
  h.updDie

@[simp] theorem channelReset_mem (x : Die) (c : ChanId) : (channelReset x c).mem = x.mem := by rfl

protected theorem Kept.channelTrained {d : DieId} {c : ChanId} (h : Kept s0 s) : Kept s0 (channelTrained s d c) := by
  unfold channelTrained
  exact h.updDie

protected theorem Kept.trainChannels {d : DieId} (h : Kept s0 s) : Kept s0 (trainChannels s d) :=
  h.foldl (fun _ _ hu => .ite hu hu.sendNand.channelTrained)

/-! ### FlashChannels -/

@[simp] theorem updOp'_mem (x : Die) (n : Nat) (f : FlashOp → FlashOp) : (updOp' x n f).mem = x.mem := by rfl

@[simp] theorem dropOp_mem (x : Die) (n : Nat) : (dropOp x n).mem = x.mem := by rfl

protected theorem Kept.takeTokens {d : DieId} {o : FlashOp} (h : Kept s0 s) : Kept s0 (takeTokens s d o) := by
  unfold takeTokens
  exact h.updDie

protected theorem Kept.takeDues {d : DieId} {o : FlashOp} {l : List (OpKind × Nat)}
    (h : Kept s0 s) : Kept s0 (takeDues d o s l).1 := by
  induction l generalizing d o s with
  | nil =>
    exact h
  | cons x l ih =>
    unfold takeDues
    extract_lets
    split
    · exact ih h.takeTokens
    · exact h

protected theorem Kept.suspendLun {d : DieId} {o : FlashOp} (h : Kept s0 s) : Kept s0 (suspendLun s d o) := by
  unfold suspendLun
  refine .ite h ?_
  split
  · exact h
  · exact h.updDie.regBump

protected theorem Kept.issueOp {d : DieId} {o : FlashOp} (h : Kept s0 s) : Kept s0 (issueOp s d o) := by
  unfold issueOp
  extract_lets s1
  have hs1 : Kept s0 s1 := h.takeTokens.sendNand
  exact hs1.suspendLun.updDie

@[simp] theorem resumeLun_mem (x : Die) (o : FlashOp) : (resumeLun x o).mem = x.mem := by
  unfold resumeLun
  split <;> simp

protected theorem Kept.opGone {d : DieId} {o : FlashOp} (h : Kept s0 s) : Kept s0 (opGone s d o) := by
  unfold opGone
  exact h.sendNand.updDieOf (by simp)

protected theorem Kept.parkOp {d : DieId} {o : FlashOp} {l : Late} (h : Kept s0 s) : Kept s0 (parkOp s d o l) := h.updDie

protected theorem Kept.lunAnswered {d : DieId} {o : FlashOp} (h : Kept s0 s) : Kept s0 (lunAnswered s d o) := h.updDie

protected theorem Kept.meterProgram {d : DieId} {o : FlashOp} (h : Kept s0 s) : Kept s0 (meterProgram s d o) := by
  unfold meterProgram
  extract_lets s1
  have hs1 : Kept s0 s1 := h.foldl (fun _ _ hu => hu.meterAdd)
  exact .ite hs1.updDie hs1

protected theorem Kept.closeFull {d : DieId} {n : Nat} (h : Kept s0 s) : Kept s0 (closeFull s d n) := by
  unfold closeFull
  split
  · exact h
  · exact .ite h.updDie h

protected theorem Kept.stripeDone {d : DieId} {t1 : Stripe} (h : Kept s0 s) : Kept s0 (stripeDone s d t1) := by
  unfold stripeDone
  extract_lets s1 s2
  have hs1 : Kept s0 s1 := h.updDie
  have hs2 : Kept s0 s2 := hs1.closeFull
  exact hs2.drainRing

protected theorem Kept.memberDone {d : DieId} {o : FlashOp} (h : Kept s0 s) : Kept s0 (memberDone s d o) := by
  unfold memberDone
  split
  · exact h
  · exact .ite h.stripeDone h.updDie

@[simp] theorem dropStripe_mem (x : Die) (sid : Nat) : (dropStripe x sid).mem = x.mem := by rfl

protected theorem Kept.failGroup {d : DieId} {n chan : Nat} (h : Kept s0 s) : Kept s0 (failGroup s d n chan) := h.updDie

@[simp] theorem repack_mem (x : Die) (t : Stripe) : (repack x t).mem = x.mem := by rfl

@[simp] theorem recopy_mem (x : Die) : (recopy x).mem = x.mem := by
  simp [recopy]

protected theorem Kept.loseStripe {d : DieId} {t1 : Stripe} (h : Kept s0 s) : Kept s0 (loseStripe s d t1) :=
  h.updDieOf (by simp)

protected theorem Kept.programFail {d : DieId} {o : FlashOp} (h : Kept s0 s) : Kept s0 (programFail s d o) := by
  unfold programFail
  extract_lets s1 s2 s3
  have hs1 : Kept s0 s1 := h.failGroup
  have hs2 : Kept s0 s2 := by
    unfold s2
    split
    · exact hs1
    · exact hs1.loseStripe
  have hs3 : Kept s0 s3 := hs2.closeFull
  exact .ite hs3.regBump hs3

protected theorem Kept.execFlashProgramComplete {d : DieId} {op : Nat} {pass : Bool}
    (h : Kept s0 s) : OutKept s0 (execFlashProgramComplete d op pass s) := by
  unfold execFlashProgramComplete
  apply Kept.out
  refine h.onDie (fun u hu => ?_)
  split
  · exact hu
  · extract_lets s1
    have hs1 : Kept s0 s1 := hu.opGone.lunAnswered
    exact .ite (.ite hs1.meterProgram.memberDone hs1.programFail) hu

@[simp] theorem dropErases_mem (x : Die) (n : Nat) : (dropErases x n).mem = x.mem := by
  simp [dropErases]

protected theorem Kept.eraseEnded {d : DieId} {o : FlashOp} {ok : Bool} (h : Kept s0 s) : Kept s0 (eraseEnded s d o ok) := by
  unfold eraseEnded
  extract_lets _ s1
  have hs1 : Kept s0 s1 := (Kept.ite h h.retireBlock).updDieOf (by simp)
  refine .ite hs1 ?_
  split
  · exact hs1
  · exact .ite (.ite hs1.endVictim hs1.fgrReval) (.ite hs1.eraseDone hs1)

protected theorem Kept.unrecoverable {d : DieId} {o : FlashOp} (h : Kept s0 s) : Kept s0 (unrecoverable s d o) := by
  unfold unrecoverable
  extract_lets s1
  have hs1 : Kept s0 s1 := h.regBump.raiseInt
  exact hs1.recordErr

@[simp] theorem setSticky_mem (x : Die) (o : FlashOp) (e : Nat) : (setSticky x o e).mem = x.mem := by rfl

protected theorem Kept.readStages {d : DieId} {o : FlashOp} {r : ReadOutcome}
    (h : Kept s0 s) : Kept s0 (readStages s d o r) := by
  unfold readStages
  extract_lets ldc s1
  have hs1 : Kept s0 s1 := h.regBump.regBump.raiseInt
  split
  · exact h
  · exact h.regBump.regBump.updDie
  · exact h.regBump.regBump
  · exact .ite hs1.regBump hs1
  · exact h.regBump.unrecoverable
  · exact h

protected theorem Kept.rebuild {d : DieId} {o : FlashOp} (h : Kept s0 s) : Kept s0 (rebuild s d o).2 := by
  unfold rebuild
  extract_lets _ s1
  have hs1 : Kept s0 s1 := h.draw
  split
  · exact h
  · exact .ite hs1.regBump hs1
  · exact h

protected theorem Kept.pageEnded {d : DieId} {cid : Nat} {page : PageId} {ok : Bool} (h : Kept s0 s) :
    Kept s0 (pageEnded s d cid page ok) := by
  unfold pageEnded
  refine .ite ?_ (.ite h ?_)
  · cases cmdOf (s.die d) cid with
    | none => exact h
    | some c => exact h.putCmd
  · split
    · exact h.pageIn
    · exact h

protected theorem Kept.readResult {d : DieId} {o : FlashOp} {ok : Bool} (h : Kept s0 s) : Kept s0 (readResult s d o ok) := by
  unfold readResult
  split
  · split
    · exact h
    · exact h.chargeRead.readEnded
  · refine .ite h ?_
    split
    · exact h
    · exact h.chargeRead.runAheadEnded
  · exact h.pageEnded
  · exact .ite h h.updDie
  · exact h

protected theorem Kept.rebuildEnded {d : DieId} {o : FlashOp} (h : Kept s0 s) : Kept s0 (rebuildEnded s d o) := by
  unfold rebuildEnded
  extract_lets r
  have hr : Kept s0 r.2 := h.rebuild
  exact (Kept.ite hr hr.unrecoverable).readResult

protected theorem Kept.endOp {d : DieId} {o : FlashOp} {a : Ending} (h : Kept s0 s) : Kept s0 (endOp s d o a) := by
  unfold endOp
  split
  · exact h.readStages.readResult
  · exact h.rebuildEnded
  · exact h.eraseEnded

protected theorem Kept.endLater {d : DieId} {o : FlashOp} {dues : List (OpKind × Nat)} {fin : Ending}
    (h : Kept s0 s) : Kept s0 (endLater s d o dues fin) := by
  unfold endLater
  extract_lets r
  have hr : Kept s0 r.1 := h.takeDues
  exact .ite hr.endOp hr.parkOp

protected theorem Kept.servedByRebuild {d : DieId} {o : FlashOp} (h : Kept s0 s) : Kept s0 (servedByRebuild s d o) := by
  unfold servedByRebuild
  split
  · exact h.readResult
  · exact h.endLater

protected theorem Kept.execFlashOpIssue {d : DieId} {op : Nat} (h : Kept s0 s) : OutKept s0 (execFlashOpIssue d op s) := by
  unfold execFlashOpIssue
  apply Kept.out
  refine h.onDie (fun u hu => ?_)
  split
  · exact hu
  · refine .ite ?_ hu
    split
    · exact .ite hu.updDie.endLater hu
    · exact .ite hu.issueOp hu

protected theorem Kept.execFlashEraseComplete {d : DieId} {op : Nat} {pass check1 check2 : Bool}
    (h : Kept s0 s) : OutKept s0 (execFlashEraseComplete d op pass check1 check2 s) := by
  unfold execFlashEraseComplete
  apply Kept.out
  refine h.onDie (fun u hu => ?_)
  split
  · exact hu
  · exact .ite hu.opGone.lunAnswered.endLater hu

protected theorem Kept.checkFault {d : DieId} {o : FlashOp} (h : Kept s0 s) : Kept s0 (checkFault s d o) := by
  unfold checkFault
  extract_lets s1
  have hs1 : Kept s0 s1 := h.sendNand.updDie
  exact hs1.regBump.raiseInt

protected theorem Kept.readDone {d : DieId} {o : FlashOp} {r : ReadOutcome} (h : Kept s0 s) : Kept s0 (readDone s d o r) := by
  unfold readDone
  exact .ite h (.ite h.readResult ((Kept.ite h h.sendNand).endLater))

protected theorem Kept.execFlashReadComplete {d : DieId} {op : Nat} {r : ReadOutcome}
    (h : Kept s0 s) : OutKept s0 (execFlashReadComplete d op r s) := by
  unfold execFlashReadComplete
  apply Kept.out
  refine h.onDie (fun u hu => ?_)
  split
  · exact hu
  · exact .ite (.ite (.ite hu.checkFault hu.opGone.regBump.raiseInt.servedByRebuild) hu.opGone.lunAnswered.readDone) hu

protected theorem Kept.execDegradedReadTimeout {d : DieId} {op : Nat}
    (h : Kept s0 s) : OutKept s0 (execDegradedReadTimeout d op s) := by
  unfold execDegradedReadTimeout
  apply Kept.out
  refine h.onDie (fun u hu => ?_)
  split
  · exact hu
  · exact .ite hu.opGone.regBump.servedByRebuild hu

protected theorem Kept.narrowGroups {d : DieId} {c : ChanId} {lun : Option (Nat × Nat)}
    (h : Kept s0 s) : Kept s0 (narrowGroups s d c lun) := by
  unfold narrowGroups
  extract_lets _ s1
  have hs1 : Kept s0 s1 := h.updDie
  exact hs1.foldl (fun _ _ hu => hu.regBump.updDie)

protected theorem Kept.closeUsers {d : DieId} {c : ChanId} {lun : Option (Nat × Nat)}
    (h : Kept s0 s) : Kept s0 (closeUsers s d c lun) :=
  h.foldl (fun _ _ hu => hu.closeFull)

protected theorem Kept.afterRetire {d : DieId} {c : ChanId} {lun : Option (Nat × Nat)}
    (h : Kept s0 s) : Kept s0 (afterRetire s d c lun) := by
  unfold afterRetire
  extract_lets _ s1 s2 _ s3 s4
  have hs1 : Kept s0 s1 := h.foldl (fun _ _ hu => hu.loseStripe)
  have hs2 : Kept s0 s2 := hs1.narrowGroups.updDie
  have hs3 : Kept s0 s3 := hs2.foldl (fun _ _ hu => hu.eraseEnded)
  have hs4 : Kept s0 s4 := hs3.closeUsers
  exact .ite hs4.applyPolicy.fgrReval hs4

protected theorem Kept.retireChannel {d : DieId} {c : ChanId} (h : Kept s0 s) : Kept s0 (retireChannel s d c) := by
  unfold retireChannel
  extract_lets s1 s2
  have hs1 : Kept s0 s1 := h.updDie
  have hs2 : Kept s0 s2 := hs1.journalPut.raiseInt.recordEvent
  exact .ite h hs2.afterRetire

protected theorem Kept.retireLun {d : DieId} {c : ChanId} {ce lun : Nat}
    (h : Kept s0 s) : Kept s0 (retireLun s d c ce lun) := by
  unfold retireLun
  extract_lets s1 s2
  have hs1 : Kept s0 s1 := h.updDie
  have hs2 : Kept s0 s2 := hs1.journalPut.raiseInt.recordEvent
  exact .ite h hs2.afterRetire

protected theorem Kept.refuseLun {d : DieId} {c : ChanId} {k : Nat} (h : Kept s0 s) : Kept s0 (refuseLun s d c k) := by
  unfold refuseLun
  exact .ite h h.recordErr.retireLun

protected theorem Kept.identifyLuns {d : DieId} (h : Kept s0 s) : Kept s0 (identifyLuns s d) :=
  (h.foldl (fun _ _ hu => .ite hu.refuseLun hu)).trainChannels

protected theorem Kept.timedOut {d : DieId} {o : FlashOp} (h : Kept s0 s) : Kept s0 (timedOut s d o) := by
  unfold timedOut
  split
  · exact .ite h h.servedByRebuild
  · exact h.programFail
  · exact h.eraseEnded

protected theorem Kept.execLunTimeout {d : DieId} {op : Nat} (h : Kept s0 s) : OutKept s0 (execLunTimeout d op s) := by
  unfold execLunTimeout
  apply Kept.out
  refine h.onDie (fun u hu => ?_)
  split
  · exact hu
  · extract_lets _ _ s1 s2 s3
    have hs1 : Kept s0 s1 := hu.opGone.sendNand.updDie
    have hs2 : Kept s0 s2 := hs1.regBump.raiseInt
    have hs3 : Kept s0 s3 := hs2.recordErr.timedOut
    exact .ite (.ite hs3.retireLun hs3) hu

protected theorem Kept.execRbStuck {d : DieId} {l : RbLine} (h : Kept s0 s) : OutKept s0 (execRbStuck d l s) :=
  (h.onDie (fun _ hu => .ite hu hu.recordErr.retireChannel)).out

protected theorem Kept.repeatHeld {d : DieId} {c : ChanId} (h : Kept s0 s) : Kept s0 (repeatHeld s d c) := by
  unfold repeatHeld
  split
  · exact h
  · extract_lets s1
    have hs1 : Kept s0 s1 := h.updDie
    split
    · exact h
    · exact .ite h (.ite hs1.takeTokens.sendNand.updDie hs1)

protected theorem Kept.execChannelRetrainDone {d : DieId} {c : ChanId} {ok : Bool} {bad : List Nat}
    (h : Kept s0 s) : OutKept s0 (execChannelRetrainDone d c ok bad s) := by
  unfold execChannelRetrainDone
  apply Kept.out
  refine h.onDie (fun u hu => ?_)
  extract_lets _ s0' s1 s2
  have hs0' : Kept s0 s0' := hu.foldl (fun _ _ hw => hw.refuseLun)
  have hs1 : Kept s0 s1 := hs0'.sendNand.regBump.raiseInt
  have hs2 : Kept s0 s2 := hs1.updDie.recordErr
  exact .ite (.ite hs1.channelTrained.repeatHeld.updDie (.ite hs2.retireChannel hs2)) hu

protected theorem Kept.execTokenPeriod {d : DieId} (h : Kept s0 s) : OutKept s0 (execTokenPeriod d s) := by
  unfold execTokenPeriod
  apply Kept.out
  refine h.onDie (fun u hu => ?_)
  extract_lets _ _ _ s1 _ s2
  have hs1 : Kept s0 s1 := .ite hu hu.regBump.raiseInt
  have hs2 : Kept s0 s2 := hs1.same
  exact hs2.updDie

protected theorem Kept.execTokenAllocate (h : Kept s0 s) : OutKept s0 (execTokenAllocate s) := by
  unfold execTokenAllocate
  apply Kept.out
  refine h.onDie (fun u hu => ?_)
  extract_lets _ _ _ _ _ _ _ _ _ s1
  have hs1 : Kept s0 s1 := hu.same
  exact hs1.foldl (fun _ _ hw => hw.updDie)

/-! ### Idle -/

@[simp] theorem tickDie_mem (t : Nat) (x : Die) : (tickDie t x).mem = x.mem := by rfl

/-! ### Metering -/

protected theorem Kept.execDevtimeSync {d : DieId} {guardNow : Nat}
    (h : Kept s0 s) : OutKept s0 (execDevtimeSync d guardNow s) :=
  h.same.updDie.out

protected theorem Kept.wallMark (h : Kept s0 s) : Kept s0 (wallMark s) := h.journalPut

protected theorem Kept.execWallMark (h : Kept s0 s) : OutKept s0 (execWallMark s) := (h.onDie (fun _ hu => hu.wallMark)).out

protected theorem Kept.swapBanks {d : DieId} (h : Kept s0 s) : Kept s0 (swapBanks s d) := h.updDie

protected theorem Kept.nextMinute {loss : Bool} (h : Kept s0 s) : Kept s0 (nextMinute s loss) := h.same

protected theorem Kept.sealMinute {minute : Nat} (h : Kept s0 s) : Kept s0 (sealMinute s minute) := by
  unfold sealMinute
  extract_lets _ _ _ _ _ s1 s2 s3 s4 s5
  have hs1 : Kept s0 s1 := h.draw
  have hs2 : Kept s0 s2 := hs1.regSet.raiseInt
  have hs3 : Kept s0 s3 := .ite hs2 hs2.raiseInt
  have hs4 : Kept s0 s4 := .ite hs3.raiseInt hs3
  have hs5 : Kept s0 s5 := .ite hs4.recordErr hs4
  exact hs5.recordEvent

protected theorem Kept.sealPending (h : Kept s0 s) : Kept s0 (sealPending s) := by
  unfold sealPending
  split
  · exact h
  · exact h.sealMinute

protected theorem Kept.execMinuteBoundary (h : Kept s0 s) : OutKept s0 (execMinuteBoundary s) :=
  (h.onDie (fun _ hu => hu.sealPending.nextMinute.overDies (fun _ _ hw => hw.swapBanks))).out

protected theorem Kept.execMeterPartial {d : DieId} (h : Kept s0 s) : OutKept s0 (execMeterPartial d s) :=
  (h.onDie (fun _ hu => .ite hu.same.updDie hu)).out

protected theorem Kept.execMeterDieTimeout {d : DieId} (h : Kept s0 s) : OutKept s0 (execMeterDieTimeout d s) :=
  (Kept.ite h.same.updDie h).out

protected theorem Kept.execMeterSeal (h : Kept s0 s) : OutKept s0 (execMeterSeal s) :=
  (h.onDie (fun _ hu => .ite hu.sealPending hu)).out

protected theorem Kept.cutMinute (h : Kept s0 s) : Kept s0 (cutMinute s) := by
  unfold cutMinute
  exact .ite h.same h

protected theorem Kept.spillMeters {d : DieId} (h : Kept s0 s) : Kept s0 (spillMeters s d) := h.updDie

protected theorem Kept.loseCounts {d : DieId} (h : Kept s0 s) : Kept s0 (loseCounts s d) := by
  unfold loseCounts
  exact h.same.updDie

protected theorem Kept.takeSpill {d : DieId} (h : Kept s0 s) : Kept s0 (takeSpill s d) := h.updDie

protected theorem Kept.collectSpill (h : Kept s0 s) : Kept s0 (collectSpill s) := by
  unfold collectSpill
  split
  · exact h
  · exact h.foldl (fun _ _ hu => .ite hu hu.same)

protected theorem Kept.markMissing (h : Kept s0 s) : Kept s0 (markMissing s) := h.same

protected theorem Kept.dropSpill {d : DieId} (h : Kept s0 s) : Kept s0 (dropSpill s d) := h.updDie

protected theorem Kept.restartMinutes (h : Kept s0 s) : Kept s0 (restartMinutes s) := by
  unfold restartMinutes
  extract_lets s1 s2
  have hs1 : Kept s0 s1 := h.collectSpill.markMissing.sealPending
  have hs2 : Kept s0 s2 := hs1.nextMinute.collectSpill.markMissing.sealPending
  exact .ite (hs2.same.overDies (fun _ _ hu => hu.dropSpill)) hs1.same

protected theorem Kept.coldMinutes {marks : List Int} (h : Kept s0 s) : Kept s0 (coldMinutes s marks) := by
  unfold coldMinutes
  extract_lets _ _ _ _ s1
  have hs1 : Kept s0 s1 := h.same
  exact hs1.same

protected theorem Kept.execCapSample {d : DieId} (h : Kept s0 s) : OutKept s0 (execCapSample d s) :=
  (h.onDie (fun _ hu => hu.foldl (fun _ _ hw => hw.meterAdd))).out

protected theorem Kept.execLevelSample {d : DieId} (h : Kept s0 s) : OutKept s0 (execLevelSample d s) :=
  (h.onDie (fun _ hu => hu.updDie)).out

protected theorem Kept.latSelWrite {d : DieId} {v : Word} (h : Kept s0 s) : Kept s0 (latSelWrite s d v) :=
  h.rowWrite (fun _ hu => .ite hu.badValue (hu.storeReg.updDieOf (by intro; rfl)))

protected theorem Kept.execLatSel {r : Requester} {d : DieId} {v : Word} (h : Kept s0 s) : OutKept s0 (execLatSel r d v s) :=
  (h.byReq (fun _ hu => hu.latSelWrite)).out

protected theorem Kept.execEventRecord {d : DieId} {code : Byte} {value : Nat}
    (h : Kept s0 s) : OutKept s0 (execEventRecord d code value s) :=
  (h.onDie (fun _ hu => hu.recordEvent)).out

protected theorem Kept.execEvrRefill {d : DieId} (h : Kept s0 s) : OutKept s0 (execEvrRefill d s) :=
  (h.onDie (fun _ hu => hu.updDie)).out

protected theorem Kept.evrSelWrite {d : DieId} {v : Word} (h : Kept s0 s) : Kept s0 (evrSelWrite s d v) :=
  h.rowWrite (fun _ hu => hu.storeReg.updDieOf (by intro; rfl))

protected theorem Kept.execEvrSel {r : Requester} {d : DieId} {v : Word} (h : Kept s0 s) : OutKept s0 (execEvrSel r d v s) :=
  (h.byReq (fun _ hu => hu.evrSelWrite)).out

protected theorem Kept.evrClear {d : DieId} (h : Kept s0 s) : Kept s0 (evrClear s d) := h.rowWrite (fun _ hu => hu.updDie)

protected theorem Kept.execEvrClearAll {r : Requester} {d : DieId} (h : Kept s0 s) : OutKept s0 (execEvrClearAll r d s) :=
  (h.byReq (fun _ hu => hu.evrClear)).out

/-! ### Flush -/

protected theorem Kept.rescueTags {d : DieId} {g : Machine.Group} {stop : Nat} {l : List RingEntry}
    (h : Kept s0 s) : Kept s0 (rescueTags s d g stop l) := by
  unfold rescueTags
  extract_lets _ s1
  have hs1 : Kept s0 s1 := h.foldl (fun _ _ hu => hu.meterAdd)
  exact hs1.updDie

protected theorem Kept.packRescue {d : DieId} {n : Nat} {l : List RingEntry}
    (h : Kept s0 s) : Kept s0 (packRescue d n s l).2 := by
  induction n generalizing d s l with
  | zero =>
    exact h
  | succ n ih =>
    unfold packRescue
    split
    · exact h
    · split
      · exact h
      · extract_lets _ _ s1
        have hs1 : Kept s0 s1 := h.rescueTags
        exact ih hs1.updDie

protected theorem Kept.tearWrite {d : DieId} (h : Kept s0 s) : Kept s0 (tearWrite s d) := h.updDie

protected theorem Kept.flushWrite {d : DieId} {e : RingEntry} (h : Kept s0 s) : Kept s0 (flushWrite s d e) := by
  unfold flushWrite
  exact .ite h.drainWrite h.tearWrite

protected theorem Kept.stopFlash {d : DieId} (h : Kept s0 s) : Kept s0 (stopFlash s d) := h.updDie

protected theorem Kept.haltDie {d : DieId} (h : Kept s0 s) : Kept s0 (haltDie s d) := by
  unfold haltDie
  exact .ite h.stopFlash.updDie h

protected theorem Kept.flushFirst {d : DieId} {n : Nat} (h : Kept s0 s) : Kept s0 (flushFirst s d n) := by
  unfold flushFirst
  extract_lets _ p s1 s2
  have hp : Kept s0 p.2 := h.packRescue
  have hs1 : Kept s0 s1 := hp.foldl (fun _ _ hu => hu.flushWrite)
  have hs2 : Kept s0 s2 := hs1.foldl (fun _ _ hu => hu.tearWrite)
  exact hs2.updDie

protected theorem Kept.flushRing {d : DieId} (h : Kept s0 s) : Kept s0 (flushRing s d) := by
  unfold flushRing
  exact .ite h.haltDie.flushFirst h

protected theorem Kept.flushRoot {d : DieId} (h : Kept s0 s) : Kept s0 (flushRoot s d) := by
  unfold flushRoot
  exact .ite h.spillMeters.reRoot h.spillMeters

protected theorem Kept.flushDie {d : DieId} (h : Kept s0 s) : Kept s0 (flushDie s d) := h.flushRing.flushRoot

protected theorem Kept.loseRing {d : DieId} (h : Kept s0 s) : Kept s0 (loseRing s d) := by
  unfold loseRing
  exact .ite h.haltDie.flushFirst h

@[simp] theorem freshDie_mem (x : Die) : (freshDie x).mem = x.mem := by rfl

protected theorem Kept.resetDie {d : DieId} {phase : DiePhase} (h : Kept s0 s) : Kept s0 (resetDie s d phase) := by
  unfold resetDie
  extract_lets _ s1 x
  have hs1 : Kept s0 s1 := (h.setDieOf (by rfl))
  have hx : Kept s0 x := hs1.regsDrop
  exact hx.same

/-! ### Mount -/

@[simp] theorem loadRoot_mem (x : Die) (r : Root) : (loadRoot x r).mem = x.mem := by rfl

@[simp] theorem putUnit_mem (x : Die) (tenant nsid unit : Nat) (entry : BitVec 40) :
    (putUnit x tenant nsid unit entry).mem = x.mem :=
  by rfl

@[simp] theorem applyUnit_mem (s : State) (d : DieId) (r : JRec) (x : Die) (i : Nat) : (applyUnit s d r x i).mem = x.mem := by
  unfold applyUnit
  split <;> simp

@[simp] theorem applyMap_mem (s : State) (d : DieId) (x : Die) (r : JRec) : (applyMap s d x r).mem = x.mem := by
  simp [applyMap]

@[simp] theorem applyRec_mem (s : State) (d : DieId) (w : Nat) (x : Die) (r : JRec) : (applyRec s d w x r).mem = x.mem := by
  simp [applyRec]

@[simp] theorem replay_mem (s : State) (d : DieId) (r : Root) : (replay s d r).mem = (s.die d).mem := by
  simp [replay]

protected theorem Kept.redoBlock {d : DieId} {n c : Nat} (h : Kept s0 s) : Kept s0 (redoBlock d n s c) := by
  unfold redoBlock
  extract_lets s1
  have hs1 : Kept s0 s1 := h.draw
  exact .ite hs1 hs1.retireBlock

protected theorem Kept.redoErase {d : DieId} {g : Machine.Group} (h : Kept s0 s) : Kept s0 (redoErase d s g) := by
  unfold redoErase
  extract_lets s1 s2
  have hs1 : Kept s0 s1 := h.updDie
  have hs2 : Kept s0 s2 := hs1.foldl (fun _ _ hu => hu.redoBlock)
  split
  · exact hs2
  · exact .ite hs2.eraseDone hs2

protected theorem Kept.redoErases {d : DieId} (h : Kept s0 s) : Kept s0 (redoErases s d) :=
  h.foldl (fun _ _ hu => hu.redoErase)

protected theorem Kept.closeOpen {d : DieId} (h : Kept s0 s) : Kept s0 (closeOpen s d) := h.foldl (fun _ _ hu => hu.closeFull)

protected theorem Kept.reportBreak {d : DieId} (h : Kept s0 s) : Kept s0 (reportBreak s d) := h.recordErr.raiseInt

protected theorem Kept.takeMaster {d : DieId} {r : Root} (h : Kept s0 s) : Kept s0 (takeMaster s d r) := by
  unfold takeMaster
  exact .ite h.same h

protected theorem Kept.timeMount {d : DieId} (h : Kept s0 s) : Kept s0 (timeMount s d) := by
  unfold timeMount
  extract_lets r
  have hr : Kept s0 r.2 := h.drawChoice
  exact hr.updDie

protected theorem Kept.mountRoot {d : DieId} {r : Root} (h : Kept s0 s) : Kept s0 (mountRoot s d r) := by
  unfold mountRoot
  extract_lets broken s1 s2 s3 s4
  have hm : (replay s d r).mem = ((takeMaster s d r).die d).mem := by
    rw [replay_mem]
    unfold takeMaster
    split <;> rfl
  have hs1 : Kept s0 s1 := h.takeMaster.setDieOf hm
  have hs2 : Kept s0 s2 := (Kept.ite hs1.reportBreak hs1).redoErases
  have hs3 : Kept s0 s3 := hs2.closeOpen.checkpoint.fillRescue.ensureJournal
  have hs4 : Kept s0 s4 := hs3.applyPolicy.fgrReval.timeMount
  exact hs4.recordEvent

protected theorem Kept.noRoot {d : DieId} (h : Kept s0 s) : Kept s0 (noRoot s d) := by
  unfold noRoot
  extract_lets r
  have hr : Kept s0 r.2 := h.drawChoice
  exact hr.recordErr

protected theorem Kept.mountDie {d : DieId} (h : Kept s0 s) : Kept s0 (mountDie s d) := by
  unfold mountDie
  split
  · exact h.noRoot
  · exact .ite h.mountRoot h

@[simp] theorem reloadPage_mem (s : State) (d : DieId) (id : PageId) (t n : Nat) :
    (reloadPage s d id t n).mem = (s.die d).mem := by
  simp [reloadPage]

protected theorem Kept.rebuildLeaf {d : DieId} {tenant nsid index : Nat}
    (h : Kept s0 s) : Kept s0 (rebuildLeaf s d tenant nsid index) := by
  unfold rebuildLeaf
  extract_lets _ _ _ s1
  have hs1 : Kept s0 s1 := h.setDieOf (by simp +zetaDelta)
  exact hs1.regBump.pageIn

/-! ### HoldUp -/

protected theorem Kept.updPsu {f : Psu → Psu} (h : Kept s0 s) : Kept s0 (updPsu s f) := h.same

protected theorem Kept.updHce {n : SlotId} {f : HceSlot → HceSlot} (h : Kept s0 s) : Kept s0 (updHce s n f) := h.same

protected theorem Kept.guardRuns {f : State → State}
    (h : Kept s0 s) (hf : ∀ t, Kept s0 t → Kept s0 (f t)) : Kept s0 (guardRuns s f) := by
  unfold guardRuns
  exact .ite h (hf _ h)

protected theorem Kept.outerSample {n : SlotId} {meas : Int} (h : Kept s0 s) : Kept s0 (outerSample s n meas) := by
  unfold outerSample
  extract_lets s1
  have hs1 : Kept s0 s1 := h.updPsu
  exact .ite hs1.updHce hs1.updHce

protected theorem Kept.execHceOuterSample {n : SlotId} {meas : Int}
    (h : Kept s0 s) : OutKept s0 (execHceOuterSample n meas s) :=
  (h.guardRuns (fun _ hu => hu.outerSample)).out

protected theorem Kept.traceSample {n : SlotId} (h : Kept s0 s) : Kept s0 (traceSample s n) := by
  unfold traceSample
  exact .ite h.updHce (.ite h.updHce h.updHce)

protected theorem Kept.traceTrigger {n : SlotId} (h : Kept s0 s) : Kept s0 (traceTrigger s n) := by
  unfold traceTrigger
  exact .ite h.updHce.raiseInt h

protected theorem Kept.innerSample {n : SlotId} {meas : Int} (h : Kept s0 s) : Kept s0 (innerSample s n meas) := by
  unfold innerSample
  extract_lets _ _ _ _ s1
  have hs1 : Kept s0 s1 := .ite h.updHce h.updHce
  exact hs1.traceSample

protected theorem Kept.execHceInnerSample {n : SlotId} {meas : Int}
    (h : Kept s0 s) : OutKept s0 (execHceInnerSample n meas s) :=
  (h.guardRuns (fun _ hu => hu.innerSample)).out

protected theorem Kept.execHceClampTimeout {n : SlotId} (h : Kept s0 s) : OutKept s0 (execHceClampTimeout n s) := by
  unfold execHceClampTimeout
  apply Kept.out
  refine h.guardRuns (fun u hu => ?_)
  extract_lets _ s1
  have hs1 : Kept s0 s1 := hu.raiseInt
  exact .ite (.ite hs1.traceTrigger hs1) hu

protected theorem Kept.execFanFault {n : SlotId} (h : Kept s0 s) : OutKept s0 (execFanFault n s) :=
  (h.guardRuns (fun _ hu => .ite hu.same.raiseInt hu)).out

protected theorem Kept.trctlWrite {n : SlotId} {v : Word} (h : Kept s0 s) : Kept s0 (trctlWrite s n v) := by
  unfold trctlWrite
  extract_lets
  refine h.rowWrite (fun u hu => ?_)
  extract_lets s1 s2
  have hs1 : Kept s0 s1 := hu.storeReg
  have hs2 : Kept s0 s2 := .ite hs1.updHce hs1
  exact .ite hs2.traceTrigger hs2

protected theorem Kept.execHceTraceArm {r : Requester} {n : SlotId} {v : Word}
    (h : Kept s0 s) : OutKept s0 (execHceTraceArm r n v s) :=
  (h.byReq (fun _ hu => .ite hu.trctlWrite hu)).out

protected theorem Kept.execHceTraceFire {r : Requester} {n : SlotId} {v : Word}
    (h : Kept s0 s) : OutKept s0 (execHceTraceFire r n v s) :=
  (h.byReq (fun _ hu => .ite hu.trctlWrite hu)).out

protected theorem Kept.execTraceStop {n : SlotId} (h : Kept s0 s) : OutKept s0 (execTraceStop n s) :=
  (h.guardRuns (fun _ hu => .ite hu.updHce hu)).out

protected theorem Kept.trDataRead (h : Kept s0 s) : Kept s0 (trDataRead s) := by
  unfold trDataRead
  extract_lets _ _ _ s1 r
  have hs1 : Kept s0 s1 := h.same
  have hr : Kept s0 r.2 := hs1.drawChoice
  exact .ite hs1.regSet (.ite hs1.regSet hr.regSet)

protected theorem Kept.execHceTrDataRead {r : Requester} (h : Kept s0 s) : OutKept s0 (execHceTrDataRead r s) :=
  (h.byReq (fun _ hu => hu.guardRuns (fun _ hw => hw.trDataRead))).out

protected theorem Kept.execBankOv {vbank : Nat} (h : Kept s0 s) : OutKept s0 (execBankOv vbank s) :=
  (h.guardRuns (fun _ hu => .ite hu.updPsu.updHce.recordErr hu)).out

protected theorem Kept.execChargerRestart (h : Kept s0 s) : OutKept s0 (execChargerRestart s) :=
  (h.guardRuns (fun _ hu => .ite hu.updPsu.updHce hu)).out

protected theorem Kept.shareLimit {limit : Nat} (h : Kept s0 s) : Kept s0 (shareLimit s limit) := by
  unfold shareLimit
  extract_lets
  refine h.overDies (fun u d hu => ?_)
  extract_lets s1
  have hs1 : Kept s0 s1 := hu.updDie
  exact .ite hs1.fillRescue hs1

protected theorem Kept.publishLimit {vadm : Nat} (h : Kept s0 s) : Kept s0 (publishLimit s vadm) := by
  unfold publishLimit
  extract_lets _ s1
  have hs1 : Kept s0 s1 := h.updPsu.shareLimit
  exact .ite hs1.raiseInt hs1

protected theorem Kept.setBank {b : BankState} (h : Kept s0 s) : Kept s0 (setBank s b) := by
  unfold setBank
  extract_lets s1
  have hs1 : Kept s0 s1 := h.updPsu
  exact .ite hs1.raiseInt hs1

protected theorem Kept.recharged (h : Kept s0 s) : Kept s0 (recharged s) := by
  unfold recharged
  exact .ite h.setBank h

protected theorem Kept.execDirtyLimitUpdate {vin vbank vhold vLow : Nat}
    (h : Kept s0 s) : OutKept s0 (execDirtyLimitUpdate vin vbank vhold vLow s) := by
  unfold execDirtyLimitUpdate
  apply Kept.out
  refine h.guardRuns (fun u hu => ?_)
  extract_lets s1
  have hs1 : Kept s0 s1 := hu.updPsu.recharged
  exact hs1.publishLimit

protected theorem Kept.beginTest (h : Kept s0 s) : Kept s0 (beginTest s) := by
  unfold beginTest
  extract_lets s1
  have hs1 : Kept s0 s1 := h.updPsu
  exact hs1.setBank.publishLimit

protected theorem Kept.execBankTestStart (h : Kept s0 s) : OutKept s0 (execBankTestStart s) :=
  (h.guardRuns (fun _ hu => .ite hu.beginTest hu)).out

protected theorem Kept.execBankTestDue (h : Kept s0 s) : OutKept s0 (execBankTestDue s) :=
  (h.guardRuns (fun _ hu => .ite hu.updPsu hu)).out

protected theorem Kept.testNow (h : Kept s0 s) : Kept s0 (testNow s) := h.rowWrite (fun _ hu => .ite hu.beginTest hu)

protected theorem Kept.execPsuTestNow {r : Requester} (h : Kept s0 s) : OutKept s0 (execPsuTestNow r s) :=
  (h.byReq (fun _ hu => hu.guardRuns (fun _ hw => hw.testNow))).out

protected theorem Kept.execBankTestDischarge {vStep iStep : Nat}
    (h : Kept s0 s) : OutKept s0 (execBankTestDischarge vStep iStep s) := by
  unfold execBankTestDischarge
  apply Kept.out
  refine h.guardRuns (fun u hu => ?_)
  extract_lets s1
  have hs1 : Kept s0 s1 := hu.updPsu
  exact .ite hs1.updHce hu

protected theorem Kept.execBankTestLowReached (h : Kept s0 s) : OutKept s0 (execBankTestLowReached s) := by
  unfold execBankTestLowReached
  apply Kept.out
  refine h.guardRuns (fun u hu => ?_)
  extract_lets s1 s2
  have hs1 : Kept s0 s1 := hu.updPsu
  have hs2 : Kept s0 s2 := hs1.updHce
  exact .ite hs2.updHce hu

protected theorem Kept.testLoops (h : Kept s0 s) : Kept s0 (testLoops s) := h.updHce.updHce

protected theorem Kept.execBankTestDone {charge : Nat} (h : Kept s0 s) : OutKept s0 (execBankTestDone charge s) := by
  unfold execBankTestDone
  apply Kept.out
  refine h.guardRuns (fun u hu => ?_)
  extract_lets _ _ s1
  have hs1 : Kept s0 s1 := hu.testLoops.updPsu
  exact .ite hs1.setBank.raiseInt.recordEvent hu

protected theorem Kept.abortTest (h : Kept s0 s) : Kept s0 (abortTest s) := h.testLoops.updPsu.recordErr.raiseInt

protected theorem Kept.execBankTestTimeout (h : Kept s0 s) : OutKept s0 (execBankTestTimeout s) :=
  (h.guardRuns (fun _ hu => .ite hu.abortTest.updPsu.setBank hu)).out

protected theorem Kept.slotSwitch {n : SlotId} {on : Bool} (h : Kept s0 s) : Kept s0 (slotSwitch s n on) := by
  unfold slotSwitch
  extract_lets s1
  have hs1 : Kept s0 s1 := h.regFld
  exact .ite hs1 hs1.updHce

protected theorem Kept.railsOff (h : Kept s0 s) : Kept s0 (railsOff s) := h.same

protected theorem Kept.diesDown (h : Kept s0 s) : Kept s0 (diesDown s) := h.overDies (fun _ _ hu => .ite hu.resetDie hu)

protected theorem Kept.norCut (h : Kept s0 s) : Kept s0 (norCut s) := by
  unfold norCut
  split
  · exact h
  · exact h.drawBytes.setNor (by exact fun n => norWf_op (cjReload_wf (norWrite_wf n)))

protected theorem Kept.lossEnd (h : Kept s0 s) : Kept s0 (lossEnd s) := by
  unfold lossEnd
  extract_lets s1 s2 s3
  have hs1 : Kept s0 s1 := h.norCut.railsOff.slotSwitch
  have hs2 : Kept s0 s2 := hs1.regSet.regSet
  have hs3 : Kept s0 s3 := hs2.diesDown
  exact hs3.same

protected theorem Kept.lossTraces (h : Kept s0 s) : Kept s0 (lossTraces s) := h.foldl (fun _ _ hu => .ite hu.traceTrigger hu)

protected theorem Kept.powerLoss (h : Kept s0 s) : Kept s0 (powerLoss s) := by
  unfold powerLoss
  extract_lets s s1 _ _ s2 _ _ s3 s4 s5 s6
  have hs : Kept s0 s := h.abandonDeep
  have hs1 : Kept s0 s1 := .ite hs hs.abortTest
  have hs2 : Kept s0 s2 := hs1.slotSwitch.updPsu
  have hs3 : Kept s0 s3 := hs2.cutMinute.same.lossTraces
  have hs4 : Kept s0 s4 := hs3.regBump.raiseInt
  have hs5 : Kept s0 s5 := hs4.regFld
  have hs6 : Kept s0 s6 := by
    refine hs5.overDies fun t d ht => ?_
    split
    · exact ht.flushRing
    · exact ht.haltDie
  exact .ite hs6.lossEnd hs6

protected theorem Kept.execPowerLoss (h : Kept s0 s) : OutKept s0 (execPowerLoss s) :=
  (h.guardRuns (fun _ hu => .ite hu hu.powerLoss)).out

protected theorem Kept.execDieFlushDone {d : DieId} (h : Kept s0 s) : OutKept s0 (execDieFlushDone d s) := by
  unfold execDieFlushDone
  extract_lets s1
  have hs1 : Kept s0 s1 := h.flushDie.updPsu
  exact (Kept.ite (.ite hs1.lossEnd hs1) h).out

protected theorem Kept.execFlushShort (h : Kept s0 s) : OutKept s0 (execFlushShort s) := (Kept.ite h.regFld h).out

protected theorem Kept.cutFlush {d : DieId} (h : Kept s0 s) : Kept s0 (cutFlush s d) := by
  unfold cutFlush
  extract_lets r
  have hr : Kept s0 r.2 := h.drawChoice
  exact .ite hr.flushFirst h

protected theorem Kept.forgetSums (h : Kept s0 s) : Kept s0 (forgetSums s) := by
  unfold forgetSums
  exact .ite h h.same

protected theorem Kept.execBankExhausted (h : Kept s0 s) : OutKept s0 (execBankExhausted s) := by
  unfold execBankExhausted
  extract_lets s0' s1
  have hs0' : Kept s0 s0' := h.overDies (fun _ _ hu => hu.cutFlush)
  have hs1 : Kept s0 s1 := hs0'.norCut.diesDown.forgetSums
  exact (Kept.ite hs1.same h).out

protected theorem Kept.lossInfoRead (h : Kept s0 s) : Kept s0 (lossInfoRead s) := h.same.regSet

protected theorem Kept.execPsuLossInfoRead {r : Requester} (h : Kept s0 s) : OutKept s0 (execPsuLossInfoRead r s) :=
  (h.byReq (fun _ hu => hu.guardRuns (fun _ hw => hw.lossInfoRead))).out

/-! ### Pools -/

protected theorem Kept.updPort {d : DieId} {p : PortId} {f : EthPort → EthPort} (h : Kept s0 s) : Kept s0 (updPort s d p f) :=
  h.updDie

protected theorem Kept.ethCount {d : DieId} {p : PortId} {off k : Nat} (h : Kept s0 s) : Kept s0 (ethCount s d p off k) :=
  h.updPort

protected theorem Kept.onWire {d : DieId} {p : PortId} {t1 : TxPkt} {bad : Bool}
    (h : Kept s0 s) : Kept s0 (onWire s d p t1 bad) :=
  h.updPort

protected theorem Kept.sendPfc {d : DieId} {p : PortId} {quanta : Nat} (h : Kept s0 s) : Kept s0 (sendPfc s d p quanta) := by
  unfold sendPfc
  exact .ite h (.ite h.ethCount (h.onWire.foldl (fun _ _ hu => hu.ethCount)))

protected theorem Kept.sendFrame {d : DieId} {p : PortId} {t1 : TxPkt} {bad : Bool}
    (h : Kept s0 s) : Kept s0 (sendFrame s d p t1 bad) := by
  unfold sendFrame
  extract_lets s1
  have hs1 : Kept s0 s1 := h.onWire
  exact .ite h.ethCount (.ite hs1 hs1.ethCount.ethCount)

protected theorem Kept.drainPort {d : DieId} {p : PortId} (h : Kept s0 s) : Kept s0 (drainPort s d p) :=
  h.updPort.foldl (fun _ _ hu => hu.sendFrame)

protected theorem Kept.endAll {d : DieId} (h : Kept s0 s) : Kept s0 (endAll s d) := h.terminateWhere.drainPort.drainPort

protected theorem Kept.pfcPort {d : DieId} {p : PortId} (h : Kept s0 s) : Kept s0 (pfcPort s d p) := by
  unfold pfcPort
  exact .ite h h.sendPfc.updPort

protected theorem Kept.pfcUpdate {d : DieId} (h : Kept s0 s) : Kept s0 (pfcUpdate s d) := h.pfcPort.pfcPort

protected theorem Kept.openWindows {d : DieId} (h : Kept s0 s) : Kept s0 (openWindows s d) := by
  unfold openWindows
  refine h.foldl (fun u a hu => ?_)
  split
  · exact hu
  · exact .ite hu.sendAck hu

protected theorem Kept.setPool {d : DieId} {p : Fin 16} {q : Pool} (h : Kept s0 s) : Kept s0 (setPool s d p q) := h.updDie

protected theorem Kept.settlePool {d : DieId} {p : Fin 16} {q : Pool} (h : Kept s0 s) : Kept s0 (settlePool s d p q) := by
  unfold settlePool
  extract_lets _ s1 s2 s3
  have hs1 : Kept s0 s1 := h.setPool
  have hs2 : Kept s0 s2 := .ite hs1.raiseInt hs1
  have hs3 : Kept s0 s3 := hs2.pfcUpdate
  exact .ite hs3.openWindows hs3

protected theorem Kept.allocFail {d : DieId} (h : Kept s0 s) : Kept s0 (allocFail s d) := h.regBump.raiseInt

protected theorem Kept.bpmErr {d : DieId} {code off : Nat} (h : Kept s0 s) : Kept s0 (bpmErr s d code off) := h.recordErr

protected theorem Kept.popBuf {d : DieId} {p : Fin 16} (h : Kept s0 s) : Kept s0 (popBuf s d p).2 := by
  unfold popBuf
  extract_lets
  split
  · exact h.raiseInt
  · split
    · exact h.allocFail
    · split
      · exact h.setPool.bpmErr.raiseInt
      · exact h.settlePool

@[simp] theorem rxqFall_mem (x : Die) : (rxqFall x).mem = x.mem := by rfl

protected theorem Kept.pushBuf {d : DieId} {p : Fin 16} {a : Nat} (h : Kept s0 s) : Kept s0 (pushBuf s d p a) := by
  unfold pushBuf
  extract_lets _ s1
  have hs1 : Kept s0 s1 := h.memWrite.updDie
  exact .ite hs1.settlePool h.bpmErr

protected theorem Kept.setRefs {d : DieId} {l : List (Nat × Nat)} (h : Kept s0 s) : Kept s0 (setRefs s d l) := h.updDie

protected theorem Kept.allocBuf {d : DieId} {p : Fin 16} {owner : Nat}
    (h : Kept s0 s) : Kept s0 (allocBuf s d p owner).2 := by
  unfold allocBuf
  extract_lets r
  have hr : Kept s0 r.2 := h.popBuf
  split
  · exact h.bpmErr
  · split
    · exact h.allocFail
    · split
      · exact hr
      · exact hr.setRefs

protected theorem Kept.freeBuf {d : DieId} {a : Nat} (h : Kept s0 s) : Kept s0 (freeBuf s d a) := by
  unfold freeBuf
  split
  · exact h
  · exact h.pushBuf

protected theorem Kept.dropRef {d : DieId} {a owner : Nat} (h : Kept s0 s) : Kept s0 (dropRef s d a owner) := by
  unfold dropRef
  extract_lets _ s1
  have hs1 : Kept s0 s1 := h.setRefs
  exact .ite hs1.freeBuf hs1

protected theorem Kept.sweepOwner {d : DieId} {owner : Nat} (h : Kept s0 s) : Kept s0 (sweepOwner s d owner) := by
  unfold sweepOwner
  extract_lets _ s1 s2
  have hs1 : Kept s0 s1 := h.updDie
  have hs2 : Kept s0 s2 := hs1.foldl (fun _ _ hu => hu.dropRef)
  exact hs2.regSet

protected theorem Kept.sweepDone {d : DieId} (h : Kept s0 s) : Kept s0 (sweepDone s d) := by
  unfold sweepDone
  extract_lets s1
  have hs1 : Kept s0 s1 := h.updDie
  exact hs1.regFld.raiseInt

protected theorem Kept.moveRefs {d : DieId} {src dst : Nat} (h : Kept s0 s) : Kept s0 (moveRefs s d src dst) := h.setRefs

/-! ### Boot -/

protected theorem Kept.norStart {v : Word} (h : Kept s0 s) : Kept s0 (norStart s v) := by
  unfold norStart
  extract_lets
  split
  · exact h.recordErr
  · exact .ite h.recordErr (.ite h (.ite h.recordErr (.ite h.recordErr h.norFields)))

protected theorem Kept.norOpWrite {r : Requester} {v : Word} (h : Kept s0 s) : Kept s0 (norOpWrite s r v) :=
  h.rowWrite (fun _ hu => .ite hu (.ite (.ite hu.badValue hu.storeReg.norStart) hu.storeReg))

protected theorem Kept.execNorProgram {r : Requester} {v : Word} (h : Kept s0 s) : OutKept s0 (execNorProgram r v s) :=
  (h.byReq (fun _ hu => .ite hu.norOpWrite hu)).out

protected theorem Kept.execNorErase {r : Requester} {v : Word} (h : Kept s0 s) : OutKept s0 (execNorErase r v s) :=
  (h.byReq (fun _ hu => .ite hu.norOpWrite hu)).out

protected theorem Kept.norOpDone (h : Kept s0 s) : Kept s0 (norOpDone s) := by
  unfold norOpDone
  split
  · exact h
  · exact (h.setNor (by exact fun n => norWf_op (norApply_wf n))).regBump.raiseInt

protected theorem Kept.execNorOpDone (h : Kept s0 s) : OutKept s0 (execNorOpDone s) := h.norOpDone.out

protected theorem Kept.norUnlock {r : Requester} {v : Word} (h : Kept s0 s) : Kept s0 (norUnlock s r v) :=
  h.rowWrite (fun _ hu => hu.norFields)

protected theorem Kept.execNorUnlockPe {r : Requester} (h : Kept s0 s) : OutKept s0 (execNorUnlockPe r s) :=
  (h.byReq (fun _ hu => hu.norUnlock)).out

protected theorem Kept.execNorUnlockOptWe {r : Requester} (h : Kept s0 s) : OutKept s0 (execNorUnlockOptWe r s) :=
  (h.byReq (fun _ hu => hu.norUnlock)).out

protected theorem Kept.optLoad (h : Kept s0 s) : Kept s0 (optLoad s) := by
  unfold optLoad
  exact .ite h.norFields (.ite h.norFields h.norFields.recordErr)

protected theorem Kept.putWord {a : Nat} {v : Word} (h : Kept s0 s) : Kept s0 (putWord s a v) := by
  unfold putWord
  split
  · exact h
  · split
    · exact h
    · exact .ite h.regSet h.badValue

protected theorem Kept.setLock {base : Nat} (h : Kept s0 s) : Kept s0 (setLock s base) := h.regFld

protected theorem Kept.guardWords (h : Kept s0 s) : Kept s0 (guardWords s) := by
  unfold guardWords
  extract_lets s1 s2 s3
  have hs1 : Kept s0 s1 := h.foldl (fun _ _ hu => hu.putWord)
  have hs2 : Kept s0 s2 := hs1.foldl (fun _ _ hu => hu.foldl (fun _ _ hw => .ite hw hw.putWord))
  have hs3 : Kept s0 s3 := hs2.foldl (fun _ _ hu => .ite hu.updHce hu)
  exact hs3.setLock.setLock

protected theorem Kept.purgeKeys (h : Kept s0 s) : Kept s0 (purgeKeys s) := (h.setNor (fun n => purgeJournal_wf n)).norCount

protected theorem Kept.loadKeys {d : DieId} (h : Kept s0 s) : Kept s0 (loadKeys s d) := by
  unfold loadKeys
  extract_lets r
  have hr : Kept s0 r.2 := h.drawBytes
  exact hr.updDie

protected theorem Kept.portSettings {d : DieId} {p : PortId} (h : Kept s0 s) : Kept s0 (portSettings s d p) := by
  unfold portSettings
  extract_lets _ _ s1 s2
  have hs1 : Kept s0 s1 := h.regSet.regSet
  have hs2 : Kept s0 s2 := hs1.foldl (fun _ _ hu => hu.putWord)
  exact hs2.updDie

protected theorem Kept.flashSettings {d : DieId} (h : Kept s0 s) : Kept s0 (flashSettings s d) := by
  unfold flashSettings
  extract_lets s1 s2
  have hs1 : Kept s0 s1 := h.foldl (fun _ _ hu => hu.foldl (fun _ _ hw => hw.putWord))
  have hs2 : Kept s0 s2 := by
    unfold s2
    refine hs1.foldl (fun u a hu => ?_)
    split
    · exact hu.regSet
    · exact hu
  exact hs2.setLock.updDie

protected theorem Kept.enableBlocks {d : DieId} (h : Kept s0 s) : Kept s0 (enableBlocks s d) :=
  h.foldl (fun _ _ hu => hu.regFld)

protected theorem Kept.dieSettings {d : DieId} (h : Kept s0 s) : Kept s0 (dieSettings s d) := by
  unfold dieSettings
  extract_lets s1 s2
  have hs1 : Kept s0 s1 := h.loadKeys.updDie
  have hs2 : Kept s0 s2 := hs1.putWord.flashSettings
  exact hs2.portSettings.portSettings.enableBlocks

protected theorem Kept.countBoot (h : Kept s0 s) : Kept s0 (countBoot s) := by
  unfold countBoot
  extract_lets _ s1
  have hs1 : Kept s0 s1 := h.journalPut
  exact hs1.same

protected theorem Kept.takePlacement (h : Kept s0 s) : Kept s0 (takePlacement s) := h.overDies (fun _ _ hu => hu.updDie)

protected theorem Kept.startMinutes {cold : Bool} {was : Nat} (h : Kept s0 s) : Kept s0 (startMinutes s cold was) := by
  unfold startMinutes
  extract_lets _ s1 _ s2 s3
  have hs1 : Kept s0 s1 := h.same.restartMinutes
  have hs2 : Kept s0 s2 := hs1.same
  have hs3 : Kept s0 s3 := .ite hs2.coldMinutes hs2
  exact hs3.same

protected theorem Kept.startEvents {cause : Nat} (h : Kept s0 s) : Kept s0 (startEvents s cause) := by
  unfold startEvents
  extract_lets s1
  have hs1 : Kept s0 s1 := .ite h h.recordEvent
  exact .ite hs1.recordEvent (.ite (hs1.overDies (fun _ _ hu => hu.raiseInt)) hs1)

protected theorem Kept.startUp {cold : Bool} {cause : Nat} {slot fell : Bool}
    (h : Kept s0 s) : Kept s0 (startUp s cold cause slot fell) := by
  unfold startUp
  extract_lets _ s1 s2 s3 s4 s5 s6 _ s7
  have hs1 : Kept s0 s1 := h.norFields
  have hs2 : Kept s0 s2 := .ite hs1.raiseInt hs1
  have hs3 : Kept s0 s3 := .ite hs2.countBoot hs2
  have hs4 : Kept s0 s4 := hs3.overDies (fun _ _ hu => hu.dieSettings)
  have hs5 : Kept s0 s5 := (hs4.overDies (fun _ _ hu => hu.mountDie)).overDies (fun _ _ hu => hu.identifyLuns)
  have hs6 : Kept s0 s6 := hs5.takePlacement.startMinutes.startEvents
  have hs7 : Kept s0 s7 := hs6.draw
  exact hs7.shareLimit

protected theorem Kept.bootStop (h : Kept s0 s) : Kept s0 (bootStop s) := by
  unfold bootStop
  extract_lets s1
  have hs1 : Kept s0 s1 := h.updDie
  exact hs1.norFields

protected theorem Kept.startPackage {cold : Bool} {cause : Nat} (h : Kept s0 s) : Kept s0 (startPackage s cold cause) := by
  unfold startPackage
  extract_lets s1 s2 s3 _ _ s4 c
  have hs1 : Kept s0 s1 := h.optLoad
  have hs2 : Kept s0 s2 := .ite hs1.guardWords hs1
  have hs3 : Kept s0 s3 := .ite hs2.purgeKeys hs2
  have hs4 : Kept s0 s4 := .ite hs3.same hs3
  have hc : norWf s4.nor.array = true → norWf (chooseSlot s4.nor cause).nor.array = true := chooseSlot_wf
  rw [show chooseSlot s4.nor cause = c from rfl] at hc
  clear_value c
  refine .ite hs1.bootStop ?_
  split
  · exact (hs4.setNor hc).bootStop
  · exact (hs4.setNor hc).startUp

protected theorem Kept.enterReset (h : Kept s0 s) : Kept s0 (enterReset s) := by
  unfold enterReset
  extract_lets s1 s2
  have hs1 : Kept s0 s1 := h.cutMinute.norOpDone.overDies (fun _ _ hu => hu.resetDie)
  have hs2 : Kept s0 s2 := hs1.regsDrop
  exact hs2.norFields

protected theorem Kept.leaveReset {cold : Bool} {cause : Nat} (h : Kept s0 s) : Kept s0 (leaveReset s cold cause) := by
  unfold leaveReset
  extract_lets _ s1
  have hs1 : Kept s0 s1 := h.same
  exact .ite hs1 hs1.startPackage

protected theorem Kept.stopAll (h : Kept s0 s) : Kept s0 (stopAll s) :=
  (h.overDies (fun _ _ hu => hu.endAll)).overDies (fun _ _ hu => hu.finishWrites.flushDie)

protected theorem Kept.warmReset {cause : Nat} (h : Kept s0 s) : Kept s0 (warmReset s cause) := by
  unfold warmReset
  extract_lets _ s' s1
  have hs' : Kept s0 s' := h.same
  have hs1 : Kept s0 s1 := hs'.stopAll
  exact .ite h hs1.same.enterReset.leaveReset

protected theorem Kept.resetPulse {lowNs : Nat} (h : Kept s0 s) : Kept s0 (resetPulse s lowNs) := by
  unfold resetPulse
  extract_lets r x
  have hr : Kept s0 r.2 := by
    unfold r
    split
    · exact h.drawChoice
    · exact h
  exact .ite h (.ite hr hr.same.warmReset)

protected theorem Kept.execWarmReset {cause : WarmCause} {lowNs : Nat}
    (h : Kept s0 s) : OutKept s0 (execWarmReset cause lowNs s) := by
  unfold execWarmReset
  apply Kept.out
  split
  · exact .ite h h.resetPulse
  · exact .ite h.warmReset h
  · exact h
  · exact h.warmReset

protected theorem Kept.execResetNRelease (h : Kept s0 s) : OutKept s0 (execResetNRelease s) := by
  unfold execResetNRelease
  extract_lets _ s1
  have hs1 : Kept s0 s1 := h.same
  exact (Kept.ite (.ite hs1.startPackage hs1) h).out

protected theorem Kept.railsOn (h : Kept s0 s) : Kept s0 (railsOn s) := h.same

protected theorem Kept.endLoss (h : Kept s0 s) : Kept s0 (endLoss s) := by
  unfold endLoss
  extract_lets _ s1
  have hs1 : Kept s0 s1 := h.same
  exact hs1.railsOn.updPsu.slotSwitch.slotSwitch

protected theorem Kept.lossRestart (h : Kept s0 s) : Kept s0 (lossRestart s) := h.endLoss.enterReset.leaveReset

protected theorem Kept.execLossRestart (h : Kept s0 s) : OutKept s0 (execLossRestart s) :=
  (Kept.ite (.ite h.endLoss h.lossRestart) h).out

@[simp] theorem coldDie_mem (x : Die) : (coldDie x).mem = [] := rfl

theorem die_powerOn (s : State) (d : DieId) : (powerOn s).die d = coldDie (s.die d) := by
  simp [powerOn, State.die]

protected theorem Kept.powerOn (h : Kept s0 s) : Kept s0 (powerOn s) :=
  ⟨h.part, h.pending, h.draws, fun _ => rfl, fun _ d => by rw [die_powerOn]; rfl, h.nor⟩

protected theorem Kept.execColdReset (h : Kept s0 s) : OutKept s0 (execColdReset s) := h.powerOn.railsOn.leaveReset.out

protected theorem Kept.die0Fault (h : Kept s0 s) : Kept s0 (die0Fault s) := by
  unfold die0Fault
  extract_lets _ s1 _ s2
  have hs1 : Kept s0 s1 := h.same
  have hs2 : Kept s0 s2 := hs1.stopAll.enterReset
  exact .ite h (.ite hs2.same hs1.same.warmReset)

protected theorem Kept.execDie0Fault (h : Kept s0 s) : OutKept s0 (execDie0Fault s) := h.die0Fault.out

protected theorem Kept.execPackageWdtExpiry (h : Kept s0 s) : OutKept s0 (execPackageWdtExpiry s) :=
  (Kept.ite h.die0Fault h).out

protected theorem Kept.wdtKick {r : Requester} (h : Kept s0 s) : Kept s0 (wdtKick s r) := by
  unfold wdtKick
  exact .ite h.norFields.updPsu h

protected theorem Kept.execPsuWdtKick {r : Requester} (h : Kept s0 s) : OutKept s0 (execPsuWdtKick r s) :=
  (h.byReq (fun _ hu => hu.rowWrite (fun _ hw => hw.wdtKick))).out

protected theorem Kept.execFwConfirm (h : Kept s0 s) : OutKept s0 (execFwConfirm s) := by
  unfold execFwConfirm
  apply Kept.out
  refine h.onDie (fun u hu => ?_)
  split
  · exact hu
  · exact .ite ((hu.setNor (fun n => bootAppend_wf n)).norCount) hu

protected theorem Kept.execSvnCommit (h : Kept s0 s) : OutKept s0 (execSvnCommit s) :=
  (h.onDie (fun _ hu => .ite hu.norFields hu)).out

protected theorem Kept.execJournalCompact (h : Kept s0 s) : OutKept s0 (execJournalCompact s) :=
  (h.onDie (fun _ hu => .ite ((hu.setNor (fun n => journalCompact_wf n)).norCount) hu)).out

/-! ### Faults -/

protected theorem Kept.guardBarriers {d : DieId} (h : Kept s0 s) : Kept s0 (guardBarriers s d) := by
  unfold guardBarriers
  refine h.foldl (fun u a hu => ?_)
  split
  · exact .ite hu hu.giveBarrier
  · exact hu

protected theorem Kept.handBack {d : DieId} {status : Cmd → Nat} (h : Kept s0 s) : Kept s0 (handBack s d status) := by
  unfold handBack
  extract_lets _ s1 s2
  have hs1 : Kept s0 s1 := h.guardBarriers.updDie
  have hs2 : Kept s0 s2 := hs1.overDies (fun _ _ hu => hu.updDie)
  exact hs2.foldl (fun _ _ hu => hu.finish)

protected theorem Kept.settleFlush {d home : DieId} {cid : Nat} {how : FlushEnd} {wids : List Nat}
    (h : Kept s0 s) : Kept s0 (settleFlush s d home cid how wids) := by
  unfold settleFlush
  split
  · exact h
  · exact h.putCmd.flushConfirmed

protected theorem Kept.confirmBarrier {d : DieId} {how : FlushEnd} {wids : List Nat} {b : Barrier}
    (h : Kept s0 s) : Kept s0 (confirmBarrier d how wids s b) := by
  unfold confirmBarrier
  split
  · exact h.actTerminate
  · exact h.actReset
  · exact h.settleFlush

protected theorem Kept.confirmBarriers {d : DieId} {how : FlushEnd} {acked : List Nat} {due : List Barrier}
    (h : Kept s0 s) : Kept s0 (confirmBarriers s d how acked due) := by
  unfold confirmBarriers
  extract_lets _ s1
  have hs1 : Kept s0 s1 := h.updDie
  exact (hs1.foldl (fun _ _ hu => hu.confirmBarrier)).foldl (fun _ _ hu => hu.settleFlush)

protected theorem Kept.reclaimLink {d : DieId} {k : SwmId} (h : Kept s0 s) : Kept s0 (reclaimLink s d k) :=
  h.updLink.regBump.raiseInt

protected theorem Kept.holdLink {d : DieId} {k : SwmId} (h : Kept s0 s) : Kept s0 (holdLink d s k) := by
  unfold holdLink
  exact .ite h.reclaimLink.sweepOwner.sweepDone h

protected theorem Kept.holdLinks {d : DieId} (h : Kept s0 s) : Kept s0 (holdLinks s d) := h.foldl (fun _ _ hu => hu.holdLink)

protected theorem Kept.stopDie {d : DieId} {status : Cmd → Nat} {flush fence : Bool}
    (h : Kept s0 s) : Kept s0 (stopDie s d status flush fence) := by
  unfold stopDie
  extract_lets s0' s1 s2
  have hs0' : Kept s0 s0' := h.endAll
  have hs1 : Kept s0 s1 := hs0'.handBack
  have hs2 : Kept s0 s2 := .ite hs1.flushDie hs1.loseRing
  exact hs2.confirmBarriers.holdLinks

protected theorem Kept.placeOffline {d : DieId} (h : Kept s0 s) : Kept s0 (placeOffline s d) := by
  unfold placeOffline
  extract_lets _ s1
  have hs1 : Kept s0 s1 := h.same
  exact hs1.overDies (fun _ _ hu => hu.updDie)

protected theorem Kept.retireFacing {d : DieId} {k : SwmId} (h : Kept s0 s) : Kept s0 (retireFacing d s k) := by
  unfold retireFacing
  exact .ite h.updLink.raiseInt h

protected theorem Kept.deliverOut {m : Crossing} (h : Kept s0 s) : Kept s0 (deliverOut s m) := by
  unfold deliverOut
  split
  · exact h.giveCmd
  · exact h.giveBarrier
  · exact h.finish

protected theorem Kept.releaseOne {d : DieId} {m : Crossing} (h : Kept s0 s) : Kept s0 (releaseOne d s m) := by
  unfold releaseOne
  exact .ite h.holdOut h.deliverOut

protected theorem Kept.releaseOut {d : DieId} (h : Kept s0 s) : Kept s0 (releaseOut s d) :=
  h.updDie.foldl (fun _ _ hu => hu.releaseOne)

protected theorem Kept.releaseAll (h : Kept s0 s) : Kept s0 (releaseAll s) := h.overDies (fun _ _ hu => hu.releaseOut)

protected theorem Kept.fenceDie {d : DieId} (h : Kept s0 s) : Kept s0 (fenceDie s d) := by
  unfold fenceDie
  extract_lets s1 s2 s3
  have hs1 : Kept s0 s1 := h.placeOffline.resetDie
  have hs2 : Kept s0 s2 := hs1.foldl (fun _ _ hu => hu.retireFacing)
  have hs3 : Kept s0 s3 := hs2.loseCounts.releaseAll
  exact hs3.entropyUpdate.recordEvent.shareLimit

protected theorem Kept.cutOff {d : DieId} (h : Kept s0 s) : Kept s0 (cutOff s d) := by
  unfold cutOff
  exact .ite h ((Kept.ite h.stopDie h).fenceDie)

protected theorem Kept.cutUnreached (h : Kept s0 s) : Kept s0 (cutUnreached s) :=
  h.foldl (fun _ _ hu => hu.overDies (fun _ _ hw => hw.cutOff))

protected theorem Kept.dieFault {d : DieId} {cause : DieFaultCause} (h : Kept s0 s) : Kept s0 (dieFault s d cause) := by
  unfold dieFault
  extract_lets _ _ s1 _ s2 s3
  have hs1 : Kept s0 s1 := h.same
  have hs2 : Kept s0 s2 := .ite hs1.regFld.loseCounts hs1
  have hs3 : Kept s0 s3 := .ite hs2.stopDie hs2
  exact .ite h.die0Fault (.ite h (.ite hs3.fenceDie.cutUnreached (.ite hs3 hs3.resetDie.entropyUpdate)))

protected theorem Kept.execDieFault {d : DieId} {cause : DieFaultCause}
    (h : Kept s0 s) : OutKept s0 (execDieFault d cause s) :=
  h.dieFault.out

protected theorem Kept.retrainFacing {d : DieId} {k : SwmId} (h : Kept s0 s) : Kept s0 (retrainFacing d s k) := by
  unfold retrainFacing
  exact .ite h.updLink (.ite h.updLink h)

protected theorem Kept.restartDie {d : DieId} (h : Kept s0 s) : Kept s0 (restartDie s d) := by
  unfold restartDie
  extract_lets s1 s2 s3 s4
  have hs1 : Kept s0 s1 := h.dieSettings.updDie
  have hs2 : Kept s0 s2 := hs1.mountDie.identifyLuns.takeSpill
  have hs3 : Kept s0 s3 := hs2.updDie
  have hs4 : Kept s0 s4 := (hs3.foldl (fun _ _ hu => hu.retrainFacing)).entropyUpdate
  exact hs4.shareLimit

protected theorem Kept.execDieResetDone {d : DieId} (h : Kept s0 s) : OutKept s0 (execDieResetDone d s) :=
  (Kept.ite h.restartDie h).out

protected theorem Kept.updCore {d : DieId} {c : CoreId} {f : Core → Core} (h : Kept s0 s) : Kept s0 (updCore s d c f) :=
  h.updDie

protected theorem Kept.fenceCore {d : DieId} {c : CoreId} (h : Kept s0 s) : Kept s0 (fenceCore s d c) := by
  unfold fenceCore
  extract_lets s1 s2 _ s3 s4
  have hs1 : Kept s0 s1 := h.updCore.regFld
  have hs2 : Kept s0 s2 := hs1.regFld
  have hs3 : Kept s0 s3 := by
    unfold s3
    split
    · exact hs2
    · extract_lets s'
      have hs' : Kept s0 s' := hs2.updDie
      exact .ite hs'.moveRefs hs'
  have hs4 : Kept s0 s4 := hs3.sweepOwner.sweepDone
  exact hs4.raiseInt

protected theorem Kept.loseCore {d : DieId} {c : CoreId} (h : Kept s0 s) : Kept s0 (loseCore s d c) := by
  unfold loseCore
  extract_lets s1
  have hs1 : Kept s0 s1 := h.fenceCore
  exact .ite hs1.dieFault hs1

protected theorem Kept.execCoreWdtExpiry {d : DieId} {core : CoreId}
    (h : Kept s0 s) : OutKept s0 (execCoreWdtExpiry d core s) :=
  (h.onDie (fun _ hu => .ite hu.recordErr.loseCore hu)).out

protected theorem Kept.kickCores {d : DieId} {v : Word} (h : Kept s0 s) : Kept s0 (kickCores s d v) :=
  h.foldl (fun _ _ hu => .ite hu.updCore hu)

protected theorem Kept.execWrkKick {r : Requester} {d : DieId} {v : Word}
    (h : Kept s0 s) : OutKept s0 (execWrkKick r d v s) :=
  (h.byReq (fun _ hu => hu.rowWrite (fun _ hw => hw.kickCores))).out

protected theorem Kept.execMapLockTimeout {d : DieId} {core : CoreId} {tenant nsid index heldMs : Nat}
    (h : Kept s0 s) : OutKept s0 (execMapLockTimeout d core tenant nsid index heldMs s) := by
  unfold execMapLockTimeout
  apply Kept.out
  refine h.onDie (fun u hu => ?_)
  extract_lets s2 s3
  have hs2 : Kept s0 s2 := hu.rebuildLeaf
  have hs3 : Kept s0 s3 := hs2.regBump.raiseInt.recordErr
  exact .ite hs3.recordEvent.loseCore hu

/-! ### Memory -/

protected theorem Kept.memStore {d : DieId} {a : Nat} {b : Bytes} (h : Kept s0 s) : Kept s0 (memStore s d a b) :=
  h.memWrite.updDie

protected theorem Kept.updDmc {d : DieId} {f : Dmc → Dmc} (h : Kept s0 s) : Kept s0 (updDmc s d f) := h.updDie

protected theorem Kept.inOrderMode {d : DieId} {c n : Nat} (h : Kept s0 s) : Kept s0 (inOrderMode s d c n) := by
  unfold inOrderMode
  extract_lets set
  refine .ite h ?_
  split
  · exact h.updDmc.regBump
  · exact h.updDmc

protected theorem Kept.dmcAccept {write : Bool} {d : DieId} {a : Nat} (h : Kept s0 s) : Kept s0 (dmcAccept write d s a) := by
  unfold dmcAccept
  extract_lets which order s1 _ s2
  have hwhich : Kept s0 which.2 := h.drawChoice
  have horder : Kept s0 order.2 := hwhich.drawChoice
  have hs1 : Kept s0 s1 := .ite h horder.updDmc
  have hs2 : Kept s0 s2 := hs1.updDmc
  exact .ite hs2 hs2.inOrderMode

protected theorem Kept.dmcRun {write : Bool} {d : DieId} {a n : Nat} (h : Kept s0 s) : Kept s0 (dmcRun write s d a n) := by
  unfold dmcRun
  exact .ite (h.foldl (fun _ _ hu => hu.dmcAccept)) h

protected theorem Kept.execDmcRefresh {d : DieId} (b : Bool) (h : Kept s0 s) : OutKept s0 (execDmcRefresh d b s) :=
  (h.onDie (fun _ hu => .ite hu.updDmc hu)).out

protected theorem Kept.execNeighbourRefresh {d : DieId} {sub : Fin 2} {bank row : Nat}
    (h : Kept s0 s) : OutKept s0 (execNeighbourRefresh d sub bank row s) := by
  unfold execNeighbourRefresh
  apply Kept.out
  refine h.onDie (fun u hu => ?_)
  extract_lets _ r
  have hr : Kept s0 r.2 := hu.drawChoice
  exact .ite hr.updDmc.regBump hu

protected theorem Kept.execDmcLfsrReseed {d : DieId} (h : Kept s0 s) : OutKept s0 (execDmcLfsrReseed d s) := by
  unfold execDmcLfsrReseed
  apply Kept.out
  refine h.onDie (fun u hu => ?_)
  extract_lets r
  have hr : Kept s0 r.2 := hu.drawBytes
  exact hr.updDmc

protected theorem Kept.dramCorrected {d : DieId} (h : Kept s0 s) : Kept s0 (dramCorrected s d) := h.regBump.raiseInt

protected theorem Kept.dramUncorrectable {d : DieId} {a : Nat} (h : Kept s0 s) : Kept s0 (dramUncorrectable s d a) := by
  unfold dramUncorrectable
  extract_lets s1 s2 s3
  have hs1 : Kept s0 s1 := h.regBump
  have hs2 : Kept s0 s2 := hs1.regSet.regSet
  have hs3 : Kept s0 s3 := hs2.updDmc
  exact hs3.raiseInt.recordErr

@[simp] theorem poisonWrite_mem (x : Die) (n : Nat) : (poisonWrite x n).mem = x.mem := by rfl

protected theorem Kept.rebuildPage {d : DieId} {n : Nat} (h : Kept s0 s) : Kept s0 (rebuildPage s d n) := by
  unfold rebuildPage
  extract_lets
  split
  · exact h
  · exact h.rebuildLeaf

protected theorem Kept.dramRegionHit {d : DieId} {a : Nat} (h : Kept s0 s) : Kept s0 (dramRegionHit s d a) := by
  unfold dramRegionHit
  split
  · exact h.updDie
  · exact h.rebuildPage
  · exact h.dieFault

protected theorem Kept.scrubEnd {d : DieId} (h : Kept s0 s) : Kept s0 (scrubEnd s d) := h.updDmc.raiseInt

protected theorem Kept.execDmcScrub {d : DieId} {addr : Nat} {b : BurstState} (h : Kept s0 s) :
    OutKept s0 (execDmcScrub d addr b s) := by
  refine (h.onBlock fun s hs => .ite ?_ hs).out
  extract_lets t u v
  have ht : Kept s0 t := hs.dmcRun
  have hu : Kept s0 u := by
    unfold u
    split
    · exact ht
    · exact ht.dramCorrected
    · exact ht.dramUncorrectable
  have hv : Kept s0 v := .ite hu.scrubEnd hu
  exact .ite hv.dramRegionHit hv

protected theorem Kept.trainWrite {d : DieId} {v : Word} (h : Kept s0 s) : Kept s0 (trainWrite s d v) := by
  unfold trainWrite
  extract_lets s1
  have hs1 : Kept s0 s1 := h.storeReg
  exact .ite hs1.regFld.updDmc hs1

protected theorem Kept.execDmcTrainOp {r : Requester} {d : DieId} {v : Word}
    (h : Kept s0 s) : OutKept s0 (execDmcTrainOp r d v s) :=
  (h.byReq (fun _ hu => hu.rowWrite (fun _ hw => hw.trainWrite))).out

protected theorem Kept.trainErrors {d : DieId} {l : List Nat} (h : Kept s0 s) : Kept s0 (trainErrors s d l) :=
  h.foldl (fun _ _ hu => hu.regSet)

protected theorem Kept.execDmcTrainDone {d : DieId} {errors : List Nat} {failLane : Option Nat}
    (h : Kept s0 s) : OutKept s0 (execDmcTrainDone d errors failLane s) := by
  unfold execDmcTrainDone
  apply Kept.out
  refine h.onDie (fun u hu => ?_)
  extract_lets s1 s2
  have hs1 : Kept s0 s1 := hu.trainErrors.regFld.updDmc
  have hs2 : Kept s0 s2 := hs1.raiseInt
  refine .ite ?_ hu
  split
  · exact hs2
  · exact hs2.handBack.recordErr.updDie

protected theorem Kept.threadPool {d : DieId} {q : Pool} (h : Kept s0 s) : Kept s0 (threadPool s d q) :=
  h.foldl (fun _ _ hu => hu.memStore)

protected theorem Kept.enablePool {d : DieId} {p : Fin 16} {q : Pool} (h : Kept s0 s) : Kept s0 (enablePool s d p q) := by
  unfold enablePool
  exact .ite h.threadPool.settlePool h.setPool.bpmErr

protected theorem Kept.disablePool {d : DieId} {p : Fin 16} {q : Pool} (h : Kept s0 s) : Kept s0 (disablePool s d p q) := by
  unfold disablePool
  extract_lets s1
  have hs1 : Kept s0 s1 := h.setPool.pfcUpdate
  exact .ite hs1.openWindows hs1

protected theorem Kept.lockNote {base off : Nat} {old v : Word} {r : RegSpec}
    (h : Kept s0 s) : Kept s0 (lockNote s base off old v r) := by
  unfold lockNote
  exact .ite h.recordErr h

protected theorem Kept.poolCfgWrite {d : DieId} {v : Word} (h : Kept s0 s) : Kept s0 (poolCfgWrite s d v) := by
  unfold poolCfgWrite
  extract_lets _ _ _ _ _ s1
  have hs1 : Kept s0 s1 := h.lockNote
  exact .ite h.badValue (.ite h.badValue (.ite hs1.enablePool (.ite hs1.disablePool (.ite hs1.settlePool hs1.setPool))))

protected theorem Kept.poolThrWrite {d : DieId} {off : Nat} {v : Word}
    (h : Kept s0 s) : Kept s0 (poolThrWrite s d off v) := by
  unfold poolThrWrite
  exact .ite h.badValue (.ite h.settlePool h.setPool)

protected theorem Kept.poolBaseWrite {d : DieId} {lo : Option Word} {hi : Word}
    (h : Kept s0 s) : Kept s0 (poolBaseWrite s d lo hi) := by
  unfold poolBaseWrite
  exact .ite h.badValue (.ite (.ite h h.recordErr) h.setPool)

protected theorem Kept.execBpmPoolEnable {r : Requester} {d : DieId} {v : Word}
    (h : Kept s0 s) : OutKept s0 (execBpmPoolEnable r d v s) :=
  (h.byReq (fun _ hu => hu.rowWrite (fun _ hw => hw.poolCfgWrite))).out

protected theorem Kept.execBpmAlloc {d : DieId} {pool : Fin 16} {owner : Nat}
    (h : Kept s0 s) : OutKept s0 (execBpmAlloc d pool owner s) := by
  unfold execBpmAlloc
  apply Kept.out
  refine h.onDie (fun u hu => ?_)
  extract_lets r x _ s1
  have hr : Kept s0 r.2 := hu.allocBuf
  have hs1 : Kept s0 s1 := hr.same
  exact .ite hs1.dieFault hs1

protected theorem Kept.execBpmAdd {d : DieId} {addr actor owner : Nat}
    (h : Kept s0 s) : OutKept s0 (execBpmAdd d addr actor owner s) :=
  (h.onDie (fun _ hu => .ite hu.bpmErr (.ite hu.bpmErr (.ite hu.bpmErr (.ite hu.regBump hu.setRefs))))).out

protected theorem Kept.execBpmMove {d : DieId} {addr src dst : Nat}
    (h : Kept s0 s) : OutKept s0 (execBpmMove d addr src dst s) :=
  (h.onDie (fun _ hu => .ite hu.bpmErr (.ite hu.bpmErr (.ite hu.bpmErr hu.setRefs)))).out

protected theorem Kept.execBpmDrop {d : DieId} {addr owner : Nat} (h : Kept s0 s) : OutKept s0 (execBpmDrop d addr owner s) :=
  (h.onDie (fun _ hu => .ite hu.bpmErr (.ite hu.bpmErr hu.dropRef))).out

protected theorem Kept.execBpmFree {d : DieId} {pool : Fin 16} {addr : Nat}
    (h : Kept s0 s) : OutKept s0 (execBpmFree d pool addr s) :=
  (h.onDie (fun _ hu => hu.pushBuf)).out

protected theorem Kept.sweepWrite {d : DieId} {v : Word} (h : Kept s0 s) : Kept s0 (sweepWrite s d v) := by
  unfold sweepWrite
  extract_lets _ _ s1 s2
  have hs1 : Kept s0 s1 := h.storeReg
  have hs2 : Kept s0 s2 := hs1.sweepOwner.updDie
  exact .ite hs1 (.ite hs2.regFld (.ite hs1.updDie hs1))

protected theorem Kept.execBpmSweep {r : Requester} {d : DieId} {v : Word}
    (h : Kept s0 s) : OutKept s0 (execBpmSweep r d v s) :=
  (h.byReq (fun _ hu => hu.rowWrite (fun _ hw => hw.sweepWrite))).out

protected theorem Kept.execBpmSweepDone {d : DieId} (h : Kept s0 s) : OutKept s0 (execBpmSweepDone d s) :=
  (h.onDie (fun _ hu => .ite hu.sweepDone hu)).out

protected theorem Kept.execBpmUnfence {r : Requester} {d : DieId} {v : Word}
    (h : Kept s0 s) : OutKept s0 (execBpmUnfence r d v s) :=
  (h.byReq (fun _ hu => hu.rowWrite (fun _ hw => hw.sweepWrite))).out

protected theorem Kept.minFreeRead {d : DieId} (h : Kept s0 s) : Kept s0 (minFreeRead s d).2 := by
  unfold minFreeRead
  extract_lets
  exact h.setPool

protected theorem Kept.execBpmMinFreeRead {r : Requester} {d : DieId}
    (h : Kept s0 s) : OutKept s0 (execBpmMinFreeRead r d s) := by
  unfold execBpmMinFreeRead
  apply Kept.out
  refine h.byReq (fun u hu => ?_)
  extract_lets r' x
  have hr' : Kept s0 r'.2 := hu.minFreeRead
  exact .ite hr'.same hu

protected theorem Kept.updMov {d : DieId} {f : Mov → Mov} (h : Kept s0 s) : Kept s0 (updMov s d f) := h.updDie

protected theorem Kept.movRefuse {d : DieId} {code : Nat} (h : Kept s0 s) : Kept s0 (movRefuse s d code) := h.updMov.recordErr

protected theorem Kept.movLook {d : DieId} (h : Kept s0 s) : Kept s0 (movLook s d) := by
  unfold movLook
  exact .ite h.updMov (.ite h.movRefuse (.ite h.movRefuse h))

protected theorem Kept.doorbell {d : DieId} {v : Word} (h : Kept s0 s) : Kept s0 (doorbell s d v) := by
  unfold doorbell
  extract_lets s1 s2
  have hs1 : Kept s0 s1 := h.storeReg
  have hs2 : Kept s0 s2 := hs1.updMov
  exact .ite hs2.updMov.movLook hs2

protected theorem Kept.execMovDoorbell {r : Requester} {d : DieId} {v : Word}
    (h : Kept s0 s) : OutKept s0 (execMovDoorbell r d v s) :=
  (h.byReq (fun _ hu => hu.rowWrite (fun _ hw => hw.doorbell))).out

protected theorem Kept.gatherRun {d : DieId} {e : Desc} (h : Kept s0 s) : Kept s0 (gatherRun s d e) := by
  unfold gatherRun
  extract_lets _ s1
  have hs1 : Kept s0 s1 := h.foldl (fun _ _ hu => hu.memStore)
  exact hs1.foldl (fun _ _ hu => hu.memStore)

protected theorem Kept.scatterRun {d : DieId} {e : Desc} (h : Kept s0 s) : Kept s0 (scatterRun s d e) :=
  h.foldl (fun _ _ hu => hu.memStore)

protected theorem Kept.copyRun {d : DieId} {e : Desc} (h : Kept s0 s) : Kept s0 (copyRun s d e) := h.memStore

protected theorem Kept.descTraffic {d : DieId} {e : Desc} (h : Kept s0 s) : Kept s0 (descTraffic s d e) := by
  unfold descTraffic
  extract_lets s1 s2
  have hs1 : Kept s0 s1 := h.dmcRun
  have hs2 : Kept s0 s2 := hs1.foldl (fun _ _ hu => hu.dmcRun)
  exact hs2.foldl (fun _ _ hu => hu.dmcRun)

protected theorem Kept.movRun {d : DieId} {op : Nat} {run : State → DieId → Desc → State}
    (h : Kept s0 s) (hrun : ∀ t x1 x2, Kept s0 t → Kept s0 (run t x1 x2)) : Kept s0 (movRun s d op run) := by
  unfold movRun
  extract_lets _ _ s1
  have hs1 : Kept s0 s1 := ((hrun _ _ _ h).descTraffic).updMov
  exact .ite (.ite hs1.movLook h) h

protected theorem Kept.onMov {d : DieId} {f : State → State}
    (h : Kept s0 s) (hf : ∀ t, Kept s0 t → Kept s0 (f t)) : Kept s0 (onMov s d f) := by
  unfold onMov
  exact .ite (hf _ h) h

protected theorem Kept.execGather {d : DieId} (h : Kept s0 s) : OutKept s0 (execGather d s) :=
  (h.onMov (fun _ hu => hu.movRun (fun _ _ _ hw => hw.gatherRun))).out

protected theorem Kept.execScatter {d : DieId} (h : Kept s0 s) : OutKept s0 (execScatter d s) :=
  (h.onMov (fun _ hu => hu.movRun (fun _ _ _ hw => hw.scatterRun))).out

protected theorem Kept.execCopy {d : DieId} (h : Kept s0 s) : OutKept s0 (execCopy d s) :=
  (h.onMov (fun _ hu => hu.movRun (fun _ _ _ hw => hw.copyRun))).out

@[simp] theorem pulseAt_mem (x : Die) (target chan tag : Nat) : (pulseAt x target chan tag).mem = x.mem := by
  unfold pulseAt
  split
  · split <;> rfl
  · rfl

protected theorem Kept.execMovPulse {d : DieId} (h : Kept s0 s) : OutKept s0 (execMovPulse d s) := by
  unfold execMovPulse
  apply Kept.out
  refine h.onMov (fun u hu => ?_)
  split
  · exact hu
  · extract_lets s1
    have hs1 : Kept s0 s1 := hu.updMov
    exact hs1.regBump.updDieOf (by simp)

/-! ### Power -/

@[simp] theorem updCsq_mem (x : Die) (f : Csq → Csq) : (updCsq x f).mem = x.mem := by rfl

protected theorem Kept.reachState {d : DieId} {p : PowerState} {f : Die → Die} (h : Kept s0 s)
    (hf : ∀ x, (f x).mem = x.mem) : Kept s0 (reachState s d p f) := (h.updDieOf (by simp [hf])).raiseInt

protected theorem Kept.entryStep {d : DieId} {f : Die → Die} (h : Kept s0 s)
    (hf : ∀ x, (f x).mem = x.mem) : Kept s0 (entryStep s d f) := h.updDieOf (by simp [hf])

protected theorem Kept.execIdleEntry {d : DieId} (h : Kept s0 s) : OutKept s0 (execIdleEntry d s) :=
  (h.onDie (fun _ hu => .ite (.ite (.ite (hu.entryStep (by intro; rfl)) hu) (hu.reachState (by intro; rfl))) hu)).out

protected theorem Kept.execSleepEntry {d : DieId} (h : Kept s0 s) : OutKept s0 (execSleepEntry d s) := by
  unfold execSleepEntry
  apply Kept.out
  refine h.onDie (fun u hu => ?_)
  refine .ite ?_ hu
  split
  · exact .ite (hu.entryStep fun _ => rfl) hu
  · exact hu.entryStep fun _ => rfl
  · exact hu.reachState fun _ => rfl

protected theorem Kept.execDeepRequest {d : DieId} (h : Kept s0 s) : OutKept s0 (execDeepRequest d s) :=
  (h.onDie (fun _ hu => .ite hu.updDie hu)).out

protected theorem Kept.portDown {d : DieId} {p : PortId} (h : Kept s0 s) : Kept s0 (portDown s d p) := by
  unfold portDown
  exact .ite h.updPort.ethCount.raiseInt h

protected theorem Kept.linksDown {d : DieId} (h : Kept s0 s) : Kept s0 (linksDown s d) := h.portDown.portDown.updDie

protected theorem Kept.selfRefresh {d : DieId} (h : Kept s0 s) : Kept s0 (selfRefresh s d) := h.updDie

protected theorem Kept.deepDie {d : DieId} (h : Kept s0 s) : Kept s0 (deepDie s d) := h.reachState fun _ => rfl

protected theorem Kept.coreRails {mv : Nat} (h : Kept s0 s) : Kept s0 (coreRails s mv) := h.same

protected theorem Kept.refuseDeep {ds : List DieId} (h : Kept s0 s) : Kept s0 (refuseDeep s ds) := by
  unfold refuseDeep
  extract_lets s1
  have hs1 : Kept s0 s1 := .ite h.regBump.raiseInt h.abandonDeep
  exact hs1.overDies (fun _ _ hu => hu.wakeAt)

protected theorem Kept.deepStep {ds : List DieId} (h : Kept s0 s) : Kept s0 (deepStep s ds) := by
  unfold deepStep
  extract_lets x s1
  have hs1 : Kept s0 s1 := (h.overDies (fun _ _ hu => hu.deepDie)).coreRails
  split
  · exact h.same
  · exact .ite ((h.overDies (fun _ _ hu => hu.linksDown)).same) h
  · exact (h.overDies (fun _ _ hu => hu.selfRefresh)).same
  · exact hs1.same

protected theorem Kept.execDeepEntry (h : Kept s0 s) : OutKept s0 (execDeepEntry s) :=
  (Kept.ite h (.ite h.abandonDeep (.ite h.refuseDeep h.deepStep))).out

protected theorem Kept.wakeDie {d : DieId} (h : Kept s0 s) : Kept s0 (wakeDie s d) := h.onDie (fun _ hu => hu.wakeAt)

protected theorem Kept.wakeAll (h : Kept s0 s) : Kept s0 (wakeAll s) := h.overDies (fun _ _ hu => hu.wakeDie)

protected theorem Kept.wake {w : WakeSource} (h : Kept s0 s) : Kept s0 (wake s w) := by
  unfold wake
  split
  · exact h.wakeDie
  · exact .ite h.wakePackage h
  · exact .ite (.ite h.wakePackage h) h.wakeDie
  · exact h.wakeDie
  · exact h.wakeDie
  · exact .ite h.wakePackage h
  · exact .ite h.wakePackage h.wakeAll
  · exact .ite h.wakePackage h
  · exact .ite h.wakePackage h.wakeAll

protected theorem Kept.execWake {w : WakeSource} (h : Kept s0 s) : OutKept s0 (execWake w s) := (Kept.ite h h.wake).out

protected theorem Kept.execPllLock {d : DieId} (h : Kept s0 s) : OutKept s0 (execPllLock d s) := by
  unfold execPllLock
  apply Kept.out
  refine h.onDie (fun u hu => ?_)
  extract_lets s1
  have hs1 : Kept s0 s1 := hu.updDie
  exact .ite hu (.ite hs1.same hs1)

protected theorem Kept.execClockDomainRegate {d : DieId} {page : Nat}
    (h : Kept s0 s) : OutKept s0 (execClockDomainRegate d page s) :=
  (h.onDie (fun _ hu => hu.updDie)).out

protected theorem Kept.shutDown (h : Kept s0 s) : Kept s0 (shutDown s) := by
  unfold shutDown
  extract_lets s0' s1 s2 s3 s4
  have hs0' : Kept s0 s0' := h.wakePackage
  have hs1 : Kept s0 s1 := hs0'.stopAll.overDies (fun _ _ hu => .ite hu.checkpoint hu)
  have hs2 : Kept s0 s2 := .ite hs1.wallMark hs1
  have hs3 : Kept s0 s3 := hs2.norCut.slotSwitch.slotSwitch.railsOff
  have hs4 : Kept s0 s4 := hs3.cutMinute.diesDown
  exact hs4.same

protected theorem Kept.pkgCmdWrite {v : Word} (h : Kept s0 s) : Kept s0 (pkgCmdWrite s v) := by
  unfold pkgCmdWrite
  extract_lets s1
  have hs1 : Kept s0 s1 := .ite h.wakePackage h
  exact .ite hs1.shutDown hs1

protected theorem Kept.execPkgOff {r : Requester} (h : Kept s0 s) : OutKept s0 (execPkgOff r s) :=
  (h.byReq (fun _ hu => hu.rowWrite (fun _ hw => hw.pkgCmdWrite))).out

protected theorem Kept.execPkgWake {r : Requester} (h : Kept s0 s) : OutKept s0 (execPkgWake r s) :=
  (h.byReq (fun _ hu => hu.rowWrite (fun _ hw => hw.pkgCmdWrite))).out

protected theorem Kept.execRtcAlarm (h : Kept s0 s) : OutKept s0 (execRtcAlarm s) := (Kept.ite h.wake h).out

protected theorem Kept.execWakeNLow {us : Nat} (h : Kept s0 s) : OutKept s0 (execWakeNLow us s) :=
  (Kept.ite (.ite h.powerOn.railsOn.leaveReset h) (.ite h.wake h)).out

protected theorem Kept.mgtSend {i : Fin 2} {b : Bytes} (h : Kept s0 s) : Kept s0 (mgtSend s i b) := h.same

protected theorem Kept.mgtMatch {i : Fin 2} (h : Kept s0 s) : Kept s0 (mgtMatch s i) := by
  unfold mgtMatch
  exact .ite h.wakePackage h

protected theorem Kept.mgtRead {i : Fin 2} {code : Nat} {content : State → Bytes}
    (h : Kept s0 s) : Kept s0 (mgtRead s i code content) := by
  unfold mgtRead
  exact .ite h h.mgtMatch.mgtSend

protected theorem Kept.execMgtHealth {i : Fin 2} (h : Kept s0 s) : OutKept s0 (execMgtHealth i s) := h.mgtRead.out

protected theorem Kept.execMgtState {i : Fin 2} (h : Kept s0 s) : OutKept s0 (execMgtState i s) := h.mgtRead.out

protected theorem Kept.execMgtTemp {i : Fin 2} (h : Kept s0 s) : OutKept s0 (execMgtTemp i s) := h.draw.mgtRead.out

protected theorem Kept.execMgtVin {i : Fin 2} (h : Kept s0 s) : OutKept s0 (execMgtVin i s) := h.mgtRead.out

protected theorem Kept.execMgtVbank {i : Fin 2} (h : Kept s0 s) : OutKept s0 (execMgtVbank i s) := h.mgtRead.out

protected theorem Kept.execMgtBank {i : Fin 2} (h : Kept s0 s) : OutKept s0 (execMgtBank i s) := h.mgtRead.out

protected theorem Kept.execMgtDies {i : Fin 2} (h : Kept s0 s) : OutKept s0 (execMgtDies i s) := h.mgtRead.out

protected theorem Kept.execMgtWake {i : Fin 2} {v : Byte} {pec : Option Byte}
    (h : Kept s0 s) : OutKept s0 (execMgtWake i v pec s) := by
  unfold execMgtWake
  extract_lets _ s1
  have hs1 : Kept s0 s1 := h.mgtMatch.mgtSend
  exact (Kept.ite h (.ite hs1.wakePackage hs1)).out

protected theorem Kept.execMgtUnknownCode {i : Fin 2} (v : Byte) (h : Kept s0 s) : OutKept s0 (execMgtUnknownCode i v s) :=
  (Kept.ite h h.mgtMatch.mgtSend).out

protected theorem Kept.execMgtBusTimeout {i : Fin 2} (h : Kept s0 s) : OutKept s0 (execMgtBusTimeout i s) :=
  (Kept.ite h h.mgtSend).out

/-! ### Thermal -/

protected theorem Kept.updThm {w : Site} {f : Thm → Thm} (h : Kept s0 s) : Kept s0 (updThm s w f) := by
  unfold updThm
  split
  · exact h.updDie
  · exact h.same

protected theorem Kept.thmEvents {w : Site} {was now : Nat} (h : Kept s0 s) : Kept s0 (thmEvents s w was now) := by
  unfold thmEvents
  split
  · exact h
  · exact .ite (h.foldl (fun _ _ hu => hu.recordEvent)) h

protected theorem Kept.enterThrottle {d : DieId} (h : Kept s0 s) : Kept s0 (enterThrottle s d) := h.same

protected theorem Kept.endStage2 {w : Site} (h : Kept s0 s) : Kept s0 (endStage2 s w) := by
  unfold endStage2
  split
  · exact h
  · exact .ite h.updThm.raiseInt h

protected theorem Kept.setThm {w : Site} {n : Nat} (h : Kept s0 s) : Kept s0 (setThm s w n) := by
  unfold setThm
  extract_lets _ s1
  have hs1 : Kept s0 s1 := h.updThm.raiseInt
  refine .ite h (.ite ?_ (.ite hs1.endStage2 hs1))
  cases w with
  | die d => exact hs1.enterThrottle
  | guard => exact hs1

protected theorem Kept.hotDie {d : DieId} (h : Kept s0 s) : Kept s0 (hotDie s d) := by
  unfold hotDie
  extract_lets _ _ s1 x
  have hs1 : Kept s0 s1 := (h.setDieOf (by rfl))
  have hx : Kept s0 x := hs1.regsDrop
  exact hx.same

protected theorem Kept.thermalStop {d : DieId} (h : Kept s0 s) : Kept s0 (thermalStop s d) := by
  unfold thermalStop
  extract_lets s0' s1
  have hs0' : Kept s0 s0' := h.endAll.finishWrites
  have hs1 : Kept s0 s1 := hs0'.handBack
  exact hs1.flushDie.confirmBarriers.holdLinks.hotDie

protected theorem Kept.thermalHold (h : Kept s0 s) : Kept s0 (thermalHold s) := by
  unfold thermalHold
  extract_lets s0' s1 s2 x
  have hs0' : Kept s0 s0' := h.wakePackage
  have hs1 : Kept s0 s1 := hs0'.overDies (fun _ _ hu => hu.endAll)
  have hs2 : Kept s0 s2 := (hs1.overDies (fun _ _ hu => hu.thermalStop)).slotSwitch
  have hx : Kept s0 x := hs2.cutMinute
  exact hx.same

protected theorem Kept.thermalAct {w : Site} (h : Kept s0 s) : Kept s0 (thermalAct s w) := by
  unfold thermalAct
  refine .ite h ?_
  refine .ite h ?_
  split
  · exact h.thermalHold
  · exact .ite h (.ite h.thermalHold h.thermalStop)

protected theorem Kept.thmSample {w : Site} {readings : List Int} (h : Kept s0 s) : Kept s0 (thmSample s w readings) := by
  unfold thmSample
  extract_lets _ _ _ s1 _ s2 s3 _ s4
  have hs1 : Kept s0 s1 := h.updThm
  have hs2 : Kept s0 s2 := .ite hs1.raiseInt hs1
  have hs3 : Kept s0 s3 := .ite hs2.recordErr hs2
  have hs4 : Kept s0 s4 := hs3.thmEvents
  exact hs4.setThm.thermalAct

protected theorem Kept.takeExternal {w : Site} {readings : List Int}
    (h : Kept s0 s) : Kept s0 (takeExternal s w readings) := by
  unfold takeExternal
  split
  · exact h
  · exact h.same

protected theorem Kept.execThmSample {x : Site} {readings : List Int}
    (h : Kept s0 s) : OutKept s0 (execThmSample x readings s) :=
  (Kept.ite h.takeExternal.thmSample h).out

protected theorem Kept.execThmStateExit {x : Site} (h : Kept s0 s) : OutKept s0 (execThmStateExit x s) :=
  (Kept.ite h.setThm h).out

protected theorem Kept.execSensorRecover {x : Site} {n : Fin 12} (h : Kept s0 s) : OutKept s0 (execSensorRecover x n s) :=
  (Kept.ite h.updThm h).out

protected theorem Kept.execThmStage2 {d : DieId} (h : Kept s0 s) : OutKept s0 (execThmStage2 d s) :=
  (h.onDie (fun _ hu => .ite hu.updThm.raiseInt hu)).out

protected theorem Kept.packageRestart (h : Kept s0 s) : Kept s0 (packageRestart s) := by
  unfold packageRestart
  extract_lets s1
  have hs1 : Kept s0 s1 := h.slotSwitch
  exact hs1.same.enterReset.leaveReset

protected theorem Kept.execThermalRestart {x : Site} (h : Kept s0 s) : OutKept s0 (execThermalRestart x s) := by
  unfold execThermalRestart
  apply Kept.out
  refine .ite h ?_
  refine .ite (.ite h.packageRestart h) ?_
  split
  · exact h
  · exact .ite h.setThm.restartDie h

protected theorem Kept.roundFree {num : Int} {den : Nat} (h : Kept s0 s) : Kept s0 (roundFree s num den).2 := by
  unfold roundFree
  extract_lets r
  have hr : Kept s0 r.2 := h.drawChoice
  split
  · exact h
  · exact hr

protected theorem Kept.trimAt {tab : List Int} {sum : Int} {n : Nat} (h : Kept s0 s) : Kept s0 (trimAt s tab sum n).2 := by
  unfold trimAt
  extract_lets _ _ _ _ r
  have hr : Kept s0 r.2 := h.drawChoice
  split
  · exact hr
  · exact h.roundFree

protected theorem Kept.trimUpdate {w : Site} (h : Kept s0 s) : Kept s0 (trimUpdate s w) := by
  unfold trimUpdate
  extract_lets t good b
  have hb : Kept s0 b.2 := h.trimAt
  refine .ite h ?_
  cases w with
  | guard => exact hb.updThm
  | die d => exact hb.trimAt.updThm

protected theorem Kept.execThmTrimUpdate {x : Site} (h : Kept s0 s) : OutKept s0 (execThmTrimUpdate x s) :=
  (Kept.ite h.trimUpdate h).out

protected theorem Kept.putTrim {w : Site} {x : Int} (h : Kept s0 s) : Kept s0 (putTrim s w x) := by
  unfold putTrim
  exact h.updThm

protected theorem Kept.thmDataWrite {w : Site} {v : Word} (h : Kept s0 s) : Kept s0 (thmDataWrite s w v) := by
  unfold thmDataWrite
  extract_lets
  refine h.rowWrite (fun u hu => ?_)
  extract_lets s1
  have hs1 : Kept s0 s1 := .ite (.ite hu hu.recordErr) hu.putTrim
  exact .ite hs1.updThm hs1

protected theorem Kept.execThmLoaded {r : Requester} {x : Site} {v : Word}
    (h : Kept s0 s) : OutKept s0 (execThmLoaded r x v s) :=
  (h.byReq (fun _ hu => .ite hu.thmDataWrite hu)).out

/-! ### CipherAlarms -/

protected theorem Kept.lockGone {src : AlarmSource} {w : Site} (h : Kept s0 s) : Kept s0 (lockGone s src w) := by
  unfold lockGone
  split
  · exact h.updDie
  · exact h

protected theorem Kept.alarmDie {src : AlarmSource} {w : Site} {d : DieId}
    (h : Kept s0 s) : Kept s0 (alarmDie src w s d) := by
  unfold alarmDie
  extract_lets s1 s2
  have hs1 : Kept s0 s1 := h.updDie
  have hs2 : Kept s0 s2 := hs1.regSet
  exact .ite hs2.regBump.raiseInt h

protected theorem Kept.alarmSessions {d : DieId} (h : Kept s0 s) : Kept s0 (alarmSessions s d) := by
  unfold alarmSessions
  extract_lets s1
  have hs1 : Kept s0 s1 := h.terminateWhere
  exact hs1.foldl (fun _ _ hu => hu.endSession)

protected theorem Kept.noteTamper {src : AlarmSource} (h : Kept s0 s) : Kept s0 (noteTamper s src) := by
  unfold noteTamper
  split
  · exact h.same
  · exact h

protected theorem Kept.alarmHold (h : Kept s0 s) : Kept s0 (alarmHold s) := by
  unfold alarmHold
  extract_lets s1
  have hs1 : Kept s0 s1 := h.stopAll.enterReset
  exact hs1.same

protected theorem Kept.alarm {src : AlarmSource} {w : Site} (h : Kept s0 s) : Kept s0 (alarm s src w) := by
  unfold alarm
  extract_lets s0' s1 s2 _ s3 _ _ s4
  have hs0' : Kept s0 s0' := h.wake.lockGone.noteTamper
  have hs1 : Kept s0 s1 := hs0'.overDies (fun _ _ hu => hu.alarmDie)
  have hs2 : Kept s0 s2 := hs1.overDies (fun _ _ hu => hu.alarmSessions)
  have hs3 : Kept s0 s3 := .ite hs2.recordEvent hs2
  have hs4 : Kept s0 s4 := hs3.same
  exact .ite hs4.alarmHold hs4

protected theorem Kept.execAlarm {src : AlarmSource} {x : Site} (h : Kept s0 s) : OutKept s0 (execAlarm src x s) :=
  (Kept.ite h (.ite h.alarm h)).out

protected theorem Kept.execAlarmRecover (h : Kept s0 s) : OutKept s0 (execAlarmRecover s) := (Kept.ite h h.warmReset).out

protected theorem Kept.execEntropyHealthFail {d : DieId} (h : Kept s0 s) : OutKept s0 (execEntropyHealthFail d s) := by
  unfold execEntropyHealthFail
  apply Kept.out
  refine h.onDie (fun u hu => ?_)
  extract_lets s1
  have hs1 : Kept s0 s1 := hu.regBump.raiseInt.recordErr
  exact hs1.updDie.entropyUpdate

protected theorem Kept.execEntropyStartupPass {d : DieId} (h : Kept s0 s) : OutKept s0 (execEntropyStartupPass d s) :=
  (h.onDie (fun _ hu => hu.updDie.entropyUpdate)).out

protected theorem Kept.execDrbgReseed {d : DieId} (h : Kept s0 s) : OutKept s0 (execDrbgReseed d s) :=
  (h.onDie (fun _ hu => .ite hu hu.updDie)).out

protected theorem Kept.execCtrBoundRequest {d : DieId} {slot : Nat}
    (h : Kept s0 s) : OutKept s0 (execCtrBoundRequest d slot s) := by
  unfold execCtrBoundRequest
  apply Kept.out
  refine h.onDie (fun u hu => ?_)
  split
  · exact hu
  · extract_lets _ s1
    have hs1 : Kept s0 s1 := hu.journalPut
    exact .ite hs1.updDie.raiseInt hu

/-! ### Ethernet -/

protected theorem Kept.answerOne {d : DieId} {p : PortId} {t1 : Nat → TxPkt}
    (h : Kept s0 s) : Kept s0 (answerOne s d p t1) := by
  unfold answerOne
  extract_lets _ r s1
  have hr : Kept s0 r.2 := h.drawChoice
  have hs1 : Kept s0 s1 := hr.updPort
  exact .ite hs1.ethCount.queueTx h.ethCount

protected theorem Kept.arpIn {d : DieId} {p : PortId} {h1 : RxHead} {b : Bytes}
    (h : Kept s0 s) : Kept s0 (arpIn s d p h1 b) := by
  unfold arpIn
  exact .ite h.answerOne h

protected theorem Kept.nsIn {d : DieId} {p : PortId} {h1 : RxHead} {b : Bytes}
    (h : Kept s0 s) : Kept s0 (nsIn s d p h1 b) := by
  unfold nsIn
  exact .ite h.answerOne h

protected theorem Kept.announceSlot {d : DieId} {p : PortId} {a : AddrSlot}
    (h : Kept s0 s) : Kept s0 (announceSlot d p s a) := by
  unfold announceSlot
  extract_lets r
  have hr : Kept s0 r.2 := h.drawChoice
  exact hr.queueTx

protected theorem Kept.announce {d : DieId} {p : PortId} (h : Kept s0 s) : Kept s0 (announce s d p) :=
  h.foldl (fun _ _ hu => hu.announceSlot)

protected theorem Kept.pfcPrio {d : DieId} {p : PortId} {b : Bytes} {l3 n : Nat}
    (h : Kept s0 s) : Kept s0 (pfcPrio d p b l3 s n) := by
  unfold pfcPrio
  extract_lets s1
  have hs1 : Kept s0 s1 := h.ethCount
  exact .ite (.ite hs1.updPort hs1) h

protected theorem Kept.macControl {d : DieId} {p : PortId} {h1 : RxHead} {b : Bytes}
    (h : Kept s0 s) : Kept s0 (macControl s d p h1 b) := by
  unfold macControl
  exact .ite (h.foldl (fun _ _ hu => hu.pfcPrio)) (.ite h.ethCount h)

protected theorem Kept.takeBuffers {d : DieId} {p : Fin 16} {n : Nat} {l : List Nat}
    (h : Kept s0 s) : Kept s0 (takeBuffers d p n s l).2 := by
  induction n generalizing d p s l with
  | zero =>
    exact h
  | succ n ih =>
    unfold takeBuffers
    extract_lets r
    have hr : Kept s0 r.2 := h.allocBuf
    split
    · exact hr
    · exact ih hr

protected theorem Kept.fillBuffers {d : DieId} {size : Nat} {l : List Nat} {l1 : Bytes}
    (h : Kept s0 s) : Kept s0 (fillBuffers d size l l1 s) := by
  induction l generalizing d size l1 s with
  | nil =>
    exact h
  | cons x l ih =>
    exact ih h.memWrite

protected theorem Kept.dropBuffers {d : DieId} {l : List Nat} (h : Kept s0 s) : Kept s0 (dropBuffers s d l) :=
  h.foldl (fun _ _ hu => hu.dropRef)

protected theorem Kept.rxBody {d : DieId} {p : PortId} {h1 : RxHead} {f : Frame} {queue : Nat}
    (h : Kept s0 s) : Kept s0 (rxBody s d p h1 f queue) := by
  unfold rxBody
  extract_lets _ _ _ _ _ t' fcs s1 s2
  have ht' : Kept s0 t'.2 := h.takeBuffers
  have hfcs : Kept s0 fcs.2 := by
    unfold fcs
    split
    · exact ht'
    · exact ht'.drawBytes
  have hs1 : Kept s0 s1 := hfcs.fillBuffers
  have hs2 : Kept s0 s2 := hs1.updDie
  exact .ite hs1.dropBuffers.ethCount (.ite hs1.dropBuffers.ethCount (.ite hs1.dropBuffers.ethCount hs2.ethCount.ethCount))

protected theorem Kept.rxSteps {d : DieId} {p : PortId} {f : Frame} (h : Kept s0 s) : Kept s0 (rxSteps s d p f) := by
  unfold rxSteps
  extract_lets
  refine .ite h.ethCount ?_
  refine .ite h.macControl ?_
  refine .ite h.ethCount ?_
  refine .ite h.arpIn ?_
  refine .ite h.nsIn ?_
  refine .ite h ?_
  split
  · exact h.ethCount
  · extract_lets _ s1
    have hs1 : Kept s0 s1 := h.rxBody
    exact .ite hs1.dieFault hs1

protected theorem Kept.rxFrame {d : DieId} {p : PortId} {f : Frame} (h : Kept s0 s) : Kept s0 (rxFrame s d p f) := by
  unfold rxFrame
  extract_lets s1
  have hs1 : Kept s0 s1 := h.wakeDie
  exact .ite ((Kept.ite hs1 hs1.ethCount).rxSteps) h

protected theorem Kept.execRxFrame {d : DieId} {p : PortId} {f : Frame} (h : Kept s0 s) : OutKept s0 (execRxFrame d p f s) :=
  (h.onBlock (fun _ hu => hu.rxFrame)).out

protected theorem Kept.execPfcPauseExpire {d : DieId} {p : PortId} {prio : Fin 8}
    (h : Kept s0 s) : OutKept s0 (execPfcPauseExpire d p prio s) :=
  (h.onDie (fun _ hu => hu.updPort)).out

protected theorem Kept.execPfcResend {d : DieId} {p : PortId} (h : Kept s0 s) : OutKept s0 (execPfcResend d p s) :=
  (h.onDie (fun _ hu => .ite hu.sendPfc hu)).out

protected theorem Kept.wdDrop {d : DieId} {p : PortId} (h : Kept s0 s) : Kept s0 (wdDrop s d p) := h.ethCount.raiseInt

protected theorem Kept.execPfcWatchdog {d : DieId} {p : PortId} {prio : Fin 8}
    (h : Kept s0 s) : OutKept s0 (execPfcWatchdog d p prio s) := by
  unfold execPfcWatchdog
  apply Kept.out
  refine h.onDie (fun u hu => ?_)
  extract_lets _ s1
  have hs1 : Kept s0 s1 := hu.updPort
  exact .ite (hs1.foldl (fun _ _ hw => hw.wdDrop)) hu

protected theorem Kept.underrun {d : DieId} {p : PortId} {t1 : TxPkt} (h : Kept s0 s) : Kept s0 (underrun s d p t1) := by
  unfold underrun
  extract_lets s1
  have hs1 : Kept s0 s1 := h.sendFrame.ethCount.raiseInt
  exact hs1.regFld

protected theorem Kept.txFrame {d : DieId} {p : PortId} {short : Bool} (h : Kept s0 s) : Kept s0 (txFrame s d p short) := by
  unfold txFrame
  extract_lets
  split
  · exact h
  · extract_lets s1
    have hs1 : Kept s0 s1 := h.updPort
    exact .ite hs1.sendFrame (.ite hs1.wdDrop (.ite hs1.underrun hs1.sendFrame))

protected theorem Kept.execTxFrame {d : DieId} {p : PortId} {underrun : Bool}
    (h : Kept s0 s) : OutKept s0 (execTxFrame d p underrun s) :=
  (h.onBlock (fun _ hu => hu.txFrame)).out

protected theorem Kept.execLinkUp {d : DieId} {p : PortId} (h : Kept s0 s) : OutKept s0 (execLinkUp d p s) := by
  unfold execLinkUp
  apply Kept.out
  refine h.onBlock (fun u hu => ?_)
  extract_lets _ s1
  have hs1 : Kept s0 s1 := hu.updPort
  exact .ite hu hs1.raiseInt.announce

protected theorem Kept.execLinkDown {d : DieId} {p : PortId} (h : Kept s0 s) : OutKept s0 (execLinkDown d p s) :=
  (h.onDie (fun _ hu => hu.portDown)).out

protected theorem Kept.execLinkTrainFail {d : DieId} {p : PortId} (h : Kept s0 s) : OutKept s0 (execLinkTrainFail d p s) :=
  (h.onBlock (fun _ hu => .ite hu hu.updPort.recordErr)).out

protected theorem Kept.snapshot {d : DieId} {p : PortId} (h : Kept s0 s) : Kept s0 (snapshot s d p) := by
  unfold snapshot
  extract_lets _ s1
  have hs1 : Kept s0 s1 := h.updPort
  exact hs1.regBump.raiseInt

protected theorem Kept.statCmdWrite {d : DieId} {p : PortId} {v : Word} (h : Kept s0 s) : Kept s0 (statCmdWrite s d p v) := by
  unfold statCmdWrite
  extract_lets
  refine h.rowWrite (fun u hu => ?_)
  extract_lets s1
  have hs1 : Kept s0 s1 := hu.storeReg
  exact .ite hs1.snapshot hs1

protected theorem Kept.execEthSnap {r : Requester} {d : DieId} {p : PortId} {v : Word}
    (h : Kept s0 s) : OutKept s0 (execEthSnap r d p v s) :=
  (h.byReq (fun _ hu => .ite hu.statCmdWrite hu)).out

protected theorem Kept.fltActWrite {d : DieId} {p : PortId} {v : Word} (h : Kept s0 s) : Kept s0 (fltActWrite s d p v) := by
  unfold fltActWrite
  extract_lets
  refine h.rowWrite (fun u hu => ?_)
  extract_lets s1
  have hs1 : Kept s0 s1 := hu.storeReg
  exact hs1.updPort

protected theorem Kept.execEthFltAct {r : Requester} {d : DieId} {p : PortId} {v : Word}
    (h : Kept s0 s) : OutKept s0 (execEthFltAct r d p v s) :=
  (h.byReq (fun _ hu => hu.fltActWrite)).out

protected theorem Kept.addrCfgWrite {d : DieId} {p : PortId} {v : Word} (h : Kept s0 s) : Kept s0 (addrCfgWrite s d p v) := by
  unfold addrCfgWrite
  extract_lets
  refine h.rowWrite (fun u hu => ?_)
  extract_lets s1
  have hs1 : Kept s0 s1 := hu.updPort
  exact .ite hu.badValue (.ite hs1.announce hs1)

protected theorem Kept.execEthAddrCfg {r : Requester} {d : DieId} {p : PortId} {v : Word}
    (h : Kept s0 s) : OutKept s0 (execEthAddrCfg r d p v s) :=
  (h.byReq (fun _ hu => hu.addrCfgWrite)).out

protected theorem Kept.addrDataWrite {d : DieId} {p : PortId} {i : Nat} {v : Word}
    (h : Kept s0 s) : Kept s0 (addrDataWrite s d p i v) :=
  h.updPort

/-! ### Interrupts -/

protected theorem Kept.putSrc {d : DieId} {q : IcuSrc} (h : Kept s0 s) : Kept s0 (putSrc s d q) := h.updDie

protected theorem Kept.icuFall {d : DieId} (h : Kept s0 s) : Kept s0 (icuFall s d) := h.updDie

protected theorem Kept.icuFallAll (h : Kept s0 s) : Kept s0 (icuFallAll s) := h.overDies (fun _ _ hu => hu.icuFall)

protected theorem Kept.icuShow {d : DieId} {n : Nat} (h : Kept s0 s) : Kept s0 (icuShow d s n) := by
  unfold icuShow
  extract_lets _ s1 s2
  have hs1 : Kept s0 s1 := h.putSrc
  have hs2 : Kept s0 s2 := .ite hs1 hs1.updDie
  exact .ite hs2.wakeDie h

protected theorem Kept.icuCount {d : DieId} {n : Nat} {raised : Bool} (h : Kept s0 s) : Kept s0 (icuCount s d n raised) :=
  h.putSrc.icuShow

protected theorem Kept.execIcuEvent {d : DieId} {src : Nat} (h : Kept s0 s) : OutKept s0 (execIcuEvent d src s) := by
  unfold execIcuEvent
  apply Kept.out
  refine h.onDie (fun u hu => ?_)
  extract_lets s1
  have hs1 : Kept s0 s1 := hu.icuFall
  exact .ite hs1.icuCount hs1

protected theorem Kept.icuClaim {d : DieId} {c : CoreId} (h : Kept s0 s) : Kept s0 (icuClaim s d c) := by
  unfold icuClaim
  extract_lets
  split
  · exact h.same
  · extract_lets s1
    have hs1 : Kept s0 s1 := h.putSrc
    exact hs1.same

protected theorem Kept.execIcuClaim {d : DieId} {core : CoreId} (h : Kept s0 s) : OutKept s0 (execIcuClaim d core s) :=
  (h.onDie (fun _ hu => .ite hu.icuClaim hu)).out

protected theorem Kept.completeWrite {d : DieId} {v : Word} (h : Kept s0 s) : Kept s0 (completeWrite s d v) := by
  unfold completeWrite
  refine h.rowWrite (fun u hu => ?_)
  extract_lets s'
  have hs' : Kept s0 s' := hu.icuFall
  exact .ite (.ite hs'.putSrc.icuShow hs'.putSrc) hs'.regBump.raiseInt

protected theorem Kept.execIcuComplete {r : Requester} {d : DieId} {v : Word}
    (h : Kept s0 s) : OutKept s0 (execIcuComplete r d v s) :=
  (h.byReq (fun _ hu => hu.completeWrite)).out

protected theorem Kept.execIcuSwset {r : Requester} {d : DieId} {v : Word}
    (h : Kept s0 s) : OutKept s0 (execIcuSwset r d v s) :=
  (h.byReq (fun _ hu => hu.rowWrite (fun _ hw => hw.icuCount))).out

protected theorem Kept.execIcuHoldoffExpiry {d : DieId} {g : Fin 16}
    (h : Kept s0 s) : OutKept s0 (execIcuHoldoffExpiry d g s) := by
  unfold execIcuHoldoffExpiry
  apply Kept.out
  refine h.onDie (fun u hu => ?_)
  extract_lets s1
  have hs1 : Kept s0 s1 := hu.updDie
  exact .ite (hs1.foldl (fun _ _ hw => hw.icuShow)) hu

protected theorem Kept.srcCfgWrite {d : DieId} {v : Word} (h : Kept s0 s) : Kept s0 (srcCfgWrite s d v) := h.putSrc.icuShow

/-! ### Swarm -/

protected theorem Kept.setLink {d : DieId} {k : SwmId} {st : LinkState} (h : Kept s0 s) : Kept s0 (setLink s d k st) := by
  unfold setLink
  exact .ite h h.updLink.raiseInt

protected theorem Kept.retireEnd {d : DieId} {k : SwmId} (h : Kept s0 s) : Kept s0 (retireEnd s d k) := by
  unfold retireEnd
  extract_lets s1 s2
  have hs1 : Kept s0 s1 := h.setLink
  have hs2 : Kept s0 s2 := hs1.updLink
  exact .ite hs2.recordErr h

protected theorem Kept.retireLink {d : DieId} {k : SwmId} (h : Kept s0 s) : Kept s0 (retireLink s d k) :=
  h.retireEnd.retireEnd.cutUnreached

protected theorem Kept.retrain {d : DieId} {k : SwmId} (h : Kept s0 s) : Kept s0 (retrain s d k) := by
  unfold retrain
  extract_lets s1
  have hs1 : Kept s0 s1 := h.setLink.regBump
  exact .ite hs1.setLink hs1

protected theorem Kept.replayRound {d : DieId} {k : SwmId} {sameFlit : Bool}
    (h : Kept s0 s) : Kept s0 (replayRound s d k sameFlit) := by
  unfold replayRound
  extract_lets _ s1
  have hs1 : Kept s0 s1 := h.updLink.regBump
  exact .ite hs1.updLink.retrain hs1

protected theorem Kept.forwardFlit {d : DieId} {f : Flit} (h : Kept s0 s) : Kept s0 (forwardFlit s d f) := by
  unfold forwardFlit
  split
  · exact h
  · exact h.updLink

protected theorem Kept.endToEnd {d : DieId} {k : SwmId} {f : Flit} (h : Kept s0 s) : Kept s0 (endToEnd s d k f) := by
  unfold endToEnd
  exact .ite h.regBump h.updLink

protected theorem Kept.flitRx {d : DieId} {k : SwmId} {f : Flit} (h : Kept s0 s) : Kept s0 (flitRx s d k f) := by
  unfold flitRx
  extract_lets _ s1 _ s2
  have hs1 : Kept s0 s1 := h.updLink
  have hs2 : Kept s0 s2 := hs1.updLink.updLink
  exact .ite h (.ite hs1.regBump.replayRound (.ite hs1.replayRound (.ite hs2.endToEnd hs2.forwardFlit)))

protected theorem Kept.execSwmFlitRx {d : DieId} {k : SwmId} {f : Flit}
    (h : Kept s0 s) : OutKept s0 (execSwmFlitRx d k f s) :=
  (h.onDie (fun _ hu => hu.flitRx)).out

protected theorem Kept.execSwmReplayTimeout {d : DieId} {k : SwmId}
    (h : Kept s0 s) : OutKept s0 (execSwmReplayTimeout d k s) :=
  (h.onDie (fun _ hu => .ite hu.replayRound hu)).out

protected theorem Kept.linkTrained {d : DieId} {k : SwmId} (h : Kept s0 s) : Kept s0 (linkTrained s d k) := by
  unfold linkTrained
  extract_lets _ up
  exact (Kept.ite (Kept.ite h.updLink.setLink.updLink h).updLink.setLink.updLink
    (.ite h.updLink.setLink.updLink h)).releaseAll

protected theorem Kept.execSwmRetrainDone {d : DieId} {k : SwmId} {ok : Bool}
    (h : Kept s0 s) : OutKept s0 (execSwmRetrainDone d k ok s) :=
  (h.onDie (fun _ hu => .ite (.ite hu.linkTrained hu.retireLink) hu)).out

protected theorem Kept.swmCfgWrite {d : DieId} {k : SwmId} {v : Word} (h : Kept s0 s) : Kept s0 (swmCfgWrite s d k v) := by
  unfold swmCfgWrite
  refine h.rowWrite (fun u hu => ?_)
  extract_lets s1
  have hs1 : Kept s0 s1 := hu.storeReg
  exact .ite hs1.retireLink hs1

protected theorem Kept.execSwmRetire {r : Requester} {d : DieId} {k : SwmId} {v : Word}
    (h : Kept s0 s) : OutKept s0 (execSwmRetire r d k v s) :=
  (h.byReq (fun _ hu => .ite hu.swmCfgWrite hu)).out

protected theorem Kept.execSwmRouteSwitch {d : DieId} {k : SwmId} (h : Kept s0 s) : OutKept s0 (execSwmRouteSwitch d k s) :=
  (h.onDie (fun _ hu => .ite ((hu.updLink.foldl (fun _ _ hw => hw.forwardFlit)).releaseAll) hu)).out

protected theorem Kept.execSwmCreditTimeout {d : DieId} {k : SwmId}
    (h : Kept s0 s) : OutKept s0 (execSwmCreditTimeout d k s) :=
  (h.onDie (fun _ hu => .ite hu.recordErr.reclaimLink.dieFault hu)).out

/-! ### PmBus -/

protected theorem Kept.updRail {n : Fin 16} {f : Rail → Rail} (h : Kept s0 s) : Kept s0 (updRail s n f) := h.same

protected theorem Kept.noAnswer {n : Fin 16} (h : Kept s0 s) : Kept s0 (noAnswer s n) := h.regBump.updRail

protected theorem Kept.railFail {n : Fin 16} (h : Kept s0 s) : Kept s0 (railFail s n) := by
  unfold railFail
  extract_lets s1 s2
  have hs1 : Kept s0 s1 := h.updRail
  have hs2 : Kept s0 s2 := hs1.recordErr.raiseInt
  exact .ite hs2.dieFault hs2.powerLoss

protected theorem Kept.execPmbPoll {rail : Fin 16} {a : PmbAnswer} (h : Kept s0 s) : OutKept s0 (execPmbPoll rail a s) := by
  unfold execPmbPoll
  extract_lets s1
  have hs1 : Kept s0 s1 := h.noAnswer
  apply Kept.out
  refine .ite h ?_
  split
  · exact .ite hs1.railFail hs1
  · extract_lets s1'
    have hs1' : Kept s0 s1' := h.updRail.regBump
    exact hs1'.updRail

protected theorem Kept.execPmbAlert (h : Kept s0 s) : OutKept s0 (execPmbAlert s) := h.out

protected theorem Kept.execPmbFaultRecheck {rail : Fin 16} {a : PmbAnswer}
    (h : Kept s0 s) : OutKept s0 (execPmbFaultRecheck rail a s) := by
  unfold execPmbFaultRecheck
  extract_lets s1
  have hs1 : Kept s0 s1 := h.noAnswer
  apply Kept.out
  refine .ite h ?_
  split
  · exact .ite hs1.railFail hs1
  · extract_lets s1'
    have hs1' : Kept s0 s1' := h.updRail
    exact .ite hs1'.railFail hs1'

protected theorem Kept.pmbCmdWrite {v : Word} (h : Kept s0 s) : Kept s0 (pmbCmdWrite s v) := by
  unfold pmbCmdWrite
  extract_lets
  refine h.rowWrite (fun u hu => ?_)
  extract_lets s1
  have hs1 : Kept s0 s1 := hu.storeReg
  exact .ite hs1.updRail hs1

protected theorem Kept.execPmbMargin {r : Requester} {v : Word} (h : Kept s0 s) : OutKept s0 (execPmbMargin r v s) :=
  (h.byReq (fun _ hu => hu.pmbCmdWrite)).out

protected theorem Kept.execPmbClear {r : Requester} {v : Word} (h : Kept s0 s) : OutKept s0 (execPmbClear r v s) :=
  (h.byReq (fun _ hu => .ite hu.pmbCmdWrite hu)).out

/-! ### Debug -/

protected theorem Kept.wglWrite {d : DieId} {off cap : Nat} {v : Word} {act : State → State}
    (h : Kept s0 s) (hact : ∀ t, Kept s0 t → Kept s0 (act t)) : Kept s0 (wglWrite s d off cap v act) :=
  h.rowWrite (fun _ hu => .ite (hact _ hu) hu.recordErr)

protected theorem Kept.haltCore {d : DieId} {c : CoreId} (h : Kept s0 s) : Kept s0 (haltCore s d c) := h.updCore

protected theorem Kept.resumeCore {d : DieId} {c : CoreId} (h : Kept s0 s) : Kept s0 (resumeCore s d c) := h.updCore

protected theorem Kept.haltWrite {d : DieId} {v : Word} (h : Kept s0 s) : Kept s0 (haltWrite s d v) := by
  unfold haltWrite
  refine h.wglWrite (fun u hu => ?_)
  extract_lets s1
  have hs1 : Kept s0 s1 := hu.foldl (fun _ _ hw => .ite hw.resumeCore hw)
  exact hs1.foldl (fun _ _ hw => .ite hw.haltCore hw)

protected theorem Kept.execWglHaltReq {r : Requester} {d : DieId} {v : Word}
    (h : Kept s0 s) : OutKept s0 (execWglHaltReq r d v s) :=
  (h.byReq (fun _ hu => .ite hu hu.haltWrite)).out

protected theorem Kept.execWglResume {r : Requester} {d : DieId} {v : Word}
    (h : Kept s0 s) : OutKept s0 (execWglResume r d v s) :=
  (h.byReq (fun _ hu => .ite hu hu.haltWrite)).out

protected theorem Kept.stepWrite {d : DieId} {v : Word} (h : Kept s0 s) : Kept s0 (stepWrite s d v) := by
  unfold stepWrite
  extract_lets
  refine h.wglWrite (fun u hu => ?_)
  extract_lets s1
  have hs1 : Kept s0 s1 := hu.storeReg
  exact .ite hs1.updCore hs1

protected theorem Kept.execWglStep {r : Requester} {d : DieId} {v : Word}
    (h : Kept s0 s) : OutKept s0 (execWglStep r d v s) :=
  (h.byReq (fun _ hu => .ite hu.stepWrite hu)).out

protected theorem Kept.execCoreHalt {d : DieId} {core : CoreId} {pc : Word}
    (h : Kept s0 s) : OutKept s0 (execCoreHalt d core pc s) :=
  (h.onDie (fun _ hu => .ite hu.updCore hu)).out

protected theorem Kept.execWglBreakpoint {d : DieId} {core : CoreId} {pc : Word}
    (h : Kept s0 s) : OutKept s0 (execWglBreakpoint d core pc s) :=
  (h.onDie (fun _ hu => .ite hu (.ite hu.updCore hu.updCore.raiseInt))).out

protected theorem Kept.bpAddrWrite {d : DieId} {v : Word} (h : Kept s0 s) : Kept s0 (bpAddrWrite s d v) := by
  unfold bpAddrWrite
  exact h.updDie

protected theorem Kept.wglAdvance {d : DieId} (h : Kept s0 s) : Kept s0 (wglAdvance s d) := h.regSet.regSet

protected theorem Kept.memDataRead {d : DieId} (h : Kept s0 s) : Kept s0 (memDataRead s d) := by
  have hr : Kept s0 (if addrOk s d (wglAddr s d) 4 then (memRead s d (wglAddr s d) 4, s) else drawBytes s 4).2 :=
    .ite_snd h h.drawBytes
  exact hr.same.wglAdvance

protected theorem Kept.memDataWrite {d : DieId} {v : Word} (h : Kept s0 s) : Kept s0 (memDataWrite s d v) :=
  (Kept.ite h.memStore h).wglAdvance

protected theorem Kept.wglRead {d : DieId} {off cap : Nat} {act : State → State}
    (h : Kept s0 s) (hact : ∀ t, Kept s0 t → Kept s0 (act t)) : Kept s0 (wglRead s d off cap act) := by
  unfold wglRead
  extract_lets s
  have hs : Kept s0 s := h.accessWake
  exact .ite (hact _ hs) hs.same

protected theorem Kept.execWglMemAccess {r : Requester} {d : DieId} {wr : Option Word}
    (h : Kept s0 s) : OutKept s0 (execWglMemAccess r d wr s) := by
  unfold execWglMemAccess
  apply Kept.out
  refine h.byReq (fun u hu => ?_)
  split
  · exact hu.wglRead (fun _ hw => hw.memDataRead)
  · exact hu.wglWrite (fun _ hw => hw.memDataWrite)

protected theorem Kept.cregRead {d : DieId} (h : Kept s0 s) : Kept s0 (cregRead s d) := by
  unfold cregRead
  extract_lets _ _ _ _ s1
  have hs1 : Kept s0 s1 := h.draw.updCore
  refine .ite ?_ h.same
  split
  · exact h.same
  · exact hs1.same

protected theorem Kept.cregWrite {d : DieId} {v : Word} (h : Kept s0 s) : Kept s0 (cregWrite s d v) := by
  unfold cregWrite
  exact .ite h.updCore h

protected theorem Kept.execWglCregAccess {r : Requester} {d : DieId} {wr : Option Word}
    (h : Kept s0 s) : OutKept s0 (execWglCregAccess r d wr s) := by
  unfold execWglCregAccess
  apply Kept.out
  refine h.byReq (fun u hu => ?_)
  split
  · exact hu.wglRead (fun _ hw => hw.cregRead)
  · exact hu.wglWrite (fun _ hw => hw.cregWrite)

/-! ### Registers -/

protected theorem Kept.answerWith {v : Word} (h : Kept s0 s) : Kept s0 (answerWith s v) := h.same

protected theorem Kept.errRead {a : Nat} (h : Kept s0 s) : Kept s0 (errRead s a) := by
  unfold errRead
  extract_lets s1
  have hs1 : Kept s0 s1 := h.regSet.regSet.answerWith
  exact .ite hs1.updPsu hs1

protected theorem Kept.readOpen {r : Requester} {a : Nat} (h : Kept s0 s) : Kept s0 (readOpen s r a) := by
  unfold readOpen
  extract_lets _ plain m
  have hplain : Kept s0 plain := h.answerWith
  have hm : Kept s0 m.2 := h.minFreeRead
  refine .ite h.same.answerWith ?_
  refine .ite ?_ ?_
  · split
    · exact hplain
    · exact h.same.answerWith
  · split
    · exact hplain
    · refine .ite h.errRead ?_
      split
      · exact h.trDataRead
      · exact h.lossInfoRead
      · exact hm.answerWith
      · exact .ite h.memDataRead h.answerWith
      · exact .ite h.cregRead h.answerWith
      · exact .ite (.ite h.icuClaim h.answerWith) hplain
      · exact hplain

protected theorem Kept.readReg {r : Requester} {a : Nat} (h : Kept s0 s) : Kept s0 (readReg s r a) := by
  unfold readReg
  extract_lets s
  have hs : Kept s0 s := h.accessWake
  exact .ite hs.readOpen hs.answerWith

protected theorem Kept.storePair {b : Block} {lo : Nat} {low v : Word}
    (h : Kept s0 s) : Kept s0 (storePair s b lo low v) := by
  unfold storePair
  extract_lets
  split
  · extract_lets s1
    have hs1 : Kept s0 s1 := h.regSet.regSet
    exact .ite hs1.recordErr hs1
  · exact h

protected theorem Kept.pairCommit {b : Block} {lo : Nat} {held : Option Word} {v : Word}
    (h : Kept s0 s) : Kept s0 (pairCommit s b lo held v) := by
  unfold pairCommit
  split
  · exact h.poolBaseWrite
  · exact h.storePair

protected theorem Kept.pairHold {r : Requester} {a : Nat} {v : Word} (h : Kept s0 s) : Kept s0 (pairHold s r a v) := by
  unfold pairHold
  exact .ite (.ite h h.recordErr) h.same

protected theorem Kept.pairTake {r : Requester} {b : Block} {a : Nat} {v : Word}
    (h : Kept s0 s) : Kept s0 (pairTake s r b a v) := by
  unfold pairTake
  exact .ite h.same.pairCommit h.badValue

protected theorem Kept.slotCtrlWrite {n : SlotId} {a : Nat} {v : Word} (h : Kept s0 s) : Kept s0 (slotCtrlWrite s n a v) := by
  unfold slotCtrlWrite
  extract_lets s1
  have hs1 : Kept s0 s1 := h.storeReg
  exact .ite hs1.updHce hs1

protected theorem Kept.coreEnWrite {d : DieId} {a : Nat} {v : Word} (h : Kept s0 s) : Kept s0 (coreEnWrite s d a v) := by
  unfold coreEnWrite
  extract_lets s1 s2
  have hs1 : Kept s0 s1 := h.storeReg
  have hs2 : Kept s0 s2 := hs1.foldl (fun _ _ hu => .ite hu.updCore hu)
  exact .ite hs2.dieFault hs2

protected theorem Kept.portCfgWrite {a : Nat} {v : Word} (h : Kept s0 s) : Kept s0 (portCfgWrite s a v) := by
  unfold portCfgWrite
  extract_lets s1
  have hs1 : Kept s0 s1 := h.storeReg
  exact .ite hs1.portDown hs1

protected theorem Kept.rrDataWrite {d : DieId} {v0 : Word} (h : Kept s0 s) : Kept s0 (rrDataWrite s d v0) := by
  unfold rrDataWrite
  exact .ite h h.updDie

protected theorem Kept.rateWrite {d : DieId} {v : Word} (h : Kept s0 s) : Kept s0 (rateWrite s d v) := h.updDie

protected theorem Kept.urgentWrite {d : DieId} {a : Nat} {v : Word} (h : Kept s0 s) : Kept s0 (urgentWrite s d a v) := by
  unfold urgentWrite
  extract_lets s1
  have hs1 : Kept s0 s1 := h.storeReg
  exact hs1.updDie

protected theorem Kept.ratedWrite {d : DieId} {a : Nat} {v : Word} (h : Kept s0 s) : Kept s0 (ratedWrite s d a v) := by
  unfold ratedWrite
  extract_lets s1
  have hs1 : Kept s0 s1 := h.storeReg
  exact .ite hs1.raiseInt hs1

protected theorem Kept.ethWrite {a : Nat} {v : Word} (h : Kept s0 s) : Kept s0 (ethWrite s a v) := by
  unfold ethWrite
  exact .ite h.portCfgWrite (.ite h.statCmdWrite (.ite h.addrCfgWrite (.ite h.addrDataWrite
    (.ite h.fltActWrite (.ite h h.storeReg)))))

protected theorem Kept.hceWrite {a : Nat} {v : Word} (h : Kept s0 s) : Kept s0 (hceWrite s a v) := by
  unfold hceWrite
  exact .ite h.storeReg (.ite h.slotCtrlWrite (.ite h (.ite h.trctlWrite h.storeReg)))

protected theorem Kept.wglRegWrite {a : Nat} {v : Word} (h : Kept s0 s) : Kept s0 (wglRegWrite s a v) := by
  unfold wglRegWrite
  extract_lets
  split
  · exact h.haltWrite
  · exact h.stepWrite
  · exact h.wglWrite (fun _ hu => hu.bpAddrWrite)
  · exact h.wglWrite (fun _ hu => hu.memDataWrite)
  · exact h.wglWrite (fun _ hu => hu.cregWrite)
  · exact h.wglWrite (fun _ hu => hu.storeReg)

protected theorem Kept.blockWrite {r : Requester} {b : Block} {a : Nat} {v : Word}
    (h : Kept s0 s) : Kept s0 (blockWrite s r b a v) := by
  unfold blockWrite
  extract_lets
  split
  · exact h.ethWrite
  · exact h.hceWrite
  · exact h.wglRegWrite
  · exact h.combUpdWrite
  · exact h.combSrchWrite
  · exact h.combShiftWrite
  · exact .ite h.updDie h
  · exact h.ratedWrite
  · exact .ite h.updDie h
  · exact h.rrDataWrite
  · exact .ite h.testNow h
  · exact h.pmbCmdWrite
  · exact .ite h.wdtKick h
  · exact h.latSelWrite
  · exact h.evrSelWrite
  · exact h.rateWrite
  · exact .ite h.evrClear h
  · exact h.trainWrite
  · exact h.poolCfgWrite
  · exact h.poolThrWrite
  · exact h.poolThrWrite
  · exact h.sweepWrite
  · exact h.doorbell
  · exact h.coreEnWrite
  · exact h.kickCores
  · exact h.srcCfgWrite
  · exact h.completeWrite
  · exact h.icuCount
  · exact h.swmCfgWrite
  · exact .ite h.storeReg h
  · exact .ite h.storeReg h
  · exact h.pkgCmdWrite
  · exact h.thmDataWrite
  · exact h.norOpWrite
  · exact h.urgentWrite
  · exact h.norUnlock
  · exact h.storeReg

protected theorem Kept.ctrlWrite {a : Nat} {v : Word} (h : Kept s0 s) : Kept s0 (ctrlWrite s a v) := by
  unfold ctrlWrite
  extract_lets _ s1 s2
  have hs1 : Kept s0 s1 := h.regFld
  have hs2 : Kept s0 s2 := .ite hs1.regFld hs1
  exact .ite (.ite hs2.recordErr hs2.regFld) hs2

protected theorem Kept.statClear {base : Nat} {bits events : Word} (h : Kept s0 s) : Kept s0 (statClear s base bits events) :=
  h.regSet.icuFallAll

protected theorem Kept.intTest {b : Block} {base : Nat} {bits : Word} (h : Kept s0 s) : Kept s0 (intTest s b base bits) :=
  h.regSet

protected theorem Kept.headerWrite {b : Block} {a : Nat} {v : Word} (h : Kept s0 s) : Kept s0 (headerWrite s b a v) := by
  unfold headerWrite
  split
  · exact h.regSet.icuFallAll
  · exact h.statClear
  · exact h.intTest
  · exact h

protected theorem Kept.ownWrite {r : Requester} {b : Block} {a : Nat} {v : Word}
    (h : Kept s0 s) : Kept s0 (ownWrite s r b a v) := by
  unfold ownWrite
  split
  · exact h
  · exact .ite h.badValue (.ite (.ite h.pairHold h.recordErr) (.ite (.ite h.pairTake h.recordErr)
      (.ite h.pairHold (.ite h.pairTake h.blockWrite))))

protected theorem Kept.regWrite {r : Requester} {a : Nat} {v : Word} (h : Kept s0 s) : Kept s0 (regWrite s r a v) := by
  unfold regWrite
  extract_lets s
  have hs : Kept s0 s := h.accessWake
  refine .ite hs ?_
  split
  · exact hs
  · exact .ite hs.ctrlWrite (.ite hs (.ite hs.headerWrite hs.ownWrite))

protected theorem Kept.badWidth {a : Nat} (h : Kept s0 s) : Kept s0 (badWidth s a) := by
  unfold badWidth
  extract_lets s
  have hs : Kept s0 s := h.accessWake
  exact .ite hs.recordErr hs

protected theorem Kept.writeAligned {r : Requester} {a : Nat} {v : Word}
    (h : Kept s0 s) : Kept s0 (writeAligned s r a v) := by
  unfold writeAligned
  exact .ite h.regWrite h.badWidth

protected theorem Kept.readAligned {r : Requester} {a : Nat} (h : Kept s0 s) : Kept s0 (readAligned s r a) := by
  unfold readAligned
  exact .ite h.readReg h.badWidth.answerWith

theorem norWf_unlock {n : Nor} {pe we : Bool} (h : norWf n.array = true) :
    norWf { n with pe := pe, optWe := we }.array = true := h

protected theorem Kept.softState {b : Block} {base : Nat} (h : Kept s0 s) : Kept s0 (softState s b base) := by
  unfold softState
  extract_lets d
  cases b
  case eth => exact h.updPort
  case wrk => exact h.foldl fun _ _ hu => .ite hu hu.updCore
  case mov => exact h.updMov
  case dmc => exact h.updDmc
  case thm => exact h.updThm
  case hce => exact h.same
  case nor => exact h.setNor fun n => norWf_unlock ((Kept.rfl s).norOpDone.nor n)
  case csq | cmb | map | fgr | ldc | bpm | icu | evr | lat | wgl =>
    refine Kept.updDieOf h fun _ => ?_
    rfl
  all_goals exact h

protected theorem Kept.softDone {b : Block} {base : Nat} (h : Kept s0 s) : Kept s0 (softDone s b base) := by
  unfold softDone
  extract_lets _ s1 s2
  have hs1 : Kept s0 s1 := h.softState
  have hs2 : Kept s0 s2 := hs1.regsDrop.regSet
  exact hs2.same.icuFallAll

protected theorem Kept.execSoftReset {r : Requester} {base : Word} {en : Bool}
    (h : Kept s0 s) : OutKept s0 (execSoftReset r base en s) :=
  (h.byReq (fun _ hu => .ite hu.regWrite hu)).out

protected theorem Kept.execSoftResetDone {base : Word} (h : Kept s0 s) : OutKept s0 (execSoftResetDone base s) := by
  unfold execSoftResetDone
  apply Kept.out
  split
  · exact h
  · exact .ite h.softDone h

protected theorem Kept.execPageLock {r : Requester} {base : Word} {en : Bool}
    (h : Kept s0 s) : OutKept s0 (execPageLock r base en s) :=
  (h.byReq (fun _ hu => .ite hu.regWrite hu)).out

protected theorem Kept.execRegisterWrite {r : Requester} {addr : Word} {width : Nat} {v : Word}
    (h : Kept s0 s) : OutKept s0 (execRegisterWrite r addr width v s) :=
  (h.byReq (fun _ hu => .ite hu.writeAligned hu.badWidth)).out

protected theorem Kept.execIntStatClear {r : Requester} {base bits events : Word}
    (h : Kept s0 s) : OutKept s0 (execIntStatClear r base bits events s) := by
  unfold execIntStatClear
  apply Kept.out
  refine h.byReq (fun u hu => ?_)
  split
  · exact hu
  · extract_lets s1
    have hs1 : Kept s0 s1 := hu.intTest
    exact .ite (.ite hs1.accessWake hs1.accessWake.statClear) hu.regWrite

protected theorem Kept.execIntTest {r : Requester} {base bits : Word}
    (h : Kept s0 s) : OutKept s0 (execIntTest r base bits s) :=
  (h.byReq (fun _ hu => .ite hu.regWrite hu)).out

protected theorem Kept.execErrCodeRead {r : Requester} {base : Word}
    (h : Kept s0 s) : OutKept s0 (execErrCodeRead r base s) :=
  (h.byReq (fun _ hu => .ite hu.readReg hu)).out

protected theorem Kept.execPairLoRead {r : Requester} {addr : Word} (h : Kept s0 s) : OutKept s0 (execPairLoRead r addr s) :=
  (h.byReq (fun _ hu => .ite hu.readReg hu)).out

protected theorem Kept.execPairHiRead {r : Requester} {addr : Word} (h : Kept s0 s) : OutKept s0 (execPairHiRead r addr s) :=
  (h.byReq (fun _ hu => .ite hu.readReg hu)).out

protected theorem Kept.execPairLoWrite {r : Requester} {addr v : Word}
    (h : Kept s0 s) : OutKept s0 (execPairLoWrite r addr v s) :=
  (h.byReq (fun _ hu => .ite hu.regWrite hu)).out

protected theorem Kept.execPairHiWrite {r : Requester} {addr v : Word}
    (h : Kept s0 s) : OutKept s0 (execPairHiWrite r addr v s) :=
  (h.byReq (fun _ hu => .ite hu.regWrite hu)).out

/-! ### Admin -/

protected theorem Kept.replyData {d : DieId} {c : Cmd} {aux : Nat} {data : Bytes}
    (h : Kept s0 s) : Kept s0 (replyData s d c aux data) :=
  h.complete

protected theorem Kept.execNop {d : DieId} {cid : Nat} (h : Kept s0 s) : OutKept s0 (execNop d cid s) :=
  (h.onCmd (fun _ _ hu => hu.fail)).out

protected theorem Kept.execIdentifyTenant {d : DieId} {cid : Nat} (h : Kept s0 s) : OutKept s0 (execIdentifyTenant d cid s) :=
  (h.onCmd (fun _ _ hu => hu.replyData)).out

protected theorem Kept.meterRead {d : DieId} {c : Cmd} (h : Kept s0 s) : Kept s0 (meterRead s d c) := by
  unfold meterRead
  split
  · exact h.fail
  · exact .ite h.fail h.replyData

protected theorem Kept.execMeterRead {d : DieId} {cid : Nat} (h : Kept s0 s) : OutKept s0 (execMeterRead d cid s) :=
  (h.onCmd (fun _ _ hu => hu.meterRead)).out

protected theorem Kept.readRun {a n : Nat} {l : List Word} (h : Kept s0 s) : Kept s0 (readRun a n s l).1 := by
  induction n generalizing a s l with
  | zero => exact h
  | succ n ih => exact ih h.readAligned

protected theorem Kept.execRegRead {d : DieId} {cid : Nat} (h : Kept s0 s) : OutKept s0 (execRegRead d cid s) := by
  unfold execRegRead
  apply Kept.out
  refine h.onCmd (fun u c hu => ?_)
  extract_lets r x
  have hr : Kept s0 r.1 := hu.readRun
  exact hr.same.replyData

protected theorem Kept.writeRun {a : Nat} {l : List Bytes} (h : Kept s0 s) : Kept s0 (writeRun a l s) := by
  induction l generalizing a s with
  | nil =>
    exact h
  | cons x l ih =>
    exact ih h.writeAligned

protected theorem Kept.execRegWrite {d : DieId} {cid : Nat} (h : Kept s0 s) : OutKept s0 (execRegWrite d cid s) :=
  (h.onCmd (fun _ _ hu => hu.writeRun.fail)).out

protected theorem Kept.execResetDevice {d : DieId} {cid : Nat} (h : Kept s0 s) : OutKept s0 (execResetDevice d cid s) := by
  unfold execResetDevice
  apply Kept.out
  refine h.onCmd (fun u c hu => ?_)
  extract_lets t'
  have ht' : Kept s0 t' := hu.fail
  exact ht'.same

protected theorem Kept.loadTenant {t1 : Tenant} {e : DieId} (h : Kept s0 s) : Kept s0 (loadTenant t1 s e) := h.updDie

protected theorem Kept.disableOn {t1 : Nat} {e : DieId} (h : Kept s0 s) : Kept s0 (disableOn t1 s e) :=
  h.terminateWhere.invOnDie

protected theorem Kept.setTenant {t1 : Tenant} (h : Kept s0 s) : Kept s0 (setTenant s t1) := by
  unfold setTenant
  extract_lets _ s1 s2 s3
  have hs1 : Kept s0 s1 := h.journalPut
  have hs2 : Kept s0 s2 := hs1.overDies (fun _ _ hu => hu.loadTenant)
  have hs3 : Kept s0 s3 := .ite (hs2.overDies (fun _ _ hu => hu.disableOn)) hs2
  exact .ite hs3.same hs3

protected theorem Kept.execTenantSet {d : DieId} {cid : Nat} (h : Kept s0 s) : OutKept s0 (execTenantSet d cid s) :=
  (h.onCmd (fun _ _ hu => .ite hu.fail hu.setTenant.fail)).out

protected theorem Kept.installData {tenant : Nat} {key : Bytes} (h : Kept s0 s) : Kept s0 (installData s tenant key) := by
  unfold installData
  extract_lets _ s1 s2
  have hs1 : Kept s0 s1 := by
    unfold s1
    split
    · exact h
    · exact h.journalPut
  have hs2 : Kept s0 s2 := hs1.journalPut
  exact hs2.overDies (fun _ _ hu => hu.updDie)

protected theorem Kept.installAuth {tenant : Nat} {key : Bytes} (h : Kept s0 s) : Kept s0 (installAuth s tenant key) :=
  h.journalPut.overDies (fun _ _ hu => hu.updDie)

protected theorem Kept.newGeneration {d : DieId} {c : Cmd} {tenant : Nat}
    (h : Kept s0 s) : Kept s0 (newGeneration s d c tenant) := by
  unfold newGeneration
  extract_lets r
  have hr : Kept s0 r.2 := h.drawBytes
  refine .ite h.fail ?_
  refine .ite hr.installData.fail ?_
  split
  · exact h.fail
  · exact h.installData.fail

protected theorem Kept.execKeyInstall {d : DieId} {cid : Nat} (h : Kept s0 s) : OutKept s0 (execKeyInstall d cid s) := by
  unfold execKeyInstall
  apply Kept.out
  refine h.onCmd (fun u c hu => ?_)
  extract_lets
  refine .ite hu.fail ?_
  refine .ite hu.newGeneration ?_
  split
  · exact hu.fail
  · exact hu.installAuth.fail

protected theorem Kept.logRead {d : DieId} {c : Cmd} (h : Kept s0 s) : Kept s0 (logRead s d c) := by
  unfold logRead
  exact .ite h.fail (.ite h.fail h.replyData)

protected theorem Kept.execLogRead {d : DieId} {cid : Nat} (h : Kept s0 s) : OutKept s0 (execLogRead d cid s) :=
  (h.onCmd (fun _ _ hu => hu.logRead)).out

protected theorem Kept.clockSet {wall : Nat} (h : Kept s0 s) : Kept s0 (clockSet s wall) := by
  unfold clockSet
  extract_lets _ _ _ s1
  have hs1 : Kept s0 s1 := h.same
  exact hs1.wallMark.recordEvent

protected theorem Kept.execClockSet {d : DieId} {cid : Nat} (h : Kept s0 s) : OutKept s0 (execClockSet d cid s) :=
  (h.onCmd (fun _ _ hu => hu.clockSet.fail)).out

/-! ### Namespaces -/

protected theorem Kept.drawHashKey {n : Nat} (h : Kept s0 s) : Kept s0 (drawHashKey n s).2 := by
  induction n generalizing s with
  | zero =>
    exact h
  | succ n ih =>
    unfold drawHashKey
    extract_lets r
    have hr : Kept s0 r.2 := h.drawBytes
    split
    · exact ih hr
    · exact hr

protected theorem Kept.ensureHashKey {t1 : Nat} (h : Kept s0 s) : Kept s0 (ensureHashKey s t1) := by
  unfold ensureHashKey
  extract_lets r
  have hr : Kept s0 r.2 := h.drawHashKey
  exact .ite h (hr.overDies (fun _ _ hu => hu.updDie))

protected theorem Kept.ensureGen {t1 : Nat} (h : Kept s0 s) : Kept s0 (ensureGen s t1) := by
  unfold ensureGen
  extract_lets r
  have hr : Kept s0 r.2 := h.drawBytes
  exact .ite h hr.installData

protected theorem Kept.installXts {t1 nsid : Nat} {key : Bytes} (h : Kept s0 s) : Kept s0 (installXts s t1 nsid key) :=
  h.journalPut.overDies (fun _ _ hu => hu.updDie)

protected theorem Kept.rootsNow (h : Kept s0 s) : Kept s0 (rootsNow s) := h.overDies (fun _ _ hu => .ite hu.checkpoint hu)

@[simp] theorem addNs_mem (x : Die) (n : NsEntry) : (addNs x n).mem = x.mem := by rfl

protected theorem Kept.createNs {n : NsEntry} {xts : Option Bytes} (h : Kept s0 s) : Kept s0 (createNs s n xts) := by
  unfold createNs
  extract_lets s1 r s2
  have hs1 : Kept s0 s1 := h.ensureHashKey.ensureGen
  have hr : Kept s0 r.2 := hs1.drawBytes
  have hs2 : Kept s0 s2 := by
    refine .ite ?_ hs1
    split
    · exact hs1.installXts
    · exact hr.installXts
  exact (hs2.overDies fun _ _ hu => hu.updDie).rootsNow

protected theorem Kept.nsCreate {d : DieId} {c : Cmd} (h : Kept s0 s) : Kept s0 (nsCreate s d c) := by
  unfold nsCreate
  extract_lets
  refine .ite h.fail ?_
  refine .ite h.fail ?_
  refine .ite ?_ h.createNs.fail
  split
  · exact h.fail
  · exact h.createNs.fail

protected theorem Kept.execNsCreate {d : DieId} {cid : Nat} (h : Kept s0 s) : OutKept s0 (execNsCreate d cid s) :=
  (h.onCmd (fun _ _ hu => hu.nsCreate)).out

@[simp] theorem deadData_mem (x : Die) (t n : Nat) : (deadData x t n).mem = x.mem := by
  simp [deadData]

@[simp] theorem forgetNs_mem (x : Die) (t n : Nat) : (forgetNs x t n).mem = x.mem := by
  simp [forgetNs]

protected theorem Kept.endNsCmds {e : DieId} {t1 n : Nat} (h : Kept s0 s) : Kept s0 (endNsCmds s e t1 n) :=
  h.foldl (fun _ _ hu => hu.fail)

protected theorem Kept.removeNs {t1 n : Nat} (h : Kept s0 s) : Kept s0 (removeNs s t1 n) :=
  h.overDies (fun _ _ hu => hu.endNsCmds.updDieOf (by simp))

protected theorem Kept.forgetTenant {t1 : Nat} (h : Kept s0 s) : Kept s0 (forgetTenant s t1) := by
  unfold forgetTenant
  extract_lets s1
  have hs1 : Kept s0 s1 := h.overDies (fun _ _ hu => hu.updDie)
  exact hs1.foldl (fun _ _ hu => hu.dropGen)

protected theorem Kept.dropXtsRecord {t1 n : Nat} (h : Kept s0 s) : Kept s0 (dropXtsRecord s t1 n) := by
  unfold dropXtsRecord
  exact .ite h.journalDel h

protected theorem Kept.deleteNs {t1 n : Nat} (h : Kept s0 s) : Kept s0 (deleteNs s t1 n) := by
  unfold deleteNs
  extract_lets s1
  have hs1 : Kept s0 s1 := h.removeNs.dropXtsRecord
  exact .ite hs1.forgetTenant hs1

protected theorem Kept.nsDelete {d : DieId} {c : Cmd} (h : Kept s0 s) : Kept s0 (nsDelete s d c) := by
  unfold nsDelete
  exact .ite h.fail h.deleteNs.rootsNow.fail

protected theorem Kept.execNsDelete {d : DieId} {cid : Nat} (h : Kept s0 s) : OutKept s0 (execNsDelete d cid s) :=
  (h.onCmd (fun _ _ hu => hu.nsDelete)).out

@[simp] theorem formatDie_mem (s : State) (d : DieId) (b : Bytes) (id : Nat) (x : Die) : (formatDie s d b id x).mem = x.mem :=
  by rfl

protected theorem Kept.countMarks {before : List Machine.Group} {d : DieId}
    (h : Kept s0 s) : Kept s0 (countMarks before s d) := by
  unfold countMarks
  extract_lets _ _ s1 s2
  have hs1 : Kept s0 s1 := h.regBump.regBump
  have hs2 : Kept s0 s2 := hs1.raiseInt.foldl (fun _ _ hu => hu.recordEvent)
  exact .ite h hs2.updDie

-- `fillRescue` is generalized before the recursion is unfolded: the kernel would otherwise run it on its fuel.
protected theorem Kept.eraseForRoot {d : DieId} {n : Nat} (h : Kept s0 s) : Kept s0 (eraseForRoot d n s) := by
  obtain ⟨f, hf⟩ : ∃ f, f = fillRescue := ⟨_, rfl⟩
  delta eraseForRoot eraseForRoot._f
  rw [← hf]
  induction n generalizing s with
  | zero => exact h
  | succ n ih =>
    have hk : Kept s0 (f s d) := hf ▸ h.fillRescue
    refine .ite hk ?_
    split
    · exact hk
    · exact ih hk.updDie.eraseDone

protected theorem Kept.queueFormatErases {d : DieId} (h : Kept s0 s) : Kept s0 (queueFormatErases s d) :=
  h.foldl (fun _ _ hu => hu.updDie.queueErases)

protected theorem Kept.formatOn {b : Bytes} {id : Nat} {place : List Nat} {epoch : Nat} {e : DieId}
    (h : Kept s0 s) : Kept s0 (formatOn b id place epoch s e) := by
  unfold formatOn
  extract_lets s1 s2 s3 s4
  have hs1 : Kept s0 s1 := h.foldl (fun _ _ hu => hu.fail)
  have hs2 : Kept s0 s2 := hs1.updDie
  have hs3 : Kept s0 s3 := hs2.countMarks
  have hs4 : Kept s0 s4 := hs3.eraseForRoot.checkpoint
  exact hs4.queueFormatErases.spaceChanged.fgrReval

protected theorem Kept.deleteAll (h : Kept s0 s) : Kept s0 (deleteAll s) := h.foldl (fun _ _ hu => hu.deleteNs)

protected theorem Kept.format {b : Bytes} (h : Kept s0 s) : Kept s0 (format s b) := by
  unfold format
  extract_lets r _ _ _ s1 _ s2
  have hr : Kept s0 r.2 := h.deleteAll.drawBytes
  have hs1 : Kept s0 s1 := hr.journalPut
  have hs2 : Kept s0 s2 := hs1.same
  exact hs2.overDies (fun _ _ hu => hu.formatOn)

protected theorem Kept.execFormat {d : DieId} {cid : Nat} (h : Kept s0 s) : OutKept s0 (execFormat d cid s) := by
  unfold execFormat
  apply Kept.out
  refine h.onCmd (fun u c hu => ?_)
  extract_lets t'
  have ht' : Kept s0 t' := hu.format
  exact .ite hu.fail (.ite hu (.ite ht'.fail ht'.fail))

/-! ### Firmware -/

protected theorem Kept.startDownload {slot : Bool} {b : Bytes} (h : Kept s0 s) : Kept s0 (startDownload s slot b) := by
  unfold startDownload
  exact (h.setNor (by exact fun n => norWf_dl (norEraseSpan_wf n))).norCount

protected theorem Kept.writeSlot {a : Nat} {b : Bytes} (h : Kept s0 s) : Kept s0 (writeSlot s a b) := by
  unfold writeSlot
  exact (h.setNor (by exact fun n => norWrite_wf (foldl_nor_wf n fun _ _ hm => norEraseSpan_wf hm))).norCount

protected theorem Kept.finishDownload {d : DieId} {c : Cmd} {slot : Bool} (h : Kept s0 s) :
    Kept s0 (finishDownload s d c slot) := by
  unfold finishDownload
  extract_lets _ s1 s2
  have hs1 : Kept s0 s1 := h.norFields
  have hs2 : Kept s0 s2 := (hs1.setNor (by exact fun n => norWrite_wf n)).norCount
  exact .ite hs2.raiseInt.fail hs1.recordErr.fail

protected theorem Kept.downloadBytes {d : DieId} {c : Cmd} {b : Bytes} {readBackOk : Bool}
    (h : Kept s0 s) : Kept s0 (downloadBytes s d c b readBackOk) := by
  unfold downloadBytes
  extract_lets _ s1 _ s2 _ s3 r s2'
  have hs1 : Kept s0 s1 := .ite h.startDownload h
  have hs2 : Kept s0 s2 := hs1.writeSlot
  have hs3 : Kept s0 s3 := hs2.norFields
  have hr : Kept s0 r.2 := hs1.drawBytes
  have hs2' : Kept s0 s2' := hr.writeSlot
  exact .ite (.ite hs3.finishDownload hs3.fail) hs2'.norFields.recordErr.fail

protected theorem Kept.fwDownload {d : DieId} {c : Cmd} {readBackOk : Bool}
    (h : Kept s0 s) : Kept s0 (fwDownload s d c readBackOk) := by
  unfold fwDownload
  refine .ite h.fail ?_
  split
  · exact h.putCmd
  · exact .ite h.fail h.downloadBytes

protected theorem Kept.execFwDownload {d : DieId} {cid : Nat} {readBackOk : Bool}
    (h : Kept s0 s) : OutKept s0 (execFwDownload d cid readBackOk s) :=
  (h.onCmd (fun _ _ hu => hu.fwDownload)).out

protected theorem Kept.setTimers {stop : Bool} (h : Kept s0 s) : Kept s0 (setTimers s stop) :=
  h.overDies (fun _ _ hu => hu.updDie)

protected theorem Kept.appendEntry {e : BootEntry} (h : Kept s0 s) : Kept s0 (appendEntry s e) :=
  (h.setNor (fun n => bootAppend_wf n)).norCount

protected theorem Kept.beginActivation {d : DieId} {c : Cmd} {slot : Bool}
    (h : Kept s0 s) : Kept s0 (beginActivation s d c slot) := by
  unfold beginActivation
  extract_lets s1 s2
  have hs1 : Kept s0 s1 := h.norOpDone.appendEntry
  have hs2 : Kept s0 s2 := hs1.putCmd.setTimers
  exact hs2.same

protected theorem Kept.fwActivate {d : DieId} {c : Cmd} (h : Kept s0 s) : Kept s0 (fwActivate s d c) := by
  unfold fwActivate
  exact .ite h.fail (.ite h.fail (.ite h.fail (.ite h h.beginActivation)))

protected theorem Kept.execFwActivate {d : DieId} {cid : Nat} (h : Kept s0 s) : OutKept s0 (execFwActivate d cid s) :=
  (h.onCmd (fun _ _ hu => hu.fwActivate)).out

@[simp] theorem resumeWrites_mem (x : Die) : (resumeWrites x).mem = x.mem := by rfl

protected theorem Kept.resumeAll (h : Kept s0 s) : Kept s0 (resumeAll s) := by
  unfold resumeAll
  extract_lets x _ s1
  have hx : Kept s0 x := h.setTimers
  have hs1 : Kept s0 s1 := hx.same
  refine Kept.overDies ?_ (fun _ _ hu => hu.openWindows)
  refine hs1.overDies (fun u e hu => ?_)
  refine Kept.updDie ?_
  refine hu.foldl (fun u_1 a hw => ?_)
  split
  · exact hw
  · exact .ite hw hw.abortNow

protected theorem Kept.answerActivation {cid status : Nat} (h : Kept s0 s) : Kept s0 (answerActivation s cid status) := by
  unfold answerActivation
  extract_lets s1
  have hs1 : Kept s0 s1 := h.raiseInt
  split
  · exact hs1
  · exact hs1.fail

protected theorem Kept.execActDrainDone (h : Kept s0 s) : OutKept s0 (execActDrainDone s) := by
  unfold execActDrainDone
  apply Kept.out
  refine h.onDie (fun u hu => ?_)
  extract_lets _ _ t'
  have ht' : Kept s0 t' := hu.norFields
  exact .ite ht'.resumeAll.answerActivation hu

protected theorem Kept.execActDrainTimeout (h : Kept s0 s) : OutKept s0 (execActDrainTimeout s) := by
  unfold execActDrainTimeout
  apply Kept.out
  refine h.onDie (fun u hu => ?_)
  extract_lets t'
  have ht' : Kept s0 t' := hu.resumeAll.appendEntry.appendEntry
  exact .ite ht'.raiseInt.recordErr.answerActivation hu

/-! ### WagglePort -/

protected theorem Kept.updWgl {f : Waggle → Waggle} (h : Kept s0 s) : Kept s0 (updWgl s f) := h.same

protected theorem Kept.refused (h : Kept s0 s) : Kept s0 (refused s) := h.updWgl

protected theorem Kept.retry (h : Kept s0 s) : Kept s0 (retry s) := h.updWgl

protected theorem Kept.writeDone {h1 : BitVec 16} (h : Kept s0 s) : Kept s0 (writeDone s h1) := h.updWgl

protected theorem Kept.readDoneWith {h1 : BitVec 16} {v : Word} (h : Kept s0 s) : Kept s0 (readDoneWith s h1 v) := h.updWgl

protected theorem Kept.portRead {op : Nat} {h1 : BitVec 16} {act : State → State}
    (h : Kept s0 s) (hact : ∀ t, Kept s0 t → Kept s0 (act t)) : Kept s0 (portRead s op h1 act) := by
  unfold portRead
  refine .ite h ?_
  refine .ite h.refused ?_
  split
  · exact .ite h.readDoneWith (hact _ h)
  · exact hact _ h

protected theorem Kept.portWrite {op : Nat} {h1 : BitVec 16} {data : Word} {crc : Byte} {act : State → State}
    (h : Kept s0 s) (hact : ∀ t, Kept s0 t → Kept s0 (act t)) : Kept s0 (portWrite s op h1 data crc act) := by
  unfold portWrite
  exact .ite h (.ite h.refused (.ite (hact _ h) (.ite h.refused (.ite h.updWgl (hact _ h)))))

protected theorem Kept.execWglLineSync (h : Kept s0 s) : OutKept s0 (execWglLineSync s) := (Kept.ite h.updWgl h).out

protected theorem Kept.execReadStatus {hdr : BitVec 16} (h : Kept s0 s) : OutKept s0 (execReadStatus hdr s) :=
  (h.portRead (fun _ hu => hu.readDoneWith)).out

protected theorem Kept.execWriteCtrl {hdr : BitVec 16} {data : Word} {crc : Byte}
    (h : Kept s0 s) : OutKept s0 (execWriteCtrl hdr data crc s) :=
  (h.portWrite (fun _ hu => hu.updWgl.writeDone)).out

protected theorem Kept.execWriteAddr {hdr : BitVec 16} {data : Word} {crc : Byte}
    (h : Kept s0 s) : OutKept s0 (execWriteAddr hdr data crc s) :=
  (h.portWrite (fun _ hu => hu.updWgl.writeDone)).out

protected theorem Kept.execReadData {hdr : BitVec 16} (h : Kept s0 s) : OutKept s0 (execReadData hdr s) := by
  unfold execReadData
  apply Kept.out
  refine h.portRead (fun u hu => ?_)
  extract_lets s1
  have hs1 : Kept s0 s1 := hu.readAligned
  exact hs1.updWgl.readDoneWith

protected theorem Kept.execWriteData {hdr : BitVec 16} {data : Word} {crc : Byte}
    (h : Kept s0 s) : OutKept s0 (execWriteData hdr data crc s) :=
  (h.portWrite (fun _ hu => hu.writeAligned.updWgl.writeDone)).out

protected theorem Kept.newChallenge (h : Kept s0 s) : Kept s0 (newChallenge s) := by
  unfold newChallenge
  extract_lets r
  have hr : Kept s0 r.2 := h.drawBytes
  exact hr.updWgl

protected theorem Kept.challengeWord {h1 : BitVec 16} (h : Kept s0 s) : Kept s0 (challengeWord s h1) := h.updWgl.readDoneWith

protected theorem Kept.execReadChal {hdr : BitVec 16} (h : Kept s0 s) : OutKept s0 (execReadChal hdr s) :=
  (h.portRead (fun _ hu => .ite hu.retry ((Kept.ite hu.newChallenge hu).challengeWord))).out

protected theorem Kept.execWriteResp {hdr : BitVec 16} {data : Word} {crc : Byte}
    (h : Kept s0 s) : OutKept s0 (execWriteResp hdr data crc s) :=
  (h.portWrite (fun _ hu => .ite hu.retry hu.updWgl.writeDone)).out

protected theorem Kept.execReadId {hdr : BitVec 16} (h : Kept s0 s) : OutKept s0 (execReadId hdr s) :=
  (h.portRead (fun _ hu => hu.readDoneWith)).out

protected theorem Kept.responseFail (h : Kept s0 s) : Kept s0 (responseFail s) := by
  unfold responseFail
  exact h.updWgl.recordErr

protected theorem Kept.execWglResponseVerify (h : Kept s0 s) : OutKept s0 (execWglResponseVerify s) := by
  unfold execWglResponseVerify
  extract_lets s1 s2
  have hs1 : Kept s0 s1 := h.updWgl
  have hs2 : Kept s0 s2 := hs1.updWgl
  exact (Kept.ite h (.ite hs1.responseFail (.ite hs1 (.ite hs2.alarm hs2)))).out

protected theorem Kept.execWglGrant (h : Kept s0 s) : OutKept s0 (execWglGrant s) := by
  unfold execWglGrant
  apply Kept.out
  split
  · exact h
  · exact .ite h.updWgl h

/-! ### The commands -/

/-- Every command keeps them: each is carried out by its own function. -/
theorem exec_kept (c : Instr) (s : State) : OutKept s (exec c s) := by
  have h := Kept.rfl s
  cases c with
  | coldReset => exact h.execColdReset
  | warmReset _ _ => exact h.execWarmReset
  | softReset _ _ _ => exact h.execSoftReset
  | softResetDone _ => exact h.execSoftResetDone
  | pageLock _ _ _ => exact h.execPageLock
  | registerWrite _ _ _ _ => exact h.execRegisterWrite
  | intStatClear _ _ _ _ => exact h.execIntStatClear
  | intTest _ _ _ => exact h.execIntTest
  | errCodeRead _ _ => exact h.execErrCodeRead
  | pairLoRead _ _ => exact h.execPairLoRead
  | pairHiRead _ _ => exact h.execPairHiRead
  | pairLoWrite _ _ _ => exact h.execPairLoWrite
  | pairHiWrite _ _ _ => exact h.execPairHiWrite
  | openPkt _ _ _ => exact h.execOpen
  | openRefuseWindow _ _ => exact h.execOpenRefuseWindow
  | openRcvdTimeout _ _ => exact h.execOpenRcvdTimeout
  | cmdSegment _ _ _ => exact h.execCmdSegment
  | dataOut _ _ _ => exact h.execDataOut
  | ack _ _ _ => exact h.execAck
  | close _ _ _ => exact h.execClose
  | closingTimeout _ _ => exact h.execClosingTimeout
  | terminate _ _ _ => exact h.execTerminate
  | terminateBarrier _ => exact h.execTerminateBarrier
  | ackDelayExpiry _ _ => exact h.execAckDelayExpiry
  | rtoExpiry _ _ => exact h.execRtoExpiry
  | idleTimeout _ _ => exact h.execIdleTimeout
  | grantIssue _ _ => exact h.execGrantIssue
  | grantTimeout _ _ => exact h.execGrantTimeout
  | rateAdmit _ _ => exact h.execRateAdmit
  | tokenRefill _ _ => exact h.execTokenRefill
  | cmdIntake _ => exact h.execCmdIntake
  | csqDispatch _ => exact h.execCsqDispatch
  | urgentRefill _ => exact h.execUrgentRefill
  | get _ _ => exact h.execGet
  | put _ _ => exact h.execPut
  | delete _ _ => exact h.execDelete
  | stat _ _ => exact h.execStat
  | read _ _ => exact h.execRead
  | write _ _ => exact h.execWrite
  | trim _ _ => exact h.execTrim
  | flush _ _ => exact h.execFlush
  | flushBarrier _ => exact h.execFlushBarrier
  | flushConfirm _ _ => exact h.execFlushConfirm
  | abort _ _ => exact h.execAbort
  | nop _ _ => exact h.execNop
  | identifyTenant _ _ => exact h.execIdentifyTenant
  | resetSession _ _ => exact h.execResetSession
  | resetSessionBarrier _ => exact h.execResetSessionBarrier
  | meterRead _ _ => exact h.execMeterRead
  | regRead _ _ => exact h.execRegRead
  | regWrite _ _ => exact h.execRegWrite
  | resetDevice _ _ => exact h.execResetDevice
  | tenantSet _ _ => exact h.execTenantSet
  | nsCreate _ _ => exact h.execNsCreate
  | nsDelete _ _ => exact h.execNsDelete
  | keyInstall _ _ => exact h.execKeyInstall
  | fwDownload _ _ _ => exact h.execFwDownload
  | fwActivate _ _ => exact h.execFwActivate
  | actDrainDone => exact h.execActDrainDone
  | actDrainTimeout => exact h.execActDrainTimeout
  | format _ _ => exact h.execFormat
  | logRead _ _ => exact h.execLogRead
  | clockSet _ _ => exact h.execClockSet
  | bucketLookupDone _ _ _ => exact h.execBucketLookupDone
  | nectarAdmit _ => exact h.execNectarAdmit
  | packerStripe _ => exact h.execPackerStripe
  | checkpoint _ => exact h.execCheckpoint
  | mapCkptNow _ _ => exact h.execMapCkptNow
  | slcTargetRecompute _ => exact h.execSlcTargetRecompute
  | mapLockTimeout _ _ _ _ _ _ => exact h.execMapLockTimeout
  | fgrScore _ => exact h.execFgrScore
  | fgrReclaim _ => exact h.execFgrReclaim
  | cmbDrainFence _ => exact h.execCmbDrainFence
  | fgrEraseStart _ => exact h.execFgrEraseStart
  | fgrRecount _ _ => exact h.execFgrRecount
  | fgrRecountDone _ => exact h.execFgrRecountDone
  | readOnlyEnter _ => exact h.execReadOnlyEnter
  | flashOpIssue _ _ => exact h.execFlashOpIssue
  | flashReadComplete _ _ _ => exact h.execFlashReadComplete
  | flashProgramComplete _ _ _ => exact h.execFlashProgramComplete
  | flashEraseComplete _ _ _ _ _ => exact h.execFlashEraseComplete
  | lunTimeout _ _ => exact h.execLunTimeout
  | rbStuck _ _ => exact h.execRbStuck
  | channelRetrainDone _ _ _ _ => exact h.execChannelRetrainDone
  | degradedReadTimeout _ _ => exact h.execDegradedReadTimeout
  | tokenPeriod _ => exact h.execTokenPeriod
  | tokenAllocate => exact h.execTokenAllocate
  | cmbInvalidate _ _ _ => exact h.execCmbInvalidate
  | cmbWrite _ _ _ => exact h.execCmbWrite
  | cmbValidate _ _ _ => exact h.execCmbValidate
  | cmbResult _ _ _ => exact h.execCmbResult
  | cmbInvMasked _ _ _ => exact h.execCmbInvMasked
  | cmbUpdateDone _ => exact h.execCmbUpdateDone
  | cmbSlotReclaimDone _ => exact h.execCmbSlotReclaimDone
  | cmbSearch _ _ _ => exact h.execCmbSearch
  | cmbSearchResult _ => exact h.execCmbSearchResult
  | cmbShift _ _ _ => exact h.execCmbShift
  | cmbShiftDone _ => exact h.execCmbShiftDone
  | hceOuterSample _ _ => exact h.execHceOuterSample
  | hceInnerSample _ _ => exact h.execHceInnerSample
  | hceClampTimeout _ => exact h.execHceClampTimeout
  | fanFault _ => exact h.execFanFault
  | hceTraceArm _ _ _ => exact h.execHceTraceArm
  | hceTraceFire _ _ _ => exact h.execHceTraceFire
  | traceStop _ => exact h.execTraceStop
  | hceTrDataRead _ => exact h.execHceTrDataRead
  | bankOv _ => exact h.execBankOv
  | chargerRestart => exact h.execChargerRestart
  | bankTestStart => exact h.execBankTestStart
  | bankTestDue => exact h.execBankTestDue
  | psuTestNow _ => exact h.execPsuTestNow
  | bankTestDischarge _ _ => exact h.execBankTestDischarge
  | bankTestLowReached => exact h.execBankTestLowReached
  | bankTestDone _ => exact h.execBankTestDone
  | bankTestTimeout => exact h.execBankTestTimeout
  | dirtyLimitUpdate _ _ _ _ => exact h.execDirtyLimitUpdate
  | powerLoss => exact h.execPowerLoss
  | dieFlushDone _ => exact h.execDieFlushDone
  | flushShort => exact h.execFlushShort
  | lossRestart => exact h.execLossRestart
  | psuLossInfoRead _ => exact h.execPsuLossInfoRead
  | dieFault _ _ => exact h.execDieFault
  | dieResetDone _ => exact h.execDieResetDone
  | die0Fault => exact h.execDie0Fault
  | coreWdtExpiry _ _ => exact h.execCoreWdtExpiry
  | wrkKick _ _ _ => exact h.execWrkKick
  | idleEntry _ => exact h.execIdleEntry
  | sleepEntry _ => exact h.execSleepEntry
  | deepRequest _ => exact h.execDeepRequest
  | deepEntry => exact h.execDeepEntry
  | wake _ => exact h.execWake
  | pllLock _ => exact h.execPllLock
  | clockDomainRegate _ _ => exact h.execClockDomainRegate
  | pkgOff _ => exact h.execPkgOff
  | pkgWake _ => exact h.execPkgWake
  | rtcAlarm => exact h.execRtcAlarm
  | wakeNLow _ => exact h.execWakeNLow
  | mgtHealth _ => exact h.execMgtHealth
  | mgtState _ => exact h.execMgtState
  | mgtTemp _ => exact h.execMgtTemp
  | mgtVin _ => exact h.execMgtVin
  | mgtVbank _ => exact h.execMgtVbank
  | mgtBank _ => exact h.execMgtBank
  | mgtDies _ => exact h.execMgtDies
  | mgtWake _ _ _ => exact h.execMgtWake
  | mgtUnknownCode _ code => exact h.execMgtUnknownCode code
  | mgtBusTimeout _ => exact h.execMgtBusTimeout
  | thmSample _ _ => exact h.execThmSample
  | thmStateExit _ => exact h.execThmStateExit
  | sensorRecover _ _ => exact h.execSensorRecover
  | thmStage2 _ => exact h.execThmStage2
  | thermalRestart _ => exact h.execThermalRestart
  | thmTrimUpdate _ => exact h.execThmTrimUpdate
  | thmLoaded _ _ _ => exact h.execThmLoaded
  | alarm _ _ => exact h.execAlarm
  | alarmRecover => exact h.execAlarmRecover
  | entropyHealthFail _ => exact h.execEntropyHealthFail
  | drbgReseed _ => exact h.execDrbgReseed
  | ctrBoundRequest _ _ => exact h.execCtrBoundRequest
  | minuteBoundary => exact h.execMinuteBoundary
  | meterPartial _ => exact h.execMeterPartial
  | meterSeal => exact h.execMeterSeal
  | meterDieTimeout _ => exact h.execMeterDieTimeout
  | capSample _ => exact h.execCapSample
  | devtimeSync _ _ => exact h.execDevtimeSync
  | wallMark => exact h.execWallMark
  | levelSample _ => exact h.execLevelSample
  | latSel _ _ _ => exact h.execLatSel
  | eventRecord _ _ _ => exact h.execEventRecord
  | evrRefill _ => exact h.execEvrRefill
  | evrSel _ _ _ => exact h.execEvrSel
  | evrClearAll _ _ => exact h.execEvrClearAll
  | rxFrame _ _ _ => exact h.execRxFrame
  | pfcPauseExpire _ _ _ => exact h.execPfcPauseExpire
  | pfcResend _ _ => exact h.execPfcResend
  | pfcWatchdog _ _ _ => exact h.execPfcWatchdog
  | txFrame _ _ _ => exact h.execTxFrame
  | linkUp _ _ => exact h.execLinkUp
  | linkDown _ _ => exact h.execLinkDown
  | linkTrainFail _ _ => exact h.execLinkTrainFail
  | ethSnap _ _ _ _ => exact h.execEthSnap
  | ethFltAct _ _ _ _ => exact h.execEthFltAct
  | ethAddrCfg _ _ _ _ => exact h.execEthAddrCfg
  | dmcRefresh _ hot => exact h.execDmcRefresh hot
  | neighbourRefresh _ _ _ _ => exact h.execNeighbourRefresh
  | dmcLfsrReseed _ => exact h.execDmcLfsrReseed
  | dmcScrub _ _ _ => exact h.execDmcScrub
  | dmcTrainOp _ _ _ => exact h.execDmcTrainOp
  | dmcTrainDone _ _ _ => exact h.execDmcTrainDone
  | bpmPoolEnable _ _ _ => exact h.execBpmPoolEnable
  | bpmAlloc _ _ _ => exact h.execBpmAlloc
  | bpmAdd _ _ _ _ => exact h.execBpmAdd
  | bpmMove _ _ _ _ => exact h.execBpmMove
  | bpmDrop _ _ _ => exact h.execBpmDrop
  | bpmFree _ _ _ => exact h.execBpmFree
  | bpmSweep _ _ _ => exact h.execBpmSweep
  | bpmSweepDone _ => exact h.execBpmSweepDone
  | bpmUnfence _ _ _ => exact h.execBpmUnfence
  | bpmMinFreeRead _ _ => exact h.execBpmMinFreeRead
  | movDoorbell _ _ _ => exact h.execMovDoorbell
  | gather _ => exact h.execGather
  | scatter _ => exact h.execScatter
  | copy _ => exact h.execCopy
  | movPulse _ => exact h.execMovPulse
  | icuEvent _ _ => exact h.execIcuEvent
  | icuClaim _ _ => exact h.execIcuClaim
  | icuComplete _ _ _ => exact h.execIcuComplete
  | icuSwset _ _ _ => exact h.execIcuSwset
  | icuHoldoffExpiry _ _ => exact h.execIcuHoldoffExpiry
  | swmFlitRx _ _ _ => exact h.execSwmFlitRx
  | swmReplayTimeout _ _ => exact h.execSwmReplayTimeout
  | swmRetrainDone _ _ _ => exact h.execSwmRetrainDone
  | swmRetire _ _ _ _ => exact h.execSwmRetire
  | swmRouteSwitch _ _ => exact h.execSwmRouteSwitch
  | swmCreditTimeout _ _ => exact h.execSwmCreditTimeout
  | wglLineSync => exact h.execWglLineSync
  | readStatus _ => exact h.execReadStatus
  | writeCtrl _ _ _ => exact h.execWriteCtrl
  | writeAddr _ _ _ => exact h.execWriteAddr
  | readData _ => exact h.execReadData
  | writeData _ _ _ => exact h.execWriteData
  | readChal _ => exact h.execReadChal
  | writeResp _ _ _ => exact h.execWriteResp
  | readId _ => exact h.execReadId
  | wglResponseVerify => exact h.execWglResponseVerify
  | wglGrant => exact h.execWglGrant
  | wglHaltReq _ _ _ => exact h.execWglHaltReq
  | wglResume _ _ _ => exact h.execWglResume
  | wglStep _ _ _ => exact h.execWglStep
  | coreHalt _ _ _ => exact h.execCoreHalt
  | wglBreakpoint _ _ _ => exact h.execWglBreakpoint
  | wglMemAccess _ _ _ => exact h.execWglMemAccess
  | wglCregAccess _ _ _ => exact h.execWglCregAccess
  | norProgram _ _ => exact h.execNorProgram
  | norErase _ _ => exact h.execNorErase
  | norUnlockPe _ => exact h.execNorUnlockPe
  | norUnlockOptWe _ => exact h.execNorUnlockOptWe
  | psuWdtKick _ => exact h.execPsuWdtKick
  | pmbPoll _ _ => exact h.execPmbPoll
  | pmbFaultRecheck _ _ => exact h.execPmbFaultRecheck
  | pmbMargin _ _ => exact h.execPmbMargin
  | pmbClear _ _ => exact h.execPmbClear
  | entropyStartupPass _ => exact h.execEntropyStartupPass
  | norOpDone => exact h.execNorOpDone
  | journalCompact => exact h.execJournalCompact
  | fwConfirm => exact h.execFwConfirm
  | svnCommit => exact h.execSvnCommit
  | packageWdtExpiry => exact h.execPackageWdtExpiry
  | pmbAlert => exact h.execPmbAlert
  | resetNRelease => exact h.execResetNRelease
  | bankExhausted => exact h.execBankExhausted

/-- The canonical form is part of what a command keeps, and it does not speak of the queue. -/
protected theorem Kept.canonical (h : Kept s t) (hc : Canonical s) : Canonical t :=
  ⟨h.regs hc.registers, h.mem hc.memory, h.nor hc.nor⟩

/-- Taking the front of the queue leaves the canonical form. -/
theorem canonical_pending {l : List Instr} (hc : Canonical s) : Canonical { s with pending := l } :=
  ⟨hc.registers, hc.memory, hc.nor⟩

/-- Settles O5: every command keeps the part, the queue and the draws made, by the case of the command. -/
theorem execKeepsPartAndQueue : Obligations.ExecKeepsPartAndQueue := by
  intro c s t e
  obtain ⟨hpart, hpending, hdraws, -, -, -⟩ := exec_kept c s t e
  exact ⟨hpart, hpending, hdraws⟩

/-- Settles O4: an empty queue leaves the state as it is, and the front of another one runs on a state in canonical form, which
every command keeps. -/
theorem stepKeepsCanonical : Obligations.StepKeepsCanonical := by
  intro s t hc e
  unfold step at e
  split at e
  · cases e
    exact hc
  · exact (exec_kept _ _ t e).canonical (canonical_pending hc)

end Sys2Proof.Frame
end

section
/-! ### Register accesses in a window that answers -/
namespace Sys2Proof.Access
open Sys2Proof Sys2Proof.Machine Sys2Proof.Laws Sys2Proof.Safety
variable {s : State} {r : Requester} {a : Nat} {v w : Word} {b : Block} {q : RegSpec}

/-- With no entry to DEEP in progress there is none to abandon. -/
theorem abandonDeep_of_no_entry (h : s.guard.entry = 0) : abandonDeep s = s := if_pos h

/-- A package that is not in DEEP and does not enter it has nothing to wake. -/
theorem wakePackage_of_awake {src : Option Nat} (hdeep : s.guard.deep = false) (hentry : s.guard.entry = 0) :
    wakePackage s src = s := by
  unfold wakePackage
  rw [if_neg (by simp [hdeep]), abandonDeep_of_no_entry hentry]

/-- A die that runs is not in DEEP. -/
theorem not_deep_of_running {d : DieId} (h : running s d = true) : s.guard.deep = false := by
  unfold running at h
  simp only [Bool.and_eq_true, Bool.not_eq_true'] at h
  exact h.2

/-- An access to an address in a window that answers, with its die awake, wakes nothing. -/
theorem accessWake_of_reachable (h : Reachable s a) : accessWake s a = s := by
  unfold accessWake
  split
  · next hw =>
    obtain ⟨hrun, hps, -, hentry⟩ := h.2 ⟨winOf a, hw⟩ rfl
    dsimp only
    rw [wakePackage_of_awake (not_deep_of_running hrun) hentry, if_neg (by simp [hps])]
  · rfl

/-- A requester that has the register space is served. -/
theorem byReq_of_hasSpace {f : State → State} (h : HasSpace s r) : byReq s r f = f s := by
  unfold byReq
  exact if_neg fun ⟨hr, hcap⟩ => by simp [h hr] at hcap

theorem readReg_of_reachable (h : Reachable s a) : readReg s r a = readOpen s r a := by
  unfold readReg
  rw [accessWake_of_reachable h]
  exact if_pos h.1

/-- A write to a register of a block's table in a window that answers goes to the block, unless its page is in a soft reset. -/
theorem regWrite_of_regOpen (h : RegOpen s b a q) : regWrite s r a v = ownWrite s r b a v := by
  obtain ⟨hblock, hoff, -, hreach, hsoft⟩ := h
  unfold regWrite
  rw [accessWake_of_reachable hreach]
  dsimp only
  rw [if_neg (by simp [hreach.1]), hblock]
  dsimp only
  rw [if_neg (by omega), if_neg (by simp [hsoft]), if_neg (by omega)]

/-- A value that a field does not define is refused whole (R566). -/
theorem ownWrite_bad_value (hq : regSpec b (offOf a) = some q) (hv : valuesOk q v = false) :
    ownWrite s r b a v = badValue s a := by
  simp [ownWrite, hq, hv]

/-! ### Pairs (R8) -/

theorem pairGet_pairDel_self (l : List (Requester × Nat × Word)) : pairGet (pairDel l r a) r a = none := by
  unfold pairGet pairDel
  rw [List.find?_eq_none.2, Option.map_none]
  intro p hp h
  have hk := (List.mem_filter.1 hp).2
  rw [h] at hk
  cases hk

theorem pairGet_pairPut_self (l : List (Requester × Nat × Word)) : pairGet (pairPut l r a v) r a = some v := by
  simp [pairGet, pairPut]

theorem readOpen_lo (h : isLo a = true) :
    readOpen s r a = answerWith { s with latch := pairPut s.latch r (a + 4) (viewReg s (a + 4)) } (viewReg s a) := by
  simp [readOpen, h]

theorem readOpen_hi_latched (hlo : isLo a = false) (hhi : isHi a = true) (hv : pairGet s.latch r a = some v) :
    readOpen s r a = answerWith { s with latch := pairDel s.latch r a } v := by
  simp [readOpen, hlo, hhi, hv]

theorem readOpen_hi_unlatched (hlo : isLo a = false) (hhi : isHi a = true) (hv : pairGet s.latch r a = none) :
    readOpen s r a = answerWith s (viewReg s a) := by
  simp [readOpen, hlo, hhi, hv]

/-- While the page is not locked a write of _LO is held. -/
theorem pairHold_of_unlocked (h : locked s (baseOf a) = false) :
    pairHold s r a v = { s with heldLo := pairPut s.heldLo r (a + 4) v } := by
  simp [pairHold, h]

/-- On a page that is not locked the two halves of a pair are merged by their access codes. -/
theorem storePair_of_unlocked {ql qh : RegSpec} (hl : regSpec b (offOf a) = some ql) (hh : regSpec b (offOf a + 4) = some qh)
    (h : locked s (baseOf a) = false) :
    storePair s b a v w =
      regSet (regSet s a (mergeFields false (regGet s a) v ql)) (a + 4) (mergeFields false (regGet s (a + 4)) w qh) := by
  simp [storePair, hl, hh, h, lockedChange]

/-! ### The MAC address pair of an Ethernet port -/

theorem isLo_ethMac (hblock : blockAt a = some .eth) (hoff : offOf a = 0x44) : isLo a = true := by
  simp [isLo, hblock, hoff]

theorem pairWritten_ethMac (hblock : blockAt a = some .eth) (hoff : offOf a = 0x44) : pairWritten a = true := by
  simp [pairWritten, hblock, hoff]

theorem isLo_ethMacHi (hblock : blockAt a = some .eth) (hoff : offOf a = 0x48) : isLo a = false := by
  simp [isLo, hblock, hoff]

theorem isHi_ethMacHi (hblock : blockAt a = some .eth) (hoff : offOf a = 0x44) : isHi (a + 4) = true := by
  simp [isHi, isLo_ethMac hblock hoff]

theorem condOk_ethMac (hoff : offOf a = 0x44) : condOk s .eth a v = true := by
  simp [condOk, hoff]

/-- A write of the low half with defined values changes no register: it is held for its requester. -/
theorem regWrite_ethMac (ho : RegOpen s .eth a q) (hoff : offOf a = 0x44) (hlock : locked s (baseOf a) = false)
    (hv : valuesOk q v = true) : regWrite s r a v = { s with heldLo := pairPut s.heldLo r (a + 4) v } := by
  have ⟨hblock, _, hq, _, _⟩ := ho
  rw [regWrite_of_regOpen ho, ← pairHold_of_unlocked hlock]
  unfold ownWrite
  rw [hq]
  simp [hv, condOk_ethMac hoff, isLo_ethMac hblock hoff, pairWritten_ethMac hblock hoff]

/-- A high half that the block takes is stored with the low half held for its requester. -/
theorem pairTake_eth_of_held (hheld : pairGet s.heldLo r (a + 4) = some v) :
    pairTake s r .eth (a + 4) w = storePair { s with heldLo := pairDel s.heldLo r (a + 4) } .eth a v w := by
  simp [pairTake, pairOk, pairCommit, hheld]

/-- A write of the high half with a held low half stores both. -/
theorem regWrite_ethMacHi (hlo : blockAt a = some .eth) (ho : RegOpen s .eth (a + 4) q) (hoff : offOf a = 0x44)
    (hoffHi : offOf (a + 4) = 0x48) (hw : valuesOk q w = true) (hcond : condOk s .eth (a + 4) w = true)
    (hheld : pairGet s.heldLo r (a + 4) = some v) :
    regWrite s r (a + 4) w = storePair { s with heldLo := pairDel s.heldLo r (a + 4) } .eth a v w := by
  have ⟨hblock, _, hq, _, _⟩ := ho
  rw [regWrite_of_regOpen ho, ← pairTake_eth_of_held hheld]
  unfold ownWrite
  rw [hq]
  simp [hw, hcond, isLo_ethMacHi hblock hoffHi, isHi_ethMacHi hlo hoff, pairWritten_ethMac hlo hoff]

/-! ### The pairs of R8 -/

theorem pairLoRead_spec {addr : Word} (hopen : Reachable s addr.toNat) (hspace : HasSpace s r) (hlo : isLo addr.toNat = true) :
    ∃ t, exec (.pairLoRead r addr) s = .next t ∧ t.answer.data = viewReg s addr.toNat
      ∧ pairGet t.latch r (addr.toNat + 4) = some (viewReg s (addr.toNat + 4)) ∧ t.regs = s.regs ∧ t.dies = s.dies
      ∧ t.guard = s.guard := by
  refine ⟨readOpen s r addr.toNat, ?_, ?_⟩
  · show Host.Outcome.next (byReq s r _) = _
    rw [byReq_of_hasSpace hspace, if_pos hlo, readReg_of_reachable hopen]
  · rw [readOpen_lo hlo]
    exact ⟨rfl, pairGet_pairPut_self _, rfl, rfl, rfl⟩

theorem exec_pairHiRead {addr : Word} (hopen : Reachable s addr.toNat) (hspace : HasSpace s r) (hhi : isHi addr.toNat = true) :
    exec (.pairHiRead r addr) s = .next (readOpen s r addr.toNat) := by
  show Host.Outcome.next (byReq s r _) = _
  rw [byReq_of_hasSpace hspace, if_pos hhi, readReg_of_reachable hopen]

theorem exec_pairLoWrite {addr : Word} (hspace : HasSpace s r) (hlo : isLo addr.toNat = true) :
    exec (.pairLoWrite r addr v) s = .next (regWrite s r addr.toNat v) := by
  show Host.Outcome.next (byReq s r _) = _
  rw [byReq_of_hasSpace hspace, if_pos hlo]

theorem exec_pairHiWrite {addr : Word} (hspace : HasSpace s r) (hhi : isHi addr.toNat = true) :
    exec (.pairHiWrite r addr v) s = .next (regWrite s r addr.toNat v) := by
  show Host.Outcome.next (byReq s r _) = _
  rw [byReq_of_hasSpace hspace, if_pos hhi]

/-- The offset of a register of a page, from the page's address. -/
theorem offOf_dreg {d : DieId} {page off : Nat} (h : off < 0x10000) : offOf (dreg d page off) = off := by
  unfold offOf dreg
  omega

/-- Settles O9: both reads go to the window that answers, a write of _LO is held, and the write of _HI that follows stores the two
halves. -/
theorem registerPairs : Obligations.RegisterPairs := by
  refine ⟨fun s r addr hopen hspace => ⟨pairLoRead_spec hopen hspace, fun hhi hlo =>
    ⟨fun v hv => ?_, fun hnone => ?_⟩⟩, ?_⟩
  · refine ⟨_, exec_pairHiRead hopen hspace hhi, ?_⟩
    rw [readOpen_hi_latched hlo hhi hv]
    exact ⟨rfl, pairGet_pairDel_self _, rfl, rfl, rfl⟩
  · refine ⟨_, exec_pairHiRead hopen hspace hhi, ?_⟩
    rw [readOpen_hi_unlatched hlo hhi hnone]
    exact ⟨rfl, rfl, rfl⟩
  · intro s r d p lo hi v w qlo qhi elo ehi holo hohi hspace hregs hlock
    have hofflo : offOf lo.toNat = 0x44 := by rw [elo]; exact offOf_dreg (by omega)
    have hoffhi : offOf hi.toNat = 0x48 := by rw [ehi]; exact offOf_dreg (by omega)
    have hhi : hi.toNat = lo.toNat + 4 := by rw [elo, ehi]; unfold dreg; omega
    have ⟨hblock, _, hqlo, _, _⟩ := holo
    have ⟨_, _, hqhi, _, _⟩ := hohi
    refine ⟨fun hv => ⟨_, exec_pairLoWrite hspace (isLo_ethMac hblock hofflo), ?_⟩, fun hw hcond hheld => ?_⟩
    · rw [regWrite_ethMac holo hofflo hlock hv, hhi]
      exact ⟨pairGet_pairPut_self _, rfl, rfl⟩
    · rw [hhi] at hohi hoffhi hcond hheld hqhi ⊢
      refine ⟨_, exec_pairHiWrite (addr := hi) hspace (by rw [hhi]; exact isHi_ethMacHi hblock hofflo), ?_⟩
      have hst := storePair_of_unlocked (s := { s with heldLo := pairDel s.heldLo r (lo.toNat + 4) }) (v := v) (w := w)
        hqlo (qh := qhi) (by rw [hofflo, ← hqhi, hoffhi]) hlock
      rw [hhi, regWrite_ethMacHi hblock hohi hofflo hoffhi hw hcond hheld, hst]
      refine ⟨pairGet_pairDel_self _, ?_, ?_, fun a hlo hhi => ?_, rfl⟩
      · rw [regGet_regSet_ne _ _ _ _ (by omega)]
        exact regGet_regSet_self _ _ _ hregs
      · exact regGet_regSet_self _ _ _ (regSet_wf _ _ _ hregs)
      · rw [regGet_regSet_ne _ _ _ _ hhi]
        exact regGet_regSet_ne _ _ _ _ hlo

end Sys2Proof.Access
end

section
/-! ### Errors, the page header and the soft reset -/
namespace Sys2Proof.Access
open Sys2Proof Sys2Proof.Machine Sys2Proof.Laws Sys2Proof.Safety
variable {s : State} {r : Requester} {a base : Nat} {v w : Word} {b : Block} {q : RegSpec} {d : DieId}

/-! ### Pages -/

theorem winOf_of_baseOf {c : Nat} (h : baseOf a = baseOf c) : winOf a = winOf c := by
  unfold baseOf at h
  unfold winOf
  omega

theorem pageOf_of_baseOf {c : Nat} (h : baseOf a = baseOf c) : pageOf a = pageOf c := by
  unfold baseOf at h
  unfold pageOf
  omega

/-- The registers of a page belong to one block. -/
theorem blockAt_of_baseOf {c : Nat} (h : baseOf a = baseOf c) : blockAt a = blockAt c := by
  unfold blockAt
  rw [winOf_of_baseOf h, pageOf_of_baseOf h]

/-- The registers of a page answer together. -/
theorem reachable_of_baseOf {c : Nat} (h : baseOf a = baseOf c) (hc : Reachable s c) : Reachable s a := by
  refine ⟨?_, fun d hd => hc.2 d (by rw [← winOf_of_baseOf h]; exact hd)⟩
  have ho := hc.1
  unfold windowOpen at ho ⊢
  rw [winOf_of_baseOf h, pageOf_of_baseOf h]
  exact ho

theorem baseOf_add {off : Nat} (h : offOf base = 0) (hoff : off < 0x10000) : baseOf (base + off) = base := by
  unfold offOf at h
  unfold baseOf
  omega

theorem offOf_add {off : Nat} (h : offOf base = 0) (hoff : off < 0x10000) : offOf (base + off) = off := by
  unfold offOf at h ⊢
  omega

theorem offOf_baseOf : offOf (baseOf a) = 0 := by
  unfold offOf baseOf
  omega

theorem baseOf_baseOf : baseOf (baseOf a) = baseOf a := by
  unfold baseOf
  omega

theorem baseOf_add_offOf : baseOf a + offOf a = a := by
  unfold offOf baseOf
  omega

theorem blockAt_evr {off : Nat} (h : off < 0x10000) : blockAt (dreg d Page.evr off) = some .evr := by
  have hw : winOf (dreg d Page.evr off) = d.val := by
    unfold winOf dreg Page.evr
    omega
  have hp : pageOf (dreg d Page.evr off) = 3 := by
    unfold pageOf dreg Page.evr
    omega
  have hd := d.isLt
  unfold blockAt
  rw [hw, if_pos hd, hp]
  rfl

/-- A register of another block's page is none of EVR's. -/
theorem ne_evr_of_block {off : Nat} (hb : blockAt a = some b) (hne : b ≠ .evr) (h : off < 0x10000) : a ≠ dreg d Page.evr off := by
  rintro rfl
  rw [blockAt_evr h] at hb
  exact hne (Option.some.inj hb).symm

theorem dreg_zero_add {page off : Nat} : dreg d page 0 + off = dreg d page off := by
  unfold dreg
  omega

/-! ### Errors (R54, R399) -/

theorem regGet_raiseInt_ne {bit : Nat} (h : a ≠ base + 0x10) : regGet (raiseInt s base bit) a = regGet s a :=
  regGet_regSet_ne _ _ _ _ h

/-- An event record touches EVR_LIMITED and EVR's INT_RAW alone. -/
theorem regGet_recordEvent {code x : Nat} (hlim : a ≠ dreg d Page.evr 0x100) (hraw : a ≠ dreg d Page.evr 0x10) :
    regGet (recordEvent s d code x) a = regGet s a := by
  unfold recordEvent
  extract_lets m s1 s2
  have hs2 : regGet s2 a = regGet s a := regGet_regSet_ne _ _ _ _ hlim
  split
  · rfl
  · split
    · exact (regGet_raiseInt_ne (by rwa [dreg_zero_add])).trans hs2
    · exact hs2

/-- An event record clears no bit of a register but EVR_LIMITED. -/
theorem getLsbD_recordEvent {code x k : Nat} (hregs : registersOk s) (hlim : a ≠ dreg d Page.evr 0x100)
    (hk : (regGet s a).getLsbD k = true) : (regGet (recordEvent s d code x) a).getLsbD k = true := by
  by_cases hraw : a = dreg d Page.evr 0x10
  · unfold recordEvent
    extract_lets m s1 s2
    have hs2 : regGet s2 a = regGet s a := regGet_regSet_ne _ _ _ _ hlim
    split
    · exact hk
    · split
      · have hself : regGet (raiseInt s2 (dreg d Page.evr 0) 1) a = regGet s2 a ||| BitVec.ofNat 32 (2 ^ 1) := by
          rw [hraw, ← dreg_zero_add (off := 0x10)]
          exact (raiseInt_spec _ _ _ (regSet_wf _ _ _ hregs)).1
        rw [hself, BitVec.getLsbD_or, hs2, hk, Bool.true_or]
      · rw [hs2, hk]
  · rw [regGet_recordEvent hlim hraw, hk]

/-- What recording an error leaves alone: every register but the page's error registers and INT_RAW, and EVR's two. -/
theorem regGet_recordErr {code off : Nat} (hcode : a ≠ base + 0x20) (hinfo : a ≠ base + 0x24) (hint : a ≠ base + 0x10)
    (hlim : a ≠ dreg (eventDie base) Page.evr 0x100) (hraw : a ≠ dreg (eventDie base) Page.evr 0x10) :
    regGet (recordErr s base code off) a = regGet s a := by
  unfold recordErr
  extract_lets s1
  have hs1 : regGet s1 a = regGet s a := by
    unfold s1
    split
    · exact (regGet_regSet_ne _ _ _ _ hint).trans ((regGet_regSet_ne _ _ _ _ hinfo).trans (regGet_regSet_ne _ _ _ _ hcode))
    · exact regGet_regSet_ne _ _ _ _ hinfo
  split
  · exact (regGet_recordEvent hlim hraw).trans hs1
  · exact hs1

/-- The first error of a page: ERR_CODE, ERR_INFO and the ERR interrupt. -/
def firstErr (s : State) (base code off : Nat) : State :=
  raiseInt (regSet (regSet s (base + 0x20) (BitVec.ofNat 32 code)) (base + 0x24) (BitVec.ofNat 32 (off % 0x10000))) base 0

theorem recordErr_first {code off : Nat} (h : regGet s (base + 0x20) = 0) (hb : blockAt base = some b) :
    recordErr s base code off = recordEvent (firstErr s base code off) (eventDie base) (0x40 + blockType b) code := by
  unfold recordErr
  rw [if_pos h, hb]
  rfl

theorem firstErr_wf {code off : Nat} (h : registersOk s) : registersOk (firstErr s base code off) :=
  regSet_wf _ _ _ (regSet_wf _ _ _ (regSet_wf _ _ _ h))

/-- With no error pending the error's code is recorded. -/
theorem regGet_recordErr_code {code off : Nat} (hregs : registersOk s) (hbase : offOf base = 0) (hb : blockAt base = some b)
    (h : regGet s (base + 0x20) = 0) : regGet (recordErr s base code off) (base + 0x20) = BitVec.ofNat 32 code := by
  have hoff := offOf_add (off := 0x20) hbase (by omega)
  rw [recordErr_first h hb, regGet_recordEvent]
  · calc regGet (firstErr s base code off) (base + 0x20)
        = regGet (regSet s (base + 0x20) (BitVec.ofNat 32 code)) (base + 0x20) :=
          (regGet_regSet_ne _ _ _ _ (by omega)).trans (regGet_regSet_ne _ _ _ _ (by omega))
      _ = BitVec.ofNat 32 code := regGet_regSet_self _ _ _ hregs
  · intro e
    rw [e, offOf_dreg (by omega)] at hoff
    omega
  · intro e
    rw [e, offOf_dreg (by omega)] at hoff
    omega

/-- With no error pending the ERR interrupt is raised. -/
theorem getLsbD_recordErr_int {code off : Nat} (hregs : registersOk s) (hbase : offOf base = 0) (hb : blockAt base = some b)
    (h : regGet s (base + 0x20) = 0) : (regGet (recordErr s base code off) (base + 0x10)).getLsbD 0 = true := by
  have hoff := offOf_add (off := 0x10) hbase (by omega)
  rw [recordErr_first h hb]
  refine getLsbD_recordEvent (firstErr_wf hregs) (fun e => ?_) ?_
  · rw [e, offOf_dreg (by omega)] at hoff
    omega
  · have hself : regGet (firstErr s base code off) (base + 0x10) = _ :=
      regGet_regSet_self _ _ _ (regSet_wf _ _ _ (regSet_wf _ _ _ hregs))
    rw [hself, BitVec.getLsbD_or]
    simp

/-! ### Writes to CSQ -/

/-- CSQ has no 64-bit pairs. -/
theorem isLo_csq (h : blockAt a = some .csq) : isLo a = false := by
  simp [isLo, h]

theorem isHi_csq (h : blockAt a = some .csq) (hoff : 0x40 ≤ offOf a) : isHi a = false := by
  have hb : baseOf (a - 4) = baseOf a := by
    unfold offOf at hoff
    unfold baseOf
    omega
  rw [isHi, isLo_csq ((blockAt_of_baseOf hb).trans h), Bool.and_false]

theorem condOk_csq : condOk s .csq a v = true := by
  simp [condOk]

/-- A register of CSQ takes defined values as a plain register, but for CSQ_URGENT. -/
theorem blockWrite_csq : blockWrite s r .csq a v = if offOf a = 0x48 then urgentWrite s (dieAt a) a v else storeReg s a v := by
  unfold blockWrite
  split <;> simp_all

theorem ownWrite_csq (hb : blockAt a = some .csq) (hoff : 0x40 ≤ offOf a) (hq : regSpec .csq (offOf a) = some q)
    (hv : valuesOk q v = true) :
    ownWrite s r .csq a v = if offOf a = 0x48 then urgentWrite s (dieAt a) a v else storeReg s a v := by
  rw [← blockWrite_csq (r := r)]
  simp [ownWrite, hq, hv, condOk_csq, isLo_csq hb, isHi_csq hb hoff]

/-- On a page that is not locked a write of a register of the table merges its fields. -/
theorem storeReg_of_unlocked (hb : blockAt a = some b) (hq : regSpec b (offOf a) = some q) (h : locked s (baseOf a) = false) :
    storeReg s a v = regSet s a (mergeFields false (regGet s a) v q) := by
  simp [storeReg, hb, hq, storeFields, h, lockedChange]

theorem page_of_csq {die page : Nat} (h : diePage die page = some .csq) : page = Page.csq := by
  unfold diePage at h
  split at h <;> simp_all [Page.csq]

theorem guardPage_ne_csq (page : Nat) : guardPage page ≠ some .csq := by
  unfold guardPage
  split <;> simp

/-- CSQ lies at its page of a die's window. -/
theorem eq_dreg_of_csq (h : blockAt a = some .csq) : a = dreg (dieAt a) Page.csq (offOf a) := by
  have hpage : winOf a < 8 ∧ pageOf a = Page.csq := by
    unfold blockAt at h
    split at h
    · next hw => exact ⟨hw, page_of_csq h⟩
    · split at h
      · cases h
      · split at h
        · exact absurd h (guardPage_ne_csq _)
        · cases h
  obtain ⟨hw, hp⟩ := hpage
  unfold pageOf at hp
  unfold winOf at hw
  unfold dreg dieAt dieOf winOf offOf
  dsimp only
  omega

/-! ### Register writes -/

theorem exec_registerWrite {addr : Word} (hspace : HasSpace s r) (ha : addr.toNat % 4 = 0) :
    exec (.registerWrite r addr 4 v) s = .next (regWrite s r addr.toNat v) := by
  show Host.Outcome.next (byReq s r _) = _
  rw [byReq_of_hasSpace hspace]
  simp [writeAligned, ha]

/-- CSQ_URGENT is stored, and the token count stays within the new burst (R116). -/
theorem urgentWrite_of_unlocked (hb : blockAt a = some .csq) (hq : regSpec .csq (offOf a) = some q)
    (hlock : locked s (baseOf a) = false) :
    urgentWrite s d a v = (regSet s a (mergeFields false (regGet s a) v q)).updDie d fun x => { x with
      csq := { x.csq with tokens := min x.csq.tokens (urgCap (regSet s a (mergeFields false (regGet s a) v q)) d) } } := by
  unfold urgentWrite
  rw [storeReg_of_unlocked hb hq hlock]

/-- The new cap on the token count comes from the word just stored. -/
theorem urgCap_regSet (hregs : registersOk s) (ha : a = dreg d Page.csq 0x48) :
    urgCap (regSet s a w) d = (fld w 31 16 * 1000 : Nat) := by
  unfold urgCap dfld
  rw [← ha, regGet_regSet_self _ _ _ hregs]

/-- Settles O7: a write with defined values merges them into the register, through CSQ_URGENT's own action at its offset; any
other is recorded as BAD_VALUE, which touches no register of CSQ's own. -/
theorem registerWrite : Obligations.RegisterWrite := by
  intro s r addr v q hopen hspace hregs halign hlock
  have ⟨hb, hoff, hq, _, _⟩ := hopen
  have hexec := exec_registerWrite (v := v) hspace halign
  rw [regWrite_of_regOpen hopen] at hexec
  refine ⟨fun hv => ⟨_, hexec, ?_⟩, fun hv => ⟨_, hexec, ?_⟩⟩
  · rw [ownWrite_csq hb hoff hq hv]
    by_cases hurgent : offOf addr.toNat = 0x48
    · rw [if_pos hurgent, urgentWrite_of_unlocked hb hq hlock]
      refine ⟨regGet_regSet_self _ _ _ hregs, fun a ha => regGet_regSet_ne _ _ _ _ ha, fun h => absurd hurgent h, fun _ => ?_⟩
      rw [die_updDie_self, urgCap_regSet hregs (by rw [← hurgent]; exact eq_dreg_of_csq hb)]
      rfl
    · rw [if_neg hurgent, storeReg_of_unlocked hb hq hlock]
      exact ⟨regGet_regSet_self _ _ _ hregs, fun a ha => regGet_regSet_ne _ _ _ _ ha, fun _ => rfl, fun h => absurd h hurgent⟩
  · rw [ownWrite_bad_value hq hv]
    have hpage : ∀ off, off < 0x40 → addr.toNat ≠ baseOf addr.toNat + off := by
      intro off hlt e
      have := baseOf_add_offOf (a := addr.toNat)
      omega
    refine ⟨regGet_recordErr (hpage _ (by omega)) (hpage _ (by omega)) (hpage _ (by omega))
      (ne_evr_of_block hb (by decide) (by omega)) (ne_evr_of_block hb (by decide) (by omega)), fun h0 => ?_⟩
    have hbase : blockAt (baseOf addr.toNat) = some .csq :=
      (blockAt_of_baseOf baseOf_baseOf).trans hb
    exact regGet_recordErr_code hregs offOf_baseOf hbase h0

end Sys2Proof.Access
end

section
/-! ### The page header and the soft reset of a page -/
namespace Sys2Proof.Access
open Sys2Proof Sys2Proof.Machine Sys2Proof.Laws Sys2Proof.Safety Sys2Proof.Frame
variable {s : State} {r : Requester} {a base : Nat} {v : Word} {b : Block}

/-! ### Single bits of a register -/

theorem getLsbD_fieldMask {n k : Nat} (hn : n < 32) : (fieldMask n n).getLsbD k = decide (k = n) := by
  unfold fieldMask
  rw [show n + 1 - n = 1 by omega, BitVec.getLsbD_ofNat, show (2 ^ 1 - 1) <<< n = 2 ^ n by rw [Nat.shiftLeft_eq]; omega,
    Nat.testBit_two_pow]
  by_cases h : k = n
  · simp [h, hn]
  · simp [h, Ne.symm h]

/-- A field of one bit takes bit 0 of what it is set to; the other bits stay. -/
theorem bitAt_setFld {n k x : Nat} (hn : n < 32) : bitAt (setFld v n n x) k = if k = n then x.testBit 0 else bitAt v k := by
  unfold bitAt setFld
  rw [BitVec.getLsbD_or, BitVec.getLsbD_and, BitVec.getLsbD_and, BitVec.getLsbD_not, getLsbD_fieldMask hn]
  by_cases h : k = n
  · subst h
    rw [BitVec.getLsbD_ofNat, Nat.testBit_shiftLeft]
    simp [hn]
  · simpa [h] using BitVec.lt_of_getLsbD

theorem regFld_wf {hi lo x : Nat} (h : registersOk s) : registersOk (regFld s a hi lo x) := regSet_wf _ _ _ h

theorem regGet_regFld_ne {c hi lo x : Nat} (h : c ≠ a) : regGet (regFld s a hi lo x) c = regGet s c := regGet_regSet_ne _ _ _ _ h

/-- A bit of a register after one of its bits has been set. -/
theorem bitAt_regFld {n k x : Nat} (hregs : registersOk s) (hn : n < 32) :
    bitAt (regGet (regFld s a n n x) a) k = if k = n then x.testBit 0 else bitAt (regGet s a) k := by
  unfold regFld
  rw [regGet_regSet_self _ _ _ hregs, bitAt_setFld hn]

/-! ### Writes of CTRL (R47, R49) -/

/-- A write of an open page's CTRL reaches it, in a soft reset too. -/
theorem regWrite_ctrl (h : PageOpen s b base) : regWrite s r (base + 8) v = ctrlWrite s (base + 8) v := by
  obtain ⟨hbase, hblock, hreach⟩ := h
  have hsame : baseOf (base + 8) = baseOf base := by
    rw [baseOf_add hbase (by omega)]
    exact (baseOf_add (off := 0) hbase (by omega)).symm
  have hopen := reachable_of_baseOf hsame hreach
  unfold regWrite
  rw [accessWake_of_reachable hopen]
  dsimp only
  rw [if_neg (by simp [hopen.1]), (blockAt_of_baseOf hsame).trans hblock]
  exact if_pos (offOf_add hbase (by omega))

theorem ctrlWrite_lock (h31 : bitAt v 31 = true) (h1 : bitAt v 1 = false) :
    ctrlWrite s a v = regFld (regFld s a 0 0 (fld v 0 0)) a 31 31 1 := by
  simp [ctrlWrite, h31, h1]

theorem ctrlWrite_srst (h31 : bitAt v 31 = false) (h1 : bitAt v 1 = true) (hlock : locked s (baseOf a) = false) :
    ctrlWrite s a v = regFld (regFld s a 0 0 (fld v 0 0)) a 1 1 1 := by
  simp [ctrlWrite, h31, h1, hlock]

/-- A soft reset of a locked page is refused (R49). -/
theorem ctrlWrite_srst_locked (h31 : bitAt v 31 = false) (h1 : bitAt v 1 = true) (hlock : locked s (baseOf a) = true) :
    ctrlWrite s a v = recordErr (regFld s a 0 0 (fld v 0 0)) (baseOf a) 0x03 8 := by
  simp [ctrlWrite, h31, h1, hlock]

theorem isPage_of_pageOpen (h : PageOpen s b base) : isPage base = true := by
  simp [isPage, h.1, h.2.1]

theorem exec_pageLock {base : Word} {en : Bool} (h : PageOpen s b base.toNat) (hspace : HasSpace s r) :
    exec (.pageLock r base en) s = .next (regFld (regFld s (base.toNat + 8) 0 0 en.toNat) (base.toNat + 8) 31 31 1) := by
  show Host.Outcome.next (byReq s r _) = _
  rw [byReq_of_hasSpace hspace, if_pos (isPage_of_pageOpen h), regWrite_ctrl h]
  cases en
  · rw [ctrlWrite_lock (by decide) (by decide)]
    rfl
  · rw [ctrlWrite_lock (by decide) (by decide)]
    rfl

theorem exec_softReset {base : Word} {en : Bool} (h : PageOpen s b base.toNat) (hspace : HasSpace s r) :
    exec (.softReset r base en) s = .next (ctrlWrite s (base.toNat + 8) (if en then 3 else 2)) := by
  show Host.Outcome.next (byReq s r _) = _
  rw [byReq_of_hasSpace hspace, if_pos (isPage_of_pageOpen h), regWrite_ctrl h]

/-- The bits of a soft reset's word. -/
theorem softReset_word (en : Bool) :
    bitAt (if en then 3 else 2) 31 = false ∧ bitAt (if en then 3 else 2) 1 = true ∧ fld (if en then 3 else 2) 0 0 = en.toNat := by
  cases en <;> decide

/-! ### The soft reset of a page (R11, R49) -/

theorem regGet_congr {t : State} (h : t.regs = s.regs) : regGet t a = regGet s a := by
  unfold regGet
  rw [h]

/-- A fold of changes that leave the registers alone leaves them alone. -/
theorem foldl_regs {α : Type} {f : State → α → State} (hf : ∀ t x, (f t x).regs = t.regs) (l : List α) (s : State) :
    (l.foldl f s).regs = s.regs :=
  List.foldlRecOn (motive := fun t => t.regs = s.regs) l f rfl fun t ht x _ => (hf t x).trans ht

theorem icuFallAll_regs : (icuFallAll s).regs = s.regs := foldl_regs (f := icuFall) (fun _ _ => rfl) _ _

/-- A block's own fields at its soft reset: no register changes, but for the NOR controller's, whose running operation ends. -/
theorem softState_regs (hb : b ≠ .nor) : (softState s b base).regs = s.regs := by
  unfold softState
  cases b
  case nor => exact absurd rfl hb
  case wrk =>
    refine foldl_regs (fun t c => ?_) _ _
    split <;> rfl
  case thm =>
    dsimp only
    unfold updThm
    split <;> rfl
  all_goals rfl

theorem win_of_nor (h : blockAt a = some .nor) : winOf a = 0xE := by
  unfold blockAt at h
  split at h
  · unfold diePage at h
    split at h <;> simp at h
  · split at h
    · next hw => exact hw.1
    · split at h
      · unfold guardPage at h
        split at h <;> simp at h
      · cases h

/-- Of the NOR controller's page a soft reset keeps no register. -/
theorem softKept_nor (h : winOf a = 0xE) : softKept a = false := by
  have hbase : baseOf a ≠ psuBase := by
    unfold winOf at h
    unfold baseOf psuBase greg Page.psu
    omega
  simp [softKept, h, hbase]

/-- The registers that a soft reset keeps are not touched by the block's own fields. -/
theorem regGet_softState (hb : blockAt base = some b) (hbase : offOf base = 0) (ha : baseOf a = base)
    (hkept : softKept a = true) : regGet (softState s b base) a = regGet s a := by
  refine regGet_congr (softState_regs ?_)
  rintro rfl
  have hsame : baseOf a = baseOf base := ha.trans (baseOf_add (off := 0) hbase (by omega)).symm
  rw [softKept_nor (win_of_nor ((blockAt_of_baseOf hsame).trans hb))] at hkept
  cases hkept

/-- CTRL after a soft reset: LOCK alone is kept. -/
theorem regGet_softDone_ctrl (hregs : registersOk s) :
    regGet (softDone s b base) (base + 8) = regGet s (base + 8) &&& 0x80000000 := by
  unfold softDone
  rw [regGet_congr icuFallAll_regs]
  exact regGet_regSet_self _ _ _ (regsDrop_wf _ _ ((Kept.rfl s).softState.regs hregs))

/-- Every other register after a soft reset: one of the page that is not kept reads its reset value. -/
theorem regGet_softDone (h : a ≠ base + 8) : regGet (softDone s b base) a =
    if (baseOf a == base && !softKept a) = true then resetOf a else regGet (softState s b base) a := by
  unfold softDone
  rw [regGet_congr icuFallAll_regs]
  exact (regGet_regSet_ne _ _ _ _ h).trans (regGet_regsDrop _ _ _)

theorem exec_softResetDone {base : Word} (h : PageOpen s b base.toNat) (hsoft : softResetting s base.toNat = true) :
    exec (.softResetDone base) s = .next (softDone s b base.toNat) := by
  show Host.Outcome.next (match blockAt base.toNat with | none => s | some b => _) = _
  rw [h.2.1]
  simp [isPage_of_pageOpen h, hsoft, h.2.2.1]

/-! ### Page lock, soft reset and its end -/

theorem pageLock_spec {base : Word} {en : Bool} (hopen : PageOpen s b base.toNat) (hspace : HasSpace s r)
    (hregs : registersOk s) :
    ∃ t, exec (.pageLock r base en) s = .next t ∧ locked t base.toNat = true ∧ enabled t base.toNat = en
      ∧ softResetting t base.toNat = softResetting s base.toNat
      ∧ (∀ a, a ≠ base.toNat + 8 → regGet t a = regGet s a) ∧ SameButRegs s t := by
  refine ⟨_, exec_pageLock hopen hspace, ?_, ?_, ?_, fun a ha => ?_, rfl⟩
  · unfold locked
    rw [bitAt_regFld (regFld_wf hregs) (by omega)]
    rfl
  · unfold enabled
    rw [bitAt_regFld (regFld_wf hregs) (by omega), if_neg (by omega), bitAt_regFld hregs (by omega), if_pos rfl]
    cases en <;> rfl
  · unfold softResetting
    rw [bitAt_regFld (regFld_wf hregs) (by omega), if_neg (by omega), bitAt_regFld hregs (by omega), if_neg (by omega)]
  · rw [regGet_regFld_ne ha, regGet_regFld_ne ha]

theorem softReset_spec {base : Word} {en : Bool} (hopen : PageOpen s b base.toNat) (hspace : HasSpace s r)
    (hregs : registersOk s) (hlock : locked s base.toNat = false) :
    ∃ t, exec (.softReset r base en) s = .next t ∧ softResetting t base.toNat = true ∧ enabled t base.toNat = en
      ∧ (∀ a, a ≠ base.toNat + 8 → regGet t a = regGet s a) ∧ SameButRegs s t := by
  obtain ⟨h31, h1, hen⟩ := softReset_word en
  have hbase := baseOf_add (off := 8) hopen.1 (by omega)
  refine ⟨_, exec_softReset hopen hspace, ?_⟩
  rw [ctrlWrite_srst h31 h1 (by rw [hbase]; exact hlock), hen]
  refine ⟨?_, ?_, fun a ha => ?_, rfl⟩
  · unfold softResetting
    rw [bitAt_regFld (regFld_wf hregs) (by omega)]
    rfl
  · unfold enabled
    rw [bitAt_regFld (regFld_wf hregs) (by omega), if_neg (by omega), bitAt_regFld hregs (by omega), if_pos rfl]
    cases en <;> rfl
  · rw [regGet_regFld_ne ha, regGet_regFld_ne ha]

/-- The addresses at which a refused soft reset may change a register of its page. -/
theorem regGet_softReset_refused {base : Word} {off : Nat} (hopen : PageOpen s b base.toNat) (hoff : off < 0x10000)
    (hint : off ≠ 0x10) (hcode : off ≠ 0x20) (hinfo : off ≠ 0x24) (hlim : b = .evr → off ≠ 0x100) :
    regGet (recordErr s base.toNat 0x03 8) (base.toNat + off) = regGet s (base.toNat + off) := by
  have ho := offOf_add hopen.1 hoff
  refine regGet_recordErr (by omega) (by omega) (by omega) (fun e => ?_) fun e => ?_
  · have hb : blockAt (base.toNat + off) = some b := (blockAt_of_baseOf
      ((baseOf_add hopen.1 hoff).trans (baseOf_add (off := 0) hopen.1 (by omega)).symm)).trans hopen.2.1
    rw [e, offOf_dreg (by omega)] at ho
    rw [e, blockAt_evr (by omega)] at hb
    exact hlim (Option.some.inj hb).symm ho.symm
  · rw [e, offOf_dreg (by omega)] at ho
    exact hint ho.symm

theorem softReset_locked_spec {base : Word} {en : Bool} (hopen : PageOpen s b base.toNat) (hspace : HasSpace s r)
    (hregs : registersOk s) (hlock : locked s base.toNat = true) (hsoft : softResetting s base.toNat = false)
    (herr : regGet s (base.toNat + 0x20) = 0) :
    ∃ t, exec (.softReset r base en) s = .next t ∧ softResetting t base.toNat = false ∧ locked t base.toNat = true
      ∧ enabled t base.toNat = en ∧ regGet t (base.toNat + 0x20) = 3 ∧ (regGet t (base.toNat + 0x10)).getLsbD 0 = true
      ∧ ∀ off, off < 0x10000 → off ≠ 8 → off ≠ 0x10 → off ≠ 0x20 → off ≠ 0x24 → (b = .evr → off ≠ 0x100) →
          regGet t (base.toNat + off) = regGet s (base.toNat + off) := by
  obtain ⟨h31, h1, hen⟩ := softReset_word en
  have hbase := baseOf_add (off := 8) hopen.1 (by omega)
  refine ⟨_, exec_softReset hopen hspace, ?_⟩
  rw [ctrlWrite_srst_locked h31 h1 (by rw [hbase]; exact hlock), hen, hbase]
  have hopen1 : PageOpen (regFld s (base.toNat + 8) 0 0 en.toNat) b base.toNat := hopen
  have hctrl := regGet_softReset_refused (off := 8) hopen1 (by omega) (by omega) (by omega) (by omega) (by omega)
  have herr1 : regGet (regFld s (base.toNat + 8) 0 0 en.toNat) (base.toNat + 0x20) = 0 :=
    (regGet_regFld_ne (by omega)).trans herr
  refine ⟨?_, ?_, ?_, regGet_recordErr_code (regFld_wf hregs) hopen.1 hopen.2.1 herr1,
    getLsbD_recordErr_int (regFld_wf hregs) hopen.1 hopen.2.1 herr1, fun off hoff h8 hint hcode hinfo hlim => ?_⟩
  · unfold softResetting
    rw [hctrl, bitAt_regFld hregs (by omega), if_neg (by omega)]
    exact hsoft
  · unfold locked
    rw [hctrl, bitAt_regFld hregs (by omega), if_neg (by omega)]
    exact hlock
  · unfold enabled
    rw [hctrl, bitAt_regFld hregs (by omega), if_pos rfl]
    cases en <;> rfl
  · rw [regGet_softReset_refused hopen1 hoff hint hcode hinfo hlim, regGet_regFld_ne (by omega)]

theorem softResetDone_spec {base : Word} (hopen : PageOpen s b base.toNat) (hregs : registersOk s)
    (hsoft : softResetting s base.toNat = true) :
    ∃ t, exec (.softResetDone base) s = .next t ∧ softResetting t base.toNat = false ∧ enabled t base.toNat = false
      ∧ locked t base.toNat = locked s base.toNat
      ∧ (∀ a, baseOf a = base.toNat → a ≠ base.toNat + 8 → softKept a = false → regGet t a = resetOf a)
      ∧ ∀ a, baseOf a = base.toNat → a ≠ base.toNat + 8 → softKept a = true → regGet t a = regGet s a := by
  refine ⟨_, exec_softResetDone hopen hsoft, ?_, ?_, ?_, fun a ha hne hkept => ?_, fun a ha hne hkept => ?_⟩
  · simp [softResetting, regGet_softDone_ctrl hregs, bitAt]
  · simp [enabled, regGet_softDone_ctrl hregs, bitAt]
  · simp [locked, regGet_softDone_ctrl hregs, bitAt]
  · rw [regGet_softDone hne, if_pos (by simp [ha, hkept])]
  · rw [regGet_softDone hne, if_neg (by simp [hkept]), regGet_softState hopen.2.1 hopen.1 ha hkept]

/-- Settles O6: a write of CTRL reaches an open page and sets its bits one by one; the end of a soft reset drops the registers
of the page but for the kept ones. -/
theorem softResets : Obligations.SoftResets :=
  ⟨fun _ _ _ _ _ hopen hspace hregs =>
      ⟨pageLock_spec hopen hspace hregs, fun hlock => softReset_spec hopen hspace hregs hlock⟩,
    fun _ _ _ _ _ hopen hspace hregs hlock hsoft herr => softReset_locked_spec hopen hspace hregs hlock hsoft herr,
    fun _ _ _ hopen hregs hsoft => softResetDone_spec hopen hregs hsoft⟩

end Sys2Proof.Access
end

section
namespace Sys2Proof.Boot
open Sys2Proof Sys2Proof.Machine Sys2Proof.Laws Sys2Proof.Safety

/-- What the boot ROM has left in the NOR controller: the running slot, its rights, BOOT_FAULT and the cause of the start. -/
def bootRecord (n : Nor) : Bool × Bool × Bool × Nat := (n.running, n.pe, n.bootFault, n.cause)

/-- What stopping the dies and starting them leaves alone, from a state to a later one: the part, every die's phase, RESET_N,
whether a start is in progress, and the boot ROM's record. -/
structure Calm (s t : State) : Prop where
  part     : t.part = s.part
  phase    : ∀ d : DieId, (t.die d).phase = (s.die d).phase
  low      : t.guard.resetLow = s.guard.resetLow
  starting : t.pkg.starting = s.pkg.starting
  boot     : bootRecord t.nor = bootRecord s.nor

variable {s0 s t : State}

protected theorem Calm.rfl (s : State) : Calm s s := ⟨rfl, fun _ => rfl, rfl, rfl, rfl⟩

protected theorem Calm.trans (h : Calm s0 s) (k : Calm s t) : Calm s0 t :=
  ⟨k.part.trans h.part, fun d => (k.phase d).trans (h.phase d), k.low.trans h.low, k.starting.trans h.starting,
    k.boot.trans h.boot⟩

section
variable {devTime entry wakeSrc draws epoch formatId pkgF nextCid fwReload startWhy partBlocks : Nat} {offset : Int}
  {hce : Vector HceSlot 4} {psu : Psu} {rails : Vector Rail 16} {thm : Thm} {ext : List Int} {alarms placement demand : List Nat}
  {fanFault wallUnset alarmHold die0Hold purge off shutting deep losing lossDone thermHold : Bool}
  {purged keysOut resetPend entropyFail clockFault startCold : Bool} {alarmSrc : List (AlarmSource × Site)}
  {die0At mountedAt : Option Nat} {faultAt : List (DieId × Nat)} {tripped : List (Fin 2)} {mgtOut : List Bytes} {wgl : Waggle}
  {act : Activation} {lims : List (Option Nat)} {lunsBad : List (DieId × ChanId × Nat)} {mtr : Metering}
  {regs : List (Nat × Word)} {answer : Answer} {latch heldLo : List (Requester × Nat × Word)} {pending : List Instr}

/-- The other parts of the state may change freely, those of the guard die but for RESET_N among them. -/
protected theorem Calm.same (h : Calm s0 s) : Calm s0 { s with
    guard := { devTime := devTime, offset := offset, wallUnset := wallUnset, hce := hce, psu := psu, rails := rails, thm := thm,
               ext := ext, fanFault := fanFault, alarms := alarms, alarmSrc := alarmSrc, alarmHold := alarmHold,
               die0At := die0At, die0Hold := die0Hold, faultAt := faultAt, tripped := tripped, purge := purge,
               mgtOut := mgtOut, off := off, shutting := shutting, deep := deep, entry := entry, wakeSrc := wakeSrc,
               losing := losing, lossDone := lossDone, resetLow := s.guard.resetLow, thermHold := thermHold },
    pkg := { placement := placement, epoch := epoch, formatId := formatId, act := act, lims := lims, demand := demand,
             pkgF := pkgF, purged := purged, keysOut := keysOut, mountedAt := mountedAt, nextCid := nextCid,
             fwReload := fwReload, resetPend := resetPend, entropyFail := entropyFail, clockFault := clockFault,
             starting := s.pkg.starting, startCold := startCold, startWhy := startWhy, partBlocks := partBlocks,
             lunsBad := lunsBad },
    wgl := wgl, mtr := mtr, regs := regs, latch := latch, heldLo := heldLo, answer := answer, draws := draws,
    pending := pending } :=
  ⟨h.part, h.phase, h.low, h.starting, h.boot⟩
end

/-- The boot NOR may change as long as the boot ROM's record stays. -/
protected theorem Calm.setNor {nor : Nor} (h : Calm s0 s) (hn : bootRecord nor = bootRecord s.nor) :
    Calm s0 { s with nor := nor } :=
  ⟨h.part, h.phase, h.low, h.starting, hn.trans h.boot⟩

protected theorem Calm.draw {n : Nat} (h : Calm s0 s) : Calm s0 { s with draws := s.draws + n } :=
  ⟨h.part, h.phase, h.low, h.starting, h.boot⟩

protected theorem Calm.ite {p : Prop} [Decidable p] (hs : Calm s0 s) (ht : Calm s0 t) : Calm s0 (if p then s else t) := by
  split
  · exact hs
  · exact ht

protected theorem Calm.foldl {α : Type} {f : State → α → State} {l : List α} (h : Calm s0 s)
    (hf : ∀ t a, Calm s0 t → Calm s0 (f t a)) : Calm s0 (l.foldl f s) :=
  List.foldlRecOn l f h (fun t ht a _ => hf t a ht)

protected theorem Calm.foldl_fst {α β : Type} {f : State × β → α → State × β} {l : List α} {p : State × β}
    (h : Calm s0 p.1) (hf : ∀ q a, Calm s0 q.1 → Calm s0 (f q a).1) : Calm s0 (l.foldl f p).1 :=
  List.foldlRecOn (motive := fun q => Calm s0 q.1) l f h (fun q hq a _ => hf q a hq)

protected theorem Calm.foldl_snd {α β : Type} {f : β × State → α → β × State} {l : List α} {p : β × State}
    (h : Calm s0 p.2) (hf : ∀ q a, Calm s0 q.2 → Calm s0 (f q a).2) : Calm s0 (l.foldl f p).2 :=
  List.foldlRecOn (motive := fun q => Calm s0 q.2) l f h (fun q hq a _ => hf q a hq)

protected theorem Calm.fst_eq {α : Type} {p : State × α} {a : α} (h : Calm s0 p.1) (e : p = (s, a)) : Calm s0 s := by
  rw [e] at h
  exact h

protected theorem Calm.snd_eq {α : Type} {p : α × State} {a : α} (h : Calm s0 p.2) (e : p = (a, s)) : Calm s0 s := by
  rw [e] at h
  exact h

/-! ### The dies and the registers -/

/-- A fold of changes of a die that leave its phase alone leaves it alone. -/
@[simp] theorem foldl_phase {α : Type} (f : Die → α → Die) (l : List α) (x : Die) (hf : ∀ x a, (f x a).phase = x.phase) :
    (l.foldl f x).phase = x.phase := by
  induction l generalizing x with
  | nil => rfl
  | cons a l ih => exact (ih (f x a)).trans (hf x a)

@[simp] theorem ite_phase {p : Prop} [Decidable p] (x y : Die) :
    (if p then x else y).phase = if p then x.phase else y.phase := apply_ite Die.phase p x y

/-- A die may change as long as its phase does not. -/
protected theorem Calm.setDieOf {d : DieId} {x : Die} (h : Calm s0 s) (hx : x.phase = (s.die d).phase) :
    Calm s0 (s.setDie d x) := by
  refine ⟨h.part, fun e => ?_, h.low, h.starting, h.boot⟩
  by_cases he : e = d
  · rw [he, die_setDie_self, hx]
    exact h.phase d
  · rw [die_setDie_ne s d e x he]
    exact h.phase e

protected theorem Calm.updDieOf {d : DieId} {f : Die → Die} (h : Calm s0 s) (hf : ∀ x, (f x).phase = x.phase) :
    Calm s0 (s.updDie d f) := h.setDieOf (hf _)

/-- Every field of a die but its phase may change, each as it depends on the die before. -/
protected theorem Calm.updDie {d : DieId} {mem : Die → List Host.Cell} {ktp : Die → Ktp} {csq : Die → Csq} {comb : Die → Comb}
    {map : Die → MapEng} {groups : Die → List Machine.Group} {fgr : Die → Fgr} {flash : Die → Flash} {cry : Die → Cry}
    {tenants : Die → List Tenant} {hashKeys : Die → List (Nat × Bytes)} {mon : Die → Monitor}
    {ports : Die → Vector EthPort 2} {rxq : Die → List RxHeld} {dmc : Die → Dmc} {bpm : Die → Bpm} {mov : Die → Mov}
    {cores : Die → Vector Core 8} {icu : Die → Icu} {swm : Die → Vector Swm 3} {out : Die → List Crossing}
    {bps : Die → List Bp} {thm : Die → Thm} {pll pllCores : Die → Bool} {gated : Die → List Nat} (h : Calm s0 s) :
    Calm s0 (s.updDie d fun x => {
      phase := x.phase, ktp := ktp x, csq := csq x, comb := comb x, map := map x, groups := groups x, fgr := fgr x,
      flash := flash x, cry := cry x, tenants := tenants x, hashKeys := hashKeys x, mon := mon x, ports := ports x,
      rxq := rxq x, dmc := dmc x, bpm := bpm x, mov := mov x, cores := cores x, icu := icu x, swm := swm x, out := out x,
      bps := bps x, thm := thm x, pll := pll x, pllCores := pllCores x, gated := gated x, mem := mem x }) :=
  h.updDieOf fun _ => rfl

protected theorem Calm.regSet {a : Nat} {v : Word} (h : Calm s0 s) : Calm s0 (regSet s a v) := h.same

protected theorem Calm.regsDrop {p : Nat → Bool} (h : Calm s0 s) : Calm s0 (regsDrop s p) := h.same

protected theorem Calm.drawBytes {n : Nat} (h : Calm s0 s) : Calm s0 (drawBytes s n).2 := h.draw

protected theorem Calm.drawChoice (h : Calm s0 s) : Calm s0 (drawChoice s).2 := h.draw

/-! ### The boot NOR -/

section
variable {n : Nor} {array : List Host.Cell} {cjHead cjAt cjSectors cjErased cjSeq : Nat} {journal : List CjRec}

/-- The array and the configuration journal are not the boot ROM's record. -/
theorem bootRecord_journal :
    bootRecord { n with
      array := array, journal := journal, cjSeq := cjSeq, cjHead := cjHead, cjAt := cjAt, cjSectors := cjSectors,
      cjErased := cjErased } = bootRecord n := rfl
end

theorem bootRecord_cjOpen (n : Nor) (k : Nat) : bootRecord (cjOpen n k) = bootRecord n := by
  unfold cjOpen norProgram norWrite norClear
  exact bootRecord_journal

theorem bootRecord_cjRoom (n : Nor) (k : Nat) : bootRecord (cjRoom n k) = bootRecord n := by
  unfold cjRoom
  split
  · exact bootRecord_cjOpen _ _
  · split
    · exact (bootRecord_journal (n := cjOpen n (cjNext n.cjHead))).trans (bootRecord_cjOpen _ _)
    · rfl

theorem bootRecord_cjWrite (b : CjBody) (deleted : Bool) (f : Nat) (n : Nor) :
    bootRecord (cjWrite b deleted f n) = bootRecord n := by
  induction f generalizing n with
  | zero => rfl
  | succ f ih =>
    unfold cjWrite
    extract_lets m bytes p q
    have hq : bootRecord q = bootRecord n := (bootRecord_journal (n := m)).trans (bootRecord_cjRoom _ _)
    split
    · exact hq
    · exact (ih q).trans hq

theorem bootRecord_cjAppend (n : Nor) (b : CjBody) (deleted : Bool) : bootRecord (cjAppend n b deleted) = bootRecord n :=
  (bootRecord_journal (n := cjWrite b deleted 64 n)).trans (bootRecord_cjWrite _ _ _ _)

/-! ### Ops -/

protected theorem Calm.overDies {f : State → DieId → State} {ds : List DieId}
    (h : Calm s0 s) (hf : ∀ t x1, Calm s0 t → Calm s0 (f t x1)) : Calm s0 (overDies f s ds) :=
  h.foldl (fun _ _ hu => hf _ _ hu)

protected theorem Calm.regBump {a k : Nat} (h : Calm s0 s) : Calm s0 (regBump s a k) := h.regSet

protected theorem Calm.regFld {a hi lo n : Nat} (h : Calm s0 s) : Calm s0 (regFld s a hi lo n) := h.regSet

/-! ### Flags -/

protected theorem Calm.raiseInt {base bit : Nat} (h : Calm s0 s) : Calm s0 (raiseInt s base bit) := h.regSet

protected theorem Calm.recordEvent {d : DieId} {code v : Nat} (h : Calm s0 s) : Calm s0 (recordEvent s d code v) := by
  unfold recordEvent
  extract_lets _ s1 s2
  have hs1 : Calm s0 s1 := h.updDie
  have hs2 : Calm s0 s2 := hs1.regBump
  exact .ite hs1 (.ite hs2.raiseInt hs2)

protected theorem Calm.recordErr {base code off : Nat} (h : Calm s0 s) : Calm s0 (recordErr s base code off) := by
  unfold recordErr
  extract_lets s1
  have hs1 : Calm s0 s1 := .ite h.regSet.regSet.raiseInt h.regFld
  split
  · exact hs1.recordEvent
  · exact hs1

protected theorem Calm.badValue {a : Nat} (h : Calm s0 s) : Calm s0 (badValue s a) := h.recordErr

@[simp] theorem wakeX_phase (x : Die) : (wakeX x).phase = x.phase := by
  simp [wakeX]

@[simp] theorem undoDeepX_phase (entry : Nat) (x : Die) : (undoDeepX entry x).phase = x.phase := by
  simp [undoDeepX]

protected theorem Calm.undoDeep {entry : Nat} (h : Calm s0 s) : Calm s0 (undoDeep s entry) :=
  h.overDies (fun _ _ hu => .ite (hu.updDieOf (by simp)) hu)

protected theorem Calm.noEntry (h : Calm s0 s) : Calm s0 (noEntry s) := h.same

protected theorem Calm.abandonDeep (h : Calm s0 s) : Calm s0 (abandonDeep s) := by
  unfold abandonDeep
  exact .ite h h.undoDeep.noEntry.regBump.raiseInt

protected theorem Calm.wakeAt {d : DieId} (h : Calm s0 s) : Calm s0 (wakeAt s d) := by
  unfold wakeAt
  extract_lets s1
  have hs1 : Calm s0 s1 := h.abandonDeep
  exact .ite (hs1.updDieOf (by simp)) ((hs1.updDieOf (by simp)).raiseInt)

protected theorem Calm.meterAdd {d : DieId} {t1 : Nat} {f : Meter → Meter} (h : Calm s0 s) : Calm s0 (meterAdd s d t1 f) :=
  h.updDie

/-! ### Journal -/

protected theorem Calm.norCount {progs erases : Nat} (h : Calm s0 s) : Calm s0 (norCount s progs erases) :=
  h.regBump.regBump.raiseInt

protected theorem Calm.journalPut {b : CjBody} (h : Calm s0 s) : Calm s0 (journalPut s b) :=
  (h.setNor (bootRecord_cjAppend _ _ _)).norCount

/-! ### Shares -/

protected theorem Calm.pipeRun {p : Pipe} {n : Nat} (h : Calm s0 s) : Calm s0 (pipeRun s p n).2 := by
  unfold pipeRun
  extract_lets
  exact h.draw

protected theorem Calm.cryBlocks {d : DieId} {n : Nat} (h : Calm s0 s) : Calm s0 (cryBlocks s d n) := by
  unfold cryBlocks
  extract_lets r _ _ q
  have hr : Calm s0 r.2 := h.drawChoice
  have hq : Calm s0 q.2 := hr.pipeRun
  exact hq.updDie

protected theorem Calm.cryUnits {d : DieId} {n : Nat} (h : Calm s0 s) : Calm s0 (cryUnits d n s) := by
  induction n generalizing d s with
  | zero =>
    exact h
  | succ n ih =>
    exact ih h.cryBlocks

/-! ### Keys -/

@[simp] theorem retireSpent_phase (x : Die) (t : Nat) : (retireSpent x t).phase = x.phase := by rfl

/-! ### Routes -/

protected theorem Calm.holdOut {src : DieId} {m : Crossing} (h : Calm s0 s) : Calm s0 (holdOut s src m) := h.updDie

/-! ### Reply -/

protected theorem Calm.putSess {d : DieId} {k : Session} (h : Calm s0 s) : Calm s0 (putSess s d k) := h.updDie

protected theorem Calm.delSess {d : DieId} {slot : Nat} (h : Calm s0 s) : Calm s0 (delSess s d slot) := h.updDie

protected theorem Calm.queueTx {d : DieId} {p : PortId} {t1 : TxPkt} (h : Calm s0 s) : Calm s0 (queueTx s d p t1) := h.updDie

protected theorem Calm.transmit {d : DieId} {k : Session} {ptype : Nat} {psn : Word} {retx : Bool} {body : Bytes}
    (h : Calm s0 s) : Calm s0 (transmit s d k ptype psn retx body).1 := by
  unfold transmit
  extract_lets _ _ s1
  have hs1 : Calm s0 s1 := .ite h.cryBlocks h
  split
  · split
    · exact h.putSess
    · split
      · exact h.putSess
      · exact hs1.queueTx.putSess
  · split
    · exact h.putSess
    · split
      · exact h.putSess
      · exact hs1.queueTx.putSess

protected theorem Calm.sendNow {d : DieId} {k : Session} {ptype : Nat} {body : Bytes}
    (h : Calm s0 s) : Calm s0 (sendNow s d k ptype body).1 := by
  unfold sendNow
  extract_lets r
  have hr : Calm s0 r.1 := h.transmit
  exact hr.putSess

protected theorem Calm.sendSeq {d : DieId} {k : Session} {ptype : Nat} {body : Bytes}
    (h : Calm s0 s) : Calm s0 (sendSeq s d k ptype body).1 := by
  unfold sendSeq
  split
  · exact h.sendNow
  · extract_lets
    exact h.putSess

protected theorem Calm.sendMsg {d : DieId} {k : Session} {tag : Byte} {msg : Bytes}
    (h : Calm s0 s) : Calm s0 (sendMsg s d k tag msg).1 :=
  h.foldl_fst (fun _ _ hu => hu.sendSeq)

protected theorem Calm.giveBarrier {e : DieId} {b : Barrier} (h : Calm s0 s) : Calm s0 (giveBarrier s e b) := h.wakeAt.updDie

protected theorem Calm.sendBarrier {b : Barrier} (h : Calm s0 s) : Calm s0 (sendBarrier s b) :=
  h.overDies (fun _ _ hu => .ite hu.holdOut hu.giveBarrier)

protected theorem Calm.endSession {d : DieId} {k : Session} (h : Calm s0 s) : Calm s0 (endSession s d k) := by
  unfold endSession
  extract_lets s1 s2
  have hs1 : Calm s0 s1 := h.delSess
  have hs2 : Calm s0 s2 := hs1.updDie
  exact hs2.sendBarrier.regBump.raiseInt

protected theorem Calm.terminateSession {d : DieId} {k : Session} {reason : Nat}
    (h : Calm s0 s) : Calm s0 (terminateSession s d k reason) := by
  unfold terminateSession
  extract_lets r
  have hr : Calm s0 r.1 := h.transmit
  exact hr.endSession

protected theorem Calm.terminateWhere {d : DieId} {p : Session → Bool} {reason : Nat}
    (h : Calm s0 s) : Calm s0 (terminateWhere s d p reason) :=
  h.foldl (fun _ _ hu => hu.terminateSession)

protected theorem Calm.checkNonce {d : DieId} {slot : Nat} (h : Calm s0 s) : Calm s0 (checkNonce s d slot) := by
  unfold checkNonce
  split
  · exact h
  · exact .ite h.terminateSession h

protected theorem Calm.maybeClose {d : DieId} {slot gen : Nat} (h : Calm s0 s) : Calm s0 (maybeClose s d slot gen) := by
  unfold maybeClose
  split
  · exact h
  · exact .ite h.sendSeq.checkNonce h

protected theorem Calm.countReply {d : DieId} {tenant cls arrived status inLen outLen : Nat} {sent : Bool}
    (h : Calm s0 s) : Calm s0 (countReply s d tenant cls arrived status inLen outLen sent) := by
  unfold countReply
  extract_lets _ _ _ s1 s2
  have hs1 : Calm s0 s1 := h.meterAdd
  have hs2 : Calm s0 s2 := .ite hs1.updDie hs1
  exact .ite hs2.raiseInt hs2

@[simp] theorem chargeReply_phase (x : Die) (tenant len : Nat) : (chargeReply x tenant len).phase = x.phase := by rfl

protected theorem Calm.replyTo {home : DieId} {slot gen : Nat} {tag : Byte}
    {tenant cls arrived inLen opcode status rflags aux version objLen : Nat} {data : Bytes} {noReply : Bool} (h : Calm s0 s) :
    Calm s0 (replyTo s home slot gen tag tenant cls arrived inLen opcode status rflags aux version objLen data noReply) := by
  unfold replyTo
  extract_lets s1
  have hs1 : Calm s0 s1 := h.countReply
  split
  · exact h.countReply
  · extract_lets s2 s3
    have hs2 : Calm s0 s2 := hs1.sendMsg
    have hs3 : Calm s0 s3 := .ite hs2.updDie hs2
    exact .ite h.countReply.putSess hs3.checkNonce

protected theorem Calm.dropCmd {d : DieId} {cid : Nat} (h : Calm s0 s) : Calm s0 (dropCmd s d cid) := h.updDie

protected theorem Calm.putCmd {d : DieId} {c : Cmd} (h : Calm s0 s) : Calm s0 (putCmd s d c) := h.updDie

protected theorem Calm.answerAbort {d : DieId} {a : Cmd} {aux : Nat} (h : Calm s0 s) : Calm s0 (answerAbort s d a aux) := by
  unfold answerAbort
  extract_lets s1
  have hs1 : Calm s0 s1 := h.updDie
  exact hs1.regBump.replyTo

protected theorem Calm.answerLate {n : Nat} {d : DieId} {n1 : Nat} (h : Calm s0 s) : Calm s0 (answerLate n s d n1) := by
  induction n generalizing s d n1 with
  | zero =>
    exact h
  | succ n ih =>
    unfold answerLate
    split
    · exact h
    · exact ih h.answerAbort

protected theorem Calm.maybeReset {d : DieId} {slot gen : Nat} (h : Calm s0 s) : Calm s0 (maybeReset s d slot gen) := by
  unfold maybeReset
  split
  · exact h
  · split
    · exact h
    · split
      · exact h
      · extract_lets _ s1 s2
        have hs1 : Calm s0 s1 := h.putSess
        have hs2 : Calm s0 s2 := hs1.updDie
        exact .ite hs2.replyTo.answerLate h

protected theorem Calm.settleSess {d : DieId} {slot gen : Nat} (h : Calm s0 s) : Calm s0 (settleSess s d slot gen) :=
  h.maybeReset.maybeClose

protected theorem Calm.afterReply {d : DieId} {slot gen cid : Nat} (h : Calm s0 s) : Calm s0 (afterReply s d slot gen cid) :=
  h.answerLate.settleSess

protected theorem Calm.finish {c : Cmd} {status aux version objLen : Nat} {data : Bytes}
    (h : Calm s0 s) : Calm s0 (finish s c status aux version objLen data) :=
  h.replyTo.afterReply

protected theorem Calm.complete {d : DieId} {c : Cmd} {status aux version objLen : Nat} {data : Bytes}
    (h : Calm s0 s) : Calm s0 (complete s d c status aux version objLen data) := by
  unfold complete
  extract_lets s1
  have hs1 : Calm s0 s1 := h.dropCmd
  exact .ite hs1.holdOut hs1.finish

protected theorem Calm.fail {d : DieId} {c : Cmd} {status : Nat} (h : Calm s0 s) : Calm s0 (fail s d c status) := h.complete

/-! ### Groups -/

@[simp] theorem updGroup_phase (x : Die) (n : Nat) (f : Machine.Group → Machine.Group) : (updGroup x n f).phase = x.phase :=
  by rfl

@[simp] theorem validAdd_phase (x : Die) (e : Extent) : (validAdd x e).phase = x.phase := by rfl

@[simp] theorem validSub_phase (x : Die) (e : Extent) : (validSub x e).phase = x.phase := by rfl

@[simp] theorem release_phase (x : Die) (l : BitVec 56) : (release x l).phase = x.phase := by
  simp [release]

@[simp] theorem retain_phase (x : Die) (l : BitVec 56) : (retain x l).phase = x.phase := by
  simp [retain]

@[simp] theorem putPlace_phase (x : Die) (p : PageAt) : (putPlace x p).phase = x.phase := by rfl

@[simp] theorem markLeaf_phase (tenant nsid jseq : Nat) (x : Die) (index : Nat) :
    (markLeaf tenant nsid jseq x index).phase = x.phase :=
  by rfl

@[simp] theorem jAppendTo_phase (x : Die) (tenant nsid : Nat) (b : JBody) : (jAppendTo x tenant nsid b).phase = x.phase := by
  simp [jAppendTo]

@[simp] theorem takeVersion_phase (x : Die) : (takeVersion x).2.phase = x.phase := by
  simp [takeVersion]

theorem takeFree_phase {x y : Die} {st : GroupState} {qlc copy : Bool} {purpose n : Nat}
    (e : takeFree x st qlc copy purpose = some (n, y)) : y.phase = x.phase := by
  unfold takeFree at e
  split at e
  · cases e
  · cases e
    simp

protected theorem Calm.refillRescue {d : DieId} {n : Nat} (h : Calm s0 s) : Calm s0 (refillRescue s d n) := by
  induction n generalizing s with
  | zero => exact h
  | succ n ih =>
    unfold refillRescue
    extract_lets
    refine .ite ?_ h
    split
    · exact h
    · next e => exact ih (h.setDieOf (takeFree_phase e))

@[simp] theorem kvPut_phase (x : Die) (e : BEntry) : (kvPut x e).phase = x.phase := by rfl

@[simp] theorem kvDel_phase (x : Die) (e : BEntry) : (kvDel x e).phase = x.phase := by rfl

@[simp] theorem densePut_phase (x : Die) (e : DEntry) : (densePut x e).phase = x.phase := by rfl

protected theorem Calm.setSpaceStop {d : DieId} {on : Bool} (h : Calm s0 s) : Calm s0 (setSpaceStop s d on) := by
  unfold setSpaceStop
  exact .ite h h.updDie.raiseInt

protected theorem Calm.shrink {d : DieId} (h : Calm s0 s) : Calm s0 (shrink s d) := by
  unfold shrink
  extract_lets _ s1
  have hs1 : Calm s0 s1 := h.updDie
  exact .ite hs1.setSpaceStop.raiseInt h.setSpaceStop

protected theorem Calm.reportReadOnly {d : DieId} (h : Calm s0 s) : Calm s0 (reportReadOnly s d) := by
  unfold reportReadOnly
  exact .ite h h.updDie

protected theorem Calm.applyPolicy {d : DieId} (h : Calm s0 s) : Calm s0 (applyPolicy s d) := by
  unfold applyPolicy
  exact .ite h (.ite h.shrink h.reportReadOnly)

protected theorem Calm.fillRescue {d : DieId} (h : Calm s0 s) : Calm s0 (fillRescue s d) := by
  unfold fillRescue
  extract_lets s1
  have hs1 : Calm s0 s1 := h.refillRescue
  exact .ite hs1 hs1.applyPolicy

protected theorem Calm.takeSys {d : DieId} {purpose n : Nat} (h : Calm s0 s) (e : takeSys s d purpose = some (n, t)) :
    Calm s0 t := by
  unfold takeSys at e
  obtain ⟨⟨m, x⟩, hx, ⟨⟩⟩ := Option.map_eq_some_iff.1 e
  exact (h.fillRescue.setDieOf (takeFree_phase hx)).applyPolicy

protected theorem Calm.ensureJournal {d : DieId} (h : Calm s0 s) : Calm s0 (ensureJournal s d) := by
  unfold ensureJournal
  extract_lets
  refine .ite h ?_
  split
  · exact h
  · next x g s1 e =>
      have hs1 : Calm s0 s1 := h.takeSys e
      exact hs1.updDie

protected theorem Calm.retryShrink {d : DieId} (h : Calm s0 s) : Calm s0 (retryShrink s d) := by
  unfold retryShrink
  exact .ite h.shrink h

/-! ### Pages -/

protected theorem Calm.mapGroup {d : DieId} {g : Group} (h : Calm s0 s) (e : mapGroup s d = some (g, t)) : Calm s0 t := by
  unfold mapGroup at e
  split at e
  · cases e
    exact h
  · obtain ⟨⟨n, u⟩, hu, e⟩ := Option.bind_eq_some_iff.1 e
    obtain ⟨g, hg, ⟨⟩⟩ := Option.map_eq_some_iff.1 e
    exact h.takeSys hu

protected theorem Calm.writePage {d : DieId} {id : PageId} {jseq : Nat} {body : MapBody} {l : BitVec 56} (h : Calm s0 s)
    (e : writePage s d id jseq body = some (l, t)) : Calm s0 t := by
  obtain ⟨⟨g, u⟩, hu, ⟨⟩⟩ := Option.map_eq_some_iff.1 e
  exact (h.mapGroup hu).updDie

protected theorem Calm.writeChain {d : DieId} {id : PageId} {jseq : Nat} {bs : List MapBody} {r : List (BitVec 56)}
    (h : Calm s0 s) (e : writeChain s d id jseq bs = some (r, t)) : Calm s0 t := by
  induction bs generalizing t r with
  | nil =>
    cases e
    exact h
  | cons b bs ih =>
    unfold writeChain at e
    split at e
    · cases e
    · next q hq =>
      obtain ⟨p, hp, ⟨⟩⟩ := Option.map_eq_some_iff.1 e
      exact (ih hq).writePage hp

@[simp] theorem markParent_phase (d : DieId) (jseq : Nat) (id : PageId) (x : Die) :
    (markParent d jseq id x).phase = x.phase := by
  simp [markParent]

protected theorem Calm.writePlace {d : DieId} {p : PageAt} (h : Calm s0 s) (e : writePlace s d p = some t) : Calm s0 t := by
  obtain ⟨r, hr, ⟨⟩⟩ := Option.map_eq_some_iff.1 e
  exact (h.writeChain hr).updDieOf (by simp)

/-- A fold that stops at the first failure. -/
theorem Calm.foldl_bind {α : Type} {f : State → α → Option State} {l : List α} {o : Option State}
    (h : ∀ u ∈ o, Calm s0 u) (hf : ∀ u a v, Calm s0 u → f u a = some v → Calm s0 v)
    (e : l.foldl (fun o a => o.bind (fun u => f u a)) o = some t) :
    Calm s0 t := by
  induction l generalizing o with
  | nil => exact h t e
  | cons a l ih =>
    refine ih (fun u hu => ?_) e
    obtain ⟨v, hv, hu⟩ := Option.bind_eq_some_iff.1 hu
    exact hf v a u (h v hv) hu

protected theorem Calm.writeLevel {d : DieId} {tables : Bool} {level : Nat} (h : Calm s0 s)
    (e : writeLevel d tables s level = some t) : Calm s0 t :=
  Calm.foldl_bind (by rintro u ⟨⟩; exact h) (fun _ _ _ hu e => hu.writePlace e) e

protected theorem Calm.writeTrees {d : DieId} {tables : Bool} (h : Calm s0 s) (e : writeTrees s d tables = some t) :
    Calm s0 t :=
  Calm.foldl_bind (by rintro u ⟨⟩; exact h) (fun _ _ _ hu e => hu.writeLevel e) e

protected theorem Calm.writeMap {d : DieId} (h : Calm s0 s) (e : writeMap s d = some t) : Calm s0 t := by
  obtain ⟨u, hu, e⟩ := Option.bind_eq_some_iff.1 e
  exact ((h.writeTrees hu).updDieOf (by simp)).writeTrees e

protected theorem Calm.releaseSys {d : DieId} {n : Nat} (h : Calm s0 s) : Calm s0 (releaseSys s d n) := h.updDie

protected theorem Calm.dropPages {d : DieId} (h : Calm s0 s) : Calm s0 (dropPages s d) := by
  unfold dropPages
  extract_lets _ _ s1
  have hs1 : Calm s0 s1 := h.updDieOf (by simp)
  exact hs1.foldl (fun _ _ hu => hu.releaseSys)

protected theorem Calm.dropJournal {d : DieId} {jseq : Nat} (h : Calm s0 s) : Calm s0 (dropJournal s d jseq) := by
  unfold dropJournal
  extract_lets _ s1
  have hs1 : Calm s0 s1 := h.foldl (fun _ _ hu => hu.releaseSys)
  exact hs1.updDie

/-! ### Map -/

protected theorem Calm.endQuiet {d : DieId} {c : Cmd} (h : Calm s0 s) : Calm s0 (endQuiet s d c) := h.fail

protected theorem Calm.exhaust {d : DieId} {c : Cmd} (h : Calm s0 s) : Calm s0 (exhaust s d c) := h.fail.regBump.raiseInt

@[simp] theorem addStored_phase (x : Die) (r : Stored) : (addStored x r).phase = x.phase := by rfl

protected theorem Calm.drainRecord {d : DieId} {e : RingEntry} {r : Rec} {key : Bytes} {htag : BitVec 64} {bucket : Nat}
    (h : Calm s0 s) : Calm s0 (drainRecord s d e r key htag bucket) := by
  unfold drainRecord
  extract_lets loc len s1
  have hs1 : Calm s0 s1 := by
    refine h.updDieOf fun x => ?_
    simp
  refine hs1.updDieOf fun x => ?_
  dsimp only
  cases kvOf x r.tenant r.nsid key <;> simp

protected theorem Calm.drainUnit {d : DieId} {e : RingEntry} {p : Blk × Extent}
    (h : Calm s0 s) : Calm s0 (drainUnit d e s p) := by
  unfold drainUnit
  exact h.updDieOf (by simp)

protected theorem Calm.drainRun {d : DieId} {e : RingEntry} {run : List (Blk × Extent)}
    (h : Calm s0 s) : Calm s0 (drainRun d e s run) := by
  unfold drainRun
  split
  · exact h
  · exact (h.updDieOf (by simp)).foldl (fun _ _ hu => hu.drainUnit)

@[simp] theorem drainErase_phase (x : Die) (t n : Nat) (key : Bytes) (htag : BitVec 64) (bucket version : Nat)
    (old : BitVec 56) : (drainErase x t n key htag bucket version old).phase = x.phase := by
  unfold drainErase
  dsimp only
  split <;> simp

@[simp] theorem drainTrim_phase (x : Die) (t n first count : Nat) : (drainTrim x t n first count).phase = x.phase := by
  simp [drainTrim]

@[simp] theorem unmapUnits_phase (x : Die) (tenant nsid first count : Nat) :
    (unmapUnits x tenant nsid first count).phase = x.phase := by
  simp [unmapUnits]

@[simp] theorem deleteEntry_phase (x : Die) (t n : Nat) (key : Bytes) (h1 : BitVec 128) (version : Nat) :
    (deleteEntry x t n key h1 version).phase = x.phase := by
  unfold deleteEntry
  split <;> simp

protected theorem Calm.drainWrite {d : DieId} {e : RingEntry} (h : Calm s0 s) : Calm s0 (drainWrite s d e).1 := by
  unfold drainWrite
  have hv (n : Nat) : (if e.through.isSome then takeVersion (s.die d) else (n, s.die d)).2.phase = (s.die d).phase := by
    split
    · exact takeVersion_phase _
    · rfl
  split
  · exact (h.setDieOf (hv _)).drainRecord
  · exact h.foldl fun _ _ hu => hu.drainRun
  · refine h.setDieOf ?_
    simp only [drainErase_phase, ite_phase, deleteEntry_phase, hv, ite_self]
  · dsimp only
    refine h.updDieOf fun x => ?_
    simp

@[simp] theorem ringPush_phase (x : Die) (p : Payload) (dirty : Nat) (through : Option Nat) :
    (ringPush x p dirty through).phase = x.phase :=
  by rfl

@[simp] theorem putEntry_phase (x : Die) (c : Cmd) (bucket version addr stLen : Nat) :
    (putEntry x c bucket version addr stLen).phase = x.phase := by
  unfold putEntry
  dsimp only
  split <;> simp

protected theorem Calm.writeThrough {d : DieId} {c : Cmd} (h : Calm s0 s) : Calm s0 (writeThrough s d c) := h.regBump.putCmd

protected theorem Calm.admitPut {d : DieId} {c : Cmd} {n : NsEntry} {k : DataSlot} {through : Bool} (h : Calm s0 s) :
    Calm s0 (admitPut s d c n k through) := by
  unfold admitPut
  extract_lets s x v r _ y addr p z z2
  have hs : Calm s0 s := h.cryBlocks
  have hv : v.2.phase = x.phase := by
    unfold v
    split
    · rfl
    · exact takeVersion_phase x
  have hz : z2.phase = x.phase := by simpa [z2, z, y] using hv
  exact .ite (hs.setDieOf (by simpa using hv)).writeThrough (hs.setDieOf hz).complete

protected theorem Calm.admitDelete {d : DieId} {c : Cmd} {through : Bool}
    (h : Calm s0 s) : Calm s0 (admitDelete s d c through) := by
  unfold admitDelete
  split
  · exact h.fail
  · exact .ite h.updDie.writeThrough (((h.setDieOf (by simp)).retryShrink).complete)

@[simp] theorem blockEntries_phase (x : Die) (wid : Nat) (bs : List Blk) : (blockEntries x wid bs).phase = x.phase := by
  simp [blockEntries]

protected theorem Calm.admitWrite {d : DieId} {c : Cmd} {n : NsEntry} {k : DataSlot} {through : Bool}
    (h : Calm s0 s) : Calm s0 (admitWrite s d c n k through) := by
  unfold admitWrite
  extract_lets _ s'
  have hs' : Calm s0 s' := h.cryUnits
  exact .ite hs'.fail (.ite (hs'.setDieOf (by rfl)).writeThrough ((hs'.setDieOf (by simp +zetaDelta)).complete))

protected theorem Calm.trimAdmitted {d : DieId} {c : Cmd} {through : Bool}
    (h : Calm s0 s) : Calm s0 (trimAdmitted s d c through) := by
  unfold trimAdmitted
  exact .ite h.writeThrough h.retryShrink.complete

protected theorem Calm.admitTrim {d : DieId} {c : Cmd} {n : NsEntry} {through : Bool}
    (h : Calm s0 s) : Calm s0 (admitTrim s d c n through) := by
  unfold admitTrim
  extract_lets
  refine .ite ((h.setDieOf (by simp +zetaDelta)).trimAdmitted) ?_
  split
  · exact h.endQuiet
  · exact ((h.setDieOf (by simp +zetaDelta)).cryUnits).trimAdmitted

protected theorem Calm.reserveWait {d : DieId} {k : DataSlot} (h : Calm s0 s) : Calm s0 (reserveWait s d k) := h.recordErr

protected theorem Calm.admitNow {d : DieId} {c : Cmd} {through : Bool}
    (h : Calm s0 s) : Calm s0 (admitNow s d c through) := by
  unfold admitNow
  refine .ite h.admitDelete ?_
  split
  · exact h.fail
  · refine .ite h.admitTrim ?_
    refine .ite ?_ ?_
    · split
      · exact h.endQuiet
      · exact .ite h.exhaust (.ite h.reserveWait h.admitWrite)
    · refine .ite h.endQuiet ?_
      split
      · exact h.updDie.exhaust
      · exact h.reserveWait
      · exact h.admitPut

protected theorem Calm.endWait {d : DieId} (h : Calm s0 s) : Calm s0 (endWait s d) := by
  unfold endWait
  exact .ite h.updDie.recordEvent h

protected theorem Calm.beginWait {d : DieId} (h : Calm s0 s) : Calm s0 (beginWait s d) := by
  unfold beginWait
  exact .ite h h.updDie.raiseInt

protected theorem Calm.nectarAdmit {d : DieId} (h : Calm s0 s) : Calm s0 (nectarAdmit s d) := by
  unfold nectarAdmit
  split
  · exact h
  · split
    · exact h.endWait.fail
    · exact .ite h.endWait.admitNow (.ite h.endWait.admitNow h.beginWait)

protected theorem Calm.finishWrites {d : DieId} (h : Calm s0 s) : Calm s0 (finishWrites s d) :=
  h.foldl (fun _ _ hu => hu.nectarAdmit)

/-! ### Roots -/

@[simp] theorem eraseAnchor_phase (x : Die) (b : Nat × Nat) : (eraseAnchor x b).phase = x.phase := by rfl

theorem rootPlace_phase {d : DieId} {g c page : Nat} {y : Die} (e : rootPlace s d = some (g, c, page, y)) :
    y.phase = (s.die d).phase := by
  unfold rootPlace at e
  dsimp only at e
  split at e
  · next r hr =>
    cases e
    split at hr
    · cases hr
    · split at hr
      · cases hr
        rfl
      · cases hr
  · obtain ⟨b, hb, e⟩ := Option.map_eq_some_iff.1 e
    cases e
    simp

protected theorem Calm.spaceChanged {was : Nat} {d : DieId} (h : Calm s0 s) : Calm s0 (spaceChanged was s d) := by
  unfold spaceChanged
  exact .ite h h.raiseInt

protected theorem Calm.writeRoot {d : DieId} {r : Root} (h : Calm s0 s) : Calm s0 (writeRoot s d r) := by
  unfold writeRoot
  split
  · exact h
  · next y hy =>
    have hm := rootPlace_phase hy
    extract_lets _ _ s1 s2
    have hs1 : Calm s0 s1 := h.setDieOf hm
    have hs2 : Calm s0 s2 := hs1.raiseInt.spaceChanged
    exact .ite hs2.recordErr hs2

protected theorem Calm.reRoot {d : DieId} {loss : Bool} (h : Calm s0 s) : Calm s0 (reRoot s d loss) := by
  unfold reRoot
  split
  · exact h.writeRoot
  · exact h.writeRoot

protected theorem Calm.checkpoint {d : DieId} (h : Calm s0 s) : Calm s0 (checkpoint s d) := by
  unfold checkpoint
  extract_lets s0' _ s1
  have hs0' : Calm s0 s0' := h.ensureJournal
  have hs1 : Calm s0 s1 := hs0'.updDie
  split
  · exact h.reRoot
  · next x s2 e =>
      have hs2 : Calm s0 s2 := hs1.writeMap e
      extract_lets _ s3
      have hs3 : Calm s0 s3 := hs2.writeRoot
      exact hs3.dropPages.dropJournal

/-! ### Forager -/

protected theorem Calm.fgrReval {d : DieId} (h : Calm s0 s) : Calm s0 (fgrReval s d) := by
  unfold fgrReval
  extract_lets _ s1
  have hs1 : Calm s0 s1 := h.updDie
  exact .ite hs1.raiseInt hs1

protected theorem Calm.retireBlock {d : DieId} {n chan : Nat} (h : Calm s0 s) : Calm s0 (retireBlock s d n chan) := by
  unfold retireBlock
  extract_lets s1 s2 s3
  have hs1 : Calm s0 s1 := h.updDie
  have hs2 : Calm s0 s2 := hs1.regBump.recordEvent.raiseInt
  have hs3 : Calm s0 s3 := by
    unfold s3
    split
    · exact hs2
    · exact .ite hs2.regBump.updDie hs2
  exact hs3.applyPolicy

protected theorem Calm.endVictim {d : DieId} (h : Calm s0 s) : Calm s0 (endVictim s d) := h.updDie.fgrReval

protected theorem Calm.eraseDone {d : DieId} {g : Machine.Group} (h : Calm s0 s) : Calm s0 (eraseDone s d g) := by
  unfold eraseDone
  extract_lets _ s1 s2 s3
  have hs1 : Calm s0 s1 := h.updDie
  have hs2 : Calm s0 s2 := .ite hs1.raiseInt hs1
  have hs3 : Calm s0 s3 := hs2.fillRescue
  exact .ite hs3.endVictim hs3.fgrReval

/-! ### Nand -/

@[simp] theorem updChan_phase (x : Die) (c : ChanId) (f : Chan → Chan) : (updChan x c f).phase = x.phase := by rfl

protected theorem Calm.sendNand {d : DieId} {c : ChanId} {l : List NandCmd} (h : Calm s0 s) : Calm s0 (sendNand s d c l) :=
  h.updDie

protected theorem Calm.channelTrained {d : DieId} {c : ChanId} (h : Calm s0 s) : Calm s0 (channelTrained s d c) := by
  unfold channelTrained
  exact h.updDie

protected theorem Calm.trainChannels {d : DieId} (h : Calm s0 s) : Calm s0 (trainChannels s d) :=
  h.foldl (fun _ _ hu => .ite hu hu.sendNand.channelTrained)

/-! ### FlashChannels -/

protected theorem Calm.closeFull {d : DieId} {n : Nat} (h : Calm s0 s) : Calm s0 (closeFull s d n) := by
  unfold closeFull
  split
  · exact h
  · exact .ite h.updDie h

@[simp] theorem dropStripe_phase (x : Die) (sid : Nat) : (dropStripe x sid).phase = x.phase := by rfl

@[simp] theorem repack_phase (x : Die) (t : Stripe) : (repack x t).phase = x.phase := by rfl

@[simp] theorem recopy_phase (x : Die) : (recopy x).phase = x.phase := by
  simp [recopy]

protected theorem Calm.loseStripe {d : DieId} {t1 : Stripe} (h : Calm s0 s) : Calm s0 (loseStripe s d t1) :=
  h.updDieOf (by simp)

@[simp] theorem dropErases_phase (x : Die) (n : Nat) : (dropErases x n).phase = x.phase := by
  simp [dropErases]

protected theorem Calm.eraseEnded {d : DieId} {o : FlashOp} {ok : Bool} (h : Calm s0 s) : Calm s0 (eraseEnded s d o ok) := by
  unfold eraseEnded
  extract_lets _ s1
  have hs1 : Calm s0 s1 := (Calm.ite h h.retireBlock).updDieOf (by simp)
  refine .ite hs1 ?_
  split
  · exact hs1
  · exact .ite (.ite hs1.endVictim hs1.fgrReval) (.ite hs1.eraseDone hs1)

protected theorem Calm.narrowGroups {d : DieId} {c : ChanId} {lun : Option (Nat × Nat)}
    (h : Calm s0 s) : Calm s0 (narrowGroups s d c lun) := by
  unfold narrowGroups
  extract_lets _ s1
  have hs1 : Calm s0 s1 := h.updDie
  exact hs1.foldl (fun _ _ hu => hu.regBump.updDie)

protected theorem Calm.closeUsers {d : DieId} {c : ChanId} {lun : Option (Nat × Nat)}
    (h : Calm s0 s) : Calm s0 (closeUsers s d c lun) :=
  h.foldl (fun _ _ hu => hu.closeFull)

protected theorem Calm.afterRetire {d : DieId} {c : ChanId} {lun : Option (Nat × Nat)}
    (h : Calm s0 s) : Calm s0 (afterRetire s d c lun) := by
  unfold afterRetire
  extract_lets _ s1 s2 _ s3 s4
  have hs1 : Calm s0 s1 := h.foldl (fun _ _ hu => hu.loseStripe)
  have hs2 : Calm s0 s2 := hs1.narrowGroups.updDie
  have hs3 : Calm s0 s3 := hs2.foldl (fun _ _ hu => hu.eraseEnded)
  have hs4 : Calm s0 s4 := hs3.closeUsers
  exact .ite hs4.applyPolicy.fgrReval hs4

protected theorem Calm.retireLun {d : DieId} {c : ChanId} {ce lun : Nat}
    (h : Calm s0 s) : Calm s0 (retireLun s d c ce lun) := by
  unfold retireLun
  extract_lets s1 s2
  have hs1 : Calm s0 s1 := h.updDie
  have hs2 : Calm s0 s2 := hs1.journalPut.raiseInt.recordEvent
  exact .ite h hs2.afterRetire

protected theorem Calm.refuseLun {d : DieId} {c : ChanId} {k : Nat} (h : Calm s0 s) : Calm s0 (refuseLun s d c k) := by
  unfold refuseLun
  exact .ite h h.recordErr.retireLun

protected theorem Calm.identifyLuns {d : DieId} (h : Calm s0 s) : Calm s0 (identifyLuns s d) :=
  (h.foldl (fun _ _ hu => .ite hu.refuseLun hu)).trainChannels

/-! ### Metering -/

protected theorem Calm.nextMinute {loss : Bool} (h : Calm s0 s) : Calm s0 (nextMinute s loss) := h.same

protected theorem Calm.sealMinute {minute : Nat} (h : Calm s0 s) : Calm s0 (sealMinute s minute) := by
  unfold sealMinute
  extract_lets _ _ _ _ _ s1 s2 s3 s4 s5
  have hs1 : Calm s0 s1 := h.same
  have hs2 : Calm s0 s2 := hs1.regSet.raiseInt
  have hs3 : Calm s0 s3 := .ite hs2 hs2.raiseInt
  have hs4 : Calm s0 s4 := .ite hs3.raiseInt hs3
  have hs5 : Calm s0 s5 := .ite hs4.recordErr hs4
  exact hs5.recordEvent

protected theorem Calm.sealPending (h : Calm s0 s) : Calm s0 (sealPending s) := by
  unfold sealPending
  split
  · exact h
  · exact h.sealMinute

protected theorem Calm.spillMeters {d : DieId} (h : Calm s0 s) : Calm s0 (spillMeters s d) := h.updDie

protected theorem Calm.collectSpill (h : Calm s0 s) : Calm s0 (collectSpill s) := by
  unfold collectSpill
  split
  · exact h
  · exact h.foldl (fun _ _ hu => .ite hu hu.same)

protected theorem Calm.markMissing (h : Calm s0 s) : Calm s0 (markMissing s) := h.same

protected theorem Calm.dropSpill {d : DieId} (h : Calm s0 s) : Calm s0 (dropSpill s d) := h.updDie

protected theorem Calm.restartMinutes (h : Calm s0 s) : Calm s0 (restartMinutes s) := by
  unfold restartMinutes
  extract_lets s1 s2
  have hs1 : Calm s0 s1 := h.collectSpill.markMissing.sealPending
  have hs2 : Calm s0 s2 := hs1.nextMinute.collectSpill.markMissing.sealPending
  exact .ite (hs2.same.overDies (fun _ _ hu => hu.dropSpill)) hs1.same

protected theorem Calm.coldMinutes {marks : List Int} (h : Calm s0 s) : Calm s0 (coldMinutes s marks) := by
  unfold coldMinutes
  extract_lets _ _ _ _ s1
  have hs1 : Calm s0 s1 := h.same
  exact hs1.same

/-! ### Flush -/

protected theorem Calm.rescueTags {d : DieId} {g : Machine.Group} {stop : Nat} {l : List RingEntry}
    (h : Calm s0 s) : Calm s0 (rescueTags s d g stop l) := by
  unfold rescueTags
  extract_lets _ s1
  have hs1 : Calm s0 s1 := h.foldl (fun _ _ hu => hu.meterAdd)
  exact hs1.updDie

protected theorem Calm.packRescue {d : DieId} {n : Nat} {l : List RingEntry}
    (h : Calm s0 s) : Calm s0 (packRescue d n s l).2 := by
  induction n generalizing d s l with
  | zero =>
    exact h
  | succ n ih =>
    unfold packRescue
    split
    · exact h
    · split
      · exact h
      · extract_lets _ _ s1
        have hs1 : Calm s0 s1 := h.rescueTags
        exact ih hs1.updDie

protected theorem Calm.tearWrite {d : DieId} (h : Calm s0 s) : Calm s0 (tearWrite s d) := h.updDie

protected theorem Calm.flushWrite {d : DieId} {e : RingEntry} (h : Calm s0 s) : Calm s0 (flushWrite s d e) := by
  unfold flushWrite
  exact .ite h.drainWrite h.tearWrite

protected theorem Calm.stopFlash {d : DieId} (h : Calm s0 s) : Calm s0 (stopFlash s d) := h.updDie

protected theorem Calm.haltDie {d : DieId} (h : Calm s0 s) : Calm s0 (haltDie s d) := by
  unfold haltDie
  exact .ite h.stopFlash.updDie h

protected theorem Calm.flushFirst {d : DieId} {n : Nat} (h : Calm s0 s) : Calm s0 (flushFirst s d n) := by
  unfold flushFirst
  extract_lets _ p s1 s2
  have hp : Calm s0 p.2 := h.packRescue
  have hs1 : Calm s0 s1 := hp.foldl (fun _ _ hu => hu.flushWrite)
  have hs2 : Calm s0 s2 := hs1.foldl (fun _ _ hu => hu.tearWrite)
  exact hs2.updDie

protected theorem Calm.flushRing {d : DieId} (h : Calm s0 s) : Calm s0 (flushRing s d) := by
  unfold flushRing
  exact .ite h.haltDie.flushFirst h

protected theorem Calm.flushRoot {d : DieId} (h : Calm s0 s) : Calm s0 (flushRoot s d) := by
  unfold flushRoot
  exact .ite h.spillMeters.reRoot h.spillMeters

protected theorem Calm.flushDie {d : DieId} (h : Calm s0 s) : Calm s0 (flushDie s d) := h.flushRing.flushRoot

/-! ### Mount -/

@[simp] theorem loadRoot_phase (x : Die) (r : Root) : (loadRoot x r).phase = x.phase := by rfl

@[simp] theorem putUnit_phase (x : Die) (tenant nsid unit : Nat) (entry : BitVec 40) :
    (putUnit x tenant nsid unit entry).phase = x.phase :=
  by rfl

@[simp] theorem applyUnit_phase (s : State) (d : DieId) (r : JRec) (x : Die) (i : Nat) :
    (applyUnit s d r x i).phase = x.phase := by
  unfold applyUnit
  split <;> simp

@[simp] theorem applyMap_phase (s : State) (d : DieId) (x : Die) (r : JRec) : (applyMap s d x r).phase = x.phase := by
  simp [applyMap]

@[simp] theorem applyRec_phase (s : State) (d : DieId) (w : Nat) (x : Die) (r : JRec) :
    (applyRec s d w x r).phase = x.phase := by
  simp [applyRec]

@[simp] theorem replay_phase (s : State) (d : DieId) (r : Root) : (replay s d r).phase = (s.die d).phase := by
  simp [replay]

protected theorem Calm.redoBlock {d : DieId} {n c : Nat} (h : Calm s0 s) : Calm s0 (redoBlock d n s c) := by
  unfold redoBlock
  extract_lets s1
  have hs1 : Calm s0 s1 := h.draw
  exact .ite hs1 hs1.retireBlock

protected theorem Calm.redoErase {d : DieId} {g : Machine.Group} (h : Calm s0 s) : Calm s0 (redoErase d s g) := by
  unfold redoErase
  extract_lets s1 s2
  have hs1 : Calm s0 s1 := h.updDie
  have hs2 : Calm s0 s2 := hs1.foldl (fun _ _ hu => hu.redoBlock)
  split
  · exact hs2
  · exact .ite hs2.eraseDone hs2

protected theorem Calm.redoErases {d : DieId} (h : Calm s0 s) : Calm s0 (redoErases s d) :=
  h.foldl (fun _ _ hu => hu.redoErase)

protected theorem Calm.closeOpen {d : DieId} (h : Calm s0 s) : Calm s0 (closeOpen s d) := h.foldl (fun _ _ hu => hu.closeFull)

protected theorem Calm.reportBreak {d : DieId} (h : Calm s0 s) : Calm s0 (reportBreak s d) := h.recordErr.raiseInt

protected theorem Calm.takeMaster {d : DieId} {r : Root} (h : Calm s0 s) : Calm s0 (takeMaster s d r) := by
  unfold takeMaster
  exact .ite h.same h

protected theorem Calm.timeMount {d : DieId} (h : Calm s0 s) : Calm s0 (timeMount s d) := by
  unfold timeMount
  extract_lets r
  have hr : Calm s0 r.2 := h.drawChoice
  exact hr.updDie

protected theorem Calm.mountRoot {d : DieId} {r : Root} (h : Calm s0 s) : Calm s0 (mountRoot s d r) := by
  unfold mountRoot
  extract_lets broken s1 s2 s3 s4
  have hm : (replay s d r).phase = ((takeMaster s d r).die d).phase := by
    rw [replay_phase]
    unfold takeMaster
    split <;> rfl
  have hs1 : Calm s0 s1 := h.takeMaster.setDieOf hm
  have hs2 : Calm s0 s2 := (Calm.ite hs1.reportBreak hs1).redoErases
  have hs3 : Calm s0 s3 := hs2.closeOpen.checkpoint.fillRescue.ensureJournal
  have hs4 : Calm s0 s4 := hs3.applyPolicy.fgrReval.timeMount
  exact hs4.recordEvent

protected theorem Calm.noRoot {d : DieId} (h : Calm s0 s) : Calm s0 (noRoot s d) := by
  unfold noRoot
  extract_lets r
  have hr : Calm s0 r.2 := h.drawChoice
  exact hr.recordErr

protected theorem Calm.mountDie {d : DieId} (h : Calm s0 s) : Calm s0 (mountDie s d) := by
  unfold mountDie
  split
  · exact h.noRoot
  · exact .ite h.mountRoot h

/-! ### HoldUp -/

protected theorem Calm.shareLimit {limit : Nat} (h : Calm s0 s) : Calm s0 (shareLimit s limit) := by
  unfold shareLimit
  extract_lets
  refine h.overDies (fun u d hu => ?_)
  extract_lets s1
  have hs1 : Calm s0 s1 := hu.updDie
  exact .ite hs1.fillRescue hs1

/-! ### Pools -/

protected theorem Calm.updPort {d : DieId} {p : PortId} {f : EthPort → EthPort} (h : Calm s0 s) : Calm s0 (updPort s d p f) :=
  h.updDie

protected theorem Calm.ethCount {d : DieId} {p : PortId} {off k : Nat} (h : Calm s0 s) : Calm s0 (ethCount s d p off k) :=
  h.updPort

protected theorem Calm.onWire {d : DieId} {p : PortId} {t1 : TxPkt} {bad : Bool}
    (h : Calm s0 s) : Calm s0 (onWire s d p t1 bad) :=
  h.updPort

protected theorem Calm.sendFrame {d : DieId} {p : PortId} {t1 : TxPkt} {bad : Bool}
    (h : Calm s0 s) : Calm s0 (sendFrame s d p t1 bad) := by
  unfold sendFrame
  extract_lets s1
  have hs1 : Calm s0 s1 := h.onWire
  exact .ite h.ethCount (.ite hs1 hs1.ethCount.ethCount)

protected theorem Calm.drainPort {d : DieId} {p : PortId} (h : Calm s0 s) : Calm s0 (drainPort s d p) :=
  h.updPort.foldl (fun _ _ hu => hu.sendFrame)

protected theorem Calm.endAll {d : DieId} (h : Calm s0 s) : Calm s0 (endAll s d) := h.terminateWhere.drainPort.drainPort

/-! ### Boot -/

protected theorem Calm.putWord {a : Nat} {v : Word} (h : Calm s0 s) : Calm s0 (putWord s a v) := by
  unfold putWord
  split
  · exact h
  · split
    · exact h
    · exact .ite h.regSet h.badValue

protected theorem Calm.setLock {base : Nat} (h : Calm s0 s) : Calm s0 (setLock s base) := h.regFld

protected theorem Calm.loadKeys {d : DieId} (h : Calm s0 s) : Calm s0 (loadKeys s d) := by
  unfold loadKeys
  extract_lets r
  have hr : Calm s0 r.2 := h.drawBytes
  exact hr.updDie

protected theorem Calm.portSettings {d : DieId} {p : PortId} (h : Calm s0 s) : Calm s0 (portSettings s d p) := by
  unfold portSettings
  extract_lets _ _ s1 s2
  have hs1 : Calm s0 s1 := h.regSet.regSet
  have hs2 : Calm s0 s2 := hs1.foldl (fun _ _ hu => hu.putWord)
  exact hs2.updDie

protected theorem Calm.flashSettings {d : DieId} (h : Calm s0 s) : Calm s0 (flashSettings s d) := by
  unfold flashSettings
  extract_lets s1 s2
  have hs1 : Calm s0 s1 := h.foldl (fun _ _ hu => hu.foldl (fun _ _ hw => hw.putWord))
  have hs2 : Calm s0 s2 := by
    unfold s2
    refine hs1.foldl (fun u a hu => ?_)
    split
    · exact hu.regSet
    · exact hu
  exact hs2.setLock.updDie

protected theorem Calm.enableBlocks {d : DieId} (h : Calm s0 s) : Calm s0 (enableBlocks s d) :=
  h.foldl (fun _ _ hu => hu.regFld)

protected theorem Calm.takePlacement (h : Calm s0 s) : Calm s0 (takePlacement s) := h.overDies (fun _ _ hu => hu.updDie)

protected theorem Calm.startMinutes {cold : Bool} {was : Nat} (h : Calm s0 s) : Calm s0 (startMinutes s cold was) := by
  unfold startMinutes
  extract_lets _ s1 _ s2 s3
  have hs1 : Calm s0 s1 := h.same.restartMinutes
  have hs2 : Calm s0 s2 := hs1.same
  have hs3 : Calm s0 s3 := .ite hs2.coldMinutes hs2
  exact hs3.same

protected theorem Calm.startEvents {cause : Nat} (h : Calm s0 s) : Calm s0 (startEvents s cause) := by
  unfold startEvents
  extract_lets s1
  have hs1 : Calm s0 s1 := .ite h h.recordEvent
  exact .ite hs1.recordEvent (.ite (hs1.overDies (fun _ _ hu => hu.raiseInt)) hs1)

protected theorem Calm.stopAll (h : Calm s0 s) : Calm s0 (stopAll s) :=
  (h.overDies (fun _ _ hu => hu.endAll)).overDies (fun _ _ hu => hu.finishWrites.flushDie)

/-! ### A reset of the controller dies (R11, R536) -/

/-- A die that has just been reset: in RESET, with no session and no command. -/
def DieFresh (x : Die) : Prop := x.phase = .reset ∧ x.ktp.sessions = [] ∧ x.csq.cmds = []

theorem resetDie_fresh (s : State) (d : DieId) : DieFresh ((resetDie s d .reset).die d) := by
  have h : (resetDie s d .reset).die d = { freshDie (s.die d) with phase := .reset } := die_setDie_self _ _ _
  rw [h]
  exact ⟨rfl, rfl, rfl⟩

theorem resetDie_other {d e : DieId} (h : e ≠ d) (p : DiePhase) : (resetDie s d p).die e = s.die e := die_setDie_ne _ _ _ _ h

/-- The registers of a die's window after its reset, but for the kept ones (R11). -/
theorem regGet_resetDie (s : State) (d : DieId) (p : DiePhase) (a : Nat) :
    regGet (resetDie s d p) a = if (winOf a == d.val && !keptReg a) = true then resetOf a else regGet s a := by
  have h : (resetDie s d p).regs
      = (regsDrop (s.setDie d { freshDie (s.die d) with phase := p }) (fun a => winOf a == d.val && !keptReg a)).regs := rfl
  rw [Access.regGet_congr h, regGet_regsDrop]
  rfl

/-- The controller dies of a list enter reset. -/
def resetAll (l : List DieId) (s : State) : State := overDies (fun s d => resetDie s d .reset) s l

theorem resetAll_fresh (l : List DieId) (s : State) (d : DieId) (h : d ∈ l ∨ DieFresh (s.die d)) :
    DieFresh ((resetAll l s).die d) := by
  induction l generalizing s with
  | nil => exact h.resolve_left (by simp)
  | cons e l ih =>
    refine ih (resetDie s e .reset) ?_
    by_cases hd : d = e
    · exact .inr (hd ▸ resetDie_fresh s e)
    · rw [resetDie_other hd]
      exact h.imp_left fun hm => (List.mem_cons.1 hm).resolve_left hd

theorem regGet_resetAll (l : List DieId) (s : State) (d : DieId) (a : Nat) (hw : winOf a = d.val) (hk : keptReg a = false)
    (h : d ∈ l ∨ regGet s a = resetOf a) : regGet (resetAll l s) a = resetOf a := by
  induction l generalizing s with
  | nil => exact h.resolve_left (by simp)
  | cons e l ih =>
    refine ih (resetDie s e .reset) ?_
    rw [regGet_resetDie]
    by_cases hd : d = e
    · exact .inr (by rw [if_pos (by simp [hw, hd, hk])])
    · rw [if_neg (by simp [hw, Fin.val_inj, hd])]
      exact h.imp_left fun hm => (List.mem_cons.1 hm).resolve_left hd

theorem resetAll_guard (l : List DieId) (s : State) : (resetAll l s).guard = s.guard :=
  List.foldlRecOn (motive := fun t : State => t.guard = s.guard) l _ rfl fun _ h _ _ => h

theorem mem_allDies (d : DieId) : d ∈ allDies := by
  revert d
  decide

theorem cutMinute_guard (s : State) : (cutMinute s).guard = s.guard := by
  unfold cutMinute
  split <;> rfl

theorem norOpDone_guard (s : State) : (norOpDone s).guard = s.guard := by
  unfold norOpDone
  split <;> rfl

/-- The state in which R11's reset of the package leaves the dies, before it resets the NOR controller. -/
def diesReset (s : State) : State := resetAll allDies (norOpDone (cutMinute s))

theorem enterReset_guard (s : State) : (enterReset s).guard = s.guard := by
  have h : (diesReset s).guard = s.guard := (resetAll_guard _ _).trans ((norOpDone_guard _).trans (cutMinute_guard s))
  unfold enterReset
  extract_lets s1 s2
  exact h

theorem enterReset_fresh (s : State) (d : DieId) : DieFresh ((enterReset s).die d) := by
  have h : DieFresh ((diesReset s).die d) := resetAll_fresh _ _ d (.inl (mem_allDies d))
  unfold enterReset
  extract_lets s1 s2
  exact h

theorem regGet_enterReset (s : State) (a : Nat) (hw : winOf a < 8) (hk : keptReg a = false) :
    regGet (enterReset s) a = resetOf a := by
  have h : regGet (diesReset s) a = resetOf a := regGet_resetAll _ _ ⟨winOf a, hw⟩ a rfl hk (.inl (mem_allDies _))
  unfold enterReset
  extract_lets s1 s2
  have h2 : regGet s2 a = resetOf a := by
    rw [regGet_regsDrop]
    split
    · rfl
    · exact h
  exact (Access.regGet_congr rfl).trans h2

/-- With RESET_N held low the start waits before step 4 (R537, R568). -/
theorem leaveReset_held (h : s.guard.resetLow = true) (cold : Bool) (cause : Nat) :
    leaveReset s cold cause = { s with pkg := { s.pkg with starting := true, startCold := cold, startWhy := cause } } :=
  if_pos h

/-! ### The cold reset -/

theorem coldReset_spec (h : s.guard.resetLow = true) :
    ∃ t, exec .coldReset s = .next t ∧ t.regs = [] ∧ t.part = s.part ∧ t.guard.devTime = 0 ∧ t.guard.off = false
      ∧ t.pkg.starting = true ∧ t.pkg.startCold = true ∧ t.nor.array = s.nor.array ∧ t.nor.journal = s.nor.journal
      ∧ t.nor.rootHash = s.nor.rootHash ∧ t.nor.svn = s.nor.svn ∧ t.mtr.log = s.mtr.log
      ∧ ∀ d : DieId, (t.die d).phase = .reset ∧ (t.die d).ktp.sessions = [] ∧ (t.die d).map.roots = (s.die d).map.roots
          ∧ (t.die d).map.journal = (s.die d).map.journal ∧ (t.die d).map.stored = (s.die d).map.stored ∧ (t.die d).mem = [] := by
  have hheld := leaveReset_held (s := railsOn (powerOn s)) h true 0
  refine ⟨_, congrArg Host.Outcome.next hheld, rfl, rfl, rfl, rfl, rfl, rfl, rfl, rfl, rfl, rfl, ?_, fun d => ?_⟩
  · show (cutMinute s).mtr.log = s.mtr.log
    unfold cutMinute
    split <;> rfl
  · show (((powerOn s).die d).phase = _ ∧ ((powerOn s).die d).ktp.sessions = _ ∧ ((powerOn s).die d).map.roots = _
      ∧ ((powerOn s).die d).map.journal = _ ∧ ((powerOn s).die d).map.stored = _ ∧ ((powerOn s).die d).mem = _)
    rw [Frame.die_powerOn]
    exact ⟨rfl, rfl, rfl, rfl, rfl, rfl⟩

/-! ### The warm reset -/

/-- Steps 2 and 3 of R536 leave RESET_N alone. -/
theorem stopAll_resetLow : (stopAll s).guard.resetLow = s.guard.resetLow := (Calm.rfl s).stopAll.low

/-- What a warm reset leaves while RESET_N is held low: the dies in reset, the start waiting with its cause. -/
def WarmReset (t : State) (why : Nat) : Prop :=
  t.pkg.starting = true ∧ t.pkg.startCold = false ∧ t.pkg.startWhy = why
    ∧ (∀ d : DieId, (t.die d).phase = .reset ∧ (t.die d).ktp.sessions = [] ∧ (t.die d).csq.cmds = [])
    ∧ ∀ a, winOf a < 8 → keptReg a = false → regGet t a = resetOf a

theorem leaveReset_enterReset (h : s.guard.resetLow = true) (why : Nat) :
    WarmReset (leaveReset (enterReset s) false why) why := by
  rw [leaveReset_held ((congrArg Guard.resetLow (enterReset_guard s)).trans h)]
  exact ⟨rfl, rfl, rfl, enterReset_fresh s, regGet_enterReset s⟩

theorem warmReset_spec (hblocked : resetBlocked s = false) (hstart : s.pkg.starting = false) (h : s.guard.resetLow = true)
    (why : Nat) : WarmReset (warmReset s why) why := by
  unfold warmReset
  rw [if_neg (by simp [hblocked, hstart])]
  extract_lets _ s1 s2
  have h2 : s2.guard.resetLow = true := (stopAll_resetLow (s := s1)).trans h
  clear_value s2
  exact leaveReset_enterReset (by exact h2) why

/-- A pulse of 1 µs or more on RESET_N resets (R537). -/
theorem resetPulse_long {ns : Nat} (h : 1000 ≤ ns) :
    resetPulse s ns = warmReset { s with guard := { s.guard with resetLow := true } } 1 := by
  unfold resetPulse
  rw [if_neg (show ¬ns < 100 by omega), if_neg (show ¬ns < 1000 by omega)]
  exact if_neg Nat.one_ne_zero

theorem resetPulse_short {ns : Nat} (h : ns < 100) : resetPulse s ns = s := if_pos h

theorem warmReset_causes (hblocked : resetBlocked s = false) (hstart : s.pkg.starting = false) (h : s.guard.resetLow = true)
    {cause : WarmCause} {ns why : Nat}
    (hc : cause = .resetN ∧ 1000 ≤ ns ∧ why = 1 ∨ cause = .resetDevice ∧ s.pkg.resetPend = true ∧ why = 2
      ∨ cause = .die0Fault ∧ why = 3 ∨ cause = .alarm ∧ why = 4) :
    ∃ t, exec (.warmReset cause ns) s = .next t ∧ WarmReset t why := by
  rcases hc with ⟨rfl, hns, rfl⟩ | ⟨rfl, hpend, rfl⟩ | ⟨rfl, rfl⟩ | ⟨rfl, rfl⟩
  · refine ⟨_, congrArg Host.Outcome.next ((if_neg (by simp [hblocked])).trans (resetPulse_long hns)), ?_⟩
    exact warmReset_spec (s := { s with guard := { s.guard with resetLow := true } }) hblocked hstart rfl 1
  · exact ⟨_, congrArg Host.Outcome.next (if_pos hpend), warmReset_spec hblocked hstart h 2⟩
  · exact ⟨_, rfl, warmReset_spec hblocked hstart h 3⟩
  · exact ⟨_, rfl, warmReset_spec hblocked hstart h 4⟩

theorem warmReset_short {ns : Nat} (h : ns < 100) : exec (.warmReset .resetN ns) s = .next s := by
  show Host.Outcome.next (if resetBlocked s = true then s else resetPulse s ns) = _
  rw [resetPulse_short h, ite_self]

/-! ### The restart after a power loss (R324) -/

theorem slotSwitch_on_guard (s : State) (n : SlotId) : (slotSwitch s n true).guard = s.guard := by
  unfold slotSwitch
  rw [if_pos rfl]
  rfl

theorem slotSwitch_on_dies (s : State) (n : SlotId) : (slotSwitch s n true).dies = s.dies := by
  unfold slotSwitch
  rw [if_pos rfl]
  rfl

/-- The end of a loss turns the input and the charger on again and changes no die. -/
theorem endLoss_spec (s : State) :
    (endLoss s).guard.losing = false ∧ (endLoss s).guard.psu.orOn = true ∧ (endLoss s).guard.psu.bank = .charging
      ∧ (endLoss s).guard.resetLow = s.guard.resetLow ∧ (endLoss s).guard.die0Hold = s.guard.die0Hold
      ∧ (endLoss s).guard.alarmHold = s.guard.alarmHold ∧ (endLoss s).dies = s.dies := by
  simp [endLoss, updPsu, railsOn, slotSwitch_on_guard, slotSwitch_on_dies]

theorem exec_lossRestart (hlosing : s.guard.losing = true) (hdone : s.guard.lossDone = true) (hoff : s.guard.off = false) :
    exec .lossRestart s = .next (if s.guard.die0Hold || s.guard.alarmHold then endLoss s else lossRestart s) := by
  show Host.Outcome.next (if (s.guard.losing && s.guard.lossDone && !s.guard.off) = true then _ else s) = _
  rw [if_pos (by simp [hlosing, hdone, hoff])]

theorem lossRestart_spec (h : s.guard.resetLow = true) (hlosing : s.guard.losing = true) (hdone : s.guard.lossDone = true)
    (hoff : s.guard.off = false) (hdie0 : s.guard.die0Hold = false) (halarm : s.guard.alarmHold = false) :
    ∃ t, exec .lossRestart s = .next t ∧ t.guard.losing = false ∧ t.guard.psu.orOn = true ∧ t.guard.psu.bank = .charging
      ∧ t.pkg.starting = true ∧ t.pkg.startWhy = 5 ∧ ∀ d : DieId, (t.die d).phase = .reset := by
  obtain ⟨h1, h2, h3, hlow, -, -, -⟩ := endLoss_spec s
  have hguard := enterReset_guard (endLoss s)
  have hheld := leaveReset_held (s := enterReset (endLoss s)) (by rw [hguard, hlow, h]) false 5
  refine ⟨lossRestart s, ?_, ?_⟩
  · rw [exec_lossRestart hlosing hdone hoff, if_neg (by simp [hdie0, halarm])]
  · unfold lossRestart
    rw [hheld]
    refine ⟨?_, ?_, ?_, rfl, rfl, fun d => (enterReset_fresh (endLoss s) d).1⟩
    · exact (congrArg Guard.losing hguard).trans h1
    · exact (congrArg (fun g => g.psu.orOn) hguard).trans h2
    · exact (congrArg (fun g => g.psu.bank) hguard).trans h3

theorem lossRestart_hold_spec (hlosing : s.guard.losing = true) (hdone : s.guard.lossDone = true) (hoff : s.guard.off = false)
    (hhold : s.guard.die0Hold = true ∨ s.guard.alarmHold = true) :
    ∃ t, exec .lossRestart s = .next t ∧ t.guard.losing = false ∧ t.guard.psu.orOn = true
      ∧ t.guard.die0Hold = s.guard.die0Hold ∧ t.guard.alarmHold = s.guard.alarmHold ∧ t.dies = s.dies := by
  obtain ⟨h1, h2, -, -, h3, h4, h5⟩ := endLoss_spec s
  refine ⟨endLoss s, ?_, h1, h2, h3, h4, h5⟩
  rw [exec_lossRestart hlosing hdone hoff, if_pos (by simpa using hhold)]

/-! ### The start from step 4 on (R535, R536) -/

theorem exec_resetNRelease_idle (h : s.guard.resetLow = true) (hstart : s.pkg.starting = false) :
    exec .resetNRelease s = .next { s with guard := { s.guard with resetLow := false } } :=
  congrArg Host.Outcome.next ((if_pos h).trans (if_neg (by rw [hstart]; decide)))

theorem exec_resetNRelease_start (h : s.guard.resetLow = true) (hstart : s.pkg.starting = true) :
    exec .resetNRelease s
      = .next (startPackage { s with guard := { s.guard with resetLow := false } } s.pkg.startCold s.pkg.startWhy) :=
  congrArg Host.Outcome.next ((if_pos h).trans (if_pos hstart))

/-- BOOT_FAULT stands, the start is over, and die 0 refuses commands. -/
def BootStopped (t : State) : Prop := t.nor.bootFault = true ∧ t.pkg.starting = false ∧ (t.die 0).phase = .refused

theorem bootStop_stops (s : State) : BootStopped (bootStop s) := by
  refine ⟨rfl, rfl, ?_⟩
  show ((s.updDie 0 (fun x => { x with phase := .refused })).die 0).phase = _
  rw [die_updDie_self]

theorem recordEvent_nor (s : State) (d : DieId) (code v : Nat) : (recordEvent s d code v).nor = s.nor := by
  unfold recordEvent
  rw [apply_ite State.nor, apply_ite State.nor]
  exact (congrArg _ (ite_self _)).trans (ite_self _)

theorem recordErr_nor (s : State) (base code off : Nat) : (recordErr s base code off).nor = s.nor := by
  unfold recordErr
  extract_lets s1
  have h : s1.nor = s.nor := (apply_ite State.nor _ _ _).trans (ite_self _)
  split
  · exact (recordEvent_nor _ _ _ _).trans h
  · exact h

/-- A good option area changes its shadow and nothing else. -/
theorem optLoad_of_ok (h : (optLoad s).nor.optOk = true) :
    ∃ b, optLoad s = { s with nor := { s.nor with shadow := b, optOk := true } } := by
  by_cases h0 : optGood (norRead s.nor 0 4096) = true
  · exact ⟨_, if_pos h0⟩
  · by_cases h5 : optGood (norRead s.nor 0x5000 4096) = true
    · exact ⟨_, (if_neg h0).trans (if_pos h5)⟩
    · have hbad : optLoad s = recordErr _ _ _ _ := (if_neg h0).trans (if_neg h5)
      rw [hbad, recordErr_nor] at h
      cases h

/-- A bad option area stops the start (R535 step 4). -/
theorem startPackage_bad (cold : Bool) (why : Nat) (h : (optLoad s).nor.optOk = false) :
    startPackage s cold why = bootStop (optLoad s) := by
  unfold startPackage
  exact if_pos (by rw [h]; rfl)

/-- The boot ROM has chosen: the slot runs, or the package stops with BOOT_FAULT. -/
def bootChosen (s : State) (c : Chosen) (why : Nat) : State :=
  match c.slot with
  | none => bootStop { s with nor := c.nor }
  | some b => startUp { s with nor := c.nor } false why b c.fell

theorem bootChosen_none {c : Chosen} (hc : c.slot = none) (why : Nat) : BootStopped (bootChosen s c why) := by
  unfold bootChosen
  rw [hc]
  exact bootStop_stops _

theorem bootChosen_some {c : Chosen} {b : Bool} (hc : c.slot = some b) (why : Nat) :
    bootChosen s c why = startUp { s with nor := c.nor } false why b c.fell := by
  unfold bootChosen
  rw [hc]

/-- The start that is not cold, over a good option area and without a purge: the boot ROM chooses a slot. -/
theorem startPackage_warm (why : Nat) (h : (optLoad s).nor.optOk = true) (hpurge : (optLoad s).guard.purge = false) :
    startPackage s false why = bootChosen (optLoad s) (chooseSlot (optLoad s).nor why) why := by
  unfold startPackage
  extract_lets s1 s2 s3 _ _ s4 c
  have h2 : s2 = optLoad s := if_neg (by decide)
  have h3 : s3 = optLoad s := (if_neg (by rw [h2, hpurge]; decide)).trans h2
  have h4 : s4 = optLoad s := (if_neg (by decide)).trans h3
  have hc : chooseSlot (optLoad s).nor why = c := congrArg (fun t : State => chooseSlot t.nor why) h4.symm
  rw [if_neg (by rw [show s1.nor.optOk = true from h]; decide), hc]
  clear_value c s4
  rw [h4]
  rfl

/-- A start from one state to another: the dies of the list are up, and the rest is as `Calm` says. -/
structure Started (l : List DieId) (s t : State) : Prop where
  phase    : ∀ d : DieId, (t.die d).phase = if d ∈ l then .up else (s.die d).phase
  low      : t.guard.resetLow = s.guard.resetLow
  boot     : bootRecord t.nor = bootRecord s.nor

theorem Started.calm {l : List DieId} {u : State} (h : Started l s t) (k : Calm t u) : Started l s u :=
  ⟨fun d => (k.phase d).trans (h.phase d), k.low.trans h.low, k.boot.trans h.boot⟩

theorem Calm.started {l : List DieId} {u : State} (k : Calm s t) (h : Started l t u) : Started l s u :=
  ⟨fun d => by rw [h.phase d, k.phase d], h.low.trans k.low, h.boot.trans k.boot⟩

theorem Started.append {l m : List DieId} {u : State} (h : Started l s t) (k : Started m t u) : Started (l ++ m) s u := by
  refine ⟨fun d => ?_, k.low.trans h.low, k.boot.trans h.boot⟩
  rw [k.phase, h.phase]
  by_cases hl : d ∈ l <;> simp [hl]

/-- A die of the package comes up with its settings (R535 step 6). -/
theorem dieSettings_started (s : State) (d : DieId) : Started [d] s (dieSettings s d) := by
  unfold dieSettings
  extract_lets s1 s2
  have hk := (Calm.rfl s).loadKeys (d := d)
  have h1 : Started [d] s s1 := by
    refine ⟨fun e => ?_, hk.low, hk.boot⟩
    by_cases he : e = d
    · rw [he, if_pos List.mem_cons_self, show s1.die d = _ from die_updDie_self _ _ _]
    · rw [show s1.die e = _ from die_updDie_ne _ _ _ _ he, hk.phase, if_neg (by simpa using he)]
  exact h1.calm (((Calm.rfl s1).putWord.flashSettings).portSettings.portSettings.enableBlocks)

theorem overDies_started (l : List DieId) (s : State) : Started l s (overDies dieSettings s l) := by
  induction l generalizing s with
  | nil => exact ⟨fun _ => rfl, rfl, rfl⟩
  | cons d l ih => exact (dieSettings_started s d).append (ih (dieSettings s d))

theorem startUp_spec (s : State) (why : Nat) (slot fell : Bool) :
    (startUp s false why slot fell).pkg.starting = false
      ∧ bootRecord (startUp s false why slot fell).nor = (slot, true, false, why)
      ∧ (startUp s false why slot fell).guard.resetLow = s.guard.resetLow
      ∧ ∀ d : DieId, d ∈ startDies s → ((startUp s false why slot fell).die d).phase = .up := by
  unfold startUp
  extract_lets _ s1 s2 s3 s4 s5 s6 _ s7
  have h2 : Calm s1 s2 := .ite (Calm.rfl s1).raiseInt (Calm.rfl s1)
  have h3 : Calm s1 s3 := by
    rw [show s3 = s2 from if_neg Bool.false_ne_true]
    exact h2
  have h4 : Started (startDies s) s1 s4 := h3.started (overDies_started _ s3)
  have h5 : Calm s4 s5 := ((Calm.rfl s4).overDies fun _ _ h => h.mountDie).overDies fun _ _ h => h.identifyLuns
  have h6 : Started (startDies s) s1 s6 := h4.calm h5.takePlacement.startMinutes.startEvents
  have h7 := (Calm.rfl s7).shareLimit (limit := s7.guard.psu.limit)
  refine ⟨h7.starting, h7.boot.trans h6.boot, h7.low.trans h6.low, fun d hd => ?_⟩
  rw [h7.phase, show (s7.die d).phase = _ from h6.phase d, if_pos hd]

theorem mem_startDies {d : DieId} (hpresent : present s d = true) (hphase : (s.die d).phase ≠ .fenced) : d ∈ startDies s :=
  List.mem_filter.2 ⟨mem_allDies d, by simp [hpresent, hphase]⟩

theorem resetNRelease_badOptions (h : s.guard.resetLow = true) (hstart : s.pkg.starting = true)
    (hopt : (optLoad { s with guard := { s.guard with resetLow := false } }).nor.optOk = false) :
    ∃ t, exec .resetNRelease s = .next t ∧ BootStopped t := by
  rw [exec_resetNRelease_start h hstart, startPackage_bad _ _ hopt]
  exact ⟨_, rfl, bootStop_stops _⟩

/-- What a start leaves when the boot ROM has chosen a slot. -/
def SlotRuns (s t : State) (b : Bool) : Prop :=
  t.nor.running = b ∧ t.nor.cause = s.pkg.startWhy ∧ t.nor.pe = true ∧ t.nor.bootFault = false ∧ t.pkg.starting = false
    ∧ t.guard.resetLow = false
    ∧ ∀ d : DieId, present s d = true → (s.die d).phase ≠ .fenced → (t.die d).phase = .up

theorem startUp_runs (s : State) (n : Nor) (b fell : Bool) :
    SlotRuns s (startUp { s with guard := { s.guard with resetLow := false }, nor := n } false s.pkg.startWhy b fell) b := by
  obtain ⟨hstart, hboot, hlow, hup⟩ :=
    startUp_spec { s with guard := { s.guard with resetLow := false }, nor := n } s.pkg.startWhy b fell
  obtain ⟨hrun, hpe, hfault, hcause⟩ : _ ∧ _ ∧ _ ∧ _ := by simpa [bootRecord] using hboot
  exact ⟨hrun, hcause, hpe, hfault, hstart, hlow, fun d hp hf => hup d (mem_startDies (by exact hp) (by exact hf))⟩

theorem resetNRelease_chooses (h : s.guard.resetLow = true) (hstart : s.pkg.starting = true) (hcold : s.pkg.startCold = false)
    (hpurge : s.guard.purge = false)
    (hopt : (optLoad { s with guard := { s.guard with resetLow := false } }).nor.optOk = true) {c : Chosen}
    (hc : chooseSlot (optLoad { s with guard := { s.guard with resetLow := false } }).nor s.pkg.startWhy = c) :
    (c.slot = none → ∃ t, exec .resetNRelease s = .next t ∧ BootStopped t)
      ∧ ∀ b, c.slot = some b → ∃ t, exec .resetNRelease s = .next t ∧ SlotRuns s t b := by
  obtain ⟨o, ho⟩ := optLoad_of_ok hopt
  have hrun := startPackage_warm s.pkg.startWhy hopt (by rw [ho]; exact hpurge)
  rw [hc] at hrun
  rw [exec_resetNRelease_start h hstart, hcold, hrun]
  refine ⟨fun hnone => ⟨_, rfl, bootChosen_none hnone _⟩, fun b hb => ⟨_, rfl, ?_⟩⟩
  rw [bootChosen_some hb, ho]
  exact startUp_runs s c.nor b c.fell

/-- Settles O59: each reset and start by its own lemma above. With RESET_N low a start waits at `leaveReset_held`; the start
itself brings the dies up one by one (`Started`), and the rest of it is `Calm`. -/
theorem resets : Obligations.Resets := by
  intro s h
  refine ⟨coldReset_spec h, fun hblocked hstart => ⟨fun cause ns why hc => warmReset_causes hblocked hstart h hc,
    fun ns => warmReset_short⟩, lossRestart_spec h, lossRestart_hold_spec,
    fun hstart => ⟨_, exec_resetNRelease_idle h hstart, rfl⟩,
    resetNRelease_badOptions h, fun hstart hcold hpurge hopt => ?_⟩
  exact resetNRelease_chooses h hstart hcold hpurge hopt rfl

end Sys2Proof.Boot
end

section
/-! ### The interrupt header and the error code of a page -/
namespace Sys2Proof.Access
open Sys2Proof Sys2Proof.Machine Sys2Proof.Laws Sys2Proof.Safety
variable {s : State} {r : Requester} {base : Nat} {v : Word} {b : Block}

theorem reachable_regSet {a c : Nat} (h : Reachable s a) : Reachable (regSet s c v) a := h

/-- A write of a register of an open page's header, but for CTRL, reaches it outside a soft reset. -/
theorem regWrite_header {off : Nat} (h : PageOpen s b base) (hsoft : softResetting s base = false) (hoff : off < 0x40)
    (hctrl : off ≠ 8) : regWrite s r (base + off) v = headerWrite s b (base + off) v := by
  obtain ⟨hbase, hblock, hreach⟩ := h
  have hpage := baseOf_add hbase (show off < 0x10000 by omega)
  have hsame : baseOf (base + off) = baseOf base := hpage.trans (baseOf_add (off := 0) hbase (by omega)).symm
  have hopen := reachable_of_baseOf hsame hreach
  have ho := offOf_add hbase (show off < 0x10000 by omega)
  unfold regWrite
  rw [accessWake_of_reachable hopen]
  dsimp only
  rw [if_neg (by simp [hopen.1]), (blockAt_of_baseOf hsame).trans hblock, hpage]
  dsimp only
  rw [if_neg (by omega), if_neg (by simp [hsoft]), if_pos (by omega)]

theorem exec_intTest {base bits : Word} (h : PageOpen s b base.toNat) (hspace : HasSpace s r)
    (hsoft : softResetting s base.toNat = false) :
    exec (.intTest r base bits) s = .next (intTest s b base.toNat bits) := by
  show Host.Outcome.next (byReq s r _) = _
  rw [byReq_of_hasSpace hspace, if_pos (isPage_of_pageOpen h), regWrite_header h hsoft (by omega) (by omega)]
  unfold headerWrite
  rw [offOf_add h.1 (by omega), baseOf_add h.1 (by omega)]
  rfl

/-- An event that comes with the write is raised first, and the write then leaves its bit alone (R53). -/
theorem exec_intStatClear {base bits events : Word} (h : PageOpen s b base.toNat) (hspace : HasSpace s r)
    (hsoft : softResetting s base.toNat = false) :
    exec (.intStatClear r base bits events) s
      = .next (statClear (intTest s b base.toNat events) base.toNat bits (events &&& natWord (intBits b))) := by
  have hopen : Reachable (intTest s b base.toNat events) base.toNat := reachable_regSet h.2.2
  show Host.Outcome.next (byReq s r _) = _
  rw [byReq_of_hasSpace hspace, h.2.1]
  dsimp only
  rw [if_pos (by simp [isPage_of_pageOpen h, h.2.2.1]), hsoft, accessWake_of_reachable hopen]
  rfl

/-- The pairs of R8 lie behind the page header. -/
theorem offOf_of_isLo {a : Nat} (h : isLo a = true) : 0x40 ≤ offOf a := by
  unfold isLo at h
  split at h
  all_goals simp at h
  all_goals omega

/-- ERR_CODE is no half of a 64-bit pair. -/
theorem not_pair_of_errCode {a : Nat} (h : offOf a = 0x20) : isLo a = false ∧ isHi a = false := by
  constructor
  · by_contra hlo
    have := offOf_of_isLo (Bool.not_eq_false _ ▸ hlo)
    omega
  · by_contra hhi
    rw [Bool.not_eq_false, isHi, Bool.and_eq_true] at hhi
    have := offOf_of_isLo hhi.2
    unfold offOf at h this
    omega

theorem exec_errCodeRead {base : Word} (h : PageOpen s b base.toNat) (hspace : HasSpace s r) :
    exec (.errCodeRead r base) s = .next (errRead s (base.toNat + 0x20)) := by
  have hpage := baseOf_add h.1 (show 0x20 < 0x10000 by omega)
  have hsame : baseOf (base.toNat + 0x20) = baseOf base.toNat := hpage.trans (baseOf_add (off := 0) h.1 (by omega)).symm
  have hoff := offOf_add h.1 (show 0x20 < 0x10000 by omega)
  obtain ⟨hlo, hhi⟩ := not_pair_of_errCode hoff
  show Host.Outcome.next (byReq s r _) = _
  rw [byReq_of_hasSpace hspace, if_pos (isPage_of_pageOpen h), readReg_of_reachable (reachable_of_baseOf hsame h.2.2)]
  unfold readOpen
  dsimp only
  rw [if_neg (by simp [hlo]), if_neg (by simp [hhi]), (blockAt_of_baseOf hsame).trans h.2.1]
  dsimp only
  rw [if_pos hoff]

/-- A bit is set after a clear with events when it was set and not cleared, or its event came. -/
theorem clear_with_events (raw bits events : Word) :
    (raw ||| events) &&& ~~~(bits &&& ~~~events) = (raw &&& ~~~bits) ||| events := by
  ext i hi
  simp only [BitVec.getElem_and, BitVec.getElem_or, BitVec.getElem_not]
  cases raw[i] <;> cases bits[i] <;> cases events[i] <;> rfl

/-- A page's error codes after a read of ERR_CODE; the PSU alone takes note of it beside them. -/
theorem errRead_spec {a : Nat} (hregs : registersOk s) :
    (errRead s a).answer.data = regGet s a ∧ regGet (errRead s a) a = 0 ∧ regGet (errRead s a) (a + 4) = 0
      ∧ (∀ c, c ≠ a → c ≠ a + 4 → regGet (errRead s a) c = regGet s c) ∧ (errRead s a).dies = s.dies := by
  have hregs1 : (errRead s a).regs = (regSet (regSet s a 0) (a + 4) 0).regs := by
    unfold errRead
    dsimp only
    split <;> rfl
  refine ⟨?_, ?_, ?_, fun c hc hc4 => ?_, ?_⟩
  · unfold errRead
    dsimp only
    split <;> rfl
  · rw [regGet_congr hregs1, regGet_regSet_ne _ _ _ _ (by omega), regGet_regSet_self _ _ _ hregs]
  · rw [regGet_congr hregs1, regGet_regSet_self _ _ _ (regSet_wf _ _ _ hregs)]
  · rw [regGet_congr hregs1, regGet_regSet_ne _ _ _ _ hc4, regGet_regSet_ne _ _ _ _ hc]
  · unfold errRead
    dsimp only
    split <;> rfl

/-- Settles O8: a write of INT_TEST sets bits of INT_RAW; a clear first takes the events that come with it and then spares their
bits; a read of ERR_CODE clears the pair. -/
theorem interruptHeader : Obligations.InterruptHeader := by
  intro s b base bits events r hopen hspace hregs hsoft
  refine ⟨⟨_, exec_intTest hopen hspace hsoft, regGet_regSet_self _ _ _ hregs, fun a ha => regGet_regSet_ne _ _ _ _ ha, rfl⟩,
    ⟨_, exec_intStatClear hopen hspace hsoft, ?_, fun a ha => ?_⟩,
    ⟨_, exec_errCodeRead hopen hspace, errRead_spec hregs⟩⟩
  · have hraw : regGet (intTest s b base.toNat events) (base.toNat + 0x10)
        = regGet s (base.toNat + 0x10) ||| (events &&& natWord (intBits b)) := regGet_regSet_self _ _ _ hregs
    rw [← clear_with_events, ← hraw, statClear, regGet_congr icuFallAll_regs]
    exact regGet_regSet_self _ _ _ (regSet_wf _ _ _ hregs)
  · rw [statClear, regGet_congr icuFallAll_regs, regGet_regSet_ne _ _ _ _ ha]
    exact regGet_regSet_ne _ _ _ _ ha

end Sys2Proof.Access
end

section
/-! ### Writes of registers with an action of their own, changes of dies one after another -/
namespace Sys2Proof.Access
open Sys2Proof Sys2Proof.Machine Sys2Proof.Laws Sys2Proof.Safety
variable {s : State} {d : DieId} {a base bit : Nat} {v : Word} {b : Block}

/-- A write that the register takes is carried out. -/
theorem rowWrite_of_rowWrites {act : State → State} (h : RowWrites s b a v) : rowWrite s a v act = act s := by
  obtain ⟨⟨hopen, hsoft⟩, hb, hcond, q, hq, hv⟩ := h
  unfold rowWrite
  rw [accessWake_of_reachable hopen, hb]
  dsimp only
  rw [if_neg (by simp [hopen.1, hsoft]), hq]
  dsimp only
  rw [if_pos (by simp [hv, hcond])]

/-- A die that runs takes the command. -/
theorem onDie_of_running {f : State → State} (h : running s d = true) : onDie s d f = f s := if_pos h

/-- An event's bit of INT_RAW is set. -/
theorem getLsbD_raiseInt (hregs : registersOk s) (hbit : bit < 32) :
    (regGet (raiseInt s base bit) (base + 0x10)).getLsbD bit = true := by
  rw [(raiseInt_spec s base bit hregs).1, BitVec.getLsbD_or, BitVec.getLsbD_ofNat, Nat.testBit_two_pow_self]
  simp [hbit]

/-- A change of one die leaves everything else alone. -/
theorem sameButDie_updDie (f : Die → Die) : SameButDie d s (s.updDie d f) := ⟨rfl, fun _ he => die_updDie_ne _ _ _ _ he⟩

/-- What a change of die d brings about and no other die's change takes away holds once d has been changed. -/
theorem overDies_brings {P : State → Prop} {f : State → DieId → State} (hat : ∀ t, P (f t d)) (hkeep : ∀ t e, P t → P (f t e))
    (l : List DieId) (s : State) (h : d ∈ l ∨ P s) : P (overDies f s l) := by
  induction l generalizing s with
  | nil => exact h.resolve_left (by simp)
  | cons e l ih =>
    refine ih (f s e) ?_
    rcases h with h | h
    · rcases List.mem_cons.1 h with rfl | h
      · exact .inr (hat s)
      · exact .inl h
    · exact .inr (hkeep s e h)

/-- What no die's change takes away stays. -/
theorem overDies_keeps {P : State → Prop} {f : State → DieId → State} (hkeep : ∀ t e, P t → P (f t e)) (l : List DieId)
    (h : P s) : P (overDies f s l) := List.foldlRecOn l f h fun t ht e _ => hkeep t e ht

/-- What a change of die d makes of it stays when only its own change touches a die. -/
theorem overDies_die {P : Die → Prop} {f : State → DieId → State} (hat : ∀ t, P ((f t d).die d))
    (hother : ∀ t e, e ≠ d → (f t e).die d = t.die d) {l : List DieId} (hd : d ∈ l) (s : State) : P ((overDies f s l).die d) := by
  refine overDies_brings (P := fun t => P (t.die d)) hat (fun t e ht => ?_) l s (.inl hd)
  by_cases he : e = d
  · exact he ▸ hat t
  · exact (hother t e he).symm ▸ ht

theorem overDies_guard {f : State → DieId → State} (hf : ∀ t e, (f t e).guard = t.guard) (l : List DieId) (s : State) :
    (overDies f s l).guard = s.guard :=
  overDies_keeps (P := fun t => t.guard = s.guard) (fun t e ht => (hf t e).trans ht) l rfl

theorem get_vset {α : Type} {n : Nat} (v : Vector α n) (k j : Fin n) (a : α) :
    (vset v k a).get j = if j = k then a else v.get j := by
  show (v.set k.val a k.isLt)[j.val] = if j = k then a else v[j.val]
  rw [Vector.getElem_set]
  simp [Fin.ext_iff, eq_comm]

theorem get_map {α β : Type} {n : Nat} (f : α → β) (v : Vector α n) (j : Fin n) : (v.map f).get j = f (v.get j) :=
  Vector.getElem_map f j.isLt

end Sys2Proof.Access
end

section
/-! ### The power states of a die -/
namespace Sys2Proof.Power
open Sys2Proof Sys2Proof.Machine Sys2Proof.Laws Sys2Proof.Safety Sys2Proof.Access
variable {s : State} {d : DieId}

/-! ### The entries (R137, R494) -/

theorem exec_idleEntry (hrun : running s d = true) (hps : (s.die d).csq.ps = .run) (hidle : dieIdle (s.die d) = true)
    (hmax : 1 ≤ maxState s d) : exec (.idleEntry d) s = .next (
      if (s.die d).csq.stage = 0 then
        (if idleFor (s.die d) (idleUs s d) then entryStep s d (fun x => { x with cores := x.cores.map coreStop }) else s)
      else reachState s d .idle id) := by
  show Host.Outcome.next (onDie s d _) = _
  rw [onDie_of_running hrun, if_pos ⟨hps, hidle, hmax⟩]

theorem exec_sleepEntry_first (hrun : running s d = true) (hps : (s.die d).csq.ps = .idle) (hidle : dieIdle (s.die d) = true)
    (hmax : 2 ≤ maxState s d) (hstage : (s.die d).csq.stage = 0) (hfor : idleFor (s.die d) (sleepUs s d) = true) :
    exec (.sleepEntry d) s = .next (entryStep s d (fun x => { x with dmc := { x.dmc with pdown := true } })) := by
  show Host.Outcome.next (onDie s d _) = _
  rw [onDie_of_running hrun, if_pos ⟨hps, hidle, hmax⟩, hstage]
  exact congrArg _ (if_pos hfor)

theorem exec_sleepEntry_last (hrun : running s d = true) (hps : (s.die d).csq.ps = .idle) (hidle : dieIdle (s.die d) = true)
    (hmax : 2 ≤ maxState s d) (hstage : 2 ≤ (s.die d).csq.stage) :
    exec (.sleepEntry d) s = .next (reachState s d .sleep (fun x => { x with pll := false, pllCores := false })) := by
  obtain ⟨n, hn⟩ := Nat.exists_eq_add_of_le' hstage
  show Host.Outcome.next (onDie s d _) = _
  rw [onDie_of_running hrun, if_pos ⟨hps, hidle, hmax⟩, hn]
  rfl

/-- The die after the step of an entry or its end. -/
theorem die_entryStep (f : Die → Die) :
    (entryStep s d f).die d = updCsq (f (s.die d)) (fun q => { q with stage := q.stage + 1 }) := die_updDie_self _ _ _

theorem die_reachState (p : PowerState) (f : Die → Die) :
    (reachState s d p f).die d = updCsq (f (s.die d)) (fun q => { q with ps := p, stage := 0 }) := by
  unfold reachState
  rw [raiseInt_die, die_updDie_self]

/-- The end of an entry sets CSQ INT bit 3 (R140). -/
theorem reachState_int (hregs : registersOk s) (p : PowerState) (f : Die → Die) :
    (regGet (reachState s d p f) (dreg d Page.csq 0x10)).getLsbD 3 = true := by
  rw [← dreg_zero_add (off := 0x10)]
  exact getLsbD_raiseInt hregs (by omega)

theorem idleEntry_spec (hrun : running s d = true) (hregs : registersOk s) (hps : (s.die d).csq.ps = .run)
    (hidle : dieIdle (s.die d) = true) (hmax : 1 ≤ maxState s d) :
    ((s.die d).csq.stage = 0 → idleFor (s.die d) (idleUs s d) = true →
      ∃ t, exec (.idleEntry d) s = .next t ∧ (t.die d).csq.ps = .run ∧ (t.die d).csq.stage = 1
        ∧ (t.die d).cores = (s.die d).cores.map coreStop ∧ SameButDie d s t)
    ∧ ((s.die d).csq.stage ≠ 0 →
      ∃ t, exec (.idleEntry d) s = .next t ∧ (t.die d).csq.ps = .idle ∧ (t.die d).csq.stage = 0
        ∧ (t.die d).cores = (s.die d).cores ∧ (regGet t (dreg d Page.csq 0x10)).getLsbD 3 = true) := by
  rw [exec_idleEntry hrun hps hidle hmax]
  refine ⟨fun hstage hfor => ⟨_, rfl, ?_⟩, fun hstage => ⟨_, rfl, ?_⟩⟩
  · rw [if_pos hstage, if_pos hfor, die_entryStep]
    exact ⟨hps, congrArg (· + 1) hstage, rfl, sameButDie_updDie _⟩
  · rw [if_neg hstage, die_reachState]
    exact ⟨rfl, rfl, rfl, reachState_int hregs _ _⟩

theorem sleepEntry_spec (hrun : running s d = true) (hregs : registersOk s) (hps : (s.die d).csq.ps = .idle)
    (hidle : dieIdle (s.die d) = true) (hmax : 2 ≤ maxState s d) :
    ((s.die d).csq.stage = 0 → idleFor (s.die d) (sleepUs s d) = true →
      ∃ t, exec (.sleepEntry d) s = .next t ∧ (t.die d).csq.ps = .idle ∧ (t.die d).csq.stage = 1 ∧ (t.die d).dmc.pdown = true
        ∧ SameButDie d s t)
    ∧ (2 ≤ (s.die d).csq.stage →
      ∃ t, exec (.sleepEntry d) s = .next t ∧ (t.die d).csq.ps = .sleep ∧ (t.die d).csq.stage = 0 ∧ (t.die d).pll = false
        ∧ (t.die d).pllCores = false ∧ (t.die d).dmc = (s.die d).dmc ∧ (regGet t (dreg d Page.csq 0x10)).getLsbD 3 = true) := by
  refine ⟨fun hstage hfor => ⟨_, exec_sleepEntry_first hrun hps hidle hmax hstage hfor, ?_⟩,
    fun hstage => ⟨_, exec_sleepEntry_last hrun hps hidle hmax hstage, ?_⟩⟩
  · rw [die_entryStep]
    exact ⟨hps, congrArg (· + 1) hstage, rfl, sameButDie_updDie _⟩
  · rw [die_reachState]
    exact ⟨rfl, rfl, rfl, rfl, rfl, reachState_int hregs _ _⟩

theorem deepRequest_spec (hrun : running s d = true) (hps : (s.die d).csq.ps = .sleep) (hidle : dieIdle (s.die d) = true)
    (hmax : 3 ≤ maxState s d) (hfor : idleFor (s.die d) (deepUs s d) = true) :
    ∃ t, exec (.deepRequest d) s = .next t ∧ (t.die d).csq.deepReq = true ∧ (t.die d).csq.ps = .sleep ∧ SameButDie d s t := by
  refine ⟨_, congrArg Host.Outcome.next ((onDie_of_running hrun).trans (if_pos ⟨hps, hidle, hmax, hfor⟩)), ?_⟩
  rw [die_updDie_self]
  exact ⟨rfl, hps, sameButDie_updDie _⟩

/-! ### Waking a die (R496, R499) -/

theorem wakeX_resting {x : Die} (h : x.csq.ps ≠ .run) : wakeX x = { x with
    csq := { x.csq with ps := .run, stage := 0, deepReq := false, idleFrom := x.mon.devTime }
    cores := x.cores.map coreWake
    dmc := { x.dmc with pdown := false }
    pll := x.csq.ps == .idle && x.pll
    pllCores := false
    gated := [] } := if_neg h

theorem wakeX_entering {x : Die} (h : x.csq.ps = .run) (hstage : x.csq.stage ≠ 0) : wakeX x = { x with
    csq := { x.csq with stage := 0, idleFrom := x.mon.devTime }
    cores := x.cores.map coreWake } := (if_pos h).trans (if_neg hstage)

theorem wakeX_ps (x : Die) : (wakeX x).csq.ps = .run := by
  unfold wakeX
  split
  · next h =>
    split
    · exact h
    · exact h
  · rfl

theorem wakeAt_run (hentry : s.guard.entry = 0) (hps : (s.die d).csq.ps = .run) : wakeAt s d = s.updDie d wakeX := by
  unfold wakeAt
  rw [abandonDeep_of_no_entry hentry]
  exact if_pos hps

theorem wakeAt_resting (hentry : s.guard.entry = 0) (hps : (s.die d).csq.ps ≠ .run) :
    wakeAt s d = raiseInt (s.updDie d wakeX) (dreg d Page.csq 0) 3 := by
  unfold wakeAt
  rw [abandonDeep_of_no_entry hentry]
  exact if_neg hps

/-- Each of R497's sources that stand for work of a die wakes this die. -/
theorem exec_wake_die {w : WakeSource} (hw : w = .frame d ∨ w = .access d ∨ w = .icu d ∨ w = .work d) (hrun : running s d = true)
    (hoff : s.guard.off = false) : exec (.wake w) s = .next (wakeAt s d) := by
  have hwake : wake s w = wakeDie s d := by
    rcases hw with rfl | rfl | rfl | rfl
    · rfl
    · exact if_neg (by simp [not_deep_of_running hrun])
    · rfl
    · rfl
  show Host.Outcome.next (if s.guard.off then s else wake s w) = _
  rw [if_neg (by simp [hoff]), hwake]
  exact congrArg Host.Outcome.next (onDie_of_running hrun)

theorem wake_spec (hregs : registersOk s) (hentry : s.guard.entry = 0) {w : WakeSource}
    (hexec : exec (.wake w) s = .next (wakeAt s d)) :
    ((s.die d).csq.ps ≠ .run →
      ∃ t, exec (.wake w) s = .next t ∧ (t.die d).csq.ps = .run ∧ (t.die d).csq.stage = 0 ∧ (t.die d).dmc.pdown = false
        ∧ (t.die d).cores = (s.die d).cores.map coreWake ∧ (regGet t (dreg d Page.csq 0x10)).getLsbD 3 = true
        ∧ t.guard = s.guard ∧ ∀ e : DieId, e ≠ d → t.die e = s.die e)
    ∧ ((s.die d).csq.ps = .run → (s.die d).csq.stage ≠ 0 →
      ∃ t, exec (.wake w) s = .next t ∧ (t.die d).csq.ps = .run ∧ (t.die d).csq.stage = 0
        ∧ (t.die d).cores = (s.die d).cores.map coreWake ∧ SameButDie d s t) := by
  refine ⟨fun hps => ⟨_, hexec, ?_⟩, fun hps hstage => ⟨_, hexec, ?_⟩⟩
  · rw [wakeAt_resting hentry hps, raiseInt_die, die_updDie_self, wakeX_resting hps, ← dreg_zero_add (off := 0x10)]
    exact ⟨rfl, rfl, rfl, rfl, getLsbD_raiseInt hregs (by omega), rfl, fun e he => die_updDie_ne _ _ _ _ he⟩
  · rw [wakeAt_run hentry hps, die_updDie_self, wakeX_entering hps hstage]
    exact ⟨hps, rfl, rfl, sameButDie_updDie _⟩

/-! ### Clocks (R24, R498) -/

theorem die_setPkg (s : State) (p : Package) (d : DieId) : ({ s with pkg := p } : State).die d = s.die d := rfl

/-- The core PLL of a die reports lock, and its cores run from it. -/
def locksPll (s : State) (d : DieId) : State := s.updDie d (fun x => { x with pll := true, pllCores := true })

theorem exec_pllLock (hrun : running s d = true) (hps : (s.die d).csq.ps ≠ .sleep) :
    exec (.pllLock d) s = .next (
      if d = 0 then { locksPll s d with pkg := { (locksPll s d).pkg with clockFault := false } } else locksPll s d) := by
  show Host.Outcome.next (onDie s d _) = _
  rw [onDie_of_running hrun, if_neg hps]
  rfl

theorem pllLock_spec (hrun : running s d = true) (hps : (s.die d).csq.ps ≠ .sleep) :
    ∃ t, exec (.pllLock d) s = .next t ∧ (t.die d).pll = true ∧ (t.die d).pllCores = true
      ∧ t.pkg.clockFault = (if d = 0 then false else s.pkg.clockFault) ∧ t.regs = s.regs := by
  have hdie : (locksPll s d).die d = { s.die d with pll := true, pllCores := true } := die_updDie_self _ _ _
  refine ⟨_, exec_pllLock hrun hps, ?_⟩
  by_cases hd : d = 0
  · rw [if_pos hd, if_pos hd, die_setPkg, hdie]
    exact ⟨rfl, rfl, rfl, rfl⟩
  · rw [if_neg hd, if_neg hd, hdie]
    exact ⟨rfl, rfl, rfl, rfl⟩

theorem clockDomainRegate_spec (hrun : running s d = true) (page : Nat) :
    ∃ t, exec (.clockDomainRegate d page) s = .next t
      ∧ (t.die d).gated = (s.die d).gated.filter (· != page) ∧ SameButDie d s t := by
  refine ⟨_, congrArg Host.Outcome.next (onDie_of_running hrun), ?_⟩
  rw [die_updDie_self]
  exact ⟨rfl, sameButDie_updDie _⟩

end Sys2Proof.Power
end

section
/-! ### The power states of the package -/
namespace Sys2Proof.Power
open Sys2Proof Sys2Proof.Machine Sys2Proof.Laws Sys2Proof.Safety Sys2Proof.Access Sys2Proof.Frame
variable {s : State} {d e : DieId}

/-! ### The entry to DEEP (R495) -/

/-- Every die has asked for DEEP, and nothing keeps the package from its entry. -/
structure AsksDeep (s : State) : Prop where
  losing   : s.guard.losing = false
  off      : s.guard.off = false
  deep     : s.guard.deep = false
  shutting : s.guard.shutting = false
  starting : s.pkg.starting = false
  some     : deepDies s ≠ []
  asked    : ∀ d ∈ deepDies s, (s.die d).phase = .up ∧ (s.die d).csq.deepReq = true

theorem exec_deepEntry (h : AsksDeep s) : exec .deepEntry s
    = .next (if (deepDies s).all (fun d => dieIdle (s.die d)) then deepStep s (deepDies s) else refuseDeep s (deepDies s)) := by
  have hopen : (s.guard.off || s.guard.deep || s.guard.losing || s.guard.shutting || s.pkg.starting
      || (deepDies s).isEmpty) = false := by
    simp [h.off, h.deep, h.losing, h.shutting, h.starting, h.some]
  have hasked : (deepDies s).all (fun d => decide ((s.die d).phase = .up) && (s.die d).csq.deepReq) = true := by
    simpa using h.asked
  show Host.Outcome.next _ = _
  dsimp only
  rw [hopen, if_neg (by decide), hasked, if_neg (by decide)]
  split
  · next hidle => rw [if_neg (by simpa using hidle)]
  · next hidle => rw [if_pos (by simpa using hidle)]

theorem exec_deepEntry_idle (h : AsksDeep s) (hidle : ∀ d ∈ deepDies s, dieIdle (s.die d) = true) :
    exec .deepEntry s = .next (deepStep s (deepDies s)) := by
  rw [exec_deepEntry h, if_pos (List.all_eq_true.2 hidle)]

/-- The entry stands at step n. -/
def entryAt (n : Nat) (s : State) : State := { s with guard := { s.guard with entry := n } }

@[simp] theorem entryAt_entry (n : Nat) (s : State) : (entryAt n s).guard.entry = n := rfl
@[simp] theorem entryAt_deep (n : Nat) (s : State) : (entryAt n s).guard.deep = s.guard.deep := rfl

theorem deepStep_begin (h : s.guard.entry = 0) (ds : List DieId) : deepStep s ds = entryAt 2 s := by
  unfold deepStep
  rw [h]
  rfl

theorem deepStep_links (h : s.guard.entry = 2) (ds : List DieId) :
    deepStep s ds = if ds.all (fun d => creditsHome (s.die d)) then entryAt 3 (overDies linksDown s ds) else s := by
  unfold deepStep
  rw [h]
  rfl

theorem deepStep_dram (h : s.guard.entry = 3) (ds : List DieId) :
    deepStep s ds = entryAt 4 (overDies selfRefresh s ds) := by
  unfold deepStep
  rw [h]
  rfl

/-- The package has reached DEEP. -/
def reachedDeep (s : State) : State := { s with guard := { s.guard with deep := true, entry := 0 } }

@[simp] theorem die_reachedDeep (s : State) (d : DieId) : (reachedDeep s).die d = s.die d := rfl
@[simp] theorem die_coreRails (s : State) (mv : Nat) (d : DieId) : (coreRails s mv).die d = s.die d := by
  unfold coreRails State.die
  rfl

theorem deepStep_deep (h : s.guard.entry = 4) (ds : List DieId) :
    deepStep s ds = reachedDeep (coreRails (overDies deepDie s ds) (gfld s Page.psu 0x104 15 0)) := by
  unfold deepStep
  rw [h]
  rfl

/-! ### What each step does to a die -/

theorem portOf_updPort (p q : PortId) (f : EthPort → EthPort) :
    portOf ((updPort s d p f).die d) q = if q = p then f (portOf (s.die d) p) else portOf (s.die d) q := by
  unfold updPort portOf
  rw [die_updDie_self]
  exact get_vset _ _ _ _

theorem updPort_other (h : e ≠ d) (p : PortId) (f : EthPort → EthPort) : (updPort s d p f).die e = s.die e :=
  die_updDie_ne _ _ _ _ h

/-- A counter of a port changes no link. -/
theorem ethCount_up (p q : PortId) (off k : Nat) : (portOf ((ethCount s d p off k).die d) q).up = (portOf (s.die d) q).up := by
  unfold ethCount
  rw [portOf_updPort]
  split
  · next h => rw [h]
  · rfl

theorem portDown_other (h : e ≠ d) (p : PortId) : (portDown s d p).die e = s.die e := by
  unfold portDown
  split
  · rw [raiseInt_die, ethCount, updPort_other h, updPort_other h]
  · rfl

/-- A port that goes link-down; the other one stays as it is. -/
theorem portDown_up (p q : PortId) :
    (portOf ((portDown s d p).die d) q).up = if q = p then false else (portOf (s.die d) q).up := by
  unfold portDown
  split
  · rw [raiseInt_die, ethCount_up, portOf_updPort]
    split <;> rfl
  · next h =>
    split
    · next hq => exact hq ▸ Bool.not_eq_true _ ▸ h
    · rfl

theorem linksDown_other (h : e ≠ d) : (linksDown s d).die e = s.die e := by
  unfold linksDown
  rw [die_updDie_ne _ _ _ _ h, portDown_other h, portDown_other h]

theorem portDown_guard (p : PortId) : (portDown s d p).guard = s.guard := by
  unfold portDown
  split <;> rfl

theorem linksDown_guard : (linksDown s d).guard = s.guard := by
  unfold linksDown
  rw [updDie_guard, portDown_guard, portDown_guard]

theorem linkSleep_st (q : Swm) : (linkSleep q).st ≠ .up := by
  unfold linkSleep
  split
  · simp
  · next h => exact fun hup => h (.inl hup)

theorem portOf_setSwm (x : Die) (v : Vector Swm 3) (p : PortId) : portOf { x with swm := v } p = portOf x p := rfl

theorem linkOf_setSwm (x : Die) (v : Vector Swm 3) (k : SwmId) : linkOf { x with swm := v } k = v.get k := rfl

theorem linksDown_die : (∀ p : PortId, (portOf ((linksDown s d).die d) p).up = false)
    ∧ ∀ k : SwmId, (linkOf ((linksDown s d).die d) k).st ≠ .up := by
  unfold linksDown
  rw [die_updDie_self]
  refine ⟨fun p => ?_, fun k => ?_⟩
  · rw [portOf_setSwm, portDown_up, portDown_up]
    fin_cases p <;> rfl
  · rw [linkOf_setSwm, get_map]
    exact linkSleep_st _

theorem selfRefresh_die : ((selfRefresh s d).die d).dmc.st ≠ 2 ∧ ((selfRefresh s d).die d).dmc.pdown = false := by
  unfold selfRefresh
  rw [die_updDie_self]
  refine ⟨?_, rfl⟩
  show (if (s.die d).dmc.st = 2 then 3 else (s.die d).dmc.st) ≠ 2
  split
  · decide
  · assumption

theorem deepDie_die : ((deepDie s d).die d).csq.ps = .deep ∧ ((deepDie s d).die d).csq.deepReq = false := by
  unfold deepDie
  rw [die_reachState]
  exact ⟨rfl, rfl⟩

theorem deepDie_other (h : e ≠ d) : (deepDie s d).die e = s.die e := by
  unfold deepDie reachState
  rw [raiseInt_die, die_updDie_ne _ _ _ _ h]

theorem deepEntry_steps (h : AsksDeep s) (hidle : ∀ d ∈ deepDies s, dieIdle (s.die d) = true) :
    (s.guard.entry = 0 → ∃ t, exec .deepEntry s = .next t ∧ t.guard.entry = 2 ∧ t.guard.deep = false ∧ t.dies = s.dies)
    ∧ (s.guard.entry = 2 → (∀ d ∈ deepDies s, creditsHome (s.die d) = true) →
      ∃ t, exec .deepEntry s = .next t ∧ t.guard.entry = 3 ∧ t.guard.deep = false
        ∧ ∀ d ∈ deepDies s, (∀ p : PortId, (portOf (t.die d) p).up = false) ∧ ∀ k : SwmId, (linkOf (t.die d) k).st ≠ .up)
    ∧ (s.guard.entry = 2 → (∃ d ∈ deepDies s, creditsHome (s.die d) = false) → exec .deepEntry s = .next s)
    ∧ (s.guard.entry = 3 → ∃ t, exec .deepEntry s = .next t ∧ t.guard.entry = 4 ∧ t.guard.deep = false
        ∧ ∀ d ∈ deepDies s, (t.die d).dmc.st ≠ 2 ∧ (t.die d).dmc.pdown = false)
    ∧ (s.guard.entry = 4 → ∃ t, exec .deepEntry s = .next t ∧ t.guard.deep = true ∧ t.guard.entry = 0
        ∧ ∀ d ∈ deepDies s, (t.die d).csq.ps = .deep ∧ (t.die d).csq.deepReq = false) := by
  rw [exec_deepEntry_idle h hidle]
  refine ⟨fun h0 => ⟨_, rfl, ?_⟩, fun h2 hcred => ⟨_, rfl, ?_⟩, fun h2 hcred => ?_, fun h3 => ⟨_, rfl, ?_⟩, fun h4 => ⟨_, rfl, ?_⟩⟩
  · rw [deepStep_begin h0]
    exact ⟨rfl, h.deep, rfl⟩
  · rw [deepStep_links h2, if_pos (List.all_eq_true.2 hcred), entryAt_entry, entryAt_deep, overDies_guard fun _ _ => linksDown_guard]
    exact ⟨rfl, h.deep, fun d hd =>
      overDies_die (P := fun x => (∀ p : PortId, (portOf x p).up = false) ∧ ∀ k : SwmId, (linkOf x k).st ≠ .up)
        (fun _ => linksDown_die) (fun _ _ he => linksDown_other he.symm) hd s⟩
  · rw [deepStep_links h2, if_neg]
    obtain ⟨d, hd, hcred⟩ := hcred
    exact fun hall => by simp [List.all_eq_true.1 hall d hd] at hcred
  · rw [deepStep_dram h3, entryAt_entry, entryAt_deep, overDies_guard (f := selfRefresh) fun _ _ => rfl]
    exact ⟨rfl, h.deep, fun d hd => overDies_die (P := fun x => x.dmc.st ≠ 2 ∧ x.dmc.pdown = false)
      (fun _ => selfRefresh_die) (fun _ _ he => die_updDie_ne _ _ _ _ he.symm) hd s⟩
  · rw [deepStep_deep h4]
    refine ⟨rfl, rfl, fun d hd => ?_⟩
    rw [die_reachedDeep, die_coreRails]
    exact overDies_die (P := fun x => x.csq.ps = .deep ∧ x.csq.deepReq = false)
      (fun _ => deepDie_die) (fun _ _ he => deepDie_other he.symm) hd s

/-! ### A die with work ends the entry (R495, R496) -/

theorem undoDeepX_csq (n : Nat) (x : Die) : (undoDeepX n x).csq = x.csq := by
  unfold undoDeepX
  dsimp only
  split <;> split <;> rfl

/-- What abandoning an entry undoes on one die. -/
theorem undoDeep_csq (n : Nat) : ((undoDeep s n).die d).csq = (s.die d).csq := by
  refine overDies_keeps (P := fun t => (t.die d).csq = (s.die d).csq) (fun t e ht => ?_) _ rfl
  split
  · rw [die_updDie]
    split
    · next he => rw [undoDeepX_csq, ← he, ht]
    · exact ht
  · exact ht

theorem die_noEntry : (noEntry s).die d = s.die d := rfl

theorem abandonDeep_csq : ((abandonDeep s).die d).csq = (s.die d).csq := by
  unfold abandonDeep
  split
  · rfl
  · rw [raiseInt_die, regBump_die, die_noEntry, undoDeep_csq]

theorem undoDeep_guard_regs (n : Nat) : (undoDeep s n).guard = s.guard ∧ (undoDeep s n).regs = s.regs := by
  refine overDies_keeps (P := fun t => t.guard = s.guard ∧ t.regs = s.regs) (fun t e ht => ?_) _ ⟨rfl, rfl⟩
  split
  · exact ht
  · exact ht

/-- An entry to DEEP has been given up, and PWR_DEEP_ABORTS has counted it from the state s on. -/
structure Refused (s t : State) : Prop where
  deep  : t.guard.deep = s.guard.deep
  entry : t.guard.entry = 0
  count : regGet t (pkgBase + 0x84) = satWord ((regGet s (pkgBase + 0x84)).toNat + 1)

/-- The count of R516 with its interrupt. -/
theorem refused_counted (hregs : registersOk s) (hentry : s.guard.entry = 0) :
    Refused s (raiseInt (regBump s (pkgBase + 0x84) 1) pkgBase 1) :=
  ⟨rfl, hentry, (regGet_raiseInt_ne (by omega)).trans (regGet_regSet_self _ _ _ hregs)⟩

theorem refused_noEntry {u : State} (hguard : u.guard = s.guard) (hsame : u.regs = s.regs) (hregs : registersOk s) :
    Refused s (raiseInt (regBump (noEntry u) (pkgBase + 0x84) 1) pkgBase 1) := by
  have hregs1 : registersOk (noEntry u) := by
    unfold registersOk
    exact hsame ▸ hregs
  have h := refused_counted hregs1 rfl
  have hdeep : (noEntry u).guard.deep = s.guard.deep := by rw [← hguard]; rfl
  exact ⟨h.deep.trans hdeep, h.entry, h.count.trans (by rw [regGet_congr (t := noEntry u) (s := s) hsame])⟩

theorem refused_abandonDeep (hregs : registersOk s) (hentry : s.guard.entry ≠ 0) : Refused s (abandonDeep s) := by
  obtain ⟨hguard, hsame⟩ := undoDeep_guard_regs (s := s) s.guard.entry
  unfold abandonDeep
  rw [if_neg hentry]
  exact refused_noEntry hguard hsame hregs

theorem csqInt_ne_aborts : pkgBase + 0x84 ≠ dreg d Page.csq 0 + 0x10 := by
  have := d.isLt
  unfold pkgBase greg dreg Page.pkg Page.csq
  omega

/-- Once the entry has been given up, waking a die changes nothing of it. -/
theorem Refused.wakeAt {t : State} (h : Refused s t) : Refused s (wakeAt t d) := by
  by_cases hps : (t.die d).csq.ps = .run
  · rw [wakeAt_run h.entry hps]
    exact ⟨h.deep, h.entry, h.count⟩
  · rw [wakeAt_resting h.entry hps]
    exact ⟨h.deep, h.entry, (regGet_raiseInt_ne csqInt_ne_aborts).trans h.count⟩

theorem wakeAt_ps : ((wakeAt s d).die d).csq.ps = .run := by
  unfold Machine.wakeAt
  dsimp only
  split
  · rw [die_updDie_self]
    exact wakeX_ps _
  · rw [raiseInt_die, die_updDie_self]
    exact wakeX_ps _

/-- A die that has woken is not put to rest by another die's waking. -/
theorem wakeAt_keeps_run (h : (s.die e).csq.ps = .run) : ((wakeAt s d).die e).csq.ps = .run := by
  by_cases he : e = d
  · exact he ▸ wakeAt_ps
  · have hother : ((abandonDeep s).die e).csq.ps = .run := by rw [abandonDeep_csq, h]
    unfold Machine.wakeAt
    dsimp only
    split
    · rw [die_updDie_ne _ _ _ _ he, hother]
    · rw [raiseInt_die, die_updDie_ne _ _ _ _ he, hother]

theorem refuseDeep_spec (hregs : registersOk s) {ds : List DieId} (he : e ∈ ds) (hbusy : dieIdle (s.die e) = false) :
    Refused s (refuseDeep s ds) ∧ ((refuseDeep s ds).die e).csq.ps = .run := by
  unfold refuseDeep
  extract_lets s1
  have hs1 : Refused s s1 := by
    unfold s1
    split
    · next h => exact refused_counted hregs h
    · next h => exact refused_abandonDeep hregs h
  exact ⟨overDies_keeps (fun _ _ h => h.wakeAt) _ hs1,
    overDies_brings (P := fun t => (t.die e).csq.ps = .run) (d := e) (fun _ => wakeAt_ps) (fun _ _ h => wakeAt_keeps_run h) _ _
      (.inl (List.mem_filter.2 ⟨he, by simp [hbusy]⟩))⟩

theorem deepEntry_refused (h : AsksDeep s) (he : e ∈ deepDies s) (hbusy : dieIdle (s.die e) = false) (hregs : registersOk s) :
    ∃ t, exec .deepEntry s = .next t ∧ t.guard.deep = false ∧ t.guard.entry = 0 ∧ (t.die e).csq.ps = .run
      ∧ regGet t (pkgBase + 0x84) = satWord ((regGet s (pkgBase + 0x84)).toNat + 1) := by
  obtain ⟨href, hps⟩ := refuseDeep_spec hregs he hbusy
  refine ⟨_, ?_, href.deep.trans h.deep, href.entry, hps, href.count⟩
  rw [exec_deepEntry h, if_neg]
  exact fun hall => by simp [List.all_eq_true.1 hall e he] at hbusy

/-! ### Waking the package from DEEP (R497) -/

/-- A die that is up leaves DEEP. -/
def leaveDeep (s : State) (d : DieId) : State :=
  if decide ((s.die d).phase = .up) then raiseInt (s.updDie d wakeDeepX) (dreg d Page.csq 0) 3 else s

/-- DEEP has ended by a source, and the core rails are back at their nominal. -/
def endedDeep (s : State) (src : Option Nat) : State :=
  { s with guard := { s.guard with
      deep := false
      entry := 0
      wakeSrc := src.getD s.guard.wakeSrc
      rails := Vector.ofFn (fun n => if 8 ≤ n.val then { s.guard.rails.get n with vset := 750 } else s.guard.rails.get n) } }

theorem wakePackage_of_deep (h : s.guard.deep = true) (src : Option Nat) :
    wakePackage s src = raiseInt (endedDeep (overDies leaveDeep s allDies) src) (greg Page.pkg 0) 2 := by
  unfold wakePackage
  rw [if_pos h]
  extract_lets s1 g
  have hs1 : overDies leaveDeep s allDies = s1 := rfl
  clear_value s1
  rw [hs1]
  rfl

theorem endedDeep_guard (u : State) (src : Option Nat) :
    (endedDeep u src).guard.deep = false ∧ (endedDeep u src).guard.off = u.guard.off
      ∧ (endedDeep u src).guard.wakeSrc = src.getD u.guard.wakeSrc := by
  unfold endedDeep
  exact ⟨rfl, rfl, rfl⟩

theorem die_endedDeep (u : State) (src : Option Nat) (d : DieId) : (endedDeep u src).die d = u.die d := by
  unfold endedDeep State.die
  rfl

theorem leaveDeep_guard : (leaveDeep s d).guard = s.guard := by
  unfold leaveDeep
  split <;> rfl

theorem leaveDeep_other (h : e ≠ d) : (leaveDeep s d).die e = s.die e := by
  unfold leaveDeep
  split
  · rw [raiseInt_die, die_updDie_ne _ _ _ _ h]
  · rfl

theorem wakeDeepX_ps (x : Die) : (wakeDeepX x).csq.ps = .run := wakeX_ps x

theorem wakeDeepX_phase (x : Die) : (wakeDeepX x).phase = x.phase := Boot.wakeX_phase x

theorem leaveDeep_phase : ((leaveDeep s d).die e).phase = (s.die e).phase := by
  by_cases he : e = d
  · subst he
    unfold leaveDeep
    split
    · rw [raiseInt_die, die_updDie_self, wakeDeepX_phase]
    · rfl
  · rw [leaveDeep_other he]

theorem leaveDeep_die : ((leaveDeep s d).die d).phase = .up → ((leaveDeep s d).die d).csq.ps = .run := by
  unfold leaveDeep
  split
  · rw [raiseInt_die, die_updDie_self]
    exact fun _ => wakeDeepX_ps _
  · next h => exact fun hup => absurd (decide_eq_true hup) h

/-- The package has woken from DEEP: what of the guard stays, and every die that is up runs. -/
theorem wakePackage_spec (h : s.guard.deep = true) (src : Option Nat) :
    (wakePackage s src).guard.deep = false ∧ (wakePackage s src).guard.off = s.guard.off
      ∧ (wakePackage s src).guard.wakeSrc = src.getD s.guard.wakeSrc
      ∧ ∀ d : DieId, (s.die d).phase = .up → ((wakePackage s src).die d).csq.ps = .run := by
  have hguard : (overDies leaveDeep s allDies).guard = s.guard := overDies_guard (fun _ _ => leaveDeep_guard) _ _
  have hrun (d : DieId) (hd : (s.die d).phase = .up) : ((overDies leaveDeep s allDies).die d).csq.ps = .run := by
    have hphase : ((overDies leaveDeep s allDies).die d).phase = .up :=
      overDies_keeps (P := fun t => (t.die d).phase = .up) (fun _ _ ht => leaveDeep_phase.trans ht) _ hd
    have hps := overDies_die (P := fun x => x.phase = .up → x.csq.ps = .run) (f := leaveDeep) (fun _ => leaveDeep_die)
      (fun _ _ he => leaveDeep_other he.symm) (Boot.mem_allDies d) s
    exact hps hphase
  have hend := endedDeep_guard (overDies leaveDeep s allDies) src
  rw [hguard] at hend
  obtain ⟨hdeep, hoff, hsrc⟩ := hend
  rw [wakePackage_of_deep h, raiseInt_guard]
  refine ⟨hdeep, hoff, hsrc, fun d hd => ?_⟩
  rw [raiseInt_die, die_endedDeep, hrun d hd]

theorem rtcAlarm_spec (hoff : s.guard.off = false) (hdeep : s.guard.deep = true) (hwake : gfld s Page.pkg 0x44 1 1 = 1)
    (hset : 0 < (regGet s (pkgBase + 0x48)).toNat)
    (hcome : (regGet s (pkgBase + 0x48)).toNat * 1000000000 ≤ s.guard.devTime) :
    ∃ t, exec .rtcAlarm s = .next t ∧ t.guard.deep = false ∧ t.guard.wakeSrc = 9
      ∧ ∀ d : DieId, (s.die d).phase = .up → (t.die d).csq.ps = .run := by
  obtain ⟨h1, -, h3, h4⟩ := wakePackage_spec hdeep (some 9)
  refine ⟨wakePackage s (some 9), ?_, h1, h3, h4⟩
  show Host.Outcome.next (if _ then wake s .rtc else s) = _
  rw [if_pos ⟨hoff, by omega, hcome⟩, wake, if_pos hwake]

theorem wakeNLow_deep_spec (hoff : s.guard.off = false) (hdeep : s.guard.deep = true) {us : Nat} (hus : 10 ≤ us) :
    ∃ t, exec (.wakeNLow us) s = .next t ∧ t.guard.deep = false ∧ t.guard.wakeSrc = 7
      ∧ ∀ d : DieId, (s.die d).phase = .up → (t.die d).csq.ps = .run := by
  obtain ⟨h1, -, h3, h4⟩ := wakePackage_spec hdeep (some 7)
  refine ⟨wakePackage s (some 7), ?_, h1, h3, h4⟩
  show Host.Outcome.next (if s.guard.off then _ else if 10 ≤ us then wake s .wakeN else s) = _
  rw [if_neg (by simp [hoff]), if_pos hus, wake, if_pos hdeep]

/-! ### Commands of the package (R500, R516) -/

/-- The one defined write of PWR_PKG_CMD's two bits is always taken. -/
theorem rowWrites_pkgCmd (h : RowOpen s (pkgBase + 0x40)) (v : Word) : RowWrites s .pkgPwr (pkgBase + 0x40) v :=
  ⟨h, by decide, rfl, ⟨0x40, 1, [⟨1, 1, .w1s, 0x0, .any⟩, ⟨0, 0, .w1s, 0x0, .any⟩]⟩, by decide, rfl⟩

theorem exec_pkgWake {r : Requester} (hspace : HasSpace s r) (h : RowOpen s (pkgBase + 0x40)) :
    exec (.pkgWake r) s = .next (wakePackage s none) := by
  show Host.Outcome.next (byReq s r _) = _
  rw [byReq_of_hasSpace hspace, rowWrite_of_rowWrites (rowWrites_pkgCmd h _)]
  unfold pkgCmdWrite
  simp [bitAt]

theorem pkgWake_spec (hoff : s.guard.off = false) (hdeep : s.guard.deep = true) {r : Requester} (hspace : HasSpace s r)
    (h : RowOpen s (pkgBase + 0x40)) :
    ∃ t, exec (.pkgWake r) s = .next t ∧ t.guard.deep = false ∧ t.guard.off = false
      ∧ ∀ d : DieId, (s.die d).phase = .up → (t.die d).csq.ps = .run := by
  obtain ⟨h1, h2, -, h4⟩ := wakePackage_spec hdeep none
  exact ⟨_, exec_pkgWake hspace h, h1, h2.trans hoff, h4⟩

/-- The guard die's window does not answer in OFF. -/
theorem not_off_of_rowOpen (h : RowOpen s (pkgBase + 0x40)) : s.guard.off = false := by
  have hopen := h.1.1
  unfold windowOpen at hopen
  rw [dif_neg (by decide), if_neg (by decide)] at hopen
  simp only [Bool.and_eq_true, Bool.not_eq_true'] at hopen
  exact hopen.2

theorem exec_pkgOff {r : Requester} (hspace : HasSpace s r) (h : RowOpen s (pkgBase + 0x40)) (hlosing : s.guard.losing = false) :
    exec (.pkgOff r) s = .next (shutDown s) := by
  show Host.Outcome.next (byReq s r _) = _
  rw [byReq_of_hasSpace hspace, rowWrite_of_rowWrites (rowWrites_pkgCmd h _)]
  unfold pkgCmdWrite
  simp [bitAt, hlosing, not_off_of_rowOpen h]

/-! ### OFF (R500) -/

/-- What a die keeps on its flash. -/
def onFlash (x : Die) : List RootPage × List JRec × List Stored := (x.map.roots, x.map.journal, x.map.stored)

/-- Losing its rail takes no die from the part. -/
theorem present_ite (t : State) (e : DieId) : present (if present t e then resetDie t e .reset else t) d = present t d := by
  split <;> rfl

theorem present_diesDown : present (diesDown s) d = present s d := by
  unfold diesDown
  exact overDies_keeps (P := fun t => present t d = present s d) (fun t e ht => (present_ite t e).trans ht) allDies rfl

/-- The dies lose their rails: every die of the part is held in reset. -/
theorem diesDown_phase (hd : present s d = true) : ((diesDown s).die d).phase = .reset := by
  have hreset (t : State) (e : DieId) (h : e = d ∧ present t d = true ∨ (t.die d).phase = .reset) :
      ((if present t e then resetDie t e .reset else t).die d).phase = .reset := by
    by_cases he : e = d
    · subst he
      split
      · exact (Boot.resetDie_fresh t e).1
      · next hp => exact h.resolve_left fun h => hp h.2
    · have hkeep := h.resolve_left fun h => he h.1
      split
      · rw [Boot.resetDie_other (Ne.symm he), hkeep]
      · exact hkeep
  refine overDies_brings (P := fun t => present t d = true → (t.die d).phase = .reset) (d := d) (fun t hp => ?_)
    (fun t e ht hp => ?_) allDies s (.inl (Boot.mem_allDies d)) (present_diesDown.trans hd)
  · exact hreset t d (.inl ⟨rfl, (present_ite t d) ▸ hp⟩)
  · exact hreset t e (.inr (ht ((present_ite t e) ▸ hp)))

/-- A reset of a die leaves what is on its flash. -/
theorem onFlash_resetDie (p : DiePhase) : onFlash ((resetDie s e p).die d) = onFlash (s.die d) := by
  by_cases he : d = e
  · subst he
    have h : (resetDie s d p).die d = { freshDie (s.die d) with phase := p } := die_setDie_self _ _ _
    rw [h]
    rfl
  · rw [Boot.resetDie_other he]

theorem onFlash_diesDown : onFlash ((diesDown s).die d) = onFlash (s.die d) := by
  unfold diesDown
  refine overDies_keeps (P := fun t => onFlash (t.die d) = onFlash (s.die d)) (fun t e ht => ?_) _ rfl
  split
  · rw [onFlash_resetDie, ht]
  · exact ht

theorem wallMark_dies : (wallMark s).dies = s.dies := rfl

theorem norCut_dies : (norCut s).dies = s.dies := by
  unfold norCut
  split <;> rfl

theorem slotSwitch_dies (n : SlotId) : (slotSwitch s n false).dies = s.dies := rfl

theorem cutMinute_dies : (cutMinute s).dies = s.dies := by
  unfold cutMinute
  split <;> rfl

/-- The orderly shutdown up to the checkpoints. -/
def checkpointed (s : State) : State :=
  overDies (fun s d => if (s.die d).map.mounted then checkpoint s d else s) (stopAll (wakePackage s none))
    (upDies (wakePackage s none))

/-- From then on: the wall mark, and regulators and converters off. -/
def marked (s : State) : State :=
  railsOff (slotSwitch (slotSwitch (norCut (if running s 0 then wallMark s else s)) 0 false) 1 false)

/-- The package is in OFF. -/
def inOff (s : State) : State :=
  { s with guard := { s.guard with off := true, deep := false, entry := 0, shutting := false } }

theorem shutDown_eq : shutDown s = inOff (diesDown (cutMinute (marked (checkpointed s)))) := by
  unfold shutDown
  extract_lets s0 s1 s2 s3 s4
  have hs1 : checkpointed s = s1 := rfl
  have hs4 : diesDown (cutMinute (marked s1)) = s4 := rfl
  rw [hs1, hs4]
  clear_value s4
  rfl

theorem die_inOff : (inOff s).die d = s.die d := rfl

theorem present_inOff : present (inOff s) d = present s d := rfl

/-- The wall mark, the regulators and the minute touch no die. -/
theorem die_cutMinute_marked : (cutMinute (marked s)).die d = s.die d := by
  have h : (if running s 0 then wallMark s else s).dies = s.dies := by
    split
    · exact wallMark_dies
    · rfl
  have hall : (cutMinute (marked s)).dies = s.dies :=
    cutMinute_dies.trans ((slotSwitch_dies 1).trans ((slotSwitch_dies 0).trans (norCut_dies.trans h)))
  unfold State.die
  rw [hall]

/-- OFF holds every die of the part in reset. -/
theorem shutDown_phase (hd : present s d = true) : ((shutDown s).die d).phase = .reset := by
  have hpart : (shutDown s).part = s.part := (Kept.rfl s).shutDown.part
  have hpresent : present (shutDown s) d = true := by
    unfold present
    rw [hpart]
    exact hd
  rw [shutDown_eq, present_inOff, present_diesDown] at hpresent
  rw [shutDown_eq, die_inOff, diesDown_phase hpresent]

/-- OFF leaves on flash what the checkpoints have put there. -/
theorem onFlash_shutDown : onFlash ((shutDown s).die d) = onFlash ((checkpointed s).die d) := by
  rw [shutDown_eq, die_inOff, onFlash_diesDown, die_cutMinute_marked]

theorem pkgOff_spec {r : Requester} (hspace : HasSpace s r) (h : RowOpen s (pkgBase + 0x40)) (hlosing : s.guard.losing = false) :
    ∃ t, exec (.pkgOff r) s = .next t ∧ t.guard.off = true ∧ t.guard.deep = false
      ∧ (∀ d : DieId, present s d = true → (t.die d).phase = .reset)
      ∧ (let s0 := wakePackage s none
         let s1 := overDies (fun s d => if (s.die d).map.mounted then checkpoint s d else s) (stopAll s0) (upDies s0)
         ∀ d : DieId, (t.die d).map.roots = (s1.die d).map.roots ∧ (t.die d).map.journal = (s1.die d).map.journal
          ∧ (t.die d).map.stored = (s1.die d).map.stored) := by
  refine ⟨_, exec_pkgOff hspace h hlosing, rfl, rfl, fun d => shutDown_phase, fun d => ?_⟩
  have hflash := onFlash_shutDown (s := s) (d := d)
  simp only [onFlash, Prod.mk.injEq] at hflash
  exact hflash

theorem wakeNLow_off_spec (hoff : s.guard.off = true) {us : Nat} (hus : 1000 ≤ us) (hlow : s.guard.resetLow = true) :
    ∃ t, exec (.wakeNLow us) s = .next t ∧ t.guard.off = false ∧ t.pkg.starting = true ∧ t.pkg.startCold = true
      ∧ t.guard.devTime = 0 := by
  refine ⟨leaveReset (railsOn (powerOn s)) true 0, ?_, ?_⟩
  · show Host.Outcome.next (if s.guard.off then (if 1000 ≤ us then _ else s) else _) = _
    rw [if_pos hoff, if_pos hus]
  · rw [Boot.leaveReset_held (s := railsOn (powerOn s)) hlow true 0]
    exact ⟨rfl, rfl, rfl, rfl⟩

/-- Settles O43: a die's entries go step by step and its wake undoes them; the package's entry brings its change to every die, a
die with work ends it, and R497's sources wake every die that is up; OFF leaves the flash of the checkpoints as it is. -/
theorem powerStates : Obligations.PowerStates := by
  refine ⟨fun s d hrun hregs => ⟨idleEntry_spec hrun hregs, sleepEntry_spec hrun hregs, deepRequest_spec hrun,
    fun w hw hoff hentry => wake_spec hregs hentry (exec_wake_die hw hrun hoff), pllLock_spec hrun,
    clockDomainRegate_spec hrun⟩, fun s hlosing => ⟨fun hoff hdeep hshut hstart hsome hasked => ?_, fun hoff hdeep =>
    ⟨rtcAlarm_spec hoff hdeep, fun _ => wakeNLow_deep_spec hoff hdeep, fun _ => pkgWake_spec hoff hdeep⟩,
    fun r hspace hopen => pkgOff_spec hspace hopen hlosing, fun us hoff hus => wakeNLow_off_spec hoff hus⟩⟩
  have h : AsksDeep s := ⟨hlosing, hoff, hdeep, hshut, hstart, hsome, hasked⟩
  exact ⟨deepEntry_steps h, fun e he hbusy hregs => deepEntry_refused h he hbusy hregs⟩

end Sys2Proof.Power
end

section
/-! ### What stopping dies and delivering messages leave of the Swarm's links -/
namespace Sys2Proof.Swarm
open Sys2Proof Sys2Proof.Machine Sys2Proof.Laws Sys2Proof.Safety Sys2Proof.Boot

/-- Every credit of a link is back, and the link is held: what a reclaim comes to (R477). -/
def Reclaimed (q : Swm) : Prop := q.reqCred = 64 ∧ q.rspCred = 64 ∧ q.held = true

/-- What the stop of a die, a wake or a reclaim keeps of a link: its flits, and of one that is not down its state and a reclaim. -/
structure LinkKept (q r : Swm) : Prop where
  replay    : r.replay = q.replay
  hold      : r.hold = q.hold
  st        : q.st ≠ .down → r.st = q.st
  reclaimed : q.st ≠ .down → Reclaimed q → Reclaimed r

protected theorem LinkKept.rfl (q : Swm) : LinkKept q q := ⟨rfl, rfl, fun _ => rfl, fun _ => id⟩

protected theorem LinkKept.trans {q r u : Swm} (h : LinkKept q r) (k : LinkKept r u) : LinkKept q u := by
  have hdown (hq : q.st ≠ .down) : r.st ≠ .down := h.st hq ▸ hq
  exact ⟨k.replay.trans h.replay, k.hold.trans h.hold, fun hq => (k.st (hdown hq)).trans (h.st hq),
    fun hq hr => k.reclaimed (hdown hq) (h.reclaimed hq hr)⟩

theorem linkKept_linkReturn (q : Swm) : LinkKept q (linkReturn q) := by
  unfold linkReturn
  split
  · next h => exact ⟨rfl, rfl, fun hq => absurd h.1 hq, fun hq => absurd h.1 hq⟩
  · exact .rfl q

theorem linkKept_reclaim (q : Swm) : LinkKept q { q with reqCred := 64, rspCred := 64, held := true } :=
  ⟨rfl, rfl, fun _ => rfl, fun _ _ => ⟨rfl, rfl, rfl⟩⟩

/-- From a state to a later one every die keeps its phase and every link what `LinkKept` says. -/
structure Linked (s t : State) : Prop where
  phase : ∀ d : DieId, (t.die d).phase = (s.die d).phase
  link  : ∀ (d : DieId) (k : SwmId), LinkKept (linkOf (s.die d) k) (linkOf (t.die d) k)

variable {s0 s t : State}

protected theorem Linked.rfl (s : State) : Linked s s := ⟨fun _ => rfl, fun _ _ => .rfl _⟩

protected theorem Linked.trans (h : Linked s0 s) (k : Linked s t) : Linked s0 t :=
  ⟨fun d => (k.phase d).trans (h.phase d), fun d i => (h.link d i).trans (k.link d i)⟩

/-- Everything beside the dies may change. -/
protected theorem Linked.same (h : Linked s0 s) (e : t.dies = s.dies := by rfl) : Linked s0 t := by
  have hd (d : DieId) : t.die d = s.die d := congrArg (fun v : Vector Die 8 => v.get d) e
  exact ⟨fun d => hd d ▸ h.phase d, fun d k => hd d ▸ h.link d k⟩

protected theorem Linked.ite {p : Prop} [Decidable p] (hs : Linked s0 s) (ht : Linked s0 t) : Linked s0 (if p then s else t) := by
  split
  · exact hs
  · exact ht

protected theorem Linked.foldl {α : Type} {f : State → α → State} {l : List α} (h : Linked s0 s)
    (hf : ∀ t a, Linked s0 t → Linked s0 (f t a)) : Linked s0 (l.foldl f s) :=
  List.foldlRecOn l f h (fun t ht a _ => hf t a ht)

protected theorem Linked.foldl_fst {α β : Type} {f : State × β → α → State × β} {l : List α} {p : State × β}
    (h : Linked s0 p.1) (hf : ∀ q a, Linked s0 q.1 → Linked s0 (f q a).1) : Linked s0 (l.foldl f p).1 :=
  List.foldlRecOn (motive := fun q => Linked s0 q.1) l f h (fun q hq a _ => hf q a hq)

protected theorem Linked.overDies {f : State → DieId → State} {ds : List DieId}
    (h : Linked s0 s) (hf : ∀ t d, Linked s0 t → Linked s0 (f t d)) : Linked s0 (overDies f s ds) :=
  h.foldl (fun _ _ hu => hf _ _ hu)

/-! ### Changes of a die -/

/-- A die may change as long as its phase does not and its links keep what `LinkKept` says. -/
protected theorem Linked.setLinks {d : DieId} {x : Die} (h : Linked s0 s) (hx : x.phase = (s.die d).phase)
    (hk : ∀ k, LinkKept (linkOf (s.die d) k) (linkOf x k)) : Linked s0 (s.setDie d x) := by
  refine h.trans ⟨fun e => ?_, fun e k => ?_⟩
  · by_cases he : e = d
    · subst he
      rw [die_setDie_self, hx]
    · rw [die_setDie_ne s d e x he]
  · by_cases he : e = d
    · subst he
      rw [die_setDie_self]
      exact hk k
    · rw [die_setDie_ne s d e x he]
      exact .rfl _

protected theorem Linked.setDieOf {d : DieId} {x : Die} (h : Linked s0 s)
    (hx : x.phase = (s.die d).phase ∧ x.swm = (s.die d).swm) : Linked s0 (s.setDie d x) :=
  h.setLinks hx.1 fun k => by
    unfold linkOf
    rw [hx.2]
    exact .rfl _

protected theorem Linked.updDieOf {d : DieId} {f : Die → Die} (h : Linked s0 s)
    (hf : ∀ x, (f x).phase = x.phase ∧ (f x).swm = x.swm) : Linked s0 (s.updDie d f) := h.setDieOf (hf _)

/-- Every field of a die but its phase and its links may change, each as it depends on the die before. -/
protected theorem Linked.updDie {d : DieId} {mem : Die → List Host.Cell} {ktp : Die → Ktp} {csq : Die → Csq} {comb : Die → Comb}
    {map : Die → MapEng} {groups : Die → List Machine.Group} {fgr : Die → Fgr} {flash : Die → Flash} {cry : Die → Cry}
    {tenants : Die → List Tenant} {hashKeys : Die → List (Nat × Bytes)} {mon : Die → Monitor}
    {ports : Die → Vector EthPort 2} {rxq : Die → List RxHeld} {dmc : Die → Dmc} {bpm : Die → Bpm} {mov : Die → Mov}
    {cores : Die → Vector Core 8} {icu : Die → Icu} {out : Die → List Crossing} {bps : Die → List Bp} {thm : Die → Thm}
    {pll pllCores : Die → Bool} {gated : Die → List Nat} (h : Linked s0 s) :
    Linked s0 (s.updDie d fun x => {
      phase := x.phase, ktp := ktp x, csq := csq x, comb := comb x, map := map x, groups := groups x, fgr := fgr x,
      flash := flash x, cry := cry x, tenants := tenants x, hashKeys := hashKeys x, mon := mon x, ports := ports x,
      rxq := rxq x, dmc := dmc x, bpm := bpm x, mov := mov x, cores := cores x, icu := icu x, swm := x.swm, out := out x,
      bps := bps x, thm := thm x, pll := pll x, pllCores := pllCores x, gated := gated x, mem := mem x }) :=
  h.updDieOf fun _ => ⟨rfl, rfl⟩

@[simp] theorem foldl_swm {α : Type} (f : Die → α → Die) (l : List α) (x : Die) (hf : ∀ x a, (f x a).swm = x.swm) :
    (l.foldl f x).swm = x.swm :=
  List.foldlRecOn (motive := fun y : Die => y.swm = x.swm) l f rfl fun y hy a _ => (hf y a).trans hy

@[simp] theorem ite_swm {p : Prop} [Decidable p] (x y : Die) : (if p then x else y).swm = if p then x.swm else y.swm :=
  apply_ite Die.swm p x y

@[simp] theorem updGroup_swm (x : Die) (n : Nat) (f : Machine.Group → Machine.Group) : (updGroup x n f).swm = x.swm :=
  by rfl

@[simp] theorem validAdd_swm (x : Die) (e : Extent) : (validAdd x e).swm = x.swm := by rfl

@[simp] theorem validSub_swm (x : Die) (e : Extent) : (validSub x e).swm = x.swm := by rfl

@[simp] theorem release_swm (x : Die) (l : BitVec 56) : (release x l).swm = x.swm := by
  simp [release]

@[simp] theorem retain_swm (x : Die) (l : BitVec 56) : (retain x l).swm = x.swm := by
  simp [retain]

@[simp] theorem putPlace_swm (x : Die) (p : PageAt) : (putPlace x p).swm = x.swm := by rfl

@[simp] theorem markLeaf_swm (tenant nsid jseq : Nat) (x : Die) (index : Nat) :
    (markLeaf tenant nsid jseq x index).swm = x.swm :=
  by rfl

@[simp] theorem jAppendTo_swm (x : Die) (tenant nsid : Nat) (b : JBody) : (jAppendTo x tenant nsid b).swm = x.swm := by
  simp [jAppendTo]

@[simp] theorem takeVersion_swm (x : Die) : (takeVersion x).2.swm = x.swm := by
  simp [takeVersion]

theorem takeFree_swm {x y : Die} {st : GroupState} {qlc copy : Bool} {purpose n : Nat}
    (e : takeFree x st qlc copy purpose = some (n, y)) : y.swm = x.swm := by
  unfold takeFree at e
  split at e
  · cases e
  · cases e
    simp

@[simp] theorem kvPut_swm (x : Die) (e : BEntry) : (kvPut x e).swm = x.swm := by rfl

@[simp] theorem kvDel_swm (x : Die) (e : BEntry) : (kvDel x e).swm = x.swm := by rfl

@[simp] theorem densePut_swm (x : Die) (e : DEntry) : (densePut x e).swm = x.swm := by rfl

@[simp] theorem addStored_swm (x : Die) (r : Stored) : (addStored x r).swm = x.swm := by rfl

@[simp] theorem drainErase_swm (x : Die) (t n : Nat) (key : Bytes) (htag : BitVec 64) (bucket version : Nat)
    (old : BitVec 56) : (drainErase x t n key htag bucket version old).swm = x.swm := by
  unfold drainErase
  dsimp only
  split <;> simp

@[simp] theorem drainTrim_swm (x : Die) (t n first count : Nat) : (drainTrim x t n first count).swm = x.swm := by
  simp [drainTrim]

@[simp] theorem unmapUnits_swm (x : Die) (tenant nsid first count : Nat) :
    (unmapUnits x tenant nsid first count).swm = x.swm := by
  simp [unmapUnits]

@[simp] theorem deleteEntry_swm (x : Die) (t n : Nat) (key : Bytes) (h1 : BitVec 128) (version : Nat) :
    (deleteEntry x t n key h1 version).swm = x.swm := by
  unfold deleteEntry
  split <;> simp

@[simp] theorem eraseAnchor_swm (x : Die) (b : Nat × Nat) : (eraseAnchor x b).swm = x.swm := by rfl

theorem rootPlace_swm {d : DieId} {g c page : Nat} {y : Die} (e : rootPlace s d = some (g, c, page, y)) :
    y.swm = (s.die d).swm := by
  unfold rootPlace at e
  dsimp only at e
  split at e
  · next r hr =>
    cases e
    split at hr
    · cases hr
    · split at hr
      · cases hr
        rfl
      · cases hr
  · obtain ⟨b, hb, e⟩ := Option.map_eq_some_iff.1 e
    cases e
    simp

/-! ### Registers and draws -/

protected theorem Linked.regSet {a : Nat} {v : Word} (h : Linked s0 s) : Linked s0 (regSet s a v) := h.same

protected theorem Linked.regBump {a k : Nat} (h : Linked s0 s) : Linked s0 (regBump s a k) := h.same

protected theorem Linked.regFld {a hi lo n : Nat} (h : Linked s0 s) : Linked s0 (regFld s a hi lo n) := h.same

protected theorem Linked.raiseInt {base bit : Nat} (h : Linked s0 s) : Linked s0 (raiseInt s base bit) := h.same

protected theorem Linked.draw {n : Nat} (h : Linked s0 s) : Linked s0 { s with draws := n } := h.same

protected theorem Linked.drawBytes {n : Nat} (h : Linked s0 s) : Linked s0 (drawBytes s n).2 := h.draw

protected theorem Linked.drawChoice (h : Linked s0 s) : Linked s0 (drawChoice s).2 := h.draw

protected theorem Linked.memWrite {d : DieId} {a : Nat} {b : Bytes} (h : Linked s0 s) : Linked s0 (memWrite s d a b) := h.updDie

/-! ### Waking and reclaiming: the links -/

@[simp] theorem wakeX_swm (x : Die) : (wakeX x).swm = x.swm := by
  simp [wakeX]

/-- Undoing an entry to DEEP has the links that it took down train again. -/
theorem linkKept_undoDeepX (n : Nat) (x : Die) (k : SwmId) : LinkKept (linkOf x k) (linkOf (undoDeepX n x) k) := by
  unfold undoDeepX linkOf
  dsimp only
  split <;> split
  · rw [Access.get_map]
    exact linkKept_linkReturn _
  · rw [Access.get_map]
    exact linkKept_linkReturn _
  · exact .rfl _
  · exact .rfl _

protected theorem Linked.undoDeep {n : Nat} (h : Linked s0 s) : Linked s0 (undoDeep s n) :=
  h.overDies (fun _ _ hu => .ite (hu.setLinks (undoDeepX_phase _ _) (linkKept_undoDeepX _ _)) hu)

protected theorem Linked.noEntry (h : Linked s0 s) : Linked s0 (noEntry s) := h.same

protected theorem Linked.abandonDeep (h : Linked s0 s) : Linked s0 (abandonDeep s) := by
  unfold abandonDeep
  exact .ite h (h.undoDeep.noEntry.regBump.raiseInt)

protected theorem Linked.wakeAt {d : DieId} (h : Linked s0 s) : Linked s0 (wakeAt s d) := by
  unfold wakeAt
  extract_lets s1
  have hs1 : Linked s0 s1 := h.abandonDeep
  exact .ite (hs1.updDieOf (by simp)) ((hs1.updDieOf (by simp)).raiseInt)

protected theorem Linked.reclaimLink {d : DieId} {k : SwmId} (h : Linked s0 s) : Linked s0 (reclaimLink s d k) := by
  unfold reclaimLink updLink
  refine (h.setLinks (x := { s.die d with swm := vset _ k _ }) rfl fun j => ?_).regBump.raiseInt
  unfold linkOf
  rw [Access.get_vset]
  split
  · next hj => exact hj ▸ linkKept_reclaim _
  · exact .rfl _

/-! ### Flags -/

protected theorem Linked.recordEvent {d : DieId} {code v : Nat} (h : Linked s0 s) : Linked s0 (recordEvent s d code v) := by
  unfold recordEvent
  extract_lets _ s1 s2
  have hs1 : Linked s0 s1 := h.updDie
  have hs2 : Linked s0 s2 := hs1.regBump
  exact .ite hs1 (.ite hs2.raiseInt hs2)

protected theorem Linked.recordErr {base code off : Nat} (h : Linked s0 s) : Linked s0 (recordErr s base code off) := by
  unfold recordErr
  extract_lets s1
  have hs1 : Linked s0 s1 := .ite h.regSet.regSet.raiseInt h.regFld
  split
  · exact hs1.recordEvent
  · exact hs1

protected theorem Linked.meterAdd {d : DieId} {t1 : Nat} {f : Meter → Meter} (h : Linked s0 s) : Linked s0 (meterAdd s d t1 f) :=
  h.updDie

/-! ### Shares -/

protected theorem Linked.pipeRun {p : Pipe} {n : Nat} (h : Linked s0 s) : Linked s0 (pipeRun s p n).2 := by
  unfold pipeRun
  extract_lets
  exact h.draw

protected theorem Linked.cryBlocks {d : DieId} {n : Nat} (h : Linked s0 s) : Linked s0 (cryBlocks s d n) := by
  unfold cryBlocks
  extract_lets r _ _ q
  have hr : Linked s0 r.2 := h.drawChoice
  have hq : Linked s0 q.2 := hr.pipeRun
  exact hq.updDie

/-! ### Routes -/

protected theorem Linked.holdOut {src : DieId} {m : Crossing} (h : Linked s0 s) : Linked s0 (holdOut s src m) := h.updDie

/-! ### Reply -/

protected theorem Linked.putSess {d : DieId} {k : Session} (h : Linked s0 s) : Linked s0 (putSess s d k) := h.updDie

protected theorem Linked.delSess {d : DieId} {slot : Nat} (h : Linked s0 s) : Linked s0 (delSess s d slot) := h.updDie

protected theorem Linked.queueTx {d : DieId} {p : PortId} {t1 : TxPkt} (h : Linked s0 s) : Linked s0 (queueTx s d p t1) := h.updDie

protected theorem Linked.transmit {d : DieId} {k : Session} {ptype : Nat} {psn : Word} {retx : Bool} {body : Bytes}
    (h : Linked s0 s) : Linked s0 (transmit s d k ptype psn retx body).1 := by
  unfold transmit
  extract_lets _ _ s1
  have hs1 : Linked s0 s1 := .ite h.cryBlocks h
  split
  · split
    · exact h.putSess
    · split
      · exact h.putSess
      · exact hs1.queueTx.putSess
  · split
    · exact h.putSess
    · split
      · exact h.putSess
      · exact hs1.queueTx.putSess

protected theorem Linked.sendNow {d : DieId} {k : Session} {ptype : Nat} {body : Bytes}
    (h : Linked s0 s) : Linked s0 (sendNow s d k ptype body).1 := by
  unfold sendNow
  extract_lets r
  have hr : Linked s0 r.1 := h.transmit
  exact hr.putSess

protected theorem Linked.sendSeq {d : DieId} {k : Session} {ptype : Nat} {body : Bytes}
    (h : Linked s0 s) : Linked s0 (sendSeq s d k ptype body).1 := by
  unfold sendSeq
  split
  · exact h.sendNow
  · extract_lets
    exact h.putSess

protected theorem Linked.sendMsg {d : DieId} {k : Session} {tag : Byte} {msg : Bytes}
    (h : Linked s0 s) : Linked s0 (sendMsg s d k tag msg).1 :=
  h.foldl_fst (fun _ _ hu => hu.sendSeq)

protected theorem Linked.giveBarrier {e : DieId} {b : Barrier} (h : Linked s0 s) : Linked s0 (giveBarrier s e b) := h.wakeAt.updDie

protected theorem Linked.sendBarrier {b : Barrier} (h : Linked s0 s) : Linked s0 (sendBarrier s b) :=
  h.overDies (fun _ _ hu => .ite hu.holdOut hu.giveBarrier)

protected theorem Linked.endSession {d : DieId} {k : Session} (h : Linked s0 s) : Linked s0 (endSession s d k) := by
  unfold endSession
  extract_lets s1 s2
  have hs1 : Linked s0 s1 := h.delSess
  have hs2 : Linked s0 s2 := hs1.updDie
  exact hs2.sendBarrier.regBump.raiseInt

protected theorem Linked.terminateSession {d : DieId} {k : Session} {reason : Nat}
    (h : Linked s0 s) : Linked s0 (terminateSession s d k reason) := by
  unfold terminateSession
  extract_lets r
  have hr : Linked s0 r.1 := h.transmit
  exact hr.endSession

protected theorem Linked.terminateWhere {d : DieId} {p : Session → Bool} {reason : Nat}
    (h : Linked s0 s) : Linked s0 (terminateWhere s d p reason) :=
  h.foldl (fun _ _ hu => hu.terminateSession)

protected theorem Linked.checkNonce {d : DieId} {slot : Nat} (h : Linked s0 s) : Linked s0 (checkNonce s d slot) := by
  unfold checkNonce
  split
  · exact h
  · exact .ite h.terminateSession h

protected theorem Linked.maybeClose {d : DieId} {slot gen : Nat} (h : Linked s0 s) : Linked s0 (maybeClose s d slot gen) := by
  unfold maybeClose
  split
  · exact h
  · exact .ite h.sendSeq.checkNonce h

protected theorem Linked.countReply {d : DieId} {tenant cls arrived status inLen outLen : Nat} {sent : Bool}
    (h : Linked s0 s) : Linked s0 (countReply s d tenant cls arrived status inLen outLen sent) := by
  unfold countReply
  extract_lets _ _ _ s1 s2
  have hs1 : Linked s0 s1 := h.meterAdd
  have hs2 : Linked s0 s2 := .ite hs1.updDie hs1
  exact .ite hs2.raiseInt hs2

protected theorem Linked.replyTo {home : DieId} {slot gen : Nat} {tag : Byte}
    {tenant cls arrived inLen opcode status rflags aux version objLen : Nat} {data : Bytes} {noReply : Bool} (h : Linked s0 s) :
    Linked s0 (replyTo s home slot gen tag tenant cls arrived inLen opcode status rflags aux version objLen data noReply) := by
  unfold replyTo
  extract_lets s1
  have hs1 : Linked s0 s1 := h.countReply
  split
  · exact h.countReply
  · extract_lets s2 s3
    have hs2 : Linked s0 s2 := hs1.sendMsg
    have hs3 : Linked s0 s3 := .ite hs2.updDie hs2
    exact .ite h.countReply.putSess hs3.checkNonce

protected theorem Linked.dropCmd {d : DieId} {cid : Nat} (h : Linked s0 s) : Linked s0 (dropCmd s d cid) := h.updDie

protected theorem Linked.putCmd {d : DieId} {c : Cmd} (h : Linked s0 s) : Linked s0 (putCmd s d c) := h.updDie

protected theorem Linked.answerAbort {d : DieId} {a : Cmd} {aux : Nat} (h : Linked s0 s) : Linked s0 (answerAbort s d a aux) := by
  unfold answerAbort
  extract_lets s1
  have hs1 : Linked s0 s1 := h.updDie
  exact hs1.regBump.replyTo

protected theorem Linked.answerLate {n : Nat} {d : DieId} {n1 : Nat} (h : Linked s0 s) : Linked s0 (answerLate n s d n1) := by
  induction n generalizing s d n1 with
  | zero =>
    exact h
  | succ n ih =>
    unfold answerLate
    split
    · exact h
    · exact ih h.answerAbort

protected theorem Linked.maybeReset {d : DieId} {slot gen : Nat} (h : Linked s0 s) : Linked s0 (maybeReset s d slot gen) := by
  unfold maybeReset
  split
  · exact h
  · split
    · exact h
    · split
      · exact h
      · extract_lets _ s1 s2
        have hs1 : Linked s0 s1 := h.putSess
        have hs2 : Linked s0 s2 := hs1.updDie
        exact .ite hs2.replyTo.answerLate h

protected theorem Linked.settleSess {d : DieId} {slot gen : Nat} (h : Linked s0 s) : Linked s0 (settleSess s d slot gen) :=
  h.maybeReset.maybeClose

protected theorem Linked.afterReply {d : DieId} {slot gen cid : Nat} (h : Linked s0 s) : Linked s0 (afterReply s d slot gen cid) :=
  h.answerLate.settleSess

protected theorem Linked.finish {c : Cmd} {status aux version objLen : Nat} {data : Bytes}
    (h : Linked s0 s) : Linked s0 (finish s c status aux version objLen data) :=
  h.replyTo.afterReply

protected theorem Linked.complete {d : DieId} {c : Cmd} {status aux version objLen : Nat} {data : Bytes}
    (h : Linked s0 s) : Linked s0 (complete s d c status aux version objLen data) := by
  unfold complete
  extract_lets s1
  have hs1 : Linked s0 s1 := h.dropCmd
  exact .ite hs1.holdOut hs1.finish

protected theorem Linked.fail {d : DieId} {c : Cmd} {status : Nat} (h : Linked s0 s) : Linked s0 (fail s d c status) := h.complete

/-! ### Transport -/

protected theorem Linked.dropHdr {d : DieId} (h : Linked s0 s) : Linked s0 (dropHdr s d) := h.regBump

protected theorem Linked.sendAck {d : DieId} {slot : Nat} (h : Linked s0 s) : Linked s0 (sendAck s d slot) := by
  unfold sendAck
  split
  · exact h
  · exact h.transmit.checkNonce

protected theorem Linked.giveCmd {c : Cmd} (h : Linked s0 s) : Linked s0 (giveCmd s c) := h.wakeAt.updDie

protected theorem Linked.refuseCmd {c : Cmd} {status : Nat} (h : Linked s0 s) : Linked s0 (refuseCmd s c status) :=
  h.replyTo.afterReply

protected theorem Linked.refuseOpen {d : DieId} {p : PortId} {g : Datagram} {status : Nat}
    (h : Linked s0 s) : Linked s0 (refuseOpen s d p g status) := by
  unfold refuseOpen
  extract_lets s1 s2
  have hs1 : Linked s0 s1 := h.regBump
  have hs2 : Linked s0 s2 := .ite hs1.raiseInt hs1
  exact .ite hs2.updDie.queueTx hs2

protected theorem Linked.nextGen {d : DieId} {slot : Nat} (h : Linked s0 s) : Linked s0 (nextGen s d slot).2 := by
  unfold nextGen
  extract_lets r
  have hr : Linked s0 r.2 := h.drawBytes
  split
  · exact h
  · exact hr

protected theorem Linked.createSession {d : DieId} {p : PortId} {g : Datagram} {body : Bytes}
    (h : Linked s0 s) : Linked s0 (createSession s d p g body) := by
  unfold createSession
  extract_lets _ _ _ c _ _ gn rp rn s1 _ _ _ _ _ _ _ _ s2
  have hc : Linked s0 c.2 := h.drawChoice
  have hgn : Linked s0 gn.2 := hc.nextGen
  have hrp : Linked s0 rp.2 := hgn.drawBytes
  have hrn : Linked s0 rn.2 := hrp.drawBytes
  have hs2 : Linked s0 s2 := hrn.updDie
  exact hs2.queueTx

protected theorem Linked.openIn {d : DieId} {p : PortId} {g : Datagram} (h : Linked s0 s) : Linked s0 (openIn s d p g) := by
  unfold openIn
  extract_lets
  refine .ite h.dropHdr ?_
  split
  · exact h.queueTx
  · exact .ite h.refuseOpen (.ite h.updDie h.createSession)

protected theorem Linked.openWaiting {d : DieId} (h : Linked s0 s) : Linked s0 (openWaiting s d) :=
  h.updDie.foldl (fun _ _ hu => hu.openIn)

protected theorem Linked.entropyUpdate (h : Linked s0 s) : Linked s0 (entropyUpdate s) := by
  unfold entropyUpdate
  extract_lets _ s1 _ s2
  have hs1 : Linked s0 s1 := h.overDies (fun _ _ hu => hu.updDie)
  have hs2 : Linked s0 s2 := hs1.same
  exact .ite hs2 (hs2.overDies (fun _ _ hu => hu.openWaiting))

protected theorem Linked.actTerminate {d home : DieId} {slot gen : Nat}
    (h : Linked s0 s) : Linked s0 (actTerminate s d home slot gen) := by
  unfold actTerminate
  extract_lets _ s1
  have hs1 : Linked s0 s1 := h.updDie
  exact hs1.updDie

/-! ### Sched -/

protected theorem Linked.resetQueued {d home : DieId} {slot gen : Nat}
    (h : Linked s0 s) : Linked s0 (resetQueued s d home slot gen) := by
  unfold resetQueued
  extract_lets _ _ s1 s2
  have hs1 : Linked s0 s1 := h.updDie
  have hs2 : Linked s0 s2 := hs1.foldl (fun _ _ hu => hu.refuseCmd)
  exact hs2.foldl (fun _ _ hu => hu.fail)

protected theorem Linked.actReset {d home : DieId} {slot gen cid : Nat}
    (h : Linked s0 s) : Linked s0 (actReset s d home slot gen cid) := by
  unfold actReset
  extract_lets s1 s2 s3
  have hs1 : Linked s0 s1 := h.resetQueued
  have hs2 : Linked s0 s2 := hs1.updDie
  have hs3 : Linked s0 s3 := hs2.updDie
  exact hs3.settleSess

protected theorem Linked.flushConfirmed {home : DieId} {cid : Nat} {e : DieId}
    (h : Linked s0 s) : Linked s0 (flushConfirmed s home cid e) := by
  unfold flushConfirmed
  split
  · exact h
  · exact .ite h.fail h.putCmd

/-! ### Groups -/

protected theorem Linked.refillRescue {d : DieId} {n : Nat} (h : Linked s0 s) : Linked s0 (refillRescue s d n) := by
  induction n generalizing s with
  | zero => exact h
  | succ n ih =>
    unfold refillRescue
    extract_lets
    refine .ite ?_ h
    split
    · exact h
    · next e => exact ih (h.setDieOf ⟨takeFree_phase e, takeFree_swm e⟩)

protected theorem Linked.setSpaceStop {d : DieId} {on : Bool} (h : Linked s0 s) : Linked s0 (setSpaceStop s d on) := by
  unfold setSpaceStop
  exact .ite h h.updDie.raiseInt

protected theorem Linked.shrink {d : DieId} (h : Linked s0 s) : Linked s0 (shrink s d) := by
  unfold shrink
  extract_lets _ s1
  have hs1 : Linked s0 s1 := h.updDie
  exact .ite hs1.setSpaceStop.raiseInt h.setSpaceStop

protected theorem Linked.reportReadOnly {d : DieId} (h : Linked s0 s) : Linked s0 (reportReadOnly s d) := by
  unfold reportReadOnly
  exact .ite h h.updDie

protected theorem Linked.applyPolicy {d : DieId} (h : Linked s0 s) : Linked s0 (applyPolicy s d) := by
  unfold applyPolicy
  exact .ite h (.ite h.shrink h.reportReadOnly)

protected theorem Linked.fillRescue {d : DieId} (h : Linked s0 s) : Linked s0 (fillRescue s d) := by
  unfold fillRescue
  extract_lets s1
  have hs1 : Linked s0 s1 := h.refillRescue
  exact .ite hs1 hs1.applyPolicy

/-! ### Map -/

protected theorem Linked.drainRecord {d : DieId} {e : RingEntry} {r : Rec} {key : Bytes} {htag : BitVec 64} {bucket : Nat}
    (h : Linked s0 s) : Linked s0 (drainRecord s d e r key htag bucket) := by
  unfold drainRecord
  extract_lets loc len s1
  have hs1 : Linked s0 s1 := by
    refine h.updDieOf fun x => ?_
    simp
  refine hs1.updDieOf fun x => ?_
  dsimp only
  cases kvOf x r.tenant r.nsid key <;> simp

protected theorem Linked.drainUnit {d : DieId} {e : RingEntry} {p : Blk × Extent}
    (h : Linked s0 s) : Linked s0 (drainUnit d e s p) := by
  unfold drainUnit
  exact h.updDieOf (by simp)

protected theorem Linked.drainRun {d : DieId} {e : RingEntry} {run : List (Blk × Extent)}
    (h : Linked s0 s) : Linked s0 (drainRun d e s run) := by
  unfold drainRun
  split
  · exact h
  · exact (h.updDieOf (by simp)).foldl (fun _ _ hu => hu.drainUnit)

protected theorem Linked.drainWrite {d : DieId} {e : RingEntry} (h : Linked s0 s) : Linked s0 (drainWrite s d e).1 := by
  unfold drainWrite
  have hv (n : Nat) : (if e.through.isSome then takeVersion (s.die d) else (n, s.die d)).2.phase = (s.die d).phase
      ∧ (if e.through.isSome then takeVersion (s.die d) else (n, s.die d)).2.swm = (s.die d).swm := by
    split
    · exact ⟨takeVersion_phase _, takeVersion_swm _⟩
    · exact ⟨rfl, rfl⟩
  split
  · exact (h.setDieOf (hv _)).drainRecord
  · exact h.foldl fun _ _ hu => hu.drainRun
  · refine h.setDieOf ?_
    simp only [drainErase_phase, drainErase_swm, ite_phase, ite_swm, deleteEntry_phase, deleteEntry_swm, hv, ite_self, and_self]
  · dsimp only
    refine h.updDieOf fun x => ?_
    simp

/-! ### Roots -/

protected theorem Linked.spaceChanged {was : Nat} {d : DieId} (h : Linked s0 s) : Linked s0 (spaceChanged was s d) := by
  unfold spaceChanged
  exact .ite h h.raiseInt

protected theorem Linked.writeRoot {d : DieId} {r : Root} (h : Linked s0 s) : Linked s0 (writeRoot s d r) := by
  unfold writeRoot
  split
  · exact h
  · next y hy =>
    have hm : y.phase = (s.die d).phase ∧ y.swm = (s.die d).swm := ⟨rootPlace_phase hy, rootPlace_swm hy⟩
    extract_lets _ _ s1 s2
    have hs1 : Linked s0 s1 := h.setDieOf hm
    have hs2 : Linked s0 s2 := hs1.raiseInt.spaceChanged
    exact .ite hs2.recordErr hs2

protected theorem Linked.reRoot {d : DieId} {loss : Bool} (h : Linked s0 s) : Linked s0 (reRoot s d loss) := by
  unfold reRoot
  split
  · exact h.writeRoot
  · exact h.writeRoot

/-! ### Metering -/

protected theorem Linked.spillMeters {d : DieId} (h : Linked s0 s) : Linked s0 (spillMeters s d) := h.updDie

protected theorem Linked.loseCounts {d : DieId} (h : Linked s0 s) : Linked s0 (loseCounts s d) := by
  unfold loseCounts
  exact h.same.updDie

/-! ### Flush -/

protected theorem Linked.rescueTags {d : DieId} {g : Machine.Group} {stop : Nat} {l : List RingEntry}
    (h : Linked s0 s) : Linked s0 (rescueTags s d g stop l) := by
  unfold rescueTags
  extract_lets _ s1
  have hs1 : Linked s0 s1 := h.foldl (fun _ _ hu => hu.meterAdd)
  exact hs1.updDie

protected theorem Linked.packRescue {d : DieId} {n : Nat} {l : List RingEntry}
    (h : Linked s0 s) : Linked s0 (packRescue d n s l).2 := by
  induction n generalizing d s l with
  | zero =>
    exact h
  | succ n ih =>
    unfold packRescue
    split
    · exact h
    · split
      · exact h
      · extract_lets _ _ s1
        have hs1 : Linked s0 s1 := h.rescueTags
        exact ih hs1.updDie

protected theorem Linked.tearWrite {d : DieId} (h : Linked s0 s) : Linked s0 (tearWrite s d) := h.updDie

protected theorem Linked.flushWrite {d : DieId} {e : RingEntry} (h : Linked s0 s) : Linked s0 (flushWrite s d e) := by
  unfold flushWrite
  exact .ite h.drainWrite h.tearWrite

protected theorem Linked.stopFlash {d : DieId} (h : Linked s0 s) : Linked s0 (stopFlash s d) := h.updDie

protected theorem Linked.haltDie {d : DieId} (h : Linked s0 s) : Linked s0 (haltDie s d) := by
  unfold haltDie
  exact .ite h.stopFlash.updDie h

protected theorem Linked.flushFirst {d : DieId} {n : Nat} (h : Linked s0 s) : Linked s0 (flushFirst s d n) := by
  unfold flushFirst
  extract_lets _ p s1 s2
  have hp : Linked s0 p.2 := h.packRescue
  have hs1 : Linked s0 s1 := hp.foldl (fun _ _ hu => hu.flushWrite)
  have hs2 : Linked s0 s2 := hs1.foldl (fun _ _ hu => hu.tearWrite)
  exact hs2.updDie

protected theorem Linked.flushRing {d : DieId} (h : Linked s0 s) : Linked s0 (flushRing s d) := by
  unfold flushRing
  exact .ite h.haltDie.flushFirst h

protected theorem Linked.flushRoot {d : DieId} (h : Linked s0 s) : Linked s0 (flushRoot s d) := by
  unfold flushRoot
  exact .ite h.spillMeters.reRoot h.spillMeters

protected theorem Linked.flushDie {d : DieId} (h : Linked s0 s) : Linked s0 (flushDie s d) := h.flushRing.flushRoot

protected theorem Linked.loseRing {d : DieId} (h : Linked s0 s) : Linked s0 (loseRing s d) := by
  unfold loseRing
  exact .ite h.haltDie.flushFirst h

/-! ### HoldUp -/

protected theorem Linked.shareLimit {limit : Nat} (h : Linked s0 s) : Linked s0 (shareLimit s limit) := by
  unfold shareLimit
  extract_lets
  refine h.overDies (fun u d hu => ?_)
  extract_lets s1
  have hs1 : Linked s0 s1 := hu.updDie
  exact .ite hs1.fillRescue hs1

/-! ### Pools -/

protected theorem Linked.updPort {d : DieId} {p : PortId} {f : EthPort → EthPort} (h : Linked s0 s) : Linked s0 (updPort s d p f) :=
  h.updDie

protected theorem Linked.ethCount {d : DieId} {p : PortId} {off k : Nat} (h : Linked s0 s) : Linked s0 (ethCount s d p off k) :=
  h.updPort

protected theorem Linked.onWire {d : DieId} {p : PortId} {t1 : TxPkt} {bad : Bool}
    (h : Linked s0 s) : Linked s0 (onWire s d p t1 bad) :=
  h.updPort

protected theorem Linked.sendPfc {d : DieId} {p : PortId} {quanta : Nat} (h : Linked s0 s) : Linked s0 (sendPfc s d p quanta) := by
  unfold sendPfc
  exact .ite h (.ite h.ethCount (h.onWire.foldl (fun _ _ hu => hu.ethCount)))

protected theorem Linked.sendFrame {d : DieId} {p : PortId} {t1 : TxPkt} {bad : Bool}
    (h : Linked s0 s) : Linked s0 (sendFrame s d p t1 bad) := by
  unfold sendFrame
  extract_lets s1
  have hs1 : Linked s0 s1 := h.onWire
  exact .ite h.ethCount (.ite hs1 hs1.ethCount.ethCount)

protected theorem Linked.drainPort {d : DieId} {p : PortId} (h : Linked s0 s) : Linked s0 (drainPort s d p) :=
  h.updPort.foldl (fun _ _ hu => hu.sendFrame)

protected theorem Linked.endAll {d : DieId} (h : Linked s0 s) : Linked s0 (endAll s d) := h.terminateWhere.drainPort.drainPort

protected theorem Linked.pfcPort {d : DieId} {p : PortId} (h : Linked s0 s) : Linked s0 (pfcPort s d p) := by
  unfold pfcPort
  exact .ite h h.sendPfc.updPort

protected theorem Linked.pfcUpdate {d : DieId} (h : Linked s0 s) : Linked s0 (pfcUpdate s d) := h.pfcPort.pfcPort

protected theorem Linked.openWindows {d : DieId} (h : Linked s0 s) : Linked s0 (openWindows s d) := by
  unfold openWindows
  refine h.foldl (fun u a hu => ?_)
  split
  · exact hu
  · exact .ite hu.sendAck hu

protected theorem Linked.setPool {d : DieId} {p : Fin 16} {q : Pool} (h : Linked s0 s) : Linked s0 (setPool s d p q) := h.updDie

protected theorem Linked.settlePool {d : DieId} {p : Fin 16} {q : Pool} (h : Linked s0 s) : Linked s0 (settlePool s d p q) := by
  unfold settlePool
  extract_lets _ s1 s2 s3
  have hs1 : Linked s0 s1 := h.setPool
  have hs2 : Linked s0 s2 := .ite hs1.raiseInt hs1
  have hs3 : Linked s0 s3 := hs2.pfcUpdate
  exact .ite hs3.openWindows hs3

protected theorem Linked.bpmErr {d : DieId} {code off : Nat} (h : Linked s0 s) : Linked s0 (bpmErr s d code off) := h.recordErr

protected theorem Linked.pushBuf {d : DieId} {p : Fin 16} {a : Nat} (h : Linked s0 s) : Linked s0 (pushBuf s d p a) := by
  unfold pushBuf
  extract_lets _ s1
  have hs1 : Linked s0 s1 := h.memWrite.updDie
  exact .ite hs1.settlePool h.bpmErr

protected theorem Linked.setRefs {d : DieId} {l : List (Nat × Nat)} (h : Linked s0 s) : Linked s0 (setRefs s d l) := h.updDie

protected theorem Linked.freeBuf {d : DieId} {a : Nat} (h : Linked s0 s) : Linked s0 (freeBuf s d a) := by
  unfold freeBuf
  split
  · exact h
  · exact h.pushBuf

protected theorem Linked.dropRef {d : DieId} {a owner : Nat} (h : Linked s0 s) : Linked s0 (dropRef s d a owner) := by
  unfold dropRef
  extract_lets _ s1
  have hs1 : Linked s0 s1 := h.setRefs
  exact .ite hs1.freeBuf hs1

protected theorem Linked.sweepOwner {d : DieId} {owner : Nat} (h : Linked s0 s) : Linked s0 (sweepOwner s d owner) := by
  unfold sweepOwner
  extract_lets _ s1 s2
  have hs1 : Linked s0 s1 := h.updDie
  have hs2 : Linked s0 s2 := hs1.foldl (fun _ _ hu => hu.dropRef)
  exact hs2.regSet

protected theorem Linked.sweepDone {d : DieId} (h : Linked s0 s) : Linked s0 (sweepDone s d) := by
  unfold sweepDone
  extract_lets s1
  have hs1 : Linked s0 s1 := h.updDie
  exact hs1.regFld.raiseInt

/-! ### Faults -/

protected theorem Linked.guardBarriers {d : DieId} (h : Linked s0 s) : Linked s0 (guardBarriers s d) := by
  unfold guardBarriers
  refine h.foldl (fun u a hu => ?_)
  split
  · exact .ite hu hu.giveBarrier
  · exact hu

protected theorem Linked.handBack {d : DieId} {status : Cmd → Nat} (h : Linked s0 s) : Linked s0 (handBack s d status) := by
  unfold handBack
  extract_lets _ s1 s2
  have hs1 : Linked s0 s1 := h.guardBarriers.updDie
  have hs2 : Linked s0 s2 := hs1.overDies (fun _ _ hu => hu.updDie)
  exact hs2.foldl (fun _ _ hu => hu.finish)

protected theorem Linked.settleFlush {d home : DieId} {cid : Nat} {how : FlushEnd} {wids : List Nat}
    (h : Linked s0 s) : Linked s0 (settleFlush s d home cid how wids) := by
  unfold settleFlush
  split
  · exact h
  · exact h.putCmd.flushConfirmed

protected theorem Linked.confirmBarrier {d : DieId} {how : FlushEnd} {wids : List Nat} {b : Barrier}
    (h : Linked s0 s) : Linked s0 (confirmBarrier d how wids s b) := by
  unfold confirmBarrier
  split
  · exact h.actTerminate
  · exact h.actReset
  · exact h.settleFlush

protected theorem Linked.confirmBarriers {d : DieId} {how : FlushEnd} {acked : List Nat} {due : List Barrier}
    (h : Linked s0 s) : Linked s0 (confirmBarriers s d how acked due) := by
  unfold confirmBarriers
  extract_lets _ s1
  have hs1 : Linked s0 s1 := h.updDie
  exact (hs1.foldl (fun _ _ hu => hu.confirmBarrier)).foldl (fun _ _ hu => hu.settleFlush)

protected theorem Linked.holdLink {d : DieId} {k : SwmId} (h : Linked s0 s) : Linked s0 (holdLink d s k) := by
  unfold holdLink
  exact .ite h.reclaimLink.sweepOwner.sweepDone h

protected theorem Linked.holdLinks {d : DieId} (h : Linked s0 s) : Linked s0 (holdLinks s d) := h.foldl (fun _ _ hu => hu.holdLink)

protected theorem Linked.stopDie {d : DieId} {status : Cmd → Nat} {flush fence : Bool}
    (h : Linked s0 s) : Linked s0 (stopDie s d status flush fence) := by
  unfold stopDie
  extract_lets s0' s1 s2
  have hs0' : Linked s0 s0' := h.endAll
  have hs1 : Linked s0 s1 := hs0'.handBack
  have hs2 : Linked s0 s2 := .ite hs1.flushDie hs1.loseRing
  exact hs2.confirmBarriers.holdLinks

protected theorem Linked.placeOffline {d : DieId} (h : Linked s0 s) : Linked s0 (placeOffline s d) := by
  unfold placeOffline
  extract_lets _ s1
  have hs1 : Linked s0 s1 := h.same
  exact hs1.overDies (fun _ _ hu => hu.updDie)

protected theorem Linked.deliverOut {m : Crossing} (h : Linked s0 s) : Linked s0 (deliverOut s m) := by
  unfold deliverOut
  split
  · exact h.giveCmd
  · exact h.giveBarrier
  · exact h.finish

protected theorem Linked.releaseOne {d : DieId} {m : Crossing} (h : Linked s0 s) : Linked s0 (releaseOne d s m) := by
  unfold releaseOne
  exact .ite h.holdOut h.deliverOut

protected theorem Linked.releaseOut {d : DieId} (h : Linked s0 s) : Linked s0 (releaseOut s d) :=
  h.updDie.foldl (fun _ _ hu => hu.releaseOne)

protected theorem Linked.releaseAll (h : Linked s0 s) : Linked s0 (releaseAll s) := h.overDies (fun _ _ hu => hu.releaseOut)

end Sys2Proof.Swarm
end

section
/-! ### Swarm ports: flits, replay rounds and retirement -/
namespace Sys2Proof.Swarm
open Sys2Proof Sys2Proof.Machine Sys2Proof.Laws Sys2Proof.Safety Sys2Proof.Access
variable {s t : State} {d e : DieId} {k j : SwmId}

/-! ### A port after a change of a port -/

theorem linkOf_updLink (f : Swm → Swm) :
    linkOf ((updLink s d k f).die e) j = if e = d ∧ j = k then f (linkOf (s.die d) k) else linkOf (s.die e) j := by
  unfold updLink
  rw [die_updDie]
  by_cases he : e = d
  · subst he
    rw [if_pos rfl]
    unfold linkOf
    rw [get_vset]
    simp
  · rw [if_neg he, if_neg fun h => he h.1]

theorem linkOf_updLink_self (f : Swm → Swm) : linkOf ((updLink s d k f).die d) k = f (linkOf (s.die d) k) := by
  rw [linkOf_updLink, if_pos ⟨rfl, rfl⟩]

theorem die_updLink_ne (f : Swm → Swm) (h : e ≠ d) : (updLink s d k f).die e = s.die e := die_updDie_ne _ _ _ _ h

@[simp] theorem updLink_part (f : Swm → Swm) : (updLink s d k f).part = s.part := rfl
@[simp] theorem regGet_updLink (f : Swm → Swm) (a : Nat) : regGet (updLink s d k f) a = regGet s a := rfl

theorem registersOk_updLink {f : Swm → Swm} (h : registersOk s) : registersOk (updLink s d k f) := h

theorem regGet_regBump_self {a n : Nat} (h : registersOk s) : regGet (regBump s a n) a = satWord ((regGet s a).toNat + n) :=
  regGet_regSet_self _ _ _ h

theorem updLink_phase (f : Swm → Swm) : ((updLink s d k f).die e).phase = (s.die e).phase := by
  unfold updLink
  rw [die_updDie]
  split
  · next h => rw [h]
  · rfl

/-- Whether a die runs is a matter of its phase, the part and two fields of the guard. -/
theorem running_congr (hphase : (t.die d).phase = (s.die d).phase) (hpart : t.part = s.part) (hguard : t.guard = s.guard) :
    running t d = running s d := by
  unfold running present
  rw [hphase, hpart, hguard]

/-- The two ends of a link are on two dies (R17). -/
theorem partnerDie_ne (d : DieId) (k : SwmId) : partnerDie d k ≠ d := by
  revert d k
  decide

/-- The registers of two Swarm ports lie apart. -/
theorem swmBase_ne {off off' : Nat} (h : d ≠ e) (hoff : off < 0x10000) (hoff' : off' < 0x10000) :
    swmBase d k + off ≠ swmBase e j + off' := by
  have hv : d.val ≠ e.val := fun q => h (Fin.ext q)
  have := k.isLt
  have := j.isLt
  unfold swmBase dreg Page.swm
  omega

/-! ### The state of a link -/

theorem linkOf_setLink (st : LinkState) : linkOf ((setLink s d k st).die e) j
    = if e = d ∧ j = k then { linkOf (s.die d) k with st := st } else linkOf (s.die e) j := by
  unfold setLink
  split
  · next h =>
    split
    · next hej => rw [hej.1, hej.2, ← h]
    · rfl
  · rw [raiseInt_die, linkOf_updLink]

theorem setLink_phase (st : LinkState) : ((setLink s d k st).die e).phase = (s.die e).phase := by
  unfold setLink
  split
  · rfl
  · rw [raiseInt_die, updLink_phase]

theorem regGet_setLink {a : Nat} (st : LinkState) (h : a ≠ swmBase d k + 0x10) : regGet (setLink s d k st) a = regGet s a := by
  unfold setLink
  split
  · rfl
  · rw [regGet_raiseInt_ne h, regGet_updLink]

theorem setLink_wf (st : LinkState) (h : registersOk s) : registersOk (setLink s d k st) := by
  unfold setLink
  split
  · exact h
  · exact regSet_wf _ _ _ h

/-! ### The sender's end (R473, R474) -/

/-- A change of the sender's end of a link: its state, what it has received and whether it is held stay. -/
structure Sends (q r : Swm) : Prop where
  st        : r.st = q.st
  rxNext    : r.rxNext = q.rxNext
  switching : r.switching = q.switching
  held      : r.held = q.held
  seen      : r.seen = q.seen

protected theorem Sends.rfl (q : Swm) : Sends q q := ⟨rfl, rfl, rfl, rfl, rfl⟩

protected theorem Sends.trans {q r u : Swm} (h : Sends q r) (k : Sends r u) : Sends q u :=
  ⟨k.st.trans h.st, k.rxNext.trans h.rxNext, k.switching.trans h.switching, k.held.trans h.held, k.seen.trans h.seen⟩

theorem sends_leaveFlit (q : Swm) (f : Flit) : Sends q (leaveFlit q f) := ⟨rfl, rfl, rfl, rfl, rfl⟩

theorem sends_queueFlit (q : Swm) (f : Flit) : Sends q (queueFlit q f) := by
  unfold queueFlit
  split
  · exact sends_leaveFlit q _
  · exact ⟨rfl, rfl, rfl, rfl, rfl⟩

theorem sends_drainLink (q : Swm) : Sends q (drainLink q) :=
  List.foldlRecOn (motive := fun r => Sends q r) q.hold queueFlit ⟨rfl, rfl, rfl, rfl, rfl⟩
    fun r h f _ => h.trans (sends_queueFlit r f)

/-- All that a port's replay buffer holds, and what it sends next, follows a number. -/
def SendsAfter (n : Nat) (q : Swm) : Prop := n < q.txNext ∧ ∀ g ∈ q.replay, n < g.seq

theorem sendsAfter_queueFlit {n : Nat} {q : Swm} (f : Flit) (h : SendsAfter n q) : SendsAfter n (queueFlit q f) := by
  unfold queueFlit
  split
  · refine ⟨lt_of_lt_of_le h.1 (le_max_left _ _), fun g hg => ?_⟩
    rcases List.mem_append.1 hg with hg | hg
    · exact h.2 g hg
    · rw [List.mem_singleton.1 hg]
      exact h.1
  · exact h

theorem sendsAfter_drainLink {n : Nat} {q : Swm} (h : SendsAfter n q) : SendsAfter n (drainLink q) :=
  List.foldlRecOn (motive := SendsAfter n) q.hold queueFlit h fun _ h f _ => sendsAfter_queueFlit f h

/-- The number of a flit that has been sent is used up. -/
theorem sendFlit_txNext (q : Swm) (f : Flit) : f.seq < (sendFlit q f).txNext := by
  unfold sendFlit
  split
  · exact lt_of_lt_of_le (Nat.lt_succ_self _) (le_max_right _ _)
  · exact lt_of_lt_of_le (Nat.lt_succ_self _) (le_max_right _ _)

/-- An acknowledged flit has left the replay buffer, with all before it. -/
theorem sendsAfter_ackFlit (q : Swm) (f : Flit) : SendsAfter f.seq (ackFlit (sendFlit q f) f) := by
  refine sendsAfter_drainLink ⟨sendFlit_txNext q f, fun g hg => ?_⟩
  exact of_decide_eq_true (List.mem_filter.1 hg).2

/-- A port has a message, sent and not acknowledged or held. -/
def Carries (q : Swm) (f : Flit) : Prop :=
  ∃ g ∈ q.replay ++ q.hold, g.src = f.src ∧ g.dst = f.dst ∧ g.e2e = f.e2e ∧ g.response = f.response

/-- A message given to a port is there. -/
theorem carries_queueFlit (q : Swm) (f : Flit) : Carries (queueFlit q f) f := by
  unfold queueFlit
  split
  · exact ⟨{ f with seq := q.txNext, crcOk := true }, by simp [leaveFlit], rfl, rfl, rfl, rfl⟩
  · exact ⟨f, by simp, rfl, rfl, rfl, rfl⟩

/-- A message at a port stays when another is given to it. -/
theorem Carries.queueFlit {q : Swm} {f : Flit} (h : Carries q f) (f' : Flit) : Carries (queueFlit q f') f := by
  obtain ⟨g, hg, hf⟩ := h
  refine ⟨g, ?_, hf⟩
  unfold Machine.queueFlit
  rcases List.mem_append.1 hg with hg | hg
  · split
    · simp [leaveFlit, hg]
    · simp [hg]
  · split
    · simp [leaveFlit, hg]
    · simp [hg]

/-! ### A flit in its turn (R473, R474, R476) -/

/-- The two ends once a flit in its turn has come and has been acknowledged. -/
def flitTaken (s : State) (d : DieId) (k : SwmId) (f : Flit) : State :=
  updLink (updLink (updLink s (partnerDie d k) k (fun q => sendFlit q f)) (partnerDie d k) k (fun q => ackFlit q f)) d k
    (fun q => { q with rxNext := q.rxNext + 1 })

theorem exec_flitRx_inTurn {f : Flit} (hrun : running s d = true) (hup : (linkOf (s.die d) k).st = .up)
    (hpart : running s (partnerDie d k) = true) (hcrc : f.crcOk = true) (hseq : f.seq = (linkOf (s.die d) k).rxNext) :
    exec (.swmFlitRx d k f) s
      = .next (if f.dst = d then endToEnd (flitTaken s d k f) d k f else forwardFlit (flitTaken s d k f) d f) := by
  show Host.Outcome.next (onDie s d _) = _
  rw [onDie_of_running hrun]
  unfold flitRx
  dsimp only
  rw [if_neg (by simp [hup, hpart]), if_neg (by simp [hcrc]), if_neg (by simp [hseq])]
  rfl

/-- At the receiver's die nothing but the number expected next changes. -/
theorem linkOf_flitTaken {f : Flit} : linkOf ((flitTaken s d k f).die d) j
    = if j = k then { linkOf (s.die d) k with rxNext := (linkOf (s.die d) k).rxNext + 1 } else linkOf (s.die d) j := by
  have hne := (partnerDie_ne d k).symm
  unfold flitTaken
  rw [linkOf_updLink, die_updLink_ne _ hne, die_updLink_ne _ hne]
  simp

theorem linkOf_flitTaken_sender {f : Flit} : linkOf ((flitTaken s d k f).die (partnerDie d k)) k
    = ackFlit (sendFlit (linkOf (s.die (partnerDie d k)) k) f) f := by
  unfold flitTaken
  rw [die_updLink_ne _ (partnerDie_ne d k), linkOf_updLink_self, linkOf_updLink_self]

theorem regGet_flitTaken {f : Flit} (a : Nat) : regGet (flitTaken s d k f) a = regGet s a := by
  unfold flitTaken
  rw [regGet_updLink, regGet_updLink, regGet_updLink]

theorem flitTaken_seen {f : Flit} : (linkOf ((flitTaken s d k f).die d) j).seen = (linkOf (s.die d) j).seen := by
  rw [linkOf_flitTaken]
  split
  · next h => rw [h]
  · rfl

/-- A port has seen a message's number: the newest 32,768 of a source and destination stay known (R476). -/
def sees (q : Swm) (f : Flit) : Swm :=
  let mine := q.seen.filter (fun t => t.1 == f.src && t.2.1 == f.dst)
  let rest := q.seen.filter (fun t => !(t.1 == f.src && t.2.1 == f.dst))
  { q with seen := (f.src, f.dst, f.e2e) :: mine.take 32767 ++ rest }

theorem mem_sees (q : Swm) (f : Flit) : (f.src, f.dst, f.e2e) ∈ (sees q f).seen := List.mem_append_left _ List.mem_cons_self

/-- A message with a number not yet seen is accepted at its destination. -/
theorem endToEnd_new {f : Flit} (h : ∀ j, (f.src, f.dst, f.e2e) ∉ (linkOf (s.die d) j).seen) :
    (linkOf ((endToEnd s d k f).die d) k).seen = (sees (linkOf (s.die d) k) f).seen ∧ (endToEnd s d k f).regs = s.regs := by
  unfold endToEnd
  dsimp only
  rw [if_neg (by simpa using fun j _ => h j), linkOf_updLink_self]
  exact ⟨rfl, rfl⟩

theorem mem_allLinks (k : SwmId) : k ∈ allLinks := by
  revert k
  decide

theorem endToEnd_seen {f : Flit} (h : (f.src, f.dst, f.e2e) ∈ (linkOf (s.die d) j).seen) :
    endToEnd s d k f = regBump s (swmBase d k + 0x94) 1 := by
  unfold endToEnd
  dsimp only
  rw [if_pos (List.any_eq_true.2 ⟨j, mem_allLinks j, by simpa using h⟩)]

/-- The end-to-end check touches the die's own port and its registers alone. -/
theorem endToEnd_frame {f : Flit} : (linkOf ((endToEnd s d k f).die d) k).rxNext = (linkOf (s.die d) k).rxNext
    ∧ ∀ e, e ≠ d → (endToEnd s d k f).die e = s.die e := by
  unfold endToEnd
  dsimp only
  split
  · exact ⟨rfl, fun _ _ => rfl⟩
  · rw [linkOf_updLink_self]
    exact ⟨rfl, fun e he => die_updLink_ne _ he⟩

theorem flitRx_here {f : Flit} (hregs : registersOk s) (hrun : running s d = true) (hup : (linkOf (s.die d) k).st = .up)
    (hpart : running s (partnerDie d k) = true) (hcrc : f.crcOk = true) (hseq : f.seq = (linkOf (s.die d) k).rxNext)
    (hdst : f.dst = d) :
    ∃ t, exec (.swmFlitRx d k f) s = .next t ∧ (linkOf (t.die d) k).rxNext = (linkOf (s.die d) k).rxNext + 1
      ∧ (∀ g ∈ (linkOf (t.die (partnerDie d k)) k).replay, f.seq < g.seq)
      ∧ ((∀ j, (f.src, f.dst, f.e2e) ∉ (linkOf (s.die d) j).seen) →
          (f.src, f.dst, f.e2e) ∈ (linkOf (t.die d) k).seen ∧ t.regs = s.regs)
      ∧ (∀ j, (f.src, f.dst, f.e2e) ∈ (linkOf (s.die d) j).seen →
          (linkOf (t.die d) k).seen = (linkOf (s.die d) k).seen
            ∧ regGet t (swmBase d k + 0x94) = satWord ((regGet s (swmBase d k + 0x94)).toNat + 1)) := by
  obtain ⟨hrx, hother⟩ := endToEnd_frame (s := flitTaken s d k f) (d := d) (k := k) (f := f)
  refine ⟨endToEnd (flitTaken s d k f) d k f, ?_, ?_, ?_, fun hnew => ?_, fun j hseen => ?_⟩
  · rw [exec_flitRx_inTurn hrun hup hpart hcrc hseq, if_pos hdst]
  · rw [hrx, linkOf_flitTaken, if_pos rfl]
  · rw [hother _ (partnerDie_ne d k), linkOf_flitTaken_sender]
    exact (sendsAfter_ackFlit _ f).2
  · obtain ⟨hseen, hsame⟩ := endToEnd_new (s := flitTaken s d k f) (k := k) fun j => by rw [flitTaken_seen]; exact hnew j
    rw [hseen, hsame]
    exact ⟨mem_sees _ f, rfl⟩
  · rw [endToEnd_seen (j := j) (by rw [flitTaken_seen]; exact hseen)]
    have hr : registersOk (flitTaken s d k f) := by
      unfold flitTaken
      exact registersOk_updLink (registersOk_updLink (registersOk_updLink hregs))
    rw [regBump_die, flitTaken_seen, regGet_regBump_self hr, regGet_flitTaken]
    exact ⟨rfl, rfl⟩

/-! ### A flit for another die (R18, R20) -/

/-- Which ports lead on is a matter of the links' states. -/
theorem portNow_congr (h : ∀ j, (linkOf (t.die d) j).st = (linkOf (s.die d) j).st
    ∧ (linkOf (t.die d) j).switching = (linkOf (s.die d) j).switching) (hpart : t.part = s.part) (dst : DieId) :
    portNow t d dst = portNow s d dst := by
  have hwas (j : SwmId) : portWas t d j = portWas s d j := by
    unfold portWas portOpen
    rw [(h j).1, (h j).2, hpart]
  unfold portNow
  simp only [hwas]

theorem portNow_flitTaken {f : Flit} (dst : DieId) : portNow (flitTaken s d k f) d dst = portNow s d dst := by
  refine portNow_congr (t := flitTaken s d k f) (s := s) (fun j => ?_) rfl dst
  rw [linkOf_flitTaken]
  split
  · next h => exact h ▸ ⟨rfl, rfl⟩
  · exact ⟨rfl, rfl⟩

/-- Forwarding gives the message to the port of its route and leaves what every port of the die receives. -/
theorem forwardFlit_spec {f : Flit} : (forwardFlit s d f).regs = s.regs ∧ (forwardFlit s d f).part = s.part
    ∧ (forwardFlit s d f).guard = s.guard
    ∧ (∀ j, linkOf ((forwardFlit s d f).die d) j
        = if portNow s d f.dst = some j then queueFlit (linkOf (s.die d) j) f else linkOf (s.die d) j) := by
  unfold forwardFlit
  split
  · next h => exact ⟨rfl, rfl, rfl, fun j => by rw [if_neg (by simp [h])]⟩
  · next i h =>
    refine ⟨rfl, rfl, rfl, fun j => ?_⟩
    rw [linkOf_updLink, h]
    by_cases hj : j = i
    · rw [if_pos ⟨rfl, hj⟩, if_pos (congrArg some hj.symm), hj]
    · rw [if_neg fun q => hj q.2, if_neg fun q => hj (Option.some.inj q).symm]

theorem flitRx_forward {f : Flit} (hrun : running s d = true) (hup : (linkOf (s.die d) k).st = .up)
    (hpart : running s (partnerDie d k) = true) (hcrc : f.crcOk = true) (hseq : f.seq = (linkOf (s.die d) k).rxNext)
    (hdst : f.dst ≠ d) :
    ∃ t, exec (.swmFlitRx d k f) s = .next t ∧ (linkOf (t.die d) k).rxNext = (linkOf (s.die d) k).rxNext + 1 ∧ t.regs = s.regs
      ∧ ∀ j, portNow s d f.dst = some j → Carries (linkOf (t.die d) j) f := by
  obtain ⟨hregs, -, -, hlink⟩ := forwardFlit_spec (s := flitTaken s d k f) (d := d) (f := f)
  refine ⟨forwardFlit (flitTaken s d k f) d f, ?_, ?_, hregs, fun j hj => ?_⟩
  · rw [exec_flitRx_inTurn hrun hup hpart hcrc hseq, if_neg hdst]
  · have hrx : (linkOf ((flitTaken s d k f).die d) k).rxNext = (linkOf (s.die d) k).rxNext + 1 := by
      rw [linkOf_flitTaken, if_pos rfl]
    rw [hlink]
    split
    · rw [(sends_queueFlit _ _).rxNext, hrx]
    · exact hrx
  · rw [hlink, if_pos (by rw [portNow_flitTaken, hj])]
    exact carries_queueFlit _ _

/-! ### Replay rounds (R474, R475) -/

/-- A link of a state retrains: its end's part in it. -/
theorem retrain_link : linkOf ((retrain s d k).die d) k = { linkOf (s.die d) k with st := .training } := by
  unfold retrain
  extract_lets s1 e
  have hs1 : linkOf (s1.die d) k = { linkOf (s.die d) k with st := .training } := by
    unfold s1
    rw [regBump_die, linkOf_setLink, if_pos ⟨rfl, rfl⟩]
  split
  · rw [linkOf_setLink, if_neg fun h => partnerDie_ne d k h.1.symm, hs1]
  · exact hs1

/-- The other end's number of the flit that it expects stays. -/
theorem retrain_rxNext : (linkOf ((retrain s d k).die e) j).rxNext = (linkOf (s.die e) j).rxNext := by
  have hset (u : State) (d : DieId) (k : SwmId) (st : LinkState) :
      (linkOf ((setLink u d k st).die e) j).rxNext = (linkOf (u.die e) j).rxNext := by
    rw [linkOf_setLink]
    split
    · next h => rw [h.1, h.2]
    · rfl
  unfold retrain
  extract_lets s1 e
  have hs1 := hset s d k .training
  split
  · exact (hset s1 e k .training).trans hs1
  · exact hs1

/-- A retraining is counted, with interrupts of the two ports. -/
theorem regGet_retrain {a : Nat} (hd : a ≠ swmBase d k + 0x10) (he : a ≠ swmBase (partnerDie d k) k + 0x10)
    (hcount : a ≠ swmBase d k + 0x8C) : regGet (retrain s d k) a = regGet s a := by
  unfold retrain
  extract_lets s1 e
  have hs1 : regGet s1 a = regGet s a := (regGet_regSet_ne _ _ _ _ hcount).trans (regGet_setLink _ hd)
  split
  · exact (regGet_setLink _ he).trans hs1
  · exact hs1

theorem regGet_retrain_count (hregs : registersOk s) :
    regGet (retrain s d k) (swmBase d k + 0x8C) = satWord ((regGet s (swmBase d k + 0x8C)).toNat + 1) := by
  unfold retrain
  extract_lets s1 e
  have hs1 : regGet s1 (swmBase d k + 0x8C) = satWord ((regGet s (swmBase d k + 0x8C)).toNat + 1) := by
    have h : regGet (setLink s d k .training) (swmBase d k + 0x8C) = regGet s (swmBase d k + 0x8C) := regGet_setLink _ (by omega)
    rw [← h]
    exact regGet_regSet_self _ _ _ (setLink_wf _ hregs)
  split
  · rw [regGet_setLink _ (swmBase_ne (partnerDie_ne d k).symm (by omega) (by omega)), hs1]
  · exact hs1

/-- A round that has been counted: the sender's rounds on its flit, and SWM_REPLAYS. -/
def roundCounted (s : State) (d : DieId) (k : SwmId) (n : Nat) : State :=
  regBump (updLink s d k (fun q => { q with rounds := n })) (swmBase d k + 0x88) 1

/-- The rounds on one flit after another one. -/
def roundsNow (s : State) (d : DieId) (k : SwmId) (sameFlit : Bool) : Nat :=
  if sameFlit then (linkOf (s.die d) k).rounds + 1 else 1

theorem replayRound_eq (sameFlit : Bool) : replayRound s d k sameFlit =
    if retryRounds s d k ≤ roundsNow s d k sameFlit then
      retrain (updLink (roundCounted s d k (roundsNow s d k sameFlit)) d k (fun q => { q with rounds := 0 })) d k
    else roundCounted s d k (roundsNow s d k sameFlit) := rfl

theorem roundCounted_count (hregs : registersOk s) (n : Nat) :
    regGet (roundCounted s d k n) (swmBase d k + 0x88) = satWord ((regGet s (swmBase d k + 0x88)).toNat + 1) :=
  regGet_regSet_self _ _ _ hregs

theorem roundCounted_wf (hregs : registersOk s) (n : Nat) : registersOk (roundCounted s d k n) := regSet_wf _ _ _ hregs

/-- A replay round is counted in SWM_REPLAYS. -/
theorem replayRound_count (hregs : registersOk s) (sameFlit : Bool) :
    regGet (replayRound s d k sameFlit) (swmBase d k + 0x88) = satWord ((regGet s (swmBase d k + 0x88)).toNat + 1) := by
  rw [replayRound_eq, ← roundCounted_count hregs (roundsNow s d k sameFlit)]
  split
  · rw [regGet_retrain (by omega) (swmBase_ne (partnerDie_ne d k).symm (by omega) (by omega)) (by omega), regGet_updLink]
  · rfl

/-- A replay round at the other end of a link leaves what this end has received. -/
theorem replayRound_rxNext (sameFlit : Bool) :
    (linkOf ((replayRound s d k sameFlit).die e) j).rxNext = (linkOf (s.die e) j).rxNext := by
  have hupd (u : State) (n : Nat) :
      (linkOf ((updLink u d k (fun q => { q with rounds := n })).die e) j).rxNext = (linkOf (u.die e) j).rxNext := by
    rw [linkOf_updLink]
    split
    · next h => rw [h.1, h.2]
    · rfl
  rw [replayRound_eq]
  split
  · rw [retrain_rxNext, hupd]
    exact hupd s _
  · exact hupd s _

/-- Registers of another die's port that a replay round leaves alone. -/
theorem regGet_replayRound {off : Nat} (sameFlit : Bool) (h : e ≠ d) (hoff : off < 0x10000) (hint : off ≠ 0x10) :
    regGet (replayRound s d k sameFlit) (swmBase e k + off) = regGet s (swmBase e k + off) := by
  have hint' : swmBase e k + off ≠ swmBase (partnerDie d k) k + 0x10 := by
    by_cases he : e = partnerDie d k
    · rw [he]
      omega
    · exact swmBase_ne he hoff (by omega)
  have hcounted (n : Nat) : regGet (roundCounted s d k n) (swmBase e k + off) = regGet s (swmBase e k + off) :=
    regGet_regSet_ne _ _ _ _ (swmBase_ne h hoff (by omega))
  rw [replayRound_eq]
  split
  · rw [regGet_retrain (swmBase_ne h hoff (by omega)) hint' (swmBase_ne h hoff (by omega)), regGet_updLink, hcounted]
  · rw [hcounted]

/-- The flit is the first that waits at its sender: the replay round is one more on it. -/
def sameFirst (s : State) (d : DieId) (k : SwmId) (f : Flit) : Bool :=
  ((linkOf ((updLink s (partnerDie d k) k (fun q => sendFlit q f)).die (partnerDie d k)) k).replay.head?).all (fun g => g.seq == f.seq)

theorem exec_flitRx_bad {f : Flit} (hrun : running s d = true) (hup : (linkOf (s.die d) k).st = .up)
    (hpart : running s (partnerDie d k) = true) (hcrc : f.crcOk = false) :
    exec (.swmFlitRx d k f) s = .next (replayRound
      (regBump (updLink s (partnerDie d k) k (fun q => sendFlit q f)) (swmBase d k + 0x84) 1) (partnerDie d k) k
      (sameFirst s d k f)) := by
  show Host.Outcome.next (onDie s d _) = _
  rw [onDie_of_running hrun]
  unfold flitRx
  dsimp only
  rw [if_neg (by simp [hup, hpart]), if_pos (by simp [hcrc])]
  rfl

theorem flitRx_bad {f : Flit} (hregs : registersOk s) (hrun : running s d = true) (hup : (linkOf (s.die d) k).st = .up)
    (hpart : running s (partnerDie d k) = true) (hcrc : f.crcOk = false) :
    ∃ t, exec (.swmFlitRx d k f) s = .next t ∧ (linkOf (t.die d) k).rxNext = (linkOf (s.die d) k).rxNext
      ∧ regGet t (swmBase d k + 0x84) = satWord ((regGet s (swmBase d k + 0x84)).toNat + 1)
      ∧ regGet t (swmBase (partnerDie d k) k + 0x88) = satWord ((regGet s (swmBase (partnerDie d k) k + 0x88)).toNat + 1) := by
  have hne := (partnerDie_ne d k).symm
  have hexec := exec_flitRx_bad hrun hup hpart hcrc
  generalize sameFirst s d k f = b at hexec
  refine ⟨_, hexec, ?_, ?_, ?_⟩
  · rw [replayRound_rxNext, regBump_die, die_updLink_ne _ hne]
  · rw [regGet_replayRound _ hne (by omega) (by omega)]
    exact regGet_regSet_self _ _ _ hregs
  · have hr : registersOk (regBump (updLink s (partnerDie d k) k (fun q => sendFlit q f)) (swmBase d k + 0x84) 1) :=
      regSet_wf _ _ _ hregs
    rw [replayRound_count hr]
    congr 3
    exact regGet_regSet_ne _ _ _ _ (swmBase_ne hne.symm (by omega) (by omega))

theorem replayTimeout_spec (hregs : registersOk s) (hrun : running s d = true) (hup : (linkOf (s.die d) k).st = .up)
    (hreplay : (linkOf (s.die d) k).replay ≠ []) :
    ∃ t, exec (.swmReplayTimeout d k) s = .next t
      ∧ regGet t (swmBase d k + 0x88) = satWord ((regGet s (swmBase d k + 0x88)).toNat + 1)
      ∧ ((linkOf (s.die d) k).rounds + 1 < retryRounds s d k →
          (linkOf (t.die d) k).rounds = (linkOf (s.die d) k).rounds + 1 ∧ (linkOf (t.die d) k).st = .up)
      ∧ (retryRounds s d k ≤ (linkOf (s.die d) k).rounds + 1 →
          (linkOf (t.die d) k).st = .training
            ∧ regGet t (swmBase d k + 0x8C) = satWord ((regGet s (swmBase d k + 0x8C)).toNat + 1)) := by
  refine ⟨replayRound s d k true, ?_, replayRound_count hregs true, fun hfew => ?_, fun hmany => ?_⟩
  · show Host.Outcome.next (onDie s d _) = _
    rw [onDie_of_running hrun, if_pos ⟨hup, by simpa using hreplay⟩]
  · rw [replayRound_eq, if_neg (show ¬retryRounds s d k ≤ roundsNow s d k true from Nat.not_le.2 hfew)]
    unfold roundCounted
    rw [regBump_die, linkOf_updLink_self]
    exact ⟨rfl, hup⟩
  · rw [replayRound_eq, if_pos (show retryRounds s d k ≤ roundsNow s d k true from hmany), retrain_link,
      regGet_retrain_count (registersOk_updLink (roundCounted_wf hregs _)), regGet_updLink]
    refine ⟨rfl, ?_⟩
    congr 3
    exact regGet_regSet_ne _ _ _ _ (by omega)

end Sys2Proof.Swarm
end

section
/-! ### Swarm links that train, retire and are reclaimed -/
namespace Sys2Proof.Swarm
open Sys2Proof Sys2Proof.Machine Sys2Proof.Laws Sys2Proof.Safety Sys2Proof.Access
variable {s0 s t : State} {d e : DieId} {k j : SwmId} {r : Requester}

/-! ### Recording an error, and a register write -/

/-- What the record of an error and a register write leave: the part, the guard core, and every die's phase and ports. -/
structure Recorded (s t : State) : Prop where
  part  : t.part = s.part
  guard : t.guard = s.guard
  phase : ∀ e : DieId, (t.die e).phase = (s.die e).phase
  swm   : ∀ e : DieId, (t.die e).swm = (s.die e).swm

protected theorem Recorded.rfl (s : State) : Recorded s s := ⟨rfl, rfl, fun _ => rfl, fun _ => rfl⟩

protected theorem Recorded.trans (h : Recorded s0 s) (k : Recorded s t) : Recorded s0 t :=
  ⟨k.part.trans h.part, k.guard.trans h.guard, fun e => (k.phase e).trans (h.phase e), fun e => (k.swm e).trans (h.swm e)⟩

protected theorem Recorded.ite {p : Prop} [Decidable p] (hs : Recorded s0 s) (ht : Recorded s0 t) :
    Recorded s0 (if p then s else t) := by
  split
  · exact hs
  · exact ht

theorem recorded_regSet (s : State) (a : Nat) (v : Word) : Recorded s (regSet s a v) := ⟨rfl, rfl, fun _ => rfl, fun _ => rfl⟩

theorem recorded_raiseInt (s : State) (base bit : Nat) : Recorded s (raiseInt s base bit) := ⟨rfl, rfl, fun _ => rfl, fun _ => rfl⟩

theorem recorded_updMon (s : State) (d : DieId) (f : Die → Monitor) : Recorded s (s.updDie d fun x => { x with mon := f x }) := by
  refine ⟨rfl, rfl, fun e => ?_, fun e => ?_⟩
  · rw [die_updDie]
    split
    · next h => rw [h]
    · rfl
  · rw [die_updDie]
    split
    · next h => rw [h]
    · rfl

theorem recorded_recordEvent (s : State) (d : DieId) (code v : Nat) : Recorded s (recordEvent s d code v) := by
  unfold recordEvent
  extract_lets m s1 s2
  have hs1 : Recorded s s1 := recorded_updMon s d _
  have hs2 : Recorded s s2 := hs1.trans (recorded_regSet _ _ _)
  exact .ite hs1 (.ite (hs2.trans (recorded_raiseInt _ _ _)) hs2)

theorem recorded_recordErr (s : State) (base code off : Nat) : Recorded s (recordErr s base code off) := by
  unfold recordErr
  extract_lets s1
  have hs1 : Recorded s s1 :=
    .ite (((recorded_regSet _ _ _).trans (recorded_regSet _ _ _)).trans (recorded_raiseInt _ _ _)) (recorded_regSet _ _ _)
  split
  · exact hs1.trans (recorded_recordEvent _ _ _ _)
  · exact hs1

theorem recorded_storeReg (s : State) (a : Nat) (v : Word) : Recorded s (storeReg s a v) := by
  unfold storeReg
  split
  · exact .rfl s
  · split
    · exact .rfl s
    · unfold storeFields
      exact .ite ((recorded_regSet _ _ _).trans (recorded_recordErr _ _ _ _)) (recorded_regSet _ _ _)

theorem Recorded.link (h : Recorded s t) (d : DieId) (k : SwmId) : linkOf (t.die d) k = linkOf (s.die d) k := by
  unfold linkOf
  rw [h.swm]

theorem Recorded.running (h : Recorded s t) (d : DieId) : running t d = running s d := running_congr (h.phase d) h.part h.guard

/-! ### What cutting dies off leaves of the retired links of the others -/

/-- From a state to a later one no die has started to run, and on a die that runs a retired link stays so with its flits. -/
def Cut (s t : State) : Prop := ∀ d : DieId, (t.die d).phase = .up → (s.die d).phase = .up
  ∧ ∀ k, (linkOf (s.die d) k).st = .retired → (linkOf (t.die d) k).st = .retired
    ∧ (linkOf (t.die d) k).replay = (linkOf (s.die d) k).replay ∧ (linkOf (t.die d) k).hold = (linkOf (s.die d) k).hold

protected theorem Cut.rfl (s : State) : Cut s s := fun _ h => ⟨h, fun _ hk => ⟨hk, rfl, rfl⟩⟩

protected theorem Cut.trans (h : Cut s0 s) (g : Cut s t) : Cut s0 t := by
  intro d hup
  obtain ⟨hs, hst⟩ := g d hup
  obtain ⟨h0, hs0⟩ := h d hs
  refine ⟨h0, fun k hk => ?_⟩
  obtain ⟨hret, hreplay, hhold⟩ := hs0 k hk
  obtain ⟨hret', hreplay', hhold'⟩ := hst k hret
  exact ⟨hret', hreplay'.trans hreplay, hhold'.trans hhold⟩

protected theorem Cut.ite {p : Prop} [Decidable p] (hs : Cut s0 s) (ht : Cut s0 t) : Cut s0 (if p then s else t) := by
  split
  · exact hs
  · exact ht

protected theorem Cut.foldl {α : Type} {f : State → α → State} {l : List α} (h : Cut s0 s)
    (hf : ∀ u a, Cut u (f u a)) : Cut s0 (l.foldl f s) :=
  List.foldlRecOn (motive := Cut s0) l f h (fun u hu a _ => hu.trans (hf u a))

theorem Linked.cut (h : Linked s t) : Cut s t := by
  refine fun d hup => ⟨h.phase d ▸ hup, fun k hk => ?_⟩
  have hlink := h.link d k
  exact ⟨(hlink.st (by rw [hk]; nofun)).trans hk, hlink.replay, hlink.hold⟩

theorem die_resetDie_ne {p : DiePhase} (h : e ≠ d) : (resetDie s d p).die e = s.die e := die_setDie_ne s d e _ h

theorem die_resetDie_phase (p : DiePhase) : ((resetDie s d p).die d).phase = p := by
  show ((s.setDie d { freshDie (s.die d) with phase := p }).die d).phase = p
  rw [die_setDie_self]

theorem cut_resetDie {p : DiePhase} (hp : p ≠ .up) : Cut s (resetDie s d p) := by
  intro e hup
  by_cases he : e = d
  · subst he
    exact absurd ((die_resetDie_phase p).symm.trans hup) hp
  · rw [die_resetDie_ne he] at hup ⊢
    exact ⟨hup, fun k hk => ⟨hk, rfl, rfl⟩⟩

/-- A change of a port that is not retired. -/
theorem cut_updLink {f : Swm → Swm} (h : (linkOf (s.die d) k).st ≠ .retired) : Cut s (updLink s d k f) := by
  intro e hup
  rw [updLink_phase] at hup
  refine ⟨hup, fun i hi => ?_⟩
  have hne : ¬(e = d ∧ i = k) := by
    rintro ⟨rfl, rfl⟩
    exact h hi
  rw [linkOf_updLink, if_neg hne]
  exact ⟨hi, rfl, rfl⟩

protected theorem Cut.raiseInt {base bit : Nat} (h : Cut s0 s) : Cut s0 (raiseInt s base bit) :=
  h.trans (Linked.rfl s).raiseInt.cut

theorem cut_retireFacing : Cut s (retireFacing d s k) := by
  unfold retireFacing
  dsimp only
  split
  · next h =>
    exact (cut_updLink (by simpa using (Bool.and_eq_true_iff.1 h).2)).raiseInt
  · exact .rfl s

theorem cut_fenceDie : Cut s (fenceDie s d) := by
  unfold fenceDie
  extract_lets s1 s2 s3
  have hs1 : Cut s s1 := (Linked.rfl s).placeOffline.cut.trans (cut_resetDie nofun)
  have hs2 : Cut s s2 := hs1.foldl fun _ _ => cut_retireFacing
  exact hs2.trans (Linked.rfl s2).loseCounts.releaseAll.entropyUpdate.recordEvent.shareLimit.cut

theorem cut_cutOff : Cut s (cutOff s d) := by
  unfold cutOff
  exact .ite (.rfl s) ((Cut.ite (Linked.rfl s).stopDie.cut (.rfl s)).trans cut_fenceDie)

theorem cut_cutUnreached : Cut s (cutUnreached s) :=
  (Cut.rfl s).foldl fun u _ => (Cut.rfl u).foldl fun _ _ => cut_cutOff

/-! ### Retiring a link (R475, R491) -/

/-- The end of a link with its flits ahead of its held messages, once it is retired. -/
def IsRetired (q r : Swm) : Prop := r.st = .retired ∧ r.replay = [] ∧ r.hold = q.replay ++ q.hold

/-- The end of a link before the record of its retirement. -/
def retireMove (s : State) (d : DieId) (k : SwmId) : State :=
  updLink (setLink s d k .retired) d k
    (fun q => { q with hold := q.replay ++ q.hold, replay := [], rounds := 0, switching := true })

theorem retireEnd_of_running (hrun : running s d = true) (hst : (linkOf (s.die d) k).st ≠ .retired) :
    retireEnd s d k = recordErr (retireMove s d k) (swmBase d k) 0x80 (partnerOf d k) := if_pos (by simpa [hrun] using hst)

theorem isRetired_retireMove : IsRetired (linkOf (s.die d) k) (linkOf ((retireMove s d k).die d) k) := by
  unfold retireMove
  rw [linkOf_updLink_self, linkOf_setLink, if_pos ⟨rfl, rfl⟩]
  exact ⟨rfl, rfl, rfl⟩

/-- A port that is not retired may be retired. -/
theorem cut_retireMove (h : (linkOf (s.die d) k).st ≠ .retired) : Cut s (retireMove s d k) := by
  intro e hup
  have hphase : ((retireMove s d k).die e).phase = (s.die e).phase := (updLink_phase _).trans (setLink_phase _)
  refine ⟨hphase ▸ hup, fun i hi => ?_⟩
  have hne : ¬(e = d ∧ i = k) := by
    rintro ⟨rfl, rfl⟩
    exact h hi
  unfold retireMove
  rw [linkOf_updLink, if_neg hne, linkOf_setLink, if_neg hne]
  exact ⟨hi, rfl, rfl⟩

theorem cut_retireEnd : Cut s (retireEnd s d k) := by
  by_cases h : running s d = true ∧ (linkOf (s.die d) k).st ≠ .retired
  · rw [retireEnd_of_running h.1 h.2]
    exact (cut_retireMove h.2).trans (Linked.rfl _).recordErr.cut
  · unfold retireEnd
    rw [if_neg (by simpa using h)]
    exact .rfl s

theorem retireLink_spec (hrun : running s d = true) (hst : (linkOf (s.die d) k).st ≠ .retired)
    (hup : ((retireLink s d k).die d).phase = .up) : IsRetired (linkOf (s.die d) k) (linkOf ((retireLink s d k).die d) k) := by
  have hend : IsRetired (linkOf (s.die d) k) (linkOf ((retireEnd s d k).die d) k) := by
    rw [retireEnd_of_running hrun hst, (recorded_recordErr _ _ _ _).link]
    exact isRetired_retireMove
  obtain ⟨hret, hreplay, hhold⟩ := hend
  obtain ⟨-, hcut⟩ := (cut_retireEnd.trans cut_cutUnreached : Cut (retireEnd s d k) (retireLink s d k)) d hup
  obtain ⟨hret', hreplay', hhold'⟩ := hcut k hret
  exact ⟨hret', hreplay'.trans hreplay, hhold'.trans hhold⟩

theorem retrainFailed_spec (hrun : running s d = true) (hst : (linkOf (s.die d) k).st = .training) :
    ∃ t, exec (.swmRetrainDone d k false) s = .next t
      ∧ ((t.die d).phase = .up → IsRetired (linkOf (s.die d) k) (linkOf (t.die d) k)) := by
  refine ⟨retireLink s d k, ?_, retireLink_spec hrun (by rw [hst]; nofun)⟩
  show Host.Outcome.next (onDie s d _) = _
  rw [onDie_of_running hrun, if_pos hst, if_neg Bool.false_ne_true]

theorem swmRetire_spec {v : Word} (hrun : running s d = true) (hspace : HasSpace s r)
    (hrow : RowWrites s .swm (swmBase d k + 0x40) v) (hbit : bitAt v 0 = true) (hpart : partnerOf d k < partDies s.part)
    (hst : (linkOf (s.die d) k).st ≠ .retired) :
    ∃ t, exec (.swmRetire r d k v) s = .next t
      ∧ ((t.die d).phase = .up → IsRetired (linkOf (s.die d) k) (linkOf (t.die d) k)) := by
  have hrec := recorded_storeReg s (swmBase d k + 0x40) v
  have hlink := hrec.link d k
  refine ⟨retireLink (storeReg s (swmBase d k + 0x40) v) d k, ?_, fun hup => ?_⟩
  · show Host.Outcome.next (byReq s r _) = _
    rw [byReq_of_hasSpace hspace, if_pos hbit]
    unfold swmCfgWrite
    rw [rowWrite_of_rowWrites hrow, if_pos (by simp [hbit, hpart])]
  · have h := retireLink_spec ((hrec.running d).trans hrun) (by rwa [hlink]) hup
    rwa [hlink] at h

/-! ### Messages that waited for a route -/

/-- No die has a message that waits for a route. -/
def NoneOut (s : State) : Prop := ∀ e : DieId, (s.die e).out = []

/-- Where no message waits at its source, none is delivered. -/
theorem die_releaseAll (h : NoneOut s) (e : DieId) : (releaseAll s).die e = s.die e := by
  have hout (t : State) (d e : DieId) (ht : (t.die d).out = []) : (releaseOut t d).die e = t.die e := by
    unfold releaseOut
    rw [ht, List.foldl_nil, die_updDie]
    split
    · next he => rw [he, ← ht]
    · rfl
  exact List.foldlRecOn (motive := fun t => ∀ e, t.die e = s.die e) (upDies s) releaseOut (fun _ => rfl)
    (fun t ht d _ e => (hout t d e ((congrArg Die.out (ht d)).trans (h d))).trans (ht e)) e

theorem updLink_out (f : Swm → Swm) : ((updLink s d k f).die e).out = (s.die e).out := by
  unfold updLink
  rw [die_updDie]
  split
  · next h => rw [h]
  · rfl

theorem setLink_out (st : LinkState) : ((setLink s d k st).die e).out = (s.die e).out := by
  unfold setLink
  split
  · rfl
  · rw [raiseInt_die, updLink_out]

theorem die_setLink_ne (st : LinkState) (h : e ≠ d) : (setLink s d k st).die e = s.die e := by
  unfold setLink
  split
  · rfl
  · rw [raiseInt_die, die_updLink_ne _ h]

/-! ### Training (R474) -/

/-- One end of a link that has trained: up with its credits, and its held messages go. -/
def trainEnd (s : State) (d : DieId) (k : SwmId) : State :=
  if running s d && (linkOf (s.die d) k).st == .training then
    updLink (setLink (updLink s d k (fun q => { q with reqCred := 64, rspCred := 64, rounds := 0, held := false })) d k .up) d k
      drainLink
  else s

theorem linkTrained_eq : linkTrained s d k = releaseAll (trainEnd (trainEnd s d k) (partnerDie d k) k) := rfl

theorem die_trainEnd_ne (h : e ≠ d) : (trainEnd s d k).die e = s.die e := by
  unfold trainEnd
  split
  · rw [die_updLink_ne _ h, die_setLink_ne _ h, die_updLink_ne _ h]
  · rfl

theorem trainEnd_out : ((trainEnd s d k).die e).out = (s.die e).out := by
  unfold trainEnd
  split
  · rw [updLink_out, setLink_out, updLink_out]
  · rfl

theorem linkOf_trainEnd (hrun : running s d = true) (hst : (linkOf (s.die d) k).st = .training) :
    linkOf ((trainEnd s d k).die d) k
      = drainLink { linkOf (s.die d) k with reqCred := 64, rspCred := 64, rounds := 0, held := false, st := .up } := by
  unfold trainEnd
  rw [if_pos (by simp [hrun, hst]), linkOf_updLink_self, linkOf_setLink, if_pos ⟨rfl, rfl⟩, linkOf_updLink_self]

/-- Where nothing is held the credits stay. -/
theorem drainLink_credits {q : Swm} (h : q.hold = []) : (drainLink q).reqCred = q.reqCred ∧ (drainLink q).rspCred = q.rspCred := by
  unfold drainLink
  rw [h]
  exact ⟨rfl, rfl⟩

theorem linkTrained_spec (hrun : running s d = true) (hst : (linkOf (s.die d) k).st = .training) (hout : NoneOut s) :
    ∃ t, exec (.swmRetrainDone d k true) s = .next t ∧ (linkOf (t.die d) k).st = .up ∧ (linkOf (t.die d) k).held = false
      ∧ ((linkOf (s.die d) k).hold = [] → (linkOf (t.die d) k).reqCred = 64 ∧ (linkOf (t.die d) k).rspCred = 64) := by
  have hdie : (linkTrained s d k).die d = (trainEnd s d k).die d := by
    rw [linkTrained_eq, die_releaseAll fun e => trainEnd_out.trans (trainEnd_out.trans (hout e)),
      die_trainEnd_ne (partnerDie_ne d k).symm]
  refine ⟨linkTrained s d k, ?_, ?_⟩
  · show Host.Outcome.next (onDie s d _) = _
    rw [onDie_of_running hrun, if_pos hst, if_pos rfl]
  · rw [hdie, linkOf_trainEnd hrun hst]
    refine ⟨(sends_drainLink _).st, (sends_drainLink _).held, fun hhold => ?_⟩
    exact drainLink_credits (q := { linkOf (s.die d) k with reqCred := 64, rspCred := 64, rounds := 0, held := false, st := .up }) hhold

/-! ### The route switch (R20, R475) -/

/-- What forwarding messages from a die leaves: the part, what waits at the dies, and of the die's ports all but what they send. -/
structure Forwards (d : DieId) (s t : State) : Prop where
  part    : t.part = s.part
  out     : ∀ e : DieId, (t.die e).out = (s.die e).out
  sends   : ∀ j, Sends (linkOf (s.die d) j) (linkOf (t.die d) j)
  aside   : ∀ j, (∀ dst, portNow s d dst ≠ some j) → linkOf (t.die d) j = linkOf (s.die d) j
  carries : ∀ j f, Carries (linkOf (s.die d) j) f → Carries (linkOf (t.die d) j) f

theorem Forwards.portNow (h : Forwards d s t) (dst : DieId) : portNow t d dst = portNow s d dst :=
  portNow_congr (fun j => ⟨(h.sends j).st, (h.sends j).switching⟩) h.part dst

protected theorem Forwards.rfl (d : DieId) (s : State) : Forwards d s s :=
  ⟨rfl, fun _ => rfl, fun _ => .rfl _, fun _ _ => rfl, fun _ _ => id⟩

protected theorem Forwards.trans (h : Forwards d s0 s) (g : Forwards d s t) : Forwards d s0 t := by
  refine ⟨g.part.trans h.part, fun e => (g.out e).trans (h.out e), fun j => (h.sends j).trans (g.sends j), fun j hj => ?_,
    fun j f hf => g.carries j f (h.carries j f hf)⟩
  exact (g.aside j fun dst => h.portNow dst ▸ hj dst).trans (h.aside j hj)

theorem forwards_forwardFlit (f : Flit) : Forwards d s (forwardFlit s d f) := by
  obtain ⟨-, hpart, -, hlink⟩ := forwardFlit_spec (s := s) (d := d) (f := f)
  refine ⟨hpart, fun e => ?_, fun j => ?_, fun j hj => ?_, fun j f' hf => ?_⟩
  · unfold forwardFlit
    split
    · rfl
    · exact updLink_out _
  · rw [hlink]
    split
    · exact sends_queueFlit _ _
    · exact .rfl _
  · rw [hlink, if_neg (hj _)]
  · rw [hlink]
    split
    · exact hf.queueFlit f
    · exact hf

/-- Messages given to their routes one after another are all there. -/
theorem forwardAll_spec (l : List Flit) : ∀ s : State, Forwards d s (l.foldl (fun s f => forwardFlit s d f) s)
    ∧ ∀ f ∈ l, ∀ j, portNow s d f.dst = some j → Carries (linkOf ((l.foldl (fun s f => forwardFlit s d f) s).die d) j) f := by
  induction l with
  | nil => exact fun s => ⟨.rfl d s, nofun⟩
  | cons g l ih =>
    intro s
    have hone : Forwards d s (forwardFlit s d g) := forwards_forwardFlit g
    obtain ⟨hrest, hall⟩ := ih (forwardFlit s d g)
    refine ⟨hone.trans hrest, fun f hf j hj => ?_⟩
    rcases List.mem_cons.1 hf with rfl | hf
    · refine hrest.carries j f ?_
      obtain ⟨-, -, -, hlink⟩ := forwardFlit_spec (s := s) (d := d) (f := f)
      rw [hlink, if_pos hj]
      exact carries_queueFlit _ _
    · exact hall f hf j ((hone.portNow f.dst).trans hj)

/-- No route leads through a port that is closed. -/
theorem portNow_ne {dst : DieId} (h : portWas s d j = false) : portNow s d dst ≠ some j := by
  unfold portNow
  dsimp only
  split
  · next i hi =>
    rintro ⟨⟩
    have := List.find?_some hi
    simp [h] at this
  · intro hj
    have := List.find?_some hj
    simp [h] at this

/-- Where no port switches, the route now is the one of the open ports. -/
theorem portNow_eq_nextPort {dst : DieId} (h : ∀ j, portWas t d j = portOpen s d j) : portNow t d dst = nextPort s d dst := by
  unfold portNow nextPort
  simp only [h]

/-- The die as its held messages of a retired port leave it. -/
def switched (s : State) (d : DieId) (k : SwmId) : State := updLink s d k (fun q => { q with hold := [], switching := false })

theorem switched_portWas (hst : (linkOf (s.die d) k).st = .retired) (hsw : ∀ i, i ≠ k → (linkOf (s.die d) i).switching = false)
    (j : SwmId) : portWas (switched s d k) d j = portOpen s d j := by
  unfold switched portWas portOpen
  rw [linkOf_updLink, updLink_part]
  by_cases hj : j = k
  · rw [if_pos ⟨rfl, hj⟩, hj, hst, Bool.false_and, Bool.or_false]
  · rw [if_neg fun h => hj h.2, hsw j hj, Bool.false_and, Bool.or_false]

theorem switched_closed (hst : (linkOf (s.die d) k).st = .retired) : portWas (switched s d k) d k = false := by
  unfold portWas portOpen switched
  rw [linkOf_updLink_self]
  simp [hst]

theorem routeSwitch_spec (hrun : running s d = true) (hst : (linkOf (s.die d) k).st = .retired) (hout : NoneOut s) :
    ∃ t, exec (.swmRouteSwitch d k) s = .next t ∧ (linkOf (t.die d) k).hold = [] ∧ (linkOf (t.die d) k).switching = false
      ∧ ((∀ i, i ≠ k → (linkOf (s.die d) i).switching = false) → ∀ f ∈ (linkOf (s.die d) k).hold,
          ∀ j, nextPort s d f.dst = some j → Carries (linkOf (t.die d) j) f) := by
  obtain ⟨hfwd, hall⟩ := forwardAll_spec (d := d) (linkOf (s.die d) k).hold (switched s d k)
  refine ⟨releaseAll ((linkOf (s.die d) k).hold.foldl (fun s f => forwardFlit s d f) (switched s d k)), ?_, ?_⟩
  · show Host.Outcome.next (onDie s d _) = _
    rw [onDie_of_running hrun, if_pos hst]
    rfl
  · rw [die_releaseAll fun e => (hfwd.out e).trans ((updLink_out _).trans (hout e))]
    have haside := hfwd.aside k fun dst => portNow_ne (switched_closed hst)
    have hclear : linkOf ((switched s d k).die d) k = { linkOf (s.die d) k with hold := [], switching := false } :=
      linkOf_updLink_self _
    rw [haside, hclear]
    exact ⟨rfl, rfl, fun hsw f hf j hj => hall f hf j ((portNow_eq_nextPort (switched_portWas hst hsw)).trans hj)⟩

/-! ### A credit debt that stays (R477, R491) -/

theorem phase_of_running (h : running s d = true) : (s.die d).phase = .up := by
  unfold running at h
  simp only [Bool.and_eq_true, decide_eq_true_eq] at h
  exact h.1.1.2

theorem faultable_congr (hphase : (t.die d).phase = (s.die d).phase) (hpart : t.part = s.part) (hguard : t.guard = s.guard) :
    faultable t d = faultable s d := by
  unfold faultable present resetBlocked
  rw [hphase, hpart, hguard]

theorem secondFault_congr (hphase : (t.die d).phase = (s.die d).phase) (hguard : t.guard = s.guard) :
    secondFault t d = secondFault s d := by
  unfold secondFault
  rw [hphase, hguard]

/-- A die that is unresponsive for the first time is reset; every other die's links stay. -/
theorem dieFault_unresponsive (hd : d ≠ 0) (hfault : faultable s d = true) (hfirst : secondFault s d = false)
    (hphase : (s.die d).phase ≠ .reset) :
    ((dieFault s d .unresponsive).die d).phase = .dieReset
      ∧ ∀ e k, e ≠ d → LinkKept (linkOf (s.die e) k) (linkOf ((dieFault s d .unresponsive).die e) k) := by
  unfold dieFault
  rw [if_neg hd, if_neg (by simp [hfault])]
  extract_lets again _ s1 rail s2 s3
  rw [if_neg (by simp [again, hfirst]), if_neg hphase]
  have hs1 : Linked s s1 := (Linked.rfl s).same
  have hs2 : Linked s s2 := hs1
  have hs3 : Linked s s3 := .ite hs2.stopDie hs2
  have hlast : Linked (resetDie s3 d .dieReset) (entropyUpdate (resetDie s3 d .dieReset)) := (Linked.rfl _).entropyUpdate
  refine ⟨(hlast.phase d).trans (die_resetDie_phase _), fun e k he => ?_⟩
  have h := hlast.link e k
  rw [die_resetDie_ne he] at h
  exact (hs3.link e k).trans h

/-- The end of a link once its credits are reclaimed. -/
def reclaimed (q : Swm) : Swm := { q with reqCred := 64, rspCred := 64, held := true }

theorem linkOf_reclaimLink (s : State) (d : DieId) (k : SwmId) :
    linkOf ((reclaimLink s d k).die d) k = reclaimed (linkOf (s.die d) k) := by
  unfold reclaimLink
  rw [raiseInt_die, regBump_die, linkOf_updLink_self]
  rfl

theorem reclaimLink_guard (s : State) : (reclaimLink s d k).guard = s.guard := by
  unfold reclaimLink
  rw [raiseInt_guard, regBump_guard]
  rfl

theorem creditTimeout_spec (hrun : running s d = true) (hup : (linkOf (s.die d) k).st = .up)
    (hdebt : (linkOf (s.die d) k).reqCred < 64 ∨ (linkOf (s.die d) k).rspCred < 64) (hpart : partnerDie d k ≠ 0)
    (hfault : faultable s (partnerDie d k) = true) (hrunp : running s (partnerDie d k) = true)
    (hfirst : secondFault s (partnerDie d k) = false) :
    ∃ t, exec (.swmCreditTimeout d k) s = .next t ∧ (linkOf (t.die d) k).reqCred = 64 ∧ (linkOf (t.die d) k).rspCred = 64
      ∧ (linkOf (t.die d) k).held = true ∧ (t.die (partnerDie d k)).phase = .dieReset := by
  have hrec := recorded_recordErr s (swmBase d k) 0x81 (partnerOf d k)
  generalize hs1 : recordErr s (swmBase d k) 0x81 (partnerOf d k) = s1 at hrec
  have hphase : ((reclaimLink s1 d k).die (partnerDie d k)).phase = (s.die (partnerDie d k)).phase :=
    ((Linked.rfl s1).reclaimLink.phase _).trans (hrec.phase _)
  have hguard : (reclaimLink s1 d k).guard = s.guard := (reclaimLink_guard s1).trans hrec.guard
  have hsame : (reclaimLink s1 d k).part = s.part := (Frame.Kept.rfl s1).reclaimLink.part.trans hrec.part
  have hlink := (linkOf_reclaimLink s1 d k).trans (congrArg reclaimed (hrec.link d k))
  have hphaseUp : (s.die (partnerDie d k)).phase = .up := phase_of_running hrunp
  obtain ⟨hreset, hkept⟩ := dieFault_unresponsive hpart ((faultable_congr hphase hsame hguard).trans hfault)
    ((secondFault_congr hphase hguard).trans hfirst) (by rw [hphase, hphaseUp]; nofun)
  refine ⟨dieFault (reclaimLink s1 d k) (partnerDie d k) .unresponsive, ?_, ?_⟩
  · show Host.Outcome.next (onDie s d _) = _
    rw [onDie_of_running hrun, if_pos ⟨hup, hdebt⟩, hs1]
  · have hend := (hkept d k (partnerDie_ne d k).symm).reclaimed
    rw [hlink] at hend
    obtain ⟨hreq, hrsp, hheld⟩ := hend (show (linkOf (s.die d) k).st ≠ .down by rw [hup]; nofun) ⟨rfl, rfl, rfl⟩
    exact ⟨hreq, hrsp, hheld, hreset⟩

/-! ### The obligation -/

/-- Settles O54: a flit in its turn is taken (`flitRx_here`, `flitRx_forward`), a bad one and a timeout replay (`flitRx_bad`,
`replayTimeout_spec`), a trained link is up (`linkTrained_spec`), one that fails or is told to is retired (`retireLink_spec`), its
held messages go on the new route (`routeSwitch_spec`), and a debt that stays holds it (`creditTimeout_spec`). -/
theorem swarmLinks : Obligations.SwarmLinks := by
  unfold Obligations.SwarmLinks
  intro s d k hregs hrun
  refine ⟨fun f hup hpart => ⟨fun hcrc hseq hdst => ?_, fun hcrc hseq hdst => ?_, fun hcrc => ?_⟩, fun hup hreplay => ?_,
    fun hst => ⟨fun hout => ?_, ?_⟩, fun r v hspace hrow hbit hpart hst => ?_, fun hst hout => ?_,
    fun hup hdebt hpart hfault hrunp hfirst => ?_⟩
  · exact flitRx_here hregs hrun hup hpart hcrc hseq hdst
  · exact flitRx_forward hrun hup hpart hcrc hseq hdst
  · exact flitRx_bad hregs hrun hup hpart hcrc
  · exact replayTimeout_spec hregs hrun hup hreplay
  · exact linkTrained_spec hrun hst hout
  · exact retrainFailed_spec hrun hst
  · exact swmRetire_spec hrun hspace hrow hbit hpart hst
  · exact routeSwitch_spec hrun hst hout
  · exact creditTimeout_spec hrun hup hdebt hpart hfault hrunp hfirst

end Sys2Proof.Swarm
end

section
/-! ### Sessions and the packets that they send -/
namespace Sys2Proof.Kocel
open Sys2Proof Sys2Proof.Machine Sys2Proof.Laws Sys2Proof.Safety
variable {s t u : State} {d e : DieId} {k : Session} {slot gen pt : Nat} {psn : Word} {retx : Bool} {body : Bytes}

/-- Settles O2: each command of the table is answered by its own meaning, and none of them stops. -/
theorem everyCommandAnswers : Obligations.EveryCommandAnswers := by
  intro c s
  cases c <;> exact ⟨_, rfl⟩

/-! ### The session of a slot -/

theorem slot_of_sessOf {x : Die} (h : sessOf x slot = some k) : k.slot = slot := by
  simpa using List.find?_some h

theorem ids_of_sessGen {x : Die} (h : sessGen x slot gen = some k) : k.slot = slot ∧ k.gen = gen := by
  simpa using List.find?_some h

theorem sessOf_congr {x y : Die} (h : y.ktp = x.ktp) : sessOf y slot = sessOf x slot := by
  unfold sessOf
  rw [h]

theorem sessGen_congr {x y : Die} (h : y.ktp = x.ktp) : sessGen y slot gen = sessGen x slot gen := by
  unfold sessGen
  rw [h]



/-- Of two changes of a die the second sees what the first made of it. -/
theorem updDie_updDie (f g : Die → Die) : (s.updDie d f).updDie d g = s.updDie d fun x => g (f x) := by
  unfold State.updDie State.setDie
  congr 1
  have hd : ({ s with dies := s.dies.set d.val (f (s.die d)) d.isLt } : State).die d = f (s.die d) := die_setDie_self s d _
  rw [hd]
  exact Vector.set_set ..

/-- Storing a session twice stores the second. -/
theorem putSess_putSess {k' : Session} (h : k'.slot = k.slot) : putSess (putSess s d k) d k' = putSess s d k' := by
  unfold putSess
  rw [updDie_updDie]
  simp [h]

/-! ### What packets leave alone -/

/-- What the sending of packets leaves alone: of a die what is neither KTP's, nor the ports', nor the pipelines', and the package
but for the count of draws. -/
structure Sending (s t : State) : Prop where
  csq   : ∀ e, (t.die e).csq = (s.die e).csq
  swm   : ∀ e, (t.die e).swm = (s.die e).swm
  out   : ∀ e, (t.die e).out = (s.die e).out
  phase : ∀ e, (t.die e).phase = (s.die e).phase
  map   : ∀ e, (t.die e).map = (s.die e).map
  part  : t.part = s.part
  guard : t.guard = s.guard
  pkg   : t.pkg = s.pkg
  regs  : t.regs = s.regs

protected theorem Sending.rfl (s : State) : Sending s s :=
  ⟨fun _ => rfl, fun _ => rfl, fun _ => rfl, fun _ => rfl, fun _ => rfl, rfl, rfl, rfl, rfl⟩

protected theorem Sending.trans (h : Sending s t) (k : Sending t u) : Sending s u :=
  ⟨fun e => (k.csq e).trans (h.csq e), fun e => (k.swm e).trans (h.swm e), fun e => (k.out e).trans (h.out e),
    fun e => (k.phase e).trans (h.phase e), fun e => (k.map e).trans (h.map e), k.part.trans h.part, k.guard.trans h.guard,
    k.pkg.trans h.pkg, k.regs.trans h.regs⟩

protected theorem Sending.ite {p : Prop} [Decidable p] (hs : Sending s t) (ht : Sending s u) : Sending s (if p then t else u) := by
  split
  · exact hs
  · exact ht

/-- KTP, the ports and the keys of a die may change. -/
theorem sending_updDie (f : Die → Die) (h : ∀ x, (f x).csq = x.csq ∧ (f x).swm = x.swm ∧ (f x).out = x.out ∧ (f x).phase = x.phase
    ∧ (f x).map = x.map) : Sending s (s.updDie d f) := by
  have hdie : ∀ e, ((s.updDie d f).die e).csq = (s.die e).csq ∧ ((s.updDie d f).die e).swm = (s.die e).swm
      ∧ ((s.updDie d f).die e).out = (s.die e).out ∧ ((s.updDie d f).die e).phase = (s.die e).phase
      ∧ ((s.updDie d f).die e).map = (s.die e).map := by
    intro e
    rw [die_updDie]
    split
    · next he => exact he ▸ h (s.die e)
    · exact ⟨rfl, rfl, rfl, rfl, rfl⟩
  exact ⟨fun e => (hdie e).1, fun e => (hdie e).2.1, fun e => (hdie e).2.2.1, fun e => (hdie e).2.2.2.1,
    fun e => (hdie e).2.2.2.2, rfl, rfl, rfl, rfl⟩

theorem sending_putSess : Sending s (putSess s d k) := sending_updDie _ fun _ => ⟨rfl, rfl, rfl, rfl, rfl⟩

theorem sending_delSess : Sending s (delSess s d slot) := sending_updDie _ fun _ => ⟨rfl, rfl, rfl, rfl, rfl⟩

theorem sending_queueTx {p : PortId} {q : TxPkt} : Sending s (queueTx s d p q) :=
  sending_updDie _ fun _ => ⟨rfl, rfl, rfl, rfl, rfl⟩

theorem sending_draws {n : Nat} : Sending s { s with draws := n } := by
  constructor <;> intros <;> rfl

theorem sending_cryBlocks {n : Nat} : Sending s (cryBlocks s d n) := by
  unfold cryBlocks pipeRun drawChoice
  exact (sending_draws.trans sending_draws).trans (sending_updDie _ fun _ => ⟨rfl, rfl, rfl, rfl, rfl⟩)

theorem sending_transmit : Sending s (transmit s d k pt psn retx body).1 := by
  unfold transmit
  extract_lets k1 k2 s1
  have hs1 : Sending s s1 := .ite sending_cryBlocks (.rfl s)
  split
  · split
    · exact sending_putSess
    · split
      · exact sending_putSess
      · exact (hs1.trans sending_queueTx).trans sending_putSess
  · split
    · exact sending_putSess
    · split
      · exact sending_putSess
      · exact (hs1.trans sending_queueTx).trans sending_putSess

theorem sending_sendSeq : Sending s (sendSeq s d k pt body).1 := by
  unfold sendSeq
  split
  · exact sending_transmit.trans sending_putSess
  · exact sending_putSess

theorem sending_deciphered {g : Datagram} : Sending s (deciphered s d g pt) := by
  unfold deciphered
  dsimp only
  split
  · exact .rfl s
  · exact .ite sending_cryBlocks (.rfl s)

/-! ### Unencrypted sessions -/

/-- A session that has just told its host how far it has received: its window edge has moved, and it owes nothing (R79, R81). -/
def told (s : State) (d : DieId) (k : Session) : Session := { k with edge := nextEdge s d k, ackCount := 0 }

/-- A packet of an unencrypted session goes out at the session's port. -/
theorem transmit_plain (h : k.enc = false) : ∃ q, transmit s d k pt psn retx body
    = (putSess (queueTx s d k.port q) d (told s d k), told s d k) :=
  ⟨_, by simp [transmit, packetOf, h, told]; rfl⟩

/-- A session without encryption has no counter that could end it (R90). -/
theorem checkNonce_plain (h : ∀ k, sessOf (s.die d) slot = some k → k.enc = false) : checkNonce s d slot = s := by
  unfold checkNonce
  split
  · rfl
  · next k hk => simp [h k hk]

theorem checkNonce_putSess (h : k.enc = false) (hslot : k.slot = slot) : checkNonce (putSess s d k) d slot = putSess s d k :=
  checkNonce_plain fun q hq => by
    rw [← hslot, sessOf_putSess] at hq
    exact Option.some.inj hq ▸ h

/-- A separate ACK of an unencrypted session (R81). -/
theorem sendAck_plain (hk : sessOf (s.die d) slot = some k) (h : k.enc = false) :
    ∃ q, sendAck s d slot = putSess (queueTx s d k.port q) d (told s d k) := by
  obtain ⟨q, hq⟩ := transmit_plain (s := s) (d := d) (k := k) (pt := 0x07) (psn := 0) (retx := false) (body := []) h
  refine ⟨q, ?_⟩
  unfold sendAck
  rw [hk]
  dsimp only
  rw [hq]
  exact checkNonce_putSess h (slot_of_sessOf (k := k) hk)

theorem txq_queueTx {p : PortId} {q : TxPkt} :
    (((queueTx s d p q).die d).ports.get p).txq = ((s.die d).ports.get p).txq ++ [q] := by
  simp [queueTx, Access.get_vset]

theorem ports_putSess : ((putSess s d k).die e).ports = (s.die e).ports := by
  unfold putSess
  rw [die_updDie]
  split
  · next he => rw [he]
  · rfl

end Sys2Proof.Kocel
end

section
/-! ### The timers of a session -/
namespace Sys2Proof.Kocel
open Sys2Proof Sys2Proof.Machine Sys2Proof.Laws Sys2Proof.Safety
variable {s t u : State} {d e : DieId} {k : Session} {slot gen pt : Nat} {psn : Word} {retx : Bool} {body : Bytes}

theorem assocGet_assocDel_self {α β : Type} [DecidableEq α] (a : α) (l : List (α × β)) : assocGet a (assocDel a l) = none := by
  induction l with
  | nil => rfl
  | cons p l ih =>
    unfold assocDel at ih ⊢
    rw [List.filter_cons]
    split
    · next h =>
      have hne : ¬p.1 = a := by simpa using h
      rw [assocGet, if_neg hne]
      exact ih
    · exact ih

/-- An event of a session of a die that runs is the session's. -/
theorem onSess_of_sessOf {f : State → Session → State} (hrun : running s d = true) (hk : sessOf (s.die d) slot = some k) :
    onSess s d slot f = f s k := by
  unfold onSess
  rw [Access.onDie_of_running hrun, hk]

/-- A slot that is freed holds no session and no key, and nothing beside the die's KTP and keys changes (R74). -/
theorem freeSlot_spec : sessOf ((freeSlot s d slot).die d) slot = none ∧ sessionKey ((freeSlot s d slot).die d).cry slot = none
    ∧ ((freeSlot s d slot).die d).csq = (s.die d).csq ∧ ((freeSlot s d slot).die d).map = (s.die d).map
    ∧ SameButDie d s (freeSlot s d slot) := by
  unfold freeSlot delSess
  rw [updDie_updDie]
  refine ⟨?_, ?_, ?_, ?_, Access.sameButDie_updDie _⟩
  · simp [sessOf]
  · simp [sessionKey, eraseSession, assocGet_assocDel_self]
  · simp
  · simp

/-- The oldest packet goes out once more: its count rises, and the session is otherwise as it tells its host (R83). -/
theorem retransmit_plain {q : SentPkt} {fast : Bool} (h : k.enc = false) :
    ∃ k', (retransmit s d k q fast).2 = k' ∧ k'.slot = k.slot ∧ k'.enc = false
      ∧ k'.unacked.map (fun p => (p.psn, p.retx))
          = k.unacked.map (fun p => (p.psn, if p.psn == q.psn then p.retx + 1 else p.retx)) := by
  obtain ⟨p, hp⟩ := transmit_plain (s := s) (d := d) (k := k) (pt := q.ptype) (psn := q.psn) (retx := true) (body := q.body) h
  refine ⟨_, rfl, ?_, ?_, ?_⟩
  · simp [retransmit, hp, told]
  · simp [retransmit, hp, told, h]
  · simp only [retransmit, hp, told, List.map_map]
    refine List.map_congr_left fun p _ => ?_
    simp only [Function.comp]
    split <;> rfl

/-- RTO_EXPIRY below the retry limit with one packet unacknowledged (R83). -/
theorem rtoExpiry_retransmits {q : SentPkt} (hrun : running s d = true) (hk : sessOf (s.die d) slot = some k)
    (henc : k.enc = false) (hpaused : portPaused s d k = false) (hq : k.unacked = [q])
    (hretx : q.retx < dfld s d Page.ktp 0x48 23 16) :
    ∃ t k', exec (.rtoExpiry d slot) s = .next t ∧ sessOf (t.die d) slot = some k'
      ∧ k'.backoff = min (dfld s d Page.ktp 0x44 31 16 * 1000) (2 * k.backoff)
      ∧ k'.unacked.map (fun p => (p.psn, p.retx)) = [(q.psn, q.retx + 1)] := by
  obtain ⟨k1, hk1, hslot, henc1, hun⟩ := retransmit_plain (s := s) (d := d) (q := q) (fast := false) henc
  refine ⟨_, { k1 with backoff := min (dfld s d Page.ktp 0x44 31 16 * 1000) (2 * k.backoff), doubled := true }, rfl, ?_, rfl, ?_⟩
  · rw [onSess_of_sessOf hrun hk]
    simp only [hpaused, hq, Bool.false_eq_true, if_false, if_neg (Nat.not_le.2 hretx), hk1]
    have hs : k1.slot = slot := hslot.trans (slot_of_sessOf hk)
    rw [checkNonce_putSess (by exact henc1) (by exact hs), ← hs]
    exact sessOf_putSess ..
  · simpa [hq] using hun

/-- ACK_DELAY_EXPIRY of a session that owes an acknowledgement (R81). -/
theorem ackDelayExpiry_acks (hrun : running s d = true) (hk : sessOf (s.die d) slot = some k) (henc : k.enc = false)
    (howes : 0 < k.ackCount) :
    ∃ t k', exec (.ackDelayExpiry d slot) s = .next t ∧ sessOf (t.die d) slot = some k' ∧ k'.ackCount = 0
      ∧ ((t.die d).ports.get k.port).txq.length = ((s.die d).ports.get k.port).txq.length + 1 := by
  obtain ⟨q, hq⟩ := sendAck_plain hk henc
  refine ⟨_, told s d k, rfl, ?_, rfl, ?_⟩
  · rw [onSess_of_sessOf hrun hk, if_pos howes, hq, ← slot_of_sessOf hk]
    exact sessOf_putSess ..
  · rw [onSess_of_sessOf hrun hk, if_pos howes, hq, ports_putSess, txq_queueTx]
    simp

/-- Settles O10: both timeouts free the slot (`freeSlot_spec`), an RTO expiry below the limit sends the packet again
(`rtoExpiry_retransmits`), and the acknowledgement timer sends what is owed (`ackDelayExpiry_acks`). -/
theorem sessionTimers : Obligations.SessionTimers := by
  unfold Obligations.SessionTimers
  refine ⟨fun s d slot k hrun hk => ⟨fun hst => ?_, fun hst => ?_⟩,
    fun s d slot k hrun hk henc => ⟨fun q hpaused hq hretx => rtoExpiry_retransmits hrun hk henc hpaused hq hretx,
      fun howes => ackDelayExpiry_acks hrun hk henc howes⟩⟩
  all_goals
    refine ⟨freeSlot s d slot, congrArg Host.Outcome.next ?_, freeSlot_spec⟩
    rw [onSess_of_sessOf hrun hk, if_pos hst]

end Sys2Proof.Kocel
end

section
/-! ### OPEN -/
namespace Sys2Proof.Kocel
open Sys2Proof Sys2Proof.Machine Sys2Proof.Laws Sys2Proof.Safety
variable {s : State} {d : DieId} {p : PortId} {g : Datagram}

/-- A datagram that reaches KTP is KTP's. -/
theorem onPort_of_reaches {f : State → State} (h : Reaches s d p g) : onPort s d p g f = f s := by
  obtain ⟨⟨hrun, hktp⟩, hport, haddr⟩ := h
  unfold onPort onBlock
  rw [Access.onDie_of_running hrun, if_pos hktp]
  exact if_pos (by simp [hport, haddr])

/-- An OPEN with a sound header that repeats none is answered by its status (R68, R70, R73). -/
theorem exec_openPkt (h : Reaches s d p g) (hfront : frontOk s d g = true) (htype : (parsePkt g.payload).ptype = 0x01)
    (henc : (parsePkt g.payload).enc = false) (hlen : g.payload.length = 68)
    (hrepeat : repeatOf (s.die d) g (g.payload.drop 24) = none) (hentropy : openStatus s d p (g.payload.drop 24) = Stat.ok → s.pkg.entropyFail = false) :
    exec (.openPkt d p g) s = .next (if openStatus s d p (g.payload.drop 24) = Stat.ok then createSession s d p g (g.payload.drop 24)
      else refuseOpen s d p g (openStatus s d p (g.payload.drop 24))) := by
  show Host.Outcome.next (onPort s d p g _) = _
  rw [onPort_of_reaches h]
  unfold openIn
  simp only [hfront, htype, henc, hrepeat, List.length_drop, hlen]
  by_cases hok : openStatus s d p (g.payload.drop 24) = Stat.ok
  · simp [hok, hentropy hok]
  · simp [hok]

theorem beAt_drop (b : Bytes) (n off len : Nat) : beAt (b.drop n) off len = beAt b (n + off) len := by
  simp [beAt, slice, List.drop_drop]

theorem getD_mod_mem {l : List Nat} (n : Nat) (h : l ≠ []) : l.getD (n % l.length) 0 ∈ l := by
  have hlt : n % l.length < l.length := Nat.mod_lt _ (List.length_pos_of_ne_nil h)
  rw [List.getD_eq_getElem _ _ hlt]
  exact List.getElem_mem hlt

theorem nextGen_die {slot : Nat} (e : DieId) : ((nextGen s d slot).2.die e) = s.die e := by
  unfold nextGen
  split <;> rfl

/-- An OPEN that is accepted makes a session in a free slot, and its reply is queued (R68, R72, R74). -/
theorem createSession_spec {body : Bytes} (hfree : freeSlots (s.die d) ≠ []) :
    ∃ slot k, slot ∈ freeSlots (s.die d) ∧ sessOf ((createSession s d p g body).die d) slot = some k
      ∧ k.st = .openRcvd ∧ k.tenant = beAt body 0 2 ∧ k.peerIp = g.srcIp ∧ k.peerUdp = g.srcUdp
      ∧ ((createSession s d p g body).die d).ktp.sessions.length = (s.die d).ktp.sessions.length + 1
      ∧ (((createSession s d p g body).die d).ports.get p).txq.length = ((s.die d).ports.get p).txq.length + 1 := by
  unfold createSession
  extract_lets id enc hostNonce c slots slot gn rp rn s1 key sid cred b32 pkt hostPsn devPsn k s2
  have hdie : s1.die d = s.die d := nextGen_die d
  have hs2 : s2.die d = _ := die_updDie_self s1 d _
  refine ⟨slot, k, getD_mod_mem _ hfree, ?_, rfl, rfl, rfl, rfl, ?_, ?_⟩
  · rw [sessOf_congr (ktp_queueTx s2 d d p _), hs2]
    simp [sessOf, k]
  · rw [ktp_queueTx, hs2, hdie]
    rfl
  · rw [txq_queueTx, hs2, hdie]
    simp

/-- Settles O12: the OPEN is accepted (`exec_openPkt`) and its session stands in a free slot (`createSession_spec`). -/
theorem openCreatesSession : Obligations.OpenCreatesSession := by
  unfold Obligations.OpenCreatesSession
  intro s d p g hreach hfront htype henc hlen hrepeat hok hentropy hfree
  obtain ⟨slot, k, hslot, hk, hst, htenant, hip, hudp, hcount, htxq⟩ :=
    createSession_spec (p := p) (g := g) (body := g.payload.drop 24) hfree
  refine ⟨_, slot, k, ?_, hslot, hk, hst, ?_, hip, hudp, hcount, htxq⟩
  · rw [exec_openPkt hreach hfront htype henc hlen hrepeat fun _ => hentropy, if_pos hok]
  · rw [htenant, beAt_drop]

/-- An OPEN that is refused makes no session, and its reply goes out within the limit (R70, R71). -/
theorem refuseOpen_spec {status : Nat} : ((refuseOpen s d p g status).die d).ktp.sessions = (s.die d).ktp.sessions
    ∧ (((refuseOpen s d p g status).die d).ports.get p).txq.length
        = ((s.die d).ports.get p).txq.length + (if refusedOn (s.die d) p < 16 then 1 else 0) := by
  unfold refuseOpen
  extract_lets s1 s2
  have hdie : s2.die d = s.die d := by
    show (if status = Stat.authFail then raiseInt s1 (dreg d Page.ktp 0) 3 else s1).die d = _
    split <;> rfl
  split
  · rw [ktp_queueTx, txq_queueTx, die_updDie_self, hdie]
    simp
  · rw [hdie]
    exact ⟨rfl, rfl⟩

/-- Settles O13: a refused OPEN is answered by `refuseOpen`, and a new second forgets the port's count. -/
theorem openRefused : Obligations.OpenRefused := by
  unfold Obligations.OpenRefused
  intro s d p hrun
  refine ⟨fun g hreach hfront htype henc hlen hrepeat hno =>
    ⟨refuseOpen s d p g (openStatus s d p (g.payload.drop 24)), ?_, refuseOpen_spec⟩, ?_⟩
  · exact (exec_openPkt hreach hfront htype henc hlen hrepeat fun hok => absurd hok hno).trans
      (congrArg Host.Outcome.next (if_neg hno))
  · refine ⟨_, congrArg Host.Outcome.next (Access.onDie_of_running hrun), ?_, ?_, Access.sameButDie_updDie _⟩
    · simp [refusedOn, assocGet_assocDel_self]
    · simp

end Sys2Proof.Kocel
end

section
/-! ### Barriers and the end of a session -/
namespace Sys2Proof.Kocel
open Sys2Proof Sys2Proof.Machine Sys2Proof.Laws Sys2Proof.Safety
variable {s t : State} {d e x home : DieId} {b : Barrier} {k : Session} {slot gen : Nat}

/-! ### A barrier on its way to the dies -/

/-- With no entry to DEEP in progress a barrier wakes its die alone. -/
theorem giveBarrier_eq (h : s.guard.entry = 0) : ∃ l, giveBarrier s x b = State.updDie { s with regs := l } x fun y =>
    { wakeX y with csq := { (wakeX y).csq with barriers := (wakeX y).csq.barriers ++ [b] } } := by
  unfold giveBarrier wakeAt
  rw [Access.abandonDeep_of_no_entry h]
  dsimp only
  split
  · exact ⟨s.regs, updDie_updDie _ _⟩
  · exact ⟨(raiseInt s (dreg x Page.csq 0) 3).regs, updDie_updDie (s := raiseInt s (dreg x Page.csq 0) 3) _ _⟩

theorem giveBarrier_ne (h : s.guard.entry = 0) (he : e ≠ x) : (giveBarrier s x b).die e = s.die e := by
  obtain ⟨l, hl⟩ := giveBarrier_eq (x := x) (b := b) h
  rw [hl]
  exact die_updDie_ne _ _ _ _ he

theorem giveBarrier_self (h : s.guard.entry = 0) : (giveBarrier s x b).die x
    = { wakeX (s.die x) with csq := { (wakeX (s.die x)).csq with barriers := (wakeX (s.die x)).csq.barriers ++ [b] } } := by
  obtain ⟨l, hl⟩ := giveBarrier_eq (x := x) (b := b) h
  rw [hl, die_updDie_self]
  rfl

theorem giveBarrier_guard (h : s.guard.entry = 0) : (giveBarrier s x b).guard = s.guard ∧ (giveBarrier s x b).part = s.part := by
  obtain ⟨l, hl⟩ := giveBarrier_eq (x := x) (b := b) h
  rw [hl]
  exact ⟨rfl, rfl⟩

theorem wakeX_barriers (y : Die) : (wakeX y).csq.barriers = y.csq.barriers := by
  unfold wakeX
  split
  · split <;> rfl
  · rfl

theorem wakeX_ktp (y : Die) : (wakeX y).ktp = y.ktp := by
  unfold wakeX
  split
  · split <;> rfl
  · rfl

theorem wakeX_out (y : Die) : (wakeX y).out = y.out := by
  unfold wakeX
  split
  · split <;> rfl
  · rfl

/-- What a barrier that is given leaves of every die: its sessions, its links and its messages. -/
theorem giveBarrier_keeps (h : s.guard.entry = 0) (e : DieId) : ((giveBarrier s x b).die e).ktp = (s.die e).ktp
    ∧ ((giveBarrier s x b).die e).swm = (s.die e).swm ∧ ((giveBarrier s x b).die e).out = (s.die e).out := by
  by_cases he : e = x
  · subst he
    rw [giveBarrier_self h]
    exact ⟨wakeX_ktp _, Swarm.wakeX_swm _, wakeX_out _⟩
  · rw [giveBarrier_ne h he]
    exact ⟨rfl, rfl, rfl⟩

/-- A barrier for another die that waits at its source does not hold up those for this one (R19). -/
theorem waitsOut_holdOut (he : x ≠ e) : waitsOut (holdOut s home (.barrier x b)) home e = waitsOut s home e := by
  have hdie : ∀ y, ((holdOut s home (.barrier x b)).die y).swm = (s.die y).swm := by
    intro y
    unfold holdOut
    rw [die_updDie]
    split
    · next hy => rw [hy]
    · rfl
  have hx : (x == e) = false := by simpa using he
  simp only [waitsOut, routeHeld_congr (s := s) hdie rfl]
  simp [holdOut, crossTo, hx]

/-- One die's turn in the sending of a barrier. -/
def barrierTurn (b : Barrier) (s : State) (x : DieId) : State :=
  if waitsOut s (barrierHome b) x then holdOut s (barrierHome b) (.barrier x b) else giveBarrier s x b

/-- A message to a die can go, and no entry to DEEP is in progress. -/
structure WayFree (s : State) (home e : DieId) : Prop where
  route : waitsOut s home e = false
  entry : s.guard.entry = 0

theorem WayFree.barrierTurn_ne (h : WayFree s (barrierHome b) e) (he : x ≠ e) : WayFree (barrierTurn b s x) (barrierHome b) e
    ∧ ((barrierTurn b s x).die e).csq.barriers = (s.die e).csq.barriers := by
  unfold barrierTurn
  split
  · refine ⟨⟨(waitsOut_holdOut he).trans h.route, h.entry⟩, ?_⟩
    unfold holdOut
    rw [die_updDie]
    split
    · next hy => rw [hy]
    · rfl
  · have hkeeps := giveBarrier_keeps (x := x) (b := b) h.entry
    obtain ⟨hguard, hpart⟩ := giveBarrier_guard (x := x) (b := b) h.entry
    refine ⟨⟨?_, hguard ▸ h.entry⟩, by rw [giveBarrier_ne h.entry he.symm]⟩
    rw [waitsOut_congr (fun y => (hkeeps y).2.1) (fun y => (hkeeps y).2.2) hpart]
    exact h.route

theorem WayFree.barrierTurn_self (h : WayFree s (barrierHome b) e) : WayFree (barrierTurn b s e) (barrierHome b) e
    ∧ ((barrierTurn b s e).die e).csq.barriers = (s.die e).csq.barriers ++ [b] := by
  unfold barrierTurn
  rw [h.route, if_neg (by simp)]
  have hkeeps := giveBarrier_keeps (x := e) (b := b) h.entry
  obtain ⟨hguard, hpart⟩ := giveBarrier_guard (x := e) (b := b) h.entry
  refine ⟨⟨?_, hguard ▸ h.entry⟩, ?_⟩
  · rw [waitsOut_congr (fun y => (hkeeps y).2.1) (fun y => (hkeeps y).2.2) hpart]
    exact h.route
  · rw [giveBarrier_self h.entry]
    simp [wakeX_barriers]

/-- Sent to some dies, each at most once, a barrier stands last at a die exactly when the die is one of them. -/
theorem barrierTurns_barriers {l : List DieId} (hl : l.Nodup) (h : WayFree s (barrierHome b) e) :
    ((l.foldl (barrierTurn b) s).die e).csq.barriers = (s.die e).csq.barriers ++ if e ∈ l then [b] else [] := by
  induction l generalizing s with
  | nil => simp
  | cons x l ih =>
    obtain ⟨hx, hl⟩ := List.nodup_cons.1 hl
    rw [List.foldl_cons]
    by_cases he : x = e
    · subst he
      rw [ih hl h.barrierTurn_self.1, h.barrierTurn_self.2]
      simp [hx]
    · rw [ih hl (h.barrierTurn_ne he).1, (h.barrierTurn_ne he).2]
      simp [Ne.symm he]

theorem nodup_upDies : (upDies s).Nodup := List.Nodup.filter _ (by decide)

theorem mem_upDies : e ∈ upDies s ↔ running s e = true := by
  simp [upDies, Boot.mem_allDies]

/-- A barrier stands last at every die that runs, once its way is free (R75, R128, R130). -/
theorem sendBarrier_barriers (hrun : running s e = true) (h : WayFree s (barrierHome b) e) :
    ((sendBarrier s b).die e).csq.barriers = (s.die e).csq.barriers ++ [b] := by
  have hb := barrierTurns_barriers (l := upDies s) nodup_upDies h
  rw [if_pos (mem_upDies.2 hrun)] at hb
  exact hb

/-- A barrier leaves the sessions alone. -/
theorem sendBarrier_ktp (h : s.guard.entry = 0) : ((sendBarrier s b).die e).ktp = (s.die e).ktp := by
  refine (Access.overDies_keeps (P := fun t => t.guard.entry = 0 ∧ (t.die e).ktp = (s.die e).ktp) (fun t x ht => ?_)
    (upDies s) ⟨h, rfl⟩).2
  obtain ⟨hentry, hktp⟩ := ht
  split
  · refine ⟨hentry, Eq.trans ?_ hktp⟩
    unfold holdOut
    rw [die_updDie]
    split
    · next hx => rw [hx]
    · rfl
  · exact ⟨(giveBarrier_guard hentry).1 ▸ hentry, (giveBarrier_keeps hentry e).1.trans hktp⟩

/-! ### A session that ends (R75) -/

theorem Sending.running (h : Sending s t) : running t e = running s e := by
  unfold Machine.running present
  rw [h.phase, h.part, h.guard]

theorem Sending.wayFree (h : Sending s t) (hw : WayFree s home e) : WayFree t home e :=
  ⟨(waitsOut_congr h.swm h.out h.part home e).trans hw.route, h.guard ▸ hw.entry⟩

/-- The session is gone, and its barrier stands last at a die that runs. -/
theorem endSession_spec (hrun : running s e = true) (h : WayFree s d e) :
    sessOf ((endSession s d k).die d) k.slot = none
      ∧ ((endSession s d k).die e).csq.barriers = (s.die e).csq.barriers ++ [.terminate d k.slot k.gen] := by
  unfold endSession
  extract_lets s1 s2
  have hs : Sending s s2 := sending_delSess.trans (sending_updDie _ fun _ => ⟨rfl, rfl, rfl, rfl, rfl⟩)
  rw [raiseInt_die, raiseInt_die, regBump_die, regBump_die,
    sendBarrier_barriers (b := .terminate d k.slot k.gen) (hs.running.trans hrun) (hs.wayFree h), hs.csq,
    sessOf_congr (sendBarrier_ktp (hs.wayFree h).entry)]
  exact ⟨by simp [s2, s1, delSess, sessOf], rfl⟩

theorem transmit_ids {pt : Nat} {psn : Word} {retx : Bool} {body : Bytes} :
    (transmit s d k pt psn retx body).2.slot = k.slot ∧ (transmit s d k pt psn retx body).2.gen = k.gen := by
  unfold transmit
  generalize (k.enc && decide (2 ^ 64 ≤ k.txCtr + (if pt = 0x0A then 0 else 1))) = stop
  cases stop
  · rw [if_neg (by simp)]
    split <;> exact ⟨rfl, rfl⟩
  · exact ⟨rfl, rfl⟩

/-- A session that ends with a TERMINATE packet. -/
theorem terminateSession_spec {reason : Nat} (hrun : running s e = true) (h : WayFree s d e) :
    sessOf ((terminateSession s d k reason).die d) k.slot = none
      ∧ ((terminateSession s d k reason).die e).csq.barriers = (s.die e).csq.barriers ++ [.terminate d k.slot k.gen] := by
  unfold terminateSession
  extract_lets r
  have hr : Sending s r.1 := sending_transmit
  obtain ⟨hslot, hgen⟩ : r.2.slot = k.slot ∧ r.2.gen = k.gen := transmit_ids
  have hend := endSession_spec (k := r.2) (hr.running.trans hrun) (hr.wayFree h)
  rw [hslot, hgen, hr.csq] at hend
  exact hend

/-- TERMINATE_BARRIER: of the session's commands those past the media point stay, and their replies are discarded (R75). -/
theorem actTerminate_spec : ((actTerminate s d home slot gen).die d).csq.barriers = (s.die d).csq.barriers
    ∧ ((actTerminate s d home slot gen).die d).csq.cmds
        = ((s.die d).csq.cmds.filter (fun c => !(ofSession home slot gen c && beforeMedia c))).map
            (fun c => if ofSession home slot gen c then { c with noReply := true } else c)
    ∧ ((actTerminate s d home slot gen).die d).csq.inbox = (s.die d).csq.inbox.filter (fun c => !ofSession home slot gen c)
    ∧ ((actTerminate s d home slot gen).die d).map = (s.die d).map ∧ (actTerminate s d home slot gen).guard = s.guard
    ∧ (actTerminate s d home slot gen).regs = s.regs := by
  unfold actTerminate
  extract_lets mine s1 mineOf left
  have hd : s1.die d = _ := die_updDie_self s d _
  have hcsq : ∀ f : Die → Die, (∀ y, (f y).csq = y.csq ∧ (f y).map = y.map) →
      ((s1.updDie home f).die d).csq = (s1.die d).csq ∧ ((s1.updDie home f).die d).map = (s1.die d).map := by
    intro f hf
    rw [die_updDie]
    split
    · next h => exact h ▸ hf _
    · exact ⟨rfl, rfl⟩
  obtain ⟨hc, hm⟩ := hcsq (fun y => { y with
    ktp := { y.ktp with ending := (y.ktp.ending.map (fun e =>
        if e.1 == slot && e.2.1 == gen then (e.1, e.2.1, e.2.2.filter (· != d)) else e)).filter (fun e => !e.2.2.isEmpty) }
    cry := if left then eraseSession y.cry slot else y.cry }) fun _ => ⟨rfl, rfl⟩
  rw [hc, hm, hd]
  exact ⟨rfl, rfl, rfl, rfl, rfl, rfl⟩

/-- A TERMINATE that has been authenticated ends its session (R74, R75). -/
theorem exec_terminate {p : PortId} {g : Datagram} {h : PktHdr} {body : Bytes} (hreach : Reaches s d p g)
    (harrive : arrive s d g 0x0A = .good k h body) :
    exec (.terminate d p g) s = .next (endSession (deciphered s d g 0x0A) d (heard k p g)) := by
  show Host.Outcome.next (onPort s d p g _) = _
  rw [onPort_of_reaches hreach, harrive]

/-- Settles O11: each ending runs `endSession`, whose barrier is the last at every die that runs, and `actTerminate_spec` says what
a die does when it takes the barrier. -/
theorem sessionEndings : Obligations.SessionEndings := by
  unfold Obligations.SessionEndings
  refine ⟨fun s d e hrun hrune hroute hentry => ?_, fun s d home slot gen rest hrun hbar hroute => ?_⟩
  · have hway : WayFree s d e := ⟨hroute, hentry⟩
    refine ⟨fun slot k hk hidle => ⟨terminateSession s d k 0x02, ?_, ?_⟩,
      fun slot k q rest hk hpaused hun hretx => ⟨terminateSession s d k 0x01, ?_, ?_⟩,
      fun p g k h body hreach harrive => ⟨_, exec_terminate hreach harrive, ?_⟩⟩
    · exact congrArg Host.Outcome.next ((onSess_of_sessOf hrun hk).trans (if_pos hidle))
    · rw [← slot_of_sessOf hk]
      exact terminateSession_spec hrune hway
    · refine congrArg Host.Outcome.next ((onSess_of_sessOf hrun hk).trans ?_)
      simp only [hpaused, hun, Bool.false_eq_true, if_false, if_pos hretx]
    · rw [← slot_of_sessOf hk]
      exact terminateSession_spec hrune hway
    · have hdec : Sending s (deciphered s d g 0x0A) := sending_deciphered
      have hend := endSession_spec (k := heard k p g) (hdec.running.trans hrune) (hdec.wayFree hway)
      rw [hdec.csq] at hend
      exact hend
  · obtain ⟨hb, hcmds, hinbox, hmap, hguard, hregs⟩ := actTerminate_spec
      (s := s.updDie d (fun x => { x with csq := { x.csq with barriers := rest } })) (d := d) (home := home) (slot := slot) (gen := gen)
    rw [die_updDie_self] at hb hcmds hinbox hmap
    refine ⟨_, ?_, hb, fun c hc hmine => ?_, fun c hc hmine => ?_, fun c hc => ?_, hmap, hguard, hregs⟩
    · show Host.Outcome.next (onDie s d _) = _
      rw [Access.onDie_of_running hrun, hbar]
      simp only [hroute, Bool.false_eq_true, if_false]
    · rw [hcmds] at hc
      obtain ⟨q, hq, rfl⟩ := List.mem_map.1 hc
      have hpast := (List.mem_filter.1 hq).2
      by_cases hm : ofSession home slot gen q = true
      · have hq' : beforeMedia q = false := by simpa [hm] using hpast
        rw [if_pos hm]
        exact ⟨hq', rfl⟩
      · rw [if_neg hm] at hmine
        exact absurd hmine hm
    · rw [hcmds]
      exact List.mem_map.2 ⟨c, List.mem_filter.2 ⟨hc, by simp [hmine]⟩, by simp [hmine]⟩
    · rw [hinbox] at hc
      simpa using (List.mem_filter.1 hc).2

end Sys2Proof.Kocel
end

section
/-! ### Packets of an unencrypted session -/
namespace Sys2Proof.Kocel
open Sys2Proof Sys2Proof.Machine Sys2Proof.Laws Sys2Proof.Safety
variable {s t : State} {d e : DieId} {p : PortId} {g : Datagram} {k k' : Session} {h : PktHdr} {body : Bytes} {slot gen pt want : Nat}

/-- Authentication moves the replay window of a session and nothing that says whether it is encrypted (R91). -/
theorem enc_of_openBody {x : Die} {q : Session} {payload : Bytes} (ho : openBody x d q h payload = some (k, body)) :
    k.enc = q.enc := by
  unfold openBody at ho
  split at ho
  · cases ho
  split at ho
  · cases ho
    rfl
  split at ho
  · cases ho
  dsimp only at ho
  split at ho
  · cases ho
  split at ho
  · cases ho
  split at ho
  · cases ho
  · cases ho
    rfl

/-- A packet that arrives is one of the session that it names. -/
theorem named_of_arrive (ha : arrive s d g want = .good k h body) :
    ∃ q, namedSession (s.die d) d g (parsePkt g.payload) = some q ∧ k.enc = q.enc := by
  unfold arrive at ha
  dsimp only at ha
  repeat' split at ha
  all_goals cases ha
  all_goals exact ⟨_, ‹_›, enc_of_openBody ‹_›⟩

/-- A packet that arrives on an unencrypted session needs no decryption. -/
theorem deciphered_plain (ha : arrive s d g want = .good k h body) (henc : k.enc = false) : deciphered s d g want = s := by
  obtain ⟨q, hq, he⟩ := named_of_arrive ha
  simp [deciphered, hq, ← he, henc]

/-- An established, unencrypted session for which nothing waits, and a packet of it without acknowledgement fields. -/
structure Plain (k : Session) (h : PktHdr) : Prop where
  clear   : k.enc = false
  opened  : k.st = .established
  unacked : k.unacked = []
  backlog : k.backlog = []
  noAck   : h.ackv = false

/-- Such a packet has nothing acknowledged and nothing sent. -/
theorem Plain.ackIn (hp : Plain k h) : ackIn s d k h = putSess s d k := by
  have htake : ∀ now lo hi, takeAck k h now lo hi = k := by
    intro now lo hi
    simp [takeAck, hp.noAck]
  unfold Machine.ackIn
  extract_lets lo hi k1 r r2
  have hk1 : k1 = k := htake _ _ _
  have hr : r = (putSess s d k, k) := by
    simp [r, hk1, fastDue, hp.unacked]
  have hr2 : r2 = (putSess s d k, k) := by
    simp [r2, hr, hp.backlog, pump]
  rw [hr2, if_neg (by simp [hp.opened])]
  exact checkNonce_putSess hp.clear rfl

theorem Plain.heard (hp : Plain k h) : Plain (heard k p g) h :=
  ⟨hp.clear, by simp [Machine.heard, hp.opened], hp.unacked, hp.backlog, hp.noAck⟩

/-- A session after a sequenced packet has been accepted on a port. -/
def received (k : Session) (p : PortId) (g : Datagram) (h : PktHdr) : Session := seqIn (heard k p g) h.psn

theorem Plain.received (hp : Plain k h) : Plain (received k p g h) h := by
  have hh : Plain (Machine.heard k p g) h := hp.heard
  exact ⟨hh.clear, hh.opened, hh.unacked, hh.backlog, hp.noAck⟩

/-- A session that stays as it is but for what it owes its host and how far its window reaches. -/
def Repeats (k k' : Session) : Prop := k' = { k with edge := k'.edge, ackCount := k'.ackCount }

/-- An acknowledgement that may be due leaves the session but for what it tells. -/
theorem ackIfDue_plain {due : Bool} (hk : sessOf (s.die d) slot = some k) (henc : k.enc = false) :
    ∃ k', sessOf ((ackIfDue s d slot due).die d) slot = some k' ∧ Repeats k k' ∧ Sending s (ackIfDue s d slot due) := by
  unfold ackIfDue
  rw [hk]
  dsimp only
  split
  · obtain ⟨q, hq⟩ := sendAck_plain hk henc
    refine ⟨told s d k, ?_, rfl, hq ▸ sending_queueTx.trans sending_putSess⟩
    rw [hq, ← slot_of_sessOf hk]
    exact sessOf_putSess ..
  · exact ⟨k, hk, rfl, .rfl s⟩

/-- A packet in a fresh place of the window of a session that waits for nothing is stored and acted on (R78, R81). -/
theorem sequenced_fresh (ha : arrive s d g pt = .good k h body) (hp : Plain k h) (hfresh : seqSay k h.psn = .fresh)
    (hlen : 8 ≤ body.length) : ∃ due, ∀ act : State → Session → PktHdr → Bytes → State, sequenced s d p g pt act
      = ackIfDue (act (putSess s d (received k p g h)) (received k p g h) h body) d k.slot due := by
  refine ⟨h.ping || h.psn != k.rcvNext || decide (dfld s d Page.ktp 0x48 15 8 ≤ (received k p g h).ackCount), fun act => ?_⟩
  unfold sequenced
  rw [deciphered_plain ha hp.clear, ha]
  dsimp only
  rw [hfresh]
  dsimp only
  rw [if_neg (by omega)]
  have hidle := (hp.received (p := p) (g := g)).ackIn (s := putSess s d (received k p g h)) (d := d)
  rw [putSess_putSess rfl] at hidle
  unfold received at hidle ⊢
  rw [hidle, sessOf_putSess]
  rfl

/-! ### CMD segments -/

/-- A segment that does not end its message adds no end to an assembly. -/
theorem placeSeg_ends {inUse : List Byte} {l : List Assembly} {tag : Byte} {off : Nat} {data : Bytes} {psn : Word}
    (hl : l.all (fun a => a.lastEnd.isNone) = true) :
    (placeSeg inUse l tag off data false psn).all (fun a => a.lastEnd.isNone) = true := by
  unfold placeSeg
  dsimp only
  split
  · refine List.foldlRecOn (motive := fun r : List Assembly × Bool => r.1.all (fun a => a.lastEnd.isNone) = true) l _ rfl ?_
    intro r hr a ha
    have hnone : a.lastEnd.isNone = true := List.all_eq_true.1 hl a ha
    split
    · simpa [hr] using hnone
    · simpa [hr] using hnone
  · simp [hl]

/-- While no message is complete nothing is delivered (R80). -/
theorem deliverAll_none {n : Nat} (hk : sessOf (s.die d) slot = some k) (hnone : k.asm.all (fun a => a.lastEnd.isNone) = true) :
    deliverAll n s d slot = s := by
  have hends : k.asm.filter (fun a => a.lastEnd.isSome) = [] := by
    rw [List.filter_eq_nil_iff]
    intro a ha
    have := List.all_eq_true.1 hnone a ha
    simp_all
  cases n with
  | zero => rfl
  | succ n =>
    unfold deliverAll
    rw [hk]
    simp [nextDeliver, hends, argMin]

/-- A CMD segment that does not end its message is placed in its assembly (R64). -/
theorem cmdSegment_places (hreach : Reaches s d p g) (ha : arrive s d g 0x03 = .good k h body) (hp : Plain k h)
    (hfresh : seqSay k h.psn = .fresh) (hlen : 8 ≤ body.length) (hmore : (body.getD 1 0).getLsbD 0 = false)
    (hasm : k.asm.all (fun a => a.lastEnd.isNone) = true) :
    ∃ t k', exec (.cmdSegment d p g) s = .next t ∧ sessOf (t.die d) k.slot = some k'
      ∧ k'.asm = placeSeg k.tags k.asm (body.getD 0 0) (beAt body 4 4) (body.drop 8) false h.psn
      ∧ (t.die d).csq = (s.die d).csq := by
  obtain ⟨due, hdue⟩ := sequenced_fresh (p := p) ha hp hfresh hlen
  have hseg : cmdSegment s d p g = _ := hdue _
  dsimp only at hseg
  rw [hmore] at hseg
  generalize hk1 : ({ received k p g h with asm := _, tags := _ } : Session) = k1 at hseg
  have hasm1 : k1.asm = placeSeg k.tags k.asm (body.getD 0 0) (beAt body 4 4) (body.drop 8) false h.psn := by
    rw [← hk1]; rfl
  have hslot : (received k p g h).slot = k.slot := rfl
  have hs1 : sessOf ((putSess (putSess s d (received k p g h)) d k1).die d) k.slot = some k1 := by
    rw [show k.slot = k1.slot by rw [← hk1]; rfl]
    exact sessOf_putSess ..
  rw [hslot, deliverAll_none hs1 (by rw [hasm1]; exact placeSeg_ends hasm)] at hseg
  obtain ⟨k2, hk2, hrep, hsend⟩ := ackIfDue_plain (due := due) hs1 (by rw [← hk1]; exact hp.clear)
  refine ⟨_, k2, congrArg Host.Outcome.next ((onPort_of_reaches hreach).trans hseg), hk2, ?_, ?_⟩
  · rw [hrep]
    exact hasm1
  · rw [hsend.csq, sending_putSess.csq, sending_putSess.csq]

/-! ### Sequenced packets of the device -/

/-- A session that has sent or kept packets, and is otherwise as it was. -/
def Follows (k k' : Session) : Prop :=
  k' = { k with edge := k'.edge, ackCount := k'.ackCount, sndNext := k'.sndNext, unacked := k'.unacked, backlog := k'.backlog }

/-- A sequenced packet of an unencrypted session: it goes out when the host's window is open and nothing waits before it. -/
theorem sendSeq_plain (henc : k.enc = false) : ∃ k', (sendSeq s d k pt body).2 = k'
    ∧ sessGen ((sendSeq s d k pt body).1.die d) k.slot k.gen = some k' ∧ sessOf ((sendSeq s d k pt body).1.die d) k.slot = some k'
    ∧ Follows k k' ∧ (txOpen k = true → k.backlog = [] →
        ∃ q, k'.unacked = k.unacked ++ [q] ∧ q.ptype = pt ∧ q.body = body) := by
  unfold sendSeq
  split
  · obtain ⟨q, hq⟩ := transmit_plain (s := s) (d := d) (pt := pt) (psn := k.sndNext) (retx := false) (body := body) henc
    unfold sendNow
    rw [hq]
    exact ⟨_, rfl, sessGen_putSess .., sessOf_putSess .., rfl, fun _ _ => ⟨_, rfl, rfl, rfl⟩⟩
  · next hwait => exact ⟨_, rfl, sessGen_putSess .., sessOf_putSess .., rfl, fun hopen hempty => by simp [hopen, hempty] at hwait⟩

/-- No counter of the session's ends it once the packet is sent. -/
theorem checkNonce_sendSeq (henc : k.enc = false) :
    checkNonce (sendSeq s d k pt body).1 d k.slot = (sendSeq s d k pt body).1 := by
  obtain ⟨k', -, -, hk', hfol, -⟩ := sendSeq_plain (s := s) (d := d) (pt := pt) (body := body) henc
  refine checkNonce_plain fun q hq => ?_
  rw [hk'] at hq
  rw [← Option.some.inj hq, hfol]
  exact henc

/-! ### CLOSE -/

theorem Sending.outstanding (hs : Sending s t) : outstanding t d slot gen = outstanding s d slot gen := by
  unfold Machine.outstanding dieHolds outCmds outReplies
  simp only [hs.csq, hs.out]

/-- The CLOSE of a session that has nothing outstanding is answered at once (R74). -/
theorem maybeClose_closes (hk : sessGen (s.die d) slot gen = some k) (hat : k.closeAt = true) (hsent : k.closeSent = false)
    (hheld : k.held = []) (hout : outstanding s d slot gen = false) (hctrl : (s.die d).csq.controls = []) (henc : k.enc = false) :
    maybeClose s d slot gen = (sendSeq s d { k with closeSent := true, st := .closing } 0x09 (segBytes 0 true 0)).1 := by
  unfold maybeClose
  rw [hk]
  dsimp only
  rw [if_pos (by simp [hat, hsent, hheld, hout, hctrl]), ← (ids_of_sessGen hk).1]
  exact checkNonce_sendSeq (k := { k with closeSent := true, st := .closing }) henc

/-- A PSN precedes the next one. -/
theorem psnBefore_succ (n : Word) : psnBefore n (n + 1) = true := by
  have hone : n + 1 - n = 1 := by
    rw [BitVec.add_comm, BitVec.add_sub_cancel]
  unfold psnBefore
  rw [hone]
  rfl

/-- The mark that stands for a CLOSE in the order of delivery. -/
def closeMark (psn : Word) : Assembly := { tag := 0, segs := [], lastEnd := some 0, lastPsn := psn, isClose := true }

/-- A CLOSE that every packet before it has reached is the next to deliver (R80). -/
theorem nextDeliver_closeMark (hasm : k.asm = [closeMark h.psn]) (hrcv : k.rcvNext = h.psn + 1) :
    nextDeliver k = some (closeMark h.psn) := by
  simp [nextDeliver, hasm, closeMark, argMin, assembled, joinSegs, hrcv]
  exact psnBefore_succ h.psn

/-- A CLOSE in its turn: once delivered it is answered (R74, R80). -/
theorem deliverAll_close {n : Nat} {psn : Word} (hk : sessOf (s.die d) k.slot = some k) (hasm : k.asm = [closeMark psn])
    (hrcv : k.rcvNext = psn + 1) (hsent : k.closeSent = false) (hheld : k.held = [])
    (hout : outstanding s d k.slot k.gen = false) (hctrl : (s.die d).csq.controls = []) (henc : k.enc = false) :
    ∃ k', sessOf ((deliverAll (n + 1) s d k.slot).die d) k.slot = some k'
      ∧ Follows { k with asm := [], closeAt := true, closeSent := true, st := .closing } k'
      ∧ (txOpen k = true → k.backlog = [] → ∃ q, k'.unacked = k.unacked ++ [q] ∧ q.ptype = 0x09 ∧ q.body = segBytes 0 true 0) := by
  have hnext : nextDeliver k = some (closeMark psn) :=
    nextDeliver_closeMark (h := { parsePkt [] with psn := psn }) hasm hrcv
  have hfilter : k.asm.filter (fun b => !(b.lastEnd.isSome && b.lastPsn == (closeMark psn).lastPsn)) = [] := by
    simp [hasm, closeMark]
  have hs : Sending s (putSess (putSess s d { k with asm := [] }) d { k with asm := [], closeAt := true }) :=
    sending_putSess.trans sending_putSess
  have hclose := maybeClose_closes (k := { k with asm := [], closeAt := true }) (sessGen_putSess _ _ _) rfl hsent hheld
    (hs.outstanding.trans hout) (by rw [hs.csq]; exact hctrl) henc
  obtain ⟨k', -, -, hk', hfol, hgo⟩ := sendSeq_plain (k := { k with asm := [], closeAt := true, closeSent := true, st := .closing })
    (s := putSess (putSess s d { k with asm := [] }) d { k with asm := [], closeAt := true }) (d := d) (pt := 0x09)
    (body := segBytes 0 true 0) henc
  refine ⟨k', ?_, hfol, hgo⟩
  unfold deliverAll
  rw [hk]
  dsimp only
  rw [hnext]
  dsimp only
  rw [hfilter, if_pos (show (closeMark psn).isClose = true from rfl)]
  unfold deliverClose
  rw [hclose, deliverAll_none hk' (by rw [hfol]; rfl)]
  exact hk'

/-- A CLOSE whose turn it is, on a session that has nothing outstanding (R74). -/
theorem close_closes (hreach : Reaches s d p g) (ha : arrive s d g 0x08 = .good k h body) (hp : Plain k h)
    (hfresh : seqSay k h.psn = .fresh) (hnext : h.psn = k.rcvNext) (hlen : 8 ≤ body.length) (hasm : k.asm = [])
    (hseen : k.rcvSeen = []) (hheld : k.held = []) (hsent : k.closeSent = false) (hout : outstanding s d k.slot k.gen = false)
    (hctrl : (s.die d).csq.controls = []) :
    ∃ t k', exec (.close d p g) s = .next t ∧ sessOf (t.die d) k.slot = some k' ∧ k'.st = .closing ∧ k'.closeSent = true
      ∧ k'.closeAt = true ∧ (txOpen k = true → ∃ q, k'.unacked = [q] ∧ q.ptype = 0x09 ∧ q.body = segBytes 0 true 0) := by
  obtain ⟨due, hdue⟩ := sequenced_fresh (p := p) ha hp hfresh hlen
  have hrcv : (received k p g h).rcvNext = h.psn + 1 := by
    simp [received, seqIn, heard, hseen, hnext, advanceRcv]
  have hs : Sending s (putSess (putSess s d (received k p g h)) d { received k p g h with asm := [closeMark h.psn] }) :=
    sending_putSess.trans sending_putSess
  obtain ⟨k1, hk1, hfol, hgo⟩ := deliverAll_close (k := { received k p g h with asm := [closeMark h.psn] })
    (s := putSess (putSess s d (received k p g h)) d { received k p g h with asm := [closeMark h.psn] }) (d := d) (n := 1)
    (sessOf_putSess ..) rfl hrcv hsent hheld (hs.outstanding.trans hout) (by rw [hs.csq]; exact hctrl) hp.clear
  obtain ⟨k2, hk2, hrep, -⟩ := ackIfDue_plain (due := due) hk1 (by rw [hfol]; exact hp.clear)
  have hun : k2.unacked = k1.unacked := by rw [hrep]
  refine ⟨_, k2, congrArg Host.Outcome.next ((onPort_of_reaches hreach).trans (hdue _)), ?_, ?_, ?_, ?_, fun hopen => ?_⟩
  · have hasm1 : (received k p g h).asm = [] := hasm
    dsimp only
    rw [hasm1]
    exact hk2
  · rw [hrep, hfol]
  · rw [hrep, hfol]
  · rw [hrep, hfol]
  · obtain ⟨q, hq, hpt, hbody⟩ := hgo hopen hp.backlog
    have hun0 : (received k p g h).unacked = [] := hp.unacked
    exact ⟨q, by rw [hun, hq]; simp [hun0], hpt, hbody⟩

/-! ### ACK -/

/-- An ACK without acknowledgement fields and PING renews what the session copies (R58, R81). -/
theorem ack_renews (hreach : Reaches s d p g) (ha : arrive s d g 0x07 = .good k h body) (hp : Plain k h) (hping : h.ping = false) :
    ∃ t, exec (.ack d p g) s = .next t ∧ sessOf (t.die d) k.slot = some (heard k p g) ∧ (t.die d).csq = (s.die d).csq := by
  refine ⟨putSess s d (heard k p g), congrArg Host.Outcome.next ((onPort_of_reaches hreach).trans ?_), sessOf_putSess ..,
    sending_putSess.csq d⟩
  dsimp only
  rw [deciphered_plain ha hp.clear, ha]
  dsimp only
  rw [hp.heard.ackIn, putSess_putSess rfl, hping]
  rfl

/-- Settles O14: a CMD segment (`cmdSegment_places`), a CLOSE in its turn (`close_closes`) and a plain ACK (`ack_renews`). -/
theorem sessionPackets : Obligations.SessionPackets := by
  unfold Obligations.SessionPackets
  intro s d p g k h body hreach henc hst hun hback hack hping
  have hp : Plain k h := ⟨henc, hst, hun, hback, hack⟩
  exact ⟨fun ha hfresh hlen hmore hasm => cmdSegment_places hreach ha hp hfresh hlen hmore hasm,
    fun ha hfresh hnext hlen hasm hseen hheld hsent hout hctrl =>
      close_closes hreach ha hp hfresh hnext hlen hasm hseen hheld hsent hout hctrl,
    fun ha => ack_renews hreach ha hp hping⟩

end Sys2Proof.Kocel
end

section
/-! ### Grants and granted data -/
namespace Sys2Proof.Kocel
open Sys2Proof Sys2Proof.Machine Sys2Proof.Laws Sys2Proof.Safety
variable {s t : State} {d e : DieId} {p : PortId} {g : Datagram} {k : Session} {h : PktHdr} {body : Bytes} {cid : Nat} {c c' : Cmd}

/-! ### The commands of a die -/

theorem cid_of_cmdOf {x : Die} (hc : cmdOf x cid = some c) : c.cid = cid := by
  simpa using List.find?_some hc

theorem mem_of_cmdOf {x : Die} (hc : cmdOf x cid = some c) : c ∈ x.csq.cmds := List.mem_of_find?_eq_some hc

theorem cmdOf_congr {x y : Die} (hc : y.csq = x.csq) : cmdOf y cid = cmdOf x cid := by
  unfold cmdOf
  rw [hc]

/-- A command that is stored is the one that its die holds under its number. -/
theorem cmdOf_putCmd (hc : c ∈ (s.die d).csq.cmds) (hid : c'.cid = c.cid) :
    cmdOf ((putCmd s d c').die d) c.cid = some c' := by
  unfold cmdOf putCmd
  rw [die_updDie_self]
  dsimp only
  rw [hid]
  generalize (s.die d).csq.cmds = l at hc
  induction l with
  | nil => cases hc
  | cons q l ih =>
    rw [List.map_cons]
    by_cases hq : q.cid = c.cid
    · simp [hq, hid]
    · rcases List.mem_cons.1 hc with rfl | hc
      · exact absurd rfl hq
      · simpa [hq] using ih hc

/-- An event of a command that its die holds. -/
theorem cmdOf_putCmd_of_cmdOf (hc : cmdOf (s.die d) cid = some c) (hid : c'.cid = c.cid) :
    cmdOf ((putCmd s d c').die d) cid = some c' := by
  rw [← cid_of_cmdOf hc]
  exact cmdOf_putCmd (mem_of_cmdOf hc) hid

theorem ktp_putCmd : ((putCmd s d c).die e).ktp = (s.die e).ktp := by
  unfold putCmd
  rw [die_updDie]
  split
  · next he => rw [he]
  · rfl

/-- A command that is found by its tag is one of the commands of its die. -/
theorem mem_of_tagCmd {home : DieId} {slot gen : Nat} {tag : Byte} (hc : tagCmd s home slot gen tag = some (e, c)) :
    c ∈ (s.die e).csq.cmds := by
  have hmem := List.mem_of_head? hc
  obtain ⟨x, -, hx⟩ := List.mem_filterMap.1 hmem
  obtain ⟨q, hq, hpair⟩ := Option.map_eq_some_iff.1 hx
  obtain ⟨rfl, rfl⟩ := Prod.mk.inj hpair
  exact List.mem_of_find?_eq_some hq

/-- Sending packets leaves it alone which command carries a tag. -/
theorem Sending.tagCmd {home : DieId} {slot gen : Nat} {tag : Byte} (hs : Sending s t) :
    tagCmd t home slot gen tag = tagCmd s home slot gen tag := by
  unfold Machine.tagCmd
  simp only [hs.csq]

/-! ### GRANT_ISSUE and GRANT_TIMEOUT -/

/-- The next grant of a command: at most GRANT_SIZE, behind the last one (R104). -/
def withGrant (s : State) (d : DieId) (c : Cmd) : Cmd :=
  let len := min (dfld s d Page.ktp 0x54 7 0 * 65536) (c.hdr.valueLen - c.nextOff)
  { c with grants := c.grants ++ [{ off := c.nextOff, len := len, got := 0 }], nextOff := c.nextOff + len, gseq := c.gseq + 1 }

/-- GRANT_ISSUE opens the next grant and sends its XFER_RDY (R104). -/
theorem grantIssue_grants (hrun : running s d = true) (hc : cmdOf (s.die d) cid = some c) (hphase : c.phase = .granting)
    (hmore : c.nextOff < c.hdr.valueLen) (hfew : c.grants.length < dfld s d Page.ktp 0x54 15 8) (hcrit : poolCrit (s.die d) = false)
    (hk : sessGen (s.die c.home) c.slot c.gen = some k) (henc : k.enc = false) :
    ∃ t, exec (.grantIssue d cid) s = .next t ∧ cmdOf (t.die d) cid = some (withGrant s d c)
      ∧ (txOpen k = true → k.backlog = [] → ∃ k' q, sessGen (t.die c.home) c.slot c.gen = some k' ∧ k'.unacked = k.unacked ++ [q]
          ∧ q.ptype = 0x05 ∧ q.body = xferRdy c.tag c.nextOff (min (dfld s d Page.ktp 0x54 7 0 * 65536) (c.hdr.valueLen - c.nextOff))
              (c.gseq % 65536)) := by
  obtain ⟨hslot, hgen⟩ := ids_of_sessGen hk
  obtain ⟨k', -, hk', -, -, hgo⟩ := sendSeq_plain (s := putCmd s d (withGrant s d c)) (d := c.home) (k := k) (pt := 0x05)
    (body := xferRdy c.tag c.nextOff (min (dfld s d Page.ktp 0x54 7 0 * 65536) (c.hdr.valueLen - c.nextOff)) (c.gseq % 65536)) henc
  have hcheck := checkNonce_sendSeq (s := putCmd s d (withGrant s d c)) (d := c.home) (k := k) (pt := 0x05)
    (body := xferRdy c.tag c.nextOff (min (dfld s d Page.ktp 0x54 7 0 * 65536) (c.hdr.valueLen - c.nextOff)) (c.gseq % 65536)) henc
  rw [hslot] at hcheck
  rw [hslot, hgen] at hk'
  refine ⟨(sendSeq (putCmd s d (withGrant s d c)) c.home k 0x05 (xferRdy c.tag c.nextOff
    (min (dfld s d Page.ktp 0x54 7 0 * 65536) (c.hdr.valueLen - c.nextOff)) (c.gseq % 65536))).1, ?_, ?_, fun hopen hempty => ?_⟩
  · refine congrArg Host.Outcome.next ((Access.onDie_of_running hrun).trans ?_)
    rw [hc]
    dsimp only
    rw [if_pos ⟨hphase, hmore, hfew, hcrit⟩, hk]
    exact hcheck
  · rw [cmdOf_congr (sending_sendSeq.csq d)]
    exact cmdOf_putCmd_of_cmdOf hc rfl
  · obtain ⟨q, hq⟩ := hgo hopen hempty
    exact ⟨k', q, hk', hq⟩

/-- GRANT_TIMEOUT ends the command with ABORTED (R104). -/
theorem grantTimeout_aborts (hrun : running s d = true) (hc : cmdOf (s.die d) cid = some c) (hphase : c.phase = .granting)
    (hgrants : c.grants ≠ []) (hstop : (s.die d).csq.tmoStop = false) :
    exec (.grantTimeout d cid) s = .next (fail s d c Stat.aborted) := by
  refine congrArg Host.Outcome.next ((Access.onDie_of_running hrun).trans ?_)
  rw [hc]
  exact if_pos ⟨hphase, hgrants, hstop⟩

/-! ### DATA_OUT -/

/-- A grant that is still open lacks some bytes. -/
theorem got_lt_of_mem_grantTake {off : Nat} {data : Bytes} {q : Grant} (hq : q ∈ (grantTake c off data).grants) : q.got < q.len := by
  simpa using (List.mem_filter.1 hq).2

theorem dataReady_grants : (dataReady s c).grants = c.grants := by
  unfold dataReady
  dsimp only
  split <;> rfl

theorem dataReady_cid : (dataReady s c).cid = c.cid := by
  unfold dataReady
  dsimp only
  split <;> rfl

/-- While no activation pauses the device, a command that still waits has only the segments that came. -/
theorem dataReady_waits (hoff : s.pkg.act.on = false) (hphase : (dataReady s c).phase = .granting) : dataReady s c = c := by
  unfold dataReady at hphase ⊢
  dsimp only at hphase ⊢
  split
  · next hall =>
    rw [if_pos hall, hoff] at hphase
    simp only [Bool.false_eq_true, if_false] at hphase
    split at hphase <;> cases hphase
  · rfl

/-- A command that goes on has its whole value. -/
theorem dataReady_value (hphase : c.phase = .granting) (hgo : (dataReady s c).phase ≠ .granting) :
    (dataReady s c).value.length = c.hdr.valueLen := by
  unfold dataReady at hgo ⊢
  dsimp only at hgo ⊢
  split
  · next hall => simpa using hall
  · next hpart =>
    rw [if_neg hpart] at hgo
    exact absurd hphase hgo

theorem Sending.dataReady (hs : Sending s t) : dataReady t c = dataReady s c := by
  unfold Machine.dataReady
  rw [hs.pkg]

/-- A segment within an open grant is kept with its command (R104). -/
theorem dataOut_keeps (hreach : Reaches s d p g) (ha : arrive s d g 0x06 = .good k h body) (hp : Plain k h)
    (hfresh : seqSay k h.psn = .fresh) (hlen : 8 ≤ body.length) (htag : tagCmd s d k.slot k.gen (body.getD 0 0) = some (e, c))
    (htakes : takesGrants c.hdr = true) (hphase : c.phase = .granting)
    (hin : (grantFor c (beAt body 4 4) (body.length - 8)).isSome = true) :
    ∃ t, exec (.dataOut d p g) s = .next t
      ∧ cmdOf (t.die e) c.cid = some (dataReady s (grantTake c (beAt body 4 4) (body.drop 8))) := by
  obtain ⟨due, hdue⟩ := sequenced_fresh (p := p) ha hp hfresh hlen
  have hs : Sending s (putSess s d (received k p g h)) := sending_putSess
  have hdata : dataOut s d p g = _ := hdue _
  dsimp only at hdata
  rw [hs.tagCmd, show (received k p g h).slot = k.slot from rfl, show (received k p g h).gen = k.gen from rfl, htag] at hdata
  dsimp only at hdata
  rw [htakes, if_neg (by simp), List.length_drop, if_pos ⟨hphase, hin⟩, hs.dataReady] at hdata
  have hput : cmdOf ((putCmd (putSess s d (received k p g h)) e (dataReady s (grantTake c (beAt body 4 4) (body.drop 8)))).die e) c.cid
      = some (dataReady s (grantTake c (beAt body 4 4) (body.drop 8))) :=
    cmdOf_putCmd (by rw [hs.csq]; exact mem_of_tagCmd htag) dataReady_cid
  have hsess : sessOf ((putCmd (putSess s d (received k p g h)) e (dataReady s (grantTake c (beAt body 4 4) (body.drop 8)))).die d) k.slot
      = some (received k p g h) := by
    rw [sessOf_congr ktp_putCmd]
    exact sessOf_putSess ..
  obtain ⟨-, -, -, hsend⟩ := ackIfDue_plain (due := due) hsess hp.clear
  exact ⟨_, congrArg Host.Outcome.next ((onPort_of_reaches hreach).trans hdata), (cmdOf_congr (hsend.csq e)).trans hput⟩

/-- Settles O15: a grant is issued (`grantIssue_grants`), one that gets nothing ends its command (`grantTimeout_aborts`), and data
within it stays with the command (`dataOut_keeps`). -/
theorem dataGrants : Obligations.DataGrants := by
  unfold Obligations.DataGrants
  refine ⟨fun s d cid c hrun hc hphase => ⟨fun k hmore hfew hcrit hk henc => ?_, fun hgrants hstop => ?_⟩,
    fun s d e p g k h body c hreach henc hst hun hback hack ha hfresh hlen htag hop hlong hphase hin _ => ?_⟩
  · obtain ⟨t, ht, hct, hsent⟩ := grantIssue_grants hrun hc hphase hmore hfew hcrit hk henc
    exact ⟨t, _, ht, hct, rfl, rfl, rfl, hphase, hsent⟩
  · refine ⟨_, grantTimeout_aborts hrun hc hphase hgrants hstop, ?_, fun k hk => complete_plain s d c k _ _ _ _ _ hk⟩
    rw [← cid_of_cmdOf hc]
    exact complete_gone ..
  · obtain ⟨t, ht, hct⟩ := dataOut_keeps hreach ha ⟨henc, hst, hun, hback, hack⟩ hfresh hlen htag
      (by simp [takesGrants, hop, hlong]) hphase hin
    refine ⟨t, _, ht, hct, rfl, fun q hq => ?_, fun hoff hwait => ?_, fun hoff hgo => dataReady_value (by exact hphase) hgo⟩
    · rw [dataReady_grants] at hq
      exact got_lt_of_mem_grantTake hq
    · rw [dataReady_waits hoff hwait]
      rfl

end Sys2Proof.Kocel
end

section
/-! ### PUT, WRITE, DELETE and TRIM up to admission -/
namespace Sys2Proof.Kocel
open Sys2Proof Sys2Proof.Machine Sys2Proof.Laws Sys2Proof.Safety
variable {s : State} {d : DieId} {cid op : Nat} {c : Cmd} {f : State → Cmd → State} {l : List Nat}

/-- The event of a dispatched command is the command's. -/
theorem onCmd_of_hasCmd (hc : HasCmd s d cid op c) : onCmd s d cid op f = f s c := by
  obtain ⟨hrun, hcmd, hphase, hop⟩ := hc
  unfold onCmd
  rw [Access.onDie_of_running hrun, hcmd]
  exact if_pos ⟨hphase, hop⟩

theorem withPages_here (h : pagesHere (s.die d) c l = true) : withPages s d c l f = f (touchAll s d c l) c := if_pos h

theorem withPages_missed (h : pagesHere (s.die d) c l = false) :
    withPages s d c l f = putCmd (touchAll s d c l) d { c with missed := true } := if_neg (by simp [h])

/-- A command whose pages could be read and are at hand runs (R197). -/
theorem afterLookup_here (hfail : c.failed = false) (h : pagesHere (s.die d) c (lookupPages (s.die d) d c) = true) :
    afterLookup s d c f = f (touchAll s d c (lookupPages (s.die d) d c)) c := by
  unfold afterLookup
  rw [if_neg (by simp [hfail])]
  exact withPages_here h

/-- A command that lacks a page waits for it (R197). -/
theorem afterLookup_missed (hfail : c.failed = false) (h : pagesHere (s.die d) c (lookupPages (s.die d) d c) = false) :
    afterLookup s d c f = putCmd (touchAll s d c (lookupPages (s.die d) d c)) d { c with missed := true } := by
  unfold afterLookup
  rw [if_neg (by simp [hfail])]
  exact withPages_missed h

/-- An event of a dispatched command that goes on once its pages are at hand. -/
theorem exec_afterLookup {i : Instr} {g : State → Cmd → State} {u : State} (hexec : exec i s = .next (onCmd s d cid op f))
    (hf : f = fun s c => afterLookup s d c g) (hc : HasCmd s d cid op c) (h : afterLookup s d c g = u) : exec i s = .next u := by
  rw [hexec, onCmd_of_hasCmd hc, hf, ← h]

/-- Settles O19: a command whose pages are not at hand waits (`afterLookup_missed`); one whose pages are is refused or goes on
(`afterLookup_here`). -/
theorem writersWait : Obligations.WritersWait := by
  unfold Obligations.WritersWait
  rintro s s1 d cid c rfl hfail
  refine ⟨fun hhere => ⟨fun hc hno => ?_, fun hc hno => ?_, fun hc hno => ?_, fun hc hwritable hns => ?_⟩,
    fun hmiss => ⟨fun hc => ?_, fun hc => ?_, fun hc => ?_, fun hc => ?_⟩, fun hshort => if_neg (Nat.not_lt.2 hshort),
    fun hlong => if_pos hlong⟩
  · exact exec_afterLookup rfl rfl hc ((afterLookup_here hfail hhere).trans (by rw [hno]))
  · exact exec_afterLookup rfl rfl hc ((afterLookup_here hfail hhere).trans (by rw [hno]))
  · exact exec_afterLookup rfl rfl hc ((afterLookup_here hfail hhere).trans (by rw [hno]))
  · refine exec_afterLookup rfl rfl hc ((afterLookup_here hfail hhere).trans ?_)
    rw [if_neg (by simp [hwritable]), if_neg (by simpa [Option.isSome_iff_ne_none] using hns)]
  · exact exec_afterLookup rfl rfl hc (afterLookup_missed hfail hmiss)
  · exact exec_afterLookup rfl rfl hc (afterLookup_missed hfail hmiss)
  · exact exec_afterLookup rfl rfl hc (afterLookup_missed hfail hmiss)
  · exact exec_afterLookup rfl rfl hc (afterLookup_missed hfail hmiss)

end Sys2Proof.Kocel
end

section
/-! ### Answering, whatever else has changed -/
namespace Sys2Proof.Kocel
open Sys2Proof Sys2Proof.Machine Sys2Proof.Laws Sys2Proof.Safety
variable {s t u : State} {d : DieId} {cid n m : Nat} {c c' : Cmd} {k : Session}

/-- A state that answers commands as another one does: the sessions, the controls and the ways between the dies are the same. -/
structure AnswersAs (s t : State) : Prop where
  ktp      : ∀ e, (t.die e).ktp = (s.die e).ktp
  controls : ∀ e, (t.die e).csq.controls = (s.die e).csq.controls
  swm      : ∀ e, (t.die e).swm = (s.die e).swm
  out      : ∀ e, (t.die e).out = (s.die e).out
  part     : t.part = s.part

protected theorem AnswersAs.rfl (s : State) : AnswersAs s s := ⟨fun _ => rfl, fun _ => rfl, fun _ => rfl, fun _ => rfl, rfl⟩

protected theorem AnswersAs.trans (h : AnswersAs s t) (h' : AnswersAs t u) : AnswersAs s u :=
  ⟨fun e => (h'.ktp e).trans (h.ktp e), fun e => (h'.controls e).trans (h.controls e), fun e => (h'.swm e).trans (h.swm e),
    fun e => (h'.out e).trans (h.out e), h'.part.trans h.part⟩

/-- A change of a die beside its sessions, its controls and the ways to it. -/
theorem answersAs_updDie (f : Die → Die)
    (h : ∀ x, (f x).ktp = x.ktp ∧ (f x).csq.controls = x.csq.controls ∧ (f x).swm = x.swm ∧ (f x).out = x.out) :
    AnswersAs s (s.updDie d f) := by
  have hdie : ∀ e, ((s.updDie d f).die e).ktp = (s.die e).ktp ∧ ((s.updDie d f).die e).csq.controls = (s.die e).csq.controls
      ∧ ((s.updDie d f).die e).swm = (s.die e).swm ∧ ((s.updDie d f).die e).out = (s.die e).out := by
    intro e
    rw [die_updDie]
    split
    · next he => exact he ▸ h (s.die e)
    · exact ⟨rfl, rfl, rfl, rfl⟩
  exact ⟨fun e => (hdie e).1, fun e => (hdie e).2.1, fun e => (hdie e).2.2.1, fun e => (hdie e).2.2.2, rfl⟩

theorem answersAs_putCmd : AnswersAs s (putCmd s d c) := answersAs_updDie _ fun _ => ⟨rfl, rfl, rfl, rfl⟩

theorem answersAs_regBump {a v : Nat} : AnswersAs s (regBump s a v) :=
  ⟨fun _ => rfl, fun _ => rfl, fun _ => rfl, fun _ => rfl, rfl⟩

theorem answersAs_draws : AnswersAs s { s with draws := n } := ⟨fun _ => rfl, fun _ => rfl, fun _ => rfl, fun _ => rfl, rfl⟩

theorem answersAs_cryBlocks : AnswersAs s (cryBlocks s d n) := by
  unfold cryBlocks pipeRun drawChoice
  exact (answersAs_draws.trans answersAs_draws).trans (answersAs_updDie _ fun _ => ⟨rfl, rfl, rfl, rfl⟩)

theorem answersAs_cryUnits : AnswersAs s (cryUnits d n s) := by
  induction n generalizing s with
  | zero => exact .rfl s
  | succ n ih => exact answersAs_cryBlocks.trans ih

theorem AnswersAs.canReply (h : AnswersAs s t) (hc : CanReply s c k n) : CanReply t c k n :=
  { hc with
    session := (sessGen_congr (h.ktp _)).trans hc.session
    alone := by
      have halone := hc.alone
      unfold lateAbort at halone ⊢
      rw [h.controls]
      exact halone
    direct := fun e => (waitsOut_congr h.swm h.out h.part e _).trans (hc.direct e) }

/-- What a command's answer needs is its session, its tag and its number. -/
theorem canReply_of_same (hc : CanReply s c k n) (hn : m = n)
    (h : c'.home = c.home ∧ c'.slot = c.slot ∧ c'.gen = c.gen ∧ c'.noReply = c.noReply ∧ c'.cid = c.cid) : CanReply s c' k m := by
  obtain ⟨hhome, hslot, hgen, hno, hcid⟩ := h
  exact ⟨by rw [hhome, hslot, hgen]; exact hc.session, hno.trans hc.wanted, hc.clear, hc.window, hc.empty, hn ▸ hc.fits, hc.stays,
    hc.free, by rw [hhome, hcid]; exact hc.alone, by rw [hhome]; exact hc.direct⟩

/-- An event after which a command has left its die, with its reply on its session. -/
theorem complete_answers {st aux ver len : Nat} {data : Bytes} (hcid : c.cid = cid) (h : AnswersAs s t) (hk : CanReply s c k data.length) :
    cmdOf ((complete t d c st aux ver len data).die d) cid = none
      ∧ Replied (complete t d c st aux ver len data) c k (replyBytes c.hdr.opcode st 0 aux ver len data) :=
  ⟨hcid ▸ complete_gone .., complete_plain t d c k _ _ _ _ _ (h.canReply hk)⟩

/-! ### Flash reads of a command -/

theorem queueOp_spec {kind : OpKind} {src : OpFrom} {l : BitVec 56} {urgent parity : Bool} {stripe : Option Nat} {cws : Nat} :
    ((queueOp s d kind src l urgent stripe parity cws).die d).flash.ops.length = (s.die d).flash.ops.length + 1
      ∧ ((queueOp s d kind src l urgent stripe parity cws).die d).csq = (s.die d).csq := by
  unfold queueOp
  rw [die_updDie_self]
  exact ⟨by simp, rfl⟩

/-- One read is queued for each page, and the commands stay. -/
theorem queueReads_spec {l : List (BitVec 56 × Nat)} :
    ((queueReads s d c l).die d).flash.ops.length = (s.die d).flash.ops.length + l.length
      ∧ ((queueReads s d c l).die d).csq = (s.die d).csq := by
  unfold queueReads
  induction l generalizing s with
  | nil => exact ⟨rfl, rfl⟩
  | cons p l ih =>
    rw [List.foldl_cons, ih.1, ih.2, queueOp_spec.1, queueOp_spec.2, List.length_cons]
    exact ⟨by omega, rfl⟩

/-- The pipelines run, and nothing else of the die changes. -/
theorem cryBlocks_spec : ((cryBlocks s d n).die d).flash = (s.die d).flash ∧ ((cryBlocks s d n).die d).csq = (s.die d).csq := by
  unfold cryBlocks pipeRun drawChoice
  rw [die_updDie_self]
  exact ⟨rfl, rfl⟩

theorem cryUnits_spec : ((cryUnits d n s).die d).flash = (s.die d).flash ∧ ((cryUnits d n s).die d).csq = (s.die d).csq := by
  induction n generalizing s with
  | zero => exact ⟨rfl, rfl⟩
  | succ n ih =>
    obtain ⟨hflash, hcsq⟩ := ih (s := cryBlocks s d 257)
    exact ⟨hflash.trans cryBlocks_spec.1, hcsq.trans cryBlocks_spec.2⟩

end Sys2Proof.Kocel
end

section
/-! ### READ -/
namespace Sys2Proof.Kocel
open Sys2Proof Sys2Proof.Machine Sys2Proof.Laws Sys2Proof.Safety
variable {s : State} {d : DieId} {cid m : Nat} {c : Cmd} {k : Session} {n : NsEntry} {x : DataSlot} {v : Bytes}

/-- A READ once its locations are fixed: it holds them, waits for their reads, and has released its hazard (R122, R123, R186). -/
def fixedRead (y : Die) (d : DieId) (c : Cmd) (n : NsEntry) (key : Bytes) : Cmd :=
  { c with
    phase := .reading
    value := (readData y d c n key).1
    failed := !(readData y d c n key).2
    reads := (readLocs y d c n).length
    released := true
    holds := readLocs y d c n }

/-- The map lookup of a READ in a namespace with a data key: the pipelines run, a read of each unit on flash is queued, and without
one the command is answered (R100, R122). -/
theorem readBlocks_of_ns (hns : nsOf (s.die d) c.tenant c.hdr.nsid = some n) (hx : xtsSlot (s.die d).cry c.tenant c.hdr.nsid = some x) :
    ∃ m, readBlocks s d c
      = let c1 := fixedRead (s.die d) d c n (dataKey (s.die d).cry x)
        let s2 := queueReads (cryUnits d m (putCmd s d c1)) d c1 ((readLocs (s.die d) d c n).map (fun l => (l, 1)))
        if (readLocs (s.die d) d c n).isEmpty then finishBlocks s2 d c1 else s2 := by
  unfold readBlocks
  rw [hns]
  dsimp only
  rw [hx]
  exact ⟨_, rfl⟩

/-- A READ with units on flash waits for one read of each. -/
theorem readBlocks_waits (hc : cmdOf (s.die d) cid = some c) (hns : nsOf (s.die d) c.tenant c.hdr.nsid = some n)
    (hx : xtsSlot (s.die d).cry c.tenant c.hdr.nsid = some x) (hlocs : readLocs (s.die d) d c n ≠ []) :
    cmdOf ((readBlocks s d c).die d) cid = some (fixedRead (s.die d) d c n (dataKey (s.die d).cry x))
      ∧ ((readBlocks s d c).die d).flash.ops.length = (s.die d).flash.ops.length + (readLocs (s.die d) d c n).length := by
  obtain ⟨m, hm⟩ := readBlocks_of_ns hns hx
  rw [hm]
  dsimp only
  rw [if_neg (by simpa using hlocs), queueReads_spec.1, cmdOf_congr queueReads_spec.2, cmdOf_congr cryUnits_spec.2, cryUnits_spec.1,
    List.length_map]
  refine ⟨cmdOf_putCmd_of_cmdOf hc rfl, ?_⟩
  unfold putCmd
  rw [die_updDie_self]

/-- A READ without a unit on flash is answered with its bytes. -/
theorem readBlocks_answers (hc : cmdOf (s.die d) cid = some c) (hns : nsOf (s.die d) c.tenant c.hdr.nsid = some n)
    (hx : xtsSlot (s.die d).cry c.tenant c.hdr.nsid = some x) (hlocs : readLocs (s.die d) d c n = [])
    (hdata : readData (s.die d) d c n (dataKey (s.die d).cry x) = (v, true)) (hk : CanReply s c k v.length) :
    cmdOf ((readBlocks s d c).die d) cid = none
      ∧ Replied (readBlocks s d c) c k (replyBytes c.hdr.opcode Stat.ok 0 0 0 v.length v) := by
  obtain ⟨m, hm⟩ := readBlocks_of_ns hns hx
  have hvalue : (fixedRead (s.die d) d c n (dataKey (s.die d).cry x)).value = v := by simp [fixedRead, hdata]
  have hok : (fixedRead (s.die d) d c n (dataKey (s.die d).cry x)).failed = false := by simp [fixedRead, hdata]
  rw [hm, hlocs]
  dsimp only [List.map_nil, queueReads, List.foldl_nil]
  rw [if_pos (by rfl)]
  unfold finishBlocks
  rw [if_neg (by simp [hok]), hvalue]
  have hid : c.cid = cid := cid_of_cmdOf hc
  exact complete_answers (c := fixedRead (s.die d) d c n (dataKey (s.die d).cry x)) hid
    (answersAs_putCmd.trans answersAs_cryUnits) (canReply_of_same hk rfl ⟨rfl, rfl, rfl, rfl, rfl⟩)

/-- Settles O21: with its pages at hand a READ waits for its units on flash (`readBlocks_waits`) or is answered
(`readBlocks_answers`). -/
theorem readBlocks : Obligations.ReadBlocks := by
  unfold Obligations.ReadBlocks
  rintro s s1 d cid c hc hfail rfl
  refine ⟨fun hmiss => exec_afterLookup rfl rfl hc (afterLookup_missed hfail hmiss), fun n x hhere hc1 hns hx => ?_⟩
  obtain ⟨-, hcmd, -, hop⟩ := hc1
  have hexec := exec_afterLookup (i := .read d cid) (g := fun s c => Machine.readBlocks s d c) rfl rfl hc (afterLookup_here hfail hhere)
  refine ⟨fun hlocs => ?_, fun k v hlocs hdata hk => ?_⟩
  · obtain ⟨hwait, hops⟩ := readBlocks_waits hcmd hns hx hlocs
    exact ⟨_, _, hexec, hwait, rfl, rfl, rfl, rfl, hops⟩
  · obtain ⟨hgone, hreply⟩ := readBlocks_answers hcmd hns hx hlocs hdata hk
    rw [hop] at hreply
    exact ⟨_, hexec, hgone, hreply⟩

end Sys2Proof.Kocel
end

section
/-! ### RESET_SESSION: a counterexample

An ABORT may wait for the reply of a command of another session. When the barrier of a RESET_SESSION discards that command, the ABORT is
answered; if its session is encrypted and its counter runs out with that reply, the session ends and its termination barrier goes to
every die, behind the one that was just taken (R90). -/
namespace Sys2Proof.Kocel
open Sys2Proof Sys2Proof.Machine Sys2Proof.Laws Sys2Proof.Safety

/-- An encrypted session whose NONCE_CTR has come to its end. -/
def spentSession : Session :=
  { slot := 1, gen := 0, tenant := 3, enc := true, st := .established, v6 := false, peerIp := 0, peerUdp := 0, peerMac := 0,
    vlan := none, pcp := 0, dscp := 0, port := 0, hostNonce := [], openReply := [], maxSeg := 1400, rcvNext := 0, rcvSeen := [],
    edge := 0, asm := [], ackCount := 0, replayTop := none, replaySet := [], sndNext := 0, sndEdge := 64, unacked := [],
    backlog := [], srtt := none, rttvar := 0, rto := 100000, backoff := 100000, txCtr := 2 ^ 64 - 1, tags := [], held := [],
    rateHold := false, resetting := none, closeAt := false, closeSent := false }

/-- A command without operands of the session in a slot of die 0. -/
def bareCmd (cid slot op : Nat) : Cmd :=
  { cid := cid, home := 0, slot := slot, gen := 0, tag := 0, tenant := 3,
    hdr := { opcode := op, cls := 1, mflags := 0, nsid := 0, keyLen := 0, valueLen := 0, version := 0, arg := 0 },
    key := [], inline := [], hash := 0, cls := 1, owner := 0, seq := 0, phase := .queued, core := 0, arrived := 0, chgCls := 1,
    funded := false, noReply := false, grants := [], nextOff := 0, gseq := 0, got := [], value := [], fixed := none, ra := none,
    reads := 0, failed := false, waits := [], released := false }

/-- Die 0 is about to take the barrier of a RESET_SESSION of slot 0; an ABORT of the spent session in slot 1 waits for a command that
the barrier discards. -/
def resetState : State :=
  { State.reset with
    dies := (Vector.replicate 8 ({} : Die)).set 0
      { phase := .up
        ktp := { sessions := [spentSession] }
        csq := { barriers := [.reset 0 0 0 7], inbox := [bareCmd 1 0 Op.nop],
                 controls := [{ bareCmd 2 1 Op.abort with target := some 1 }] } } }

theorem resetState_serves : running resetState 0 = true ∧ waitsOut resetState 0 0 = false ∧ resetState.guard.entry = 0
    ∧ sessGen (resetState.die 0) 0 0 = none := by decide +kernel

/-- The barriers of die 0 in the state that a command answers with. -/
def barriersAfter (o : Out) : List Barrier :=
  match o with
  | .next t => (t.die 0).csq.barriers
  | _ => []

/-- The termination barrier of the session that has just ended stands behind the one that was taken. -/
theorem resetState_barriers : barriersAfter (exec (.resetSessionBarrier 0) resetState) = [.terminate 0 1 0] := by decide +kernel

/-- Refutes O23: taking the barrier of a RESET_SESSION may leave one barrier more than the rest (`resetState_barriers`). -/
theorem not_abortAndReset : ¬ Obligations.AbortAndReset := by
  unfold Obligations.AbortAndReset
  intro h
  obtain ⟨hrun, hroute, hentry, hsess⟩ := resetState_serves
  obtain ⟨t, ht, hrest, -⟩ := (h.2 resetState 0 0 7 hrun hrun hroute hentry).2 0 0 [] rfl fun k hk => by simp [hsess] at hk
  have hmore := resetState_barriers
  rw [ht] at hmore
  exact absurd (hrest.symm.trans hmore) (by decide)

end Sys2Proof.Kocel
end

section
/-! ### Admin commands that read -/
namespace Sys2Proof.Kocel
open Sys2Proof Sys2Proof.Machine Sys2Proof.Laws Sys2Proof.Safety
variable {s t u : State} {d e : DieId} {cid op : Nat} {c : Cmd} {k : Session} {a : Nat} {q : RegSpec}

/-- An event whose command completes in a state that answers as the one before: it has left its die, and its reply is sent. -/
theorem exec_complete {i : Instr} {f : State → Cmd → State} {st aux ver len : Nat} {data : Bytes} (hexec : exec i s = .next (onCmd s d cid op f))
    (hc : HasCmd s d cid op c) (hf : f s c = complete t d c st aux ver len data) (ht : AnswersAs s t) (hk : CanReply s c k data.length) :
    exec i s = .next (complete t d c st aux ver len data) ∧ cmdOf ((complete t d c st aux ver len data).die d) cid = none
      ∧ Replied (complete t d c st aux ver len data) c k (replyBytes op st 0 aux ver len data) := by
  obtain ⟨hgone, hreply⟩ := complete_answers (st := st) (aux := aux) (ver := ver) (len := len) (cid_of_cmdOf hc.2.1) ht hk
  have hop : c.hdr.opcode = op := hc.2.2.2
  rw [hop] at hreply
  exact ⟨by rw [hexec, onCmd_of_hasCmd hc, hf], hgone, hreply⟩

/-- The same for a command that completes with a status alone. -/
theorem exec_fail {i : Instr} {f : State → Cmd → State} {st : Nat} (hexec : exec i s = .next (onCmd s d cid op f))
    (hc : HasCmd s d cid op c) (hf : f s c = fail t d c st) (ht : AnswersAs s t) (hk : CanReply s c k 0) :
    exec i s = .next (fail t d c st) ∧ cmdOf ((fail t d c st).die d) cid = none
      ∧ Replied (fail t d c st) c k (replyBytes op st 0 0 0 0 []) :=
  exec_complete (data := []) hexec hc hf ht hk

/-- METER_READ of a minute in the log, with room for one minute at least (R391). -/
theorem meterRead_sends {m : Sealed} {rest : List Sealed} {b : Bytes} {n : Nat}
    (hlog : s.mtr.log.dropWhile (fun q => q.minute != c.hdr.arg) = m :: rest)
    (hroom : takeWhole c.hdr.valueLen ((m :: rest).map (minuteFor c.tenant)) = (b, n + 1)) :
    meterRead s d c = complete s d c Stat.ok (n + 1) 0 0 b := by
  unfold meterRead
  rw [hlog]
  dsimp only
  rw [hroom, if_neg (Nat.succ_ne_zero n)]
  rfl

/-- LOG_READ of a log of a die that is there (R401). -/
theorem logRead_sends {sel cursor : Nat} {b : Bytes} {n : Nat} (hsel : 1 ≤ sel) (hsel' : sel ≤ 4) (hcursor : cursor < 2 ^ 32)
    (harg : c.hdr.arg = sel * 2 ^ 56 + e.val * 2 ^ 32 + cursor) (hpresent : present s e = true) (hfence : (s.die e).phase ≠ .fenced)
    (hroom : takeWhole c.hdr.valueLen ((logEntries s e sel cursor).map (fun p => p.2)) = (b, n)) :
    logRead s d c = complete s d c Stat.ok (nextCursor (logEntries s e sel cursor) n) 0 0 b := by
  have he : e.val < 8 := e.isLt
  have h1 : bitsOf c.hdr.arg 63 56 = sel := by simp only [bitsOf, Nat.shiftRight_eq_div_pow]; omega
  have h2 : bitsOf c.hdr.arg 39 32 = e.val := by simp only [bitsOf, Nat.shiftRight_eq_div_pow]; omega
  have h3 : bitsOf c.hdr.arg 31 0 = cursor := by simp only [bitsOf, Nat.shiftRight_eq_div_pow]; omega
  have hdie : dieOf e.val = e := Fin.ext (Nat.mod_eq_of_lt he)
  unfold logRead
  rw [h1, h2, h3]
  dsimp only
  rw [hdie, if_neg (by omega), if_neg (by simp [hpresent, hfence]), hroom]
  rfl

/-- A read of a register of CSQ gives its word and changes nothing else. -/
theorem readAligned_csq {r : Requester} (h : RegOpen s .csq a q) (hal : a % 4 = 0) :
    readAligned s r a = answerWith s (viewReg s a) := by
  obtain ⟨hblock, hoff, -, hreach, -⟩ := h
  unfold readAligned
  rw [if_pos hal, Access.readReg_of_reachable hreach]
  unfold readOpen
  dsimp only
  rw [Access.isLo_csq hblock, if_neg (by simp), Access.isHi_csq hblock hoff, if_neg (by simp), hblock]
  exact if_neg (by omega)

/-- REG_READ of one register of CSQ answers with its word (R102). -/
theorem regRead_sends (hopen : RegOpen s .csq a q) (harg : c.hdr.arg % 2 ^ 32 = a) (hal : a % 4 = 0) (hlen : c.hdr.valueLen = 1) :
    readRun (c.hdr.arg % 2 ^ 32) c.hdr.valueLen s [] = (answerWith s (viewReg s a), [viewReg s a]) := by
  have hmod : a % 2 ^ 32 = a := by rw [← harg, Nat.mod_mod]
  rw [harg, hlen]
  simp only [readRun, hmod, readAligned_csq hopen hal]
  rfl

theorem answersAs_answer {l : Answer} : AnswersAs s { s with answer := l } :=
  ⟨fun _ => rfl, fun _ => rfl, fun _ => rfl, fun _ => rfl, rfl⟩

/-- Settles O24: each of the five completes with its content (`exec_complete`). -/
theorem adminReads : Obligations.AdminReads := by
  unfold Obligations.AdminReads
  refine fun s d cid c k => ⟨fun hc hk => ?_, fun hc hk => ?_, fun m rest b n hc hlog hroom hk => ?_,
    fun e sel cursor b n hc hsel hsel' hcursor harg hpresent hfence hroom hk => ?_, fun a q hc hopen harg hal hlen hk => ?_⟩
  · exact ⟨_, exec_fail rfl hc rfl (.rfl s) hk⟩
  · exact ⟨_, exec_complete rfl hc rfl (.rfl s) hk⟩
  · exact ⟨_, exec_complete rfl hc (meterRead_sends hlog hroom) (.rfl s) hk⟩
  · exact ⟨_, exec_complete rfl hc (logRead_sends hsel hsel' hcursor harg hpresent hfence hroom) (.rfl s) hk⟩
  · refine ⟨_, exec_complete (t := { s with answer := { s.answer with data := viewReg s a, runs := [viewReg s a] } })
      (data := leBytes 4 (viewReg s a).toNat) rfl hc ?_ answersAs_answer hk⟩
    rw [regRead_sends hopen harg hal hlen]
    rfl

end Sys2Proof.Kocel
end

section
/-! ### What a plain reply changes in the registers -/
namespace Sys2Proof.Kocel
open Sys2Proof Sys2Proof.Machine Sys2Proof.Laws Sys2Proof.Safety
variable {s t u : State} {d e : DieId} {cid n : Nat} {c : Cmd} {k : Session} {a st aux ver len : Nat} {data : Bytes}

theorem sending_foldSend {l : List Bytes} {r : State × Session} (h : Sending s r.1) :
    Sending s (l.foldl (fun r b => sendSeq r.1 d r.2 0x04 b) r).1 := by
  induction l generalizing r with
  | nil => exact h
  | cons b l ih => exact ih (h.trans sending_sendSeq)

theorem sending_sendMsg {tag : Byte} {m : Bytes} : Sending s (sendMsg s d k tag m).1 := sending_foldSend (.rfl s)

/-- Counting a reply may raise LAT's interrupt and changes no other register. -/
theorem regGet_countReply {tenant cls arrived i o : Nat} {sent : Bool} (ha : a ≠ dreg d Page.lat 0x10) :
    regGet (countReply s d tenant cls arrived st i o sent) a = regGet s a := by
  unfold countReply
  extract_lets ns slo viol s1 s2
  have hs2 : regGet s2 a = regGet s a := by
    show regGet (if sent = true then _ else s1) a = _
    split <;> rfl
  split
  · rw [Access.regGet_raiseInt_ne fun h => ha (h.trans (by unfold dreg; omega))]
    exact hs2
  · exact hs2

/-- The reply of a session that can send it at once changes no register but LAT's interrupt. -/
theorem regGet_replyTo {i : Nat} (h : CanReply s c k data.length) (ha : a ≠ dreg c.home Page.lat 0x10) :
    regGet (replyTo s c.home c.slot c.gen c.tag c.tenant c.cls c.arrived i c.hdr.opcode st 0 aux ver len data c.noReply) a
      = regGet s a := by
  obtain ⟨hslot, -⟩ := ids_of_sessGen h.session
  unfold replyTo
  rw [h.session]
  simp only [h.wanted, Bool.false_eq_true, if_false]
  generalize hu : countReply s c.home c.tenant c.cls c.arrived st i data.length true = u
  have hregs : regGet u a = regGet s a := hu ▸ regGet_countReply ha
  obtain ⟨k', -, -, -, -, -, -, -, henc, hk'⟩ := sendMsg_plain u c.home k c.tag (replyBytes c.hdr.opcode st 0 aux ver len data)
    (by simp [replyBytes]) (by rw [replyBytes_length]; exact h.fits) h.window h.empty h.clear
  have hsend : Sending u (sendMsg u c.home k c.tag (replyBytes c.hdr.opcode st 0 aux ver len data)).1 := sending_sendMsg
  generalize (sendMsg u c.home k c.tag (replyBytes c.hdr.opcode st 0 aux ver len data)).1 = w at hk' hsend ⊢
  rw [hslot] at hk'
  have hplain : ∀ v : State, (v.die c.home).ktp = (w.die c.home).ktp → v.regs = w.regs → regGet (checkNonce v c.home c.slot) a = regGet s a := by
    intro v hv hr
    rw [checkNonce_plain fun q hq => by
      rw [sessOf_congr hv, hk'] at hq
      rw [← Option.some.inj hq, henc]
      exact h.clear]
    unfold regGet at hregs ⊢
    rw [hr, hsend.regs]
    exact hregs
  split
  · exact hplain _ (ktp_charge ..) rfl
  · exact hplain w rfl rfl

/-- After a reply nothing follows on a session that neither ends nor resets and for whose command no ABORT waits. -/
theorem afterReply_idle {slot gen : Nat} (hk : sessGen (s.die d) slot gen = some k) (hclose : k.closeAt = false)
    (hreset : k.resetting = none) (halone : lateAbort (s.die d) cid = none) : afterReply s d slot gen cid = s := by
  have hlate : ∀ n, answerLate n s d cid = s := by
    intro n
    cases n with
    | zero => rfl
    | succ n => unfold answerLate; rw [halone]
  have hm : maybeReset s d slot gen = s := by
    unfold maybeReset
    rw [hk]
    simp only [hreset]
  have hc : maybeClose s d slot gen = s := by
    unfold maybeClose
    rw [hk]
    simp [hclose]
  unfold afterReply settleSess
  rw [hlate, hm, hc]

/-- A command that can be answered at once leaves its die, and only its reply follows. -/
theorem complete_eq_replyTo (h : CanReply s c k data.length) : complete s d c st aux ver len data
    = replyTo (dropCmd s d c.cid) c.home c.slot c.gen c.tag c.tenant c.cls c.arrived (bytesIn c) c.hdr.opcode st 0 aux ver len data
        c.noReply ∧ CanReply (dropCmd s d c.cid) c k data.length := by
  have hdrop : AnswersAs s (dropCmd s d c.cid) := answersAs_updDie _ fun _ => ⟨rfl, rfl, rfl, rfl⟩
  have h' := hdrop.canReply h
  obtain ⟨k', -, hk', -, -, -, hclose, hreset⟩ := replyTo_plain (dropCmd s d c.cid) c k (bytesIn c) st aux ver len data h'
  have hctrl := controls_replyTo (dropCmd s d c.cid) c k (bytesIn c) st aux ver len data h'
  refine ⟨?_, h'⟩
  unfold complete
  dsimp only
  rw [if_neg (by simp [h'.direct d])]
  refine afterReply_idle hk' hclose hreset ?_
  have halone := h'.alone
  unfold lateAbort at halone ⊢
  rw [hctrl]
  exact halone

/-- A command that can be answered at once changes no register but LAT's interrupt. -/
theorem regGet_complete (h : CanReply s c k data.length) (ha : a ≠ dreg c.home Page.lat 0x10) :
    regGet (complete s d c st aux ver len data) a = regGet s a := by
  obtain ⟨heq, h'⟩ := complete_eq_replyTo (d := d) (st := st) (aux := aux) (ver := ver) (len := len) h
  rw [heq, regGet_replyTo h' ha]
  rfl

end Sys2Proof.Kocel
end

section
/-! ### Admin commands that set -/
namespace Sys2Proof.Kocel
open Sys2Proof Sys2Proof.Machine Sys2Proof.Laws Sys2Proof.Safety
variable {s t u : State} {d e : DieId} {cid tenant : Nat} {c : Cmd} {k : Session} {a : Nat} {v : Word} {q : RegSpec} {key : Bytes}

/-- Registers and the boot NOR have no part in an answer. -/
theorem answersAs_of_dies (hdies : t.dies = s.dies) (hpart : t.part = s.part) : AnswersAs s t := by
  have hdie : ∀ e, t.die e = s.die e := fun e => congrArg (fun v : Vector Die 8 => v.get e) hdies
  exact ⟨fun e => by rw [hdie], fun e => by rw [hdie], fun e => by rw [hdie], fun e => by rw [hdie], hpart⟩

theorem answersAs_overDies {f : State → DieId → State} (hf : ∀ t x, AnswersAs t (f t x)) (l : List DieId) :
    AnswersAs s (overDies f s l) :=
  Access.overDies_keeps (P := AnswersAs s) (fun t x ht => ht.trans (hf t x)) l (.rfl s)

/-- A command that leaves its die takes nothing that is stored with it. -/
theorem dropCmd_stores : ((dropCmd s d cid).die e).tenants = (s.die e).tenants ∧ ((dropCmd s d cid).die e).cry = (s.die e).cry := by
  unfold dropCmd
  rw [die_updDie]
  split
  · next he => exact he ▸ ⟨rfl, rfl⟩
  · exact ⟨rfl, rfl⟩

/-- A record of the configuration journal touches the boot NOR and its registers alone. -/
theorem journalPut_keeps {b : CjBody} : (journalPut s b).dies = s.dies ∧ (journalPut s b).part = s.part
    ∧ (journalPut s b).guard = s.guard := ⟨rfl, rfl, rfl⟩

theorem answersAs_journalPut {b : CjBody} : AnswersAs s (journalPut s b) :=
  answersAs_of_dies journalPut_keeps.1 journalPut_keeps.2.1

theorem journalPut_die {b : CjBody} : (journalPut s b).die e = s.die e :=
  congrArg (fun v : Vector Die 8 => v.get e) journalPut_keeps.1

/-! ### REG_WRITE and RESET_DEVICE -/

/-- A write of defined values to a register of CSQ whose page is not locked merges its fields. -/
theorem writeAligned_csq {r : Requester} (hregs : registersOk s) (h : RegOpen s .csq a q) (hal : a % 4 = 0)
    (hlock : locked s (baseOf a) = false) (hv : valuesOk q v = true) :
    AnswersAs s (writeAligned s r a v) ∧ regGet (writeAligned s r a v) a = mergeFields false (regGet s a) v q := by
  have ⟨hb, hoff, hq, _, _⟩ := h
  unfold writeAligned
  rw [if_pos hal, Access.regWrite_of_regOpen h, Access.ownWrite_csq hb hoff hq hv]
  split
  · rw [Access.urgentWrite_of_unlocked hb hq hlock]
    refine ⟨.trans (t := regSet s a (mergeFields false (regGet s a) v q)) (answersAs_of_dies rfl rfl) ?_,
      regGet_regSet_self _ _ _ hregs⟩
    exact answersAs_updDie _ fun _ => ⟨rfl, rfl, rfl, rfl⟩
  · rw [Access.storeReg_of_unlocked hb hq hlock]
    exact ⟨answersAs_of_dies rfl rfl, regGet_regSet_self _ _ _ hregs⟩

/-- No register of CSQ is LAT's interrupt register. -/
theorem ne_lat_of_csq (hb : blockAt a = some .csq) : a ≠ dreg d Page.lat 0x10 := by
  have ha := Access.eq_dreg_of_csq hb
  have hoff : offOf a < 0x10000 := Nat.mod_lt _ (by decide)
  unfold dreg Page.csq at ha
  unfold dreg Page.lat
  omega

/-- REG_WRITE of one word writes it at its address (R102). -/
theorem writeRun_one (harg : c.hdr.arg % 2 ^ 32 = a) (hlen : c.inline.length = 4) :
    writeRun (c.hdr.arg % 2 ^ 32) (chunks 4 c.inline) s = writeAligned s .admin a (BitVec.ofNat 32 (leNat c.inline)) := by
  have hmod : a % 2 ^ 32 = a := by rw [← harg, Nat.mod_mod]
  rw [chunks_one 4 c.inline (by intro h; simp [h] at hlen) (by omega), harg]
  simp only [writeRun, hmod]

/-! ### TENANT_SET -/

/-- A change made of each die in turn, at most once, is the change of that die. -/
theorem overDies_updDie {f : State → DieId → Die → Die} {l : List DieId} (hl : l.Nodup) :
    ∃ u, (overDies (fun s x => s.updDie x (f s x)) s l).die e = if e ∈ l then f u e (s.die e) else s.die e := by
  induction l generalizing s with
  | nil => exact ⟨s, rfl⟩
  | cons x l ih =>
    obtain ⟨hx, hl⟩ := List.nodup_cons.1 hl
    obtain ⟨u, hu⟩ := ih (s := s.updDie x (f s x)) hl
    by_cases he : e = x
    · subst he
      rw [if_neg hx, die_updDie_self] at hu
      exact ⟨s, by rw [if_pos List.mem_cons_self]; exact hu⟩
    · rw [die_updDie_ne _ _ _ _ he] at hu
      have hcons : overDies (fun s x => s.updDie x (f s x)) s (x :: l)
          = overDies (fun s x => s.updDie x (f s x)) (s.updDie x (f s x)) l := rfl
      exact ⟨u, by rw [hcons, hu]; simp [he]⟩

/-- An enabled context is recorded in the journal and loaded into every die that runs (R333). -/
theorem setTenant_spec {x : Tenant} (hrun : running s e = true) (henable : x.enable = true) :
    AnswersAs s (setTenant s x) ∧ tenantOf ((setTenant s x).die e) x.id = some x
      ∧ ∃ r : CjRec, (setTenant s x).nor.journal = s.nor.journal ++ [r] ∧ r.body = .tenantCtx x := by
  obtain ⟨u, hu⟩ := overDies_updDie (s := journalPut s (.tenantCtx x)) (e := e) (nodup_upDies (s := s)) (f := fun _ _ y =>
    { y with
      tenants := putTenant x y.tenants
      csq := { y.csq with buckets :=
        if ((tenantOf y x.id).map (sameRates x)).getD false then y.csq.buckets else assocDel x.id y.csq.buckets } })
  rw [if_pos (mem_upDies.2 hrun)] at hu
  have hload : AnswersAs s (overDies (loadTenant x) (journalPut s (.tenantCtx x)) (upDies s)) := by
    refine answersAs_journalPut.trans (answersAs_overDies (fun t y => ?_) _)
    exact answersAs_updDie _ fun _ => ⟨rfl, rfl, rfl, rfl⟩
  have hnor : (overDies (loadTenant x) (journalPut s (.tenantCtx x)) (upDies s)).nor = (journalPut s (.tenantCtx x)).nor :=
    Access.overDies_keeps (f := loadTenant x) (P := fun t => t.nor = (journalPut s (.tenantCtx x)).nor) (fun t y ht => ht) _ rfl
  have htenant : tenantOf ((overDies (loadTenant x) (journalPut s (.tenantCtx x)) (upDies s)).die e) x.id = some x := by
    have hdie : (overDies (loadTenant x) (journalPut s (.tenantCtx x)) (upDies s)).die e = _ := hu
    rw [hdie]
    simp [tenantOf, putTenant]
  have hrec : ∃ r : CjRec, (overDies (loadTenant x) (journalPut s (.tenantCtx x)) (upDies s)).nor.journal = s.nor.journal ++ [r]
      ∧ r.body = .tenantCtx x := by
    rw [hnor]
    exact ⟨_, rfl, rfl⟩
  unfold setTenant
  dsimp only
  rw [henable]
  simp only [Bool.not_true, Bool.and_false, Bool.false_eq_true, if_false]
  split
  · exact ⟨hload.trans (answersAs_of_dies rfl rfl), htenant, hrec⟩
  · exact ⟨hload, htenant, hrec⟩

/-! ### KEY_INSTALL -/

/-- A data key that is loaded where a slot is EMPTY is the tenant's CURRENT one (R345). -/
theorem currentSlot_loadData {x : Cry} {gen bound : Nat} (h : freeDataSlot x ≠ none) :
    ∃ y, currentSlot (loadData x tenant gen key bound) tenant = some y ∧ y.gen = gen := by
  obtain ⟨n, hn⟩ := Option.ne_none_iff_exists'.1 h
  unfold loadData
  rw [hn]
  simp [currentSlot]

/-- Which slot is CURRENT is no matter of the pipelines. -/
theorem currentSlot_congr {x y : Cry} (h : { y with pipes := [] } = { x with pipes := [] }) :
    currentSlot y tenant = currentSlot x tenant := by
  have hdata := congrArg Cry.data h
  dsimp only at hdata
  unfold currentSlot
  rw [hdata]

/-- The next generation is CURRENT on every die that runs and has an EMPTY slot (R348, R349). -/
theorem installData_spec (hrun : running s e = true) (hfree : freeDataSlot (s.die e).cry ≠ none) :
    AnswersAs s (installData s tenant key)
      ∧ ∃ y, currentSlot ((installData s tenant key).die e).cry tenant = some y ∧ y.gen = freshGen s tenant := by
  unfold installData
  extract_lets g s1 s2
  have hs1 : AnswersAs s s1 ∧ s1.die e = s.die e := by
    simp only [s1]
    split
    · exact ⟨.rfl s, rfl⟩
    · exact ⟨answersAs_journalPut, journalPut_die⟩
  have hs2 : AnswersAs s s2 := hs1.1.trans answersAs_journalPut
  have hdie : s2.die e = s.die e := journalPut_die.trans hs1.2
  have hfree2 : freeDataSlot (s2.die e).cry ≠ none :=
    fun h => hfree ((congrArg (fun x : Die => freeDataSlot x.cry) hdie).symm.trans h)
  clear_value s2
  refine ⟨hs2.trans (answersAs_overDies (fun t x => ?_) _), ?_⟩
  · exact answersAs_updDie _ fun _ => ⟨rfl, rfl, rfl, rfl⟩
  obtain ⟨u, hu⟩ := overDies_updDie (s := s2) (e := e) (nodup_upDies (s := s)) (f := fun s e x =>
    { x with cry := loadData x.cry tenant g key (ctrBoundOf s e tenant g) })
  rw [if_pos (mem_upDies.2 hrun)] at hu
  obtain ⟨y, hy, hgen⟩ := currentSlot_loadData (x := (s2.die e).cry) (tenant := tenant) (gen := g) (key := key)
    (bound := ctrBoundOf u e tenant g) hfree2
  have hcry := congrArg Die.cry hu
  dsimp only at hcry
  refine ⟨y, ?_, hgen⟩
  rw [hcry]
  exact hy

/-! ### CLOCK_SET -/

theorem answersAs_recordEvent {code n : Nat} : AnswersAs s (recordEvent s d code n) := by
  unfold recordEvent
  extract_lets m s1 s2
  have hs1 : AnswersAs s s1 := answersAs_updDie _ fun _ => ⟨rfl, rfl, rfl, rfl⟩
  split
  · exact hs1
  · refine hs1.trans ?_
    split <;> exact answersAs_of_dies rfl rfl

theorem guard_recordEvent {code n : Nat} : (recordEvent s d code n).guard = s.guard := by
  unfold recordEvent
  dsimp only
  split
  · rfl
  · split <;> rfl

/-- CLOCK_SET moves the wall offset and nothing of device time (R375). -/
theorem clockSet_spec {wall : Nat} : AnswersAs s (clockSet s wall)
    ∧ (clockSet s wall).guard = { s.guard with offset := (wall : Int) - (s.guard.devTime : Int), wallUnset := false } := by
  unfold clockSet
  extract_lets old g m s1
  have hs1 : AnswersAs s s1 := answersAs_of_dies rfl rfl
  exact ⟨(hs1.trans answersAs_journalPut).trans answersAs_recordEvent, guard_recordEvent.trans journalPut_keeps.2.2⟩

/-- Settles O25: each command makes its change (`writeAligned_csq`, `setTenant_spec`, `installData_spec`, `clockSet_spec`) and completes
with OK, which takes none of it back. -/
theorem adminSettings : Obligations.AdminSettings := by
  unfold Obligations.AdminSettings
  intro s d e cid c k hk hrun
  refine ⟨fun a q hc hregs hopen harg hal hlen hlock hv => ?_, fun hc => ?_, fun x hc hx hok hrefused henable => ?_,
    fun hc hbody hkind hdraw hfew hshort hfree => ?_, fun hc => ?_⟩
  · obtain ⟨hans, hword⟩ := writeAligned_csq (r := .admin) hregs hopen hal hlock hv
    obtain ⟨hexec, hgone, hreply⟩ := exec_fail (i := .regWrite d cid) (st := Stat.ok) rfl hc (by rw [writeRun_one harg hlen]) hans hk
    exact ⟨_, hexec, hgone, hreply, (regGet_complete (hans.canReply hk) (ne_lat_of_csq hopen.1)).trans hword⟩
  · obtain ⟨hgone, hreply⟩ := complete_answers (st := Stat.ok) (aux := 0) (ver := 0) (len := 0) (data := []) (d := d)
      (cid_of_cmdOf hc.2.1) (.rfl s) hk
    rw [hc.2.2.2] at hreply
    exact ⟨_, congrArg Host.Outcome.next (onCmd_of_hasCmd hc), hgone, rfl, hreply⟩
  · have hid : x.id = c.hdr.arg % 4096 := by rw [← hx]; rfl
    obtain ⟨hans, htenant, r, hjournal, hr⟩ := setTenant_spec (x := x) hrun henable
    obtain ⟨hexec, hgone, hreply⟩ := exec_fail (i := .tenantSet d cid) (t := setTenant s x) (st := Stat.ok) rfl hc
      (by simp only [hok, hx, hrefused]; rfl) hans hk
    have hstores : Stores _ (fail (setTenant s x) d c Stat.ok) := complete_stores ..
    refine ⟨_, r, hexec, hgone, hreply, ?_, ?_, hr⟩
    · unfold tenantOf at htenant ⊢
      rw [hstores.tenants, ← hid, dropCmd_stores.1]
      exact htenant
    · rw [hstores.nor]
      exact hjournal
  · obtain ⟨hans, y, hy, hgen⟩ := installData_spec (s := (drawBytes s 32).2) (tenant := c.hdr.arg % 4096) (key := (drawBytes s 32).1)
      (e := e) hrun hfree
    have hdraws : AnswersAs s (drawBytes s 32).2 := answersAs_of_dies rfl rfl
    obtain ⟨hexec, hgone, hreply⟩ := exec_fail (i := .keyInstall d cid)
      (t := installData (drawBytes s 32).2 (c.hdr.arg % 4096) (drawBytes s 32).1) (st := Stat.ok) rfl hc
      (by simp [hbody, hkind, newGeneration, Nat.not_le.2 hfew, hshort, hdraw]) (hdraws.trans hans) hk
    have hstores : Stores _ (fail (installData (drawBytes s 32).2 (c.hdr.arg % 4096) (drawBytes s 32).1) d c Stat.ok) :=
      complete_stores ..
    refine ⟨_, y, hexec, hgone, hreply, ?_, hgen⟩
    rw [currentSlot_congr (hstores.cry e), dropCmd_stores.2]
    exact hy
  · obtain ⟨hans, hguard⟩ := clockSet_spec (s := s) (wall := c.hdr.arg)
    obtain ⟨hexec, hgone, hreply⟩ := exec_fail (i := .clockSet d cid) rfl hc rfl hans hk
    have hstores : Stores _ (fail (clockSet s c.hdr.arg) d c Stat.ok) := complete_stores ..
    have hsame := hstores.guard
    have hdrop : (dropCmd (clockSet s c.hdr.arg) d c.cid).guard = (clockSet s c.hdr.arg).guard := rfl
    rw [hdrop, hguard] at hsame
    have hoffset := congrArg Guard.offset hsame
    have hunset := congrArg Guard.wallUnset hsame
    have htime := congrArg Guard.devTime hsame
    exact ⟨_, hexec, hgone, hreply, hoffset, hunset, htime⟩

end Sys2Proof.Kocel
end

section
/-! ### Firmware commands -/
namespace Sys2Proof.Kocel
open Sys2Proof Sys2Proof.Machine Sys2Proof.Laws Sys2Proof.Safety
variable {s t : State} {d e : DieId} {cid : Nat} {c : Cmd} {slot : Bool}

/-! ### FW_DOWNLOAD -/

/-- What erasing and writing a slot leaves of the boot NOR: its canonical form and the account of the download. -/
def Downloads (m n : Nor) : Prop :=
  norWf n.array = true ∧ n.dlOn = m.dlOn ∧ n.dlGot = m.dlGot ∧ n.dlLen = m.dlLen

/-- A piece of the slot reads back as it was written, and the account of the download stays (R539). -/
theorem writeSlot_spec {a : Nat} {b : Bytes} (hnor : norOk s) : Downloads s.nor (writeSlot s a b).nor
    ∧ norRead (writeSlot s a b).nor a b.length = b ∧ (writeSlot s a b).dies = s.dies ∧ (writeSlot s a b).part = s.part := by
  have herased : Downloads s.nor ((sectorsBegun a b.length).foldl (fun n k => norEraseSpan n (32 + k)) s.nor) := by
    refine List.foldlRecOn (motive := Downloads s.nor) _ _ ⟨hnor, rfl, rfl, rfl⟩ fun n hn k _ => ?_
    obtain ⟨hwf, hon, hgot, hlen⟩ := hn
    exact ⟨Frame.norEraseSpan_wf hwf, hon, hgot, hlen⟩
  obtain ⟨hwf, hon, hgot, hlen⟩ := herased
  exact ⟨⟨Frame.norWrite_wf hwf, hon, hgot, hlen⟩, cellsGet_cellsPut norBlank _ a b hwf, rfl, rfl⟩

/-- A piece that does not end the image is written, and the command completes (R538, R539). -/
theorem downloadBytes_piece {b : Bytes} (harg : c.hdr.arg ≠ 0) (hnor : norOk s) (hmore : s.nor.dlGot + b.length < s.nor.dlLen) :
    ∃ t, downloadBytes s d c b true = fail t d c Stat.ok ∧ AnswersAs s t ∧ t.nor.dlGot = s.nor.dlGot + b.length
      ∧ t.nor.dlOn = s.nor.dlOn ∧ norRead t.nor (slotBase (!s.nor.running) + c.hdr.arg) b.length = b := by
  obtain ⟨⟨-, hon, hgot, hlen⟩, hread, hdies, hpart⟩ := writeSlot_spec (a := slotBase (!s.nor.running) + c.hdr.arg) (b := b) hnor
  unfold downloadBytes
  dsimp only
  rw [if_neg harg, if_pos rfl, hgot, hlen, if_neg (Nat.not_le.2 hmore)]
  exact ⟨_, rfl, answersAs_of_dies hdies hpart, rfl, hon, hread⟩

/-- FW_DOWNLOAD at a good place with its data at hand (R538). -/
theorem fwDownload_inline (hplace : placeOk s c = true) (harg : c.hdr.arg ≠ 0) (hshort : c.hdr.valueLen ≤ 8192) :
    fwDownload s d c true = downloadBytes s d c c.inline true := by
  unfold fwDownload
  rw [if_neg (by simp [hplace]), show downloadData c = some c.inline from if_pos hshort]
  exact if_neg fun h => harg h.1

/-- FW_DOWNLOAD at a good place whose data is yet to be granted (R104, R538). -/
theorem fwDownload_waits {b : Bool} (hplace : placeOk s c = true) (hlong : 8192 < c.hdr.valueLen)
    (hmore : c.value.length < c.hdr.valueLen) : fwDownload s d c b = putCmd s d { c with phase := .granting } := by
  have hdata : downloadData c = none := by
    unfold downloadData
    rw [if_neg (Nat.not_le.2 hlong), if_neg (Nat.not_le.2 hmore)]
  unfold fwDownload
  rw [if_neg (by simp [hplace]), hdata]

/-! ### FW_ACTIVATE -/

/-- The end of an operation of the boot NOR is no matter of the dies. -/
theorem norOpDone_die : (norOpDone s).die e = s.die e := by
  unfold norOpDone
  split <;> rfl

/-- The timers of every die stop or go on together (R135). -/
theorem setTimers_die {stop : Bool} :
    ((setTimers s stop).die e).csq = { (s.die e).csq with tmoStop := stop } := by
  obtain ⟨u, hu⟩ := overDies_updDie (s := s) (e := e) (l := allDies) (by decide) (f := fun _ _ x =>
    { x with csq := { x.csq with tmoStop := stop } })
  rw [if_pos (Boot.mem_allDies e)] at hu
  exact congrArg Die.csq hu

theorem setTimers_nor {stop : Bool} : (setTimers s stop).nor = s.nor := by
  refine Access.overDies_keeps (P := fun t => t.nor = s.nor) (fun t x ht => ?_) _ rfl
  exact ht

/-- The state of a beginning activation before the timers stop: the slot's entry stands, and the command waits. -/
def entryMade (s : State) (d : DieId) (c : Cmd) (slot : Bool) : State :=
  putCmd (appendEntry (norOpDone s) (.active slot)) d { c with phase := .activating }

theorem entryMade_nor : (entryMade s d c slot).nor = bootAppend (norOpDone s).nor (.active slot) := rfl

theorem cmdOf_entryMade (hc : cmdOf (s.die d) cid = some c) :
    cmdOf ((entryMade s d c slot).die d) cid = some { c with phase := .activating } := by
  refine cmdOf_putCmd_of_cmdOf (c := c) ?_ rfl
  have hdie : (appendEntry (norOpDone s) (.active slot)).die d = s.die d := norOpDone_die
  rw [hdie]
  exact hc

/-- With the timers stopped the pause is on (R133, R135). -/
theorem beginActivation_eq : beginActivation s d c slot = { setTimers (entryMade s d c slot) true with
    pkg := { (setTimers (entryMade s d c slot) true).pkg with act := { on := true, cid := c.cid, slot := slot, old := s.nor.running } } } :=
  rfl

/-- The begin of an activation: the slot is ACTIVE, the command waits, dispatch and the timers stand (R133, R135). -/
theorem beginActivation_spec (hc : cmdOf (s.die d) cid = some c) :
    cmdOf ((beginActivation s d c slot).die d) cid = some { c with phase := .activating }
      ∧ (beginActivation s d c slot).pkg.act = { on := true, cid := c.cid, slot := slot, old := s.nor.running }
      ∧ (∀ e, ((beginActivation s d c slot).die e).csq.tmoStop = true)
      ∧ (beginActivation s d c slot).nor = bootAppend (norOpDone s).nor (.active slot)
      ∧ ∀ e, mayDispatch (beginActivation s d c slot) e = false := by
  have hcmd := cmdOf_entryMade (slot := slot) hc
  have hdie : ∀ e, ((setTimers (entryMade s d c slot) true).die e).csq = { ((entryMade s d c slot).die e).csq with tmoStop := true } :=
    fun e => setTimers_die
  have hnor : (setTimers (entryMade s d c slot) true).nor = bootAppend (norOpDone s).nor (.active slot) :=
    setTimers_nor.trans entryMade_nor
  rw [beginActivation_eq]
  generalize setTimers (entryMade s d c slot) true = u at hdie hnor ⊢
  refine ⟨?_, rfl, fun e => congrArg Csq.tmoStop (hdie e), hnor, fun e => ?_⟩
  · unfold cmdOf at hcmd ⊢
    rw [← hcmd]
    exact congrArg (fun q : Csq => q.cmds.find? fun c => c.cid == cid) (hdie d)
  · unfold mayDispatch
    simp

/-- FW_ACTIVATE of the slot that does not run, when it is good (R541). -/
theorem fwActivate_begins (hslot : c.hdr.arg.testBit 0 = slot) (hrec : recordValid s.nor slot = true) (hdl : s.nor.dlOn = false)
    (hother : slot = !s.nor.running) (himage : imageOk s.nor slot = true) (hidle : s.pkg.act.on = false) :
    fwActivate s d c = beginActivation s d c slot := by
  unfold fwActivate
  dsimp only
  rw [hslot, if_neg (by simp [hrec, hdl]), if_neg (by simp [hother]), if_neg (by simp [himage]), if_neg (by simp [hidle])]

/-- Settles O27: a long piece waits for its grants (`fwDownload_waits`), an inline one is written (`downloadBytes_piece`), and the
activation of the other good slot begins (`beginActivation_spec`). -/
theorem firmwareCommands : Obligations.FirmwareCommands := by
  unfold Obligations.FirmwareCommands
  refine fun s d cid c => ⟨fun hc hplace hlong hmore b => ?_, fun k hc hnor hplace harg hshort hmore hk => ?_,
    fun x hc hx hrec hdl hother himage hidle => ?_⟩
  · exact congrArg Host.Outcome.next ((onCmd_of_hasCmd hc).trans (fwDownload_waits hplace hlong hmore))
  · obtain ⟨t, ht, hans, hgot, hon, hread⟩ := downloadBytes_piece (d := d) (b := c.inline) harg hnor hmore
    have hon0 : s.nor.dlOn = true := by
      simp only [placeOk, if_neg harg, Bool.and_eq_true] at hplace
      exact hplace.2.1
    obtain ⟨hexec, hgone, hreply⟩ := exec_fail (i := .fwDownload d cid true) rfl hc
      ((fwDownload_inline hplace harg hshort).trans ht) hans hk
    have hkept : (fail t d c Stat.ok).nor = t.nor := (complete_stores t d c Stat.ok 0 0 0 []).nor
    exact ⟨_, hexec, hgone, hreply, by rw [hkept, hgot], by rw [hkept, hon, hon0], by rw [hkept, hread]⟩
  · obtain ⟨hcmd, hact, htmo, hnor, hstop⟩ := beginActivation_spec (slot := x) hc.2.1
    rw [cid_of_cmdOf hc.2.1] at hact
    exact ⟨_, congrArg Host.Outcome.next ((onCmd_of_hasCmd hc).trans (fwActivate_begins hx hrec hdl hother himage hidle)), hcmd, hact,
      htmo, hnor, hstop⟩

end Sys2Proof.Kocel
end

section
/-! ### What the lookup of map pages leaves alone

A lookup brings pages into the cache, may write dirty ones out and open groups for them, and queues reads. It touches neither the
commands nor the Comb of a die, and of the registers only counters and interrupts of MAP and FGR. -/
namespace Sys2Proof.Kocel
open Sys2Proof Sys2Proof.Machine Sys2Proof.Laws Sys2Proof.Safety
variable {s t u : State} {d : DieId} {x y : Die}

/-- CSQ and the Comb of a die are as they were. -/
def SameFront (x y : Die) : Prop := y.csq = x.csq ∧ y.comb = x.comb

theorem SameFront.trans {z : Die} (h : SameFront x y) (h' : SameFront y z) : SameFront x z :=
  ⟨h'.1.trans h.1, h'.2.trans h.2⟩

theorem sameFront_foldl {α : Type} {f : Die → α → Die} (hf : ∀ x a, SameFront x (f x a)) (l : List α) (x : Die) :
    SameFront x (l.foldl f x) :=
  List.foldlRecOn (motive := SameFront x) l f ⟨rfl, rfl⟩ fun _ hy a _ => hy.trans (hf _ a)

theorem sameFront_jAppendTo {tenant nsid : Nat} {b : JBody} : SameFront x (jAppendTo x tenant nsid b) := by
  unfold jAppendTo
  extract_lets m y
  have hy : SameFront x y := ⟨rfl, rfl⟩
  refine hy.trans (sameFront_foldl (fun z i => ?_) _ _)
  exact ⟨rfl, rfl⟩

/-- A journal record appended to a die changed elsewhere. -/
theorem SameFront.jAppendTo {tenant nsid : Nat} {b : JBody} (h : SameFront x y) : SameFront x (jAppendTo y tenant nsid b) :=
  h.trans sameFront_jAppendTo

theorem sameFront_takeFree {st : GroupState} {qlc copy : Bool} {purpose n : Nat} (h : takeFree x st qlc copy purpose = some (n, y)) :
    SameFront x y := by
  unfold takeFree at h
  split at h
  · cases h
  · cases h
    refine .jAppendTo ?_
    exact ⟨rfl, rfl⟩

theorem SameFront.markParent {jseq : Nat} {id : PageId} (h : SameFront x y) : SameFront x (markParent d jseq id y) := by
  unfold Machine.markParent
  dsimp only
  split
  · exact h
  · exact h

/-- What a lookup leaves alone, and the Comb's count of misses. -/
structure Looked (d : DieId) (s t : State) : Prop where
  front  : SameFront (s.die d) (t.die d)
  misses : regGet t (dreg d Page.cmb 0x188) = regGet s (dreg d Page.cmb 0x188)

protected theorem Looked.rfl : Looked d s s := ⟨⟨rfl, rfl⟩, rfl⟩

protected theorem Looked.ite {p : Prop} [Decidable p] (ht : Looked d s t) (hu : Looked d s u) : Looked d s (if p then t else u) := by
  split
  · exact ht
  · exact hu

protected theorem Looked.setDie (h : Looked d s t) (hx : SameFront (t.die d) x) : Looked d s (t.setDie d x) :=
  ⟨h.front.trans (by rw [die_setDie_self]; exact hx), h.misses⟩

protected theorem Looked.updDie {f : Die → Die} (h : Looked d s t) (hf : SameFront (t.die d) (f (t.die d))) : Looked d s (t.updDie d f) :=
  h.setDie hf

protected theorem Looked.foldl {α : Type} {f : State → α → State} {l : List α} (h : Looked d s t)
    (hf : ∀ u a, Looked d s u → Looked d s (f u a)) : Looked d s (l.foldl f t) :=
  List.foldlRecOn (motive := Looked d s) l f h fun u hu a _ => hf u a hu

/-- FGR raises its interrupts, and MAP counts. -/
protected theorem Looked.raiseFgr {n : Nat} (h : Looked d s t) : Looked d s (raiseInt t (dreg d Page.fgr 0) n) :=
  ⟨h.front, (Access.regGet_raiseInt_ne (by unfold dreg Page.cmb Page.fgr; omega)).trans h.misses⟩

protected theorem Looked.countMap {off n : Nat} (h : Looked d s t) (hoff : off < 0x10000) :
    Looked d s (regBump t (dreg d Page.map off) n) :=
  ⟨h.front, (regGet_regSet_ne _ _ _ _ (by unfold dreg Page.cmb Page.map; omega)).trans h.misses⟩

/-! ### Groups for the map -/

protected theorem Looked.refillRescue {n : Nat} (h : Looked d s t) : Looked d s (refillRescue t d n) := by
  induction n generalizing t with
  | zero => exact h
  | succ n ih =>
    unfold Machine.refillRescue
    dsimp only
    refine .ite ?_ h
    split
    · exact h
    · next hx => exact ih (h.setDie (sameFront_takeFree hx))

protected theorem Looked.setSpaceStop {on : Bool} (h : Looked d s t) : Looked d s (setSpaceStop t d on) := by
  unfold Machine.setSpaceStop
  refine .ite h (Looked.raiseFgr (h.updDie ?_))
  exact ⟨rfl, rfl⟩

protected theorem Looked.shrink (h : Looked d s t) : Looked d s (shrink t d) := by
  unfold Machine.shrink
  extract_lets gb s1
  have hs1 : Looked d s s1 := by
    refine h.updDie (.jAppendTo ?_)
    exact ⟨rfl, rfl⟩
  exact .ite hs1.setSpaceStop.raiseFgr h.setSpaceStop

protected theorem Looked.reportReadOnly (h : Looked d s t) : Looked d s (reportReadOnly t d) := by
  unfold Machine.reportReadOnly
  refine .ite h (h.updDie (.jAppendTo ?_))
  exact ⟨rfl, rfl⟩

protected theorem Looked.applyPolicy (h : Looked d s t) : Looked d s (applyPolicy t d) := by
  unfold Machine.applyPolicy
  exact .ite h (.ite h.shrink h.reportReadOnly)

protected theorem Looked.fillRescue (h : Looked d s t) : Looked d s (fillRescue t d) := by
  unfold Machine.fillRescue
  extract_lets s1
  have hs1 : Looked d s s1 := h.refillRescue
  exact .ite hs1 hs1.applyPolicy

protected theorem Looked.takeSys {purpose n : Nat} (h : Looked d s t) (hu : takeSys t d purpose = some (n, u)) : Looked d s u := by
  unfold Machine.takeSys at hu
  obtain ⟨⟨m, x⟩, hx, ⟨⟩⟩ := Option.map_eq_some_iff.1 hu
  exact (h.fillRescue.setDie (sameFront_takeFree hx)).applyPolicy

/-! ### Pages that are written, brought in and read -/

protected theorem Looked.mapGroup {g : Group} (h : Looked d s t) (hu : mapGroup t d = some (g, u)) : Looked d s u := by
  unfold Machine.mapGroup at hu
  split at hu
  · cases hu
    exact h
  · obtain ⟨⟨n, v⟩, hv, hu⟩ := Option.bind_eq_some_iff.1 hu
    obtain ⟨g, -, ⟨⟩⟩ := Option.map_eq_some_iff.1 hu
    exact h.takeSys hv

protected theorem Looked.writePage {id : PageId} {jseq : Nat} {body : MapBody} {l : BitVec 56} (h : Looked d s t)
    (hu : writePage t d id jseq body = some (l, u)) : Looked d s u := by
  obtain ⟨⟨g, v⟩, hv, ⟨⟩⟩ := Option.map_eq_some_iff.1 hu
  refine (h.mapGroup hv).updDie ?_
  exact ⟨rfl, rfl⟩

protected theorem Looked.writeChain {id : PageId} {jseq : Nat} {l : List MapBody} {r : List (BitVec 56)} (h : Looked d s t)
    (hu : writeChain t d id jseq l = some (r, u)) : Looked d s u := by
  induction l generalizing u r with
  | nil =>
    cases hu
    exact h
  | cons b l ih =>
    unfold Machine.writeChain at hu
    split at hu
    · cases hu
    · next q hq =>
      obtain ⟨p, hp, ⟨⟩⟩ := Option.map_eq_some_iff.1 hu
      exact (ih hq).writePage hp

protected theorem Looked.writePlace {p : PageAt} (h : Looked d s t) (hu : writePlace t d p = some u) : Looked d s u := by
  obtain ⟨r, hr, ⟨⟩⟩ := Option.map_eq_some_iff.1 hu
  refine (h.writeChain hr).updDie (.markParent ?_)
  exact ⟨rfl, rfl⟩

protected theorem Looked.evictPage {p : MapPage} (h : Looked d s t) : Looked d s (evictPage d t p) := by
  unfold Machine.evictPage
  dsimp only
  refine .ite ?_ h
  cases hu : writePlace t d (placeAt (t.die d) (pageIdOf p)) with
  | none => exact h
  | some u => exact h.writePlace hu

protected theorem Looked.pageIn {tenant nsid index : Nat} (h : Looked d s t) : Looked d s (pageIn t d tenant nsid index) := by
  unfold Machine.pageIn
  extract_lets p old new s1
  have hs1 : Looked d s s1 := h.foldl fun _ _ hu => hu.evictPage
  refine hs1.updDie ?_
  exact ⟨rfl, rfl⟩

protected theorem Looked.mapTouch {c : Cmd} {index : Nat} (h : Looked d s t) : Looked d s (mapTouch t d c index) := by
  unfold Machine.mapTouch
  extract_lets m p hit
  refine .ite (Looked.pageIn ?_) (.ite h (h.foldl fun u l hu => ?_))
  · simp only [hit]
    split
    · next off hoff =>
      refine .ite h (h.countMap ?_)
      split at hoff
      · cases hoff
        decide
      · split at hoff
        · cases hoff
          decide
        · cases hoff
    · exact h
  · refine Looked.updDie (hu.countMap (by decide)) ?_
    exact ⟨rfl, rfl⟩

/-- The lookup of a command's leaf pages (R197). -/
theorem looked_touchAll {c : Cmd} {l : List Nat} : Looked d s (touchAll s d c l) := by
  unfold touchAll
  exact Looked.rfl.foldl fun _ _ hu => hu.mapTouch

end Sys2Proof.Kocel
end

section
/-! ### GET and STAT -/
namespace Sys2Proof.Kocel
open Sys2Proof Sys2Proof.Machine Sys2Proof.Laws Sys2Proof.Safety
variable {s t : State} {d e : DieId} {cid : Nat} {c : Cmd} {k : Session} {r : Rec} {p : Bytes × Bytes} {b : BEntry}

/-! ### The answer from a record at hand -/

/-- A completing command leaves the map alone. -/
theorem map_complete {st aux ver len : Nat} {data : Bytes} : ((complete s d c st aux ver len data).die e).map = (s.die e).map := by
  rw [(complete_stores s d c st aux ver len data).map e]
  unfold dropCmd
  rw [die_updDie]
  split
  · next he => rw [he]
  · rfl

/-- The data of the answer to a reader: the value, or nothing for a STAT (R98). -/
def answerData (c : Cmd) (value : Bytes) : Bytes := if c.hdr.opcode = Op.stat then [] else value

/-- A reader without conditions is answered with the version and the length of the value (R98). -/
theorem answerValue_ok {version : Nat} {value : Bytes} (hver : c.hdr.ifVersion = false) (hpart : c.hdr.partialGet = false) :
    answerValue s d c version value = complete s d c Stat.ok 0 version value.length (answerData c value) := by
  unfold answerValue answerData
  split
  · rfl
  · simp [getAnswer, hver, hpart]

/-- The answer from a record that opens under its key (R350). -/
theorem answerRec_ok (hkey : hasDataKey (s.die d).cry r.tenant = true) (hopen : openRec (s.die d).cry r = some p)
    (hver : c.hdr.ifVersion = false) (hpart : c.hdr.partialGet = false) :
    answerRec s d c r false = complete (cryBlocks s d (gcmBlocks (r.keyLen + r.valueLen))) d c Stat.ok 0 r.version p.2.length
      (answerData c p.2) := by
  unfold answerRec
  rw [if_neg (by simp [hkey]), if_neg (by simp), hopen]
  exact answerValue_ok hver hpart

/-! ### The hot-key search -/

/-- A key that the Comb does not hold goes to its bucket, counted as a miss (R168, R197). -/
theorem hotSearch_miss (hregs : registersOk s) (hc : cmdOf (s.die d) cid = some c)
    (hnone : combSearch (s.die d).comb d (hotWord c.tenant c.hdr.nsid 0 c.hash) hotMask = none) :
    cmdOf ((hotSearch s d c).die d) cid
        = some { c with phase := .lookup, missed := !pagesHere (s.die d) c (lookupPages (s.die d) d c) }
      ∧ regGet (hotSearch s d c) (dreg d Page.cmb 0x188) = satWord ((regGet s (dreg d Page.cmb 0x188)).toNat + 1)
      ∧ ((hotSearch s d c).die d).comb = (s.die d).comb := by
  obtain ⟨⟨hcsq, hcomb⟩, hmisses⟩ := looked_touchAll (s := regBump s (dreg d Page.cmb 0x188) 1) (d := d) (c := c)
    (l := lookupPages (s.die d) d c)
  unfold hotSearch
  dsimp only
  rw [hnone]
  refine ⟨cmdOf_putCmd_of_cmdOf (c := c) ((cmdOf_congr hcsq).trans hc) rfl, ?_, ?_⟩
  · exact hmisses.trans (regGet_regSet_self _ _ _ hregs)
  · refine Eq.trans ?_ hcomb
    show ((putCmd _ d _).die d).comb = _
    unfold putCmd
    rw [die_updDie_self]
    rfl

theorem answersAs_countHit : AnswersAs s (countHit s d c) :=
  (answersAs_regBump (a := dreg d Page.cmb 0x184) (v := 1)).trans (answersAs_updDie _ fun _ => ⟨rfl, rfl, rfl, rfl⟩)

/-- A hit counted changes the Comb of the die alone. -/
theorem countHit_die : ((countHit s d c).die d).cry = (s.die d).cry ∧ ((countHit s d c).die d).map = (s.die d).map := by
  unfold countHit
  rw [die_updDie_self]
  exact ⟨rfl, rfl⟩

theorem cryBlocks_map {n : Nat} : ((cryBlocks s d n).die e).map = (s.die e).map := (stores_cryBlocks s d n).map e

/-- A GET that hits the Nectar buffer is answered from it (R168). -/
theorem hotSearch_nectar {w : Won} (hw : combSearch (s.die d).comb d (hotWord c.tenant c.hdr.nsid 0 c.hash) hotMask = some w)
    (hone : w.multi = false) (hkind : resKind w.entry.res = 2)
    (hring : ringRec (s.die d) (resLoc w.entry.res).toNat = some (r, false)) (hkey : hasDataKey (s.die d).cry r.tenant = true)
    (hopen : openRec (s.die d).cry r = some p) (hver : c.hdr.ifVersion = false) (hpart : c.hdr.partialGet = false) :
    ∃ t, hotSearch s d c = complete t d c Stat.ok 0 r.version p.2.length (answerData c p.2) ∧ AnswersAs s t
      ∧ (t.die d).map = (s.die d).map := by
  obtain ⟨hcry, hmap⟩ := countHit_die (s := s) (d := d) (c := c)
  refine ⟨cryBlocks (countHit s d c) d (gcmBlocks (r.keyLen + r.valueLen)), ?_, answersAs_countHit.trans answersAs_cryBlocks,
    cryBlocks_map.trans hmap⟩
  unfold hotSearch
  dsimp only
  rw [hw]
  dsimp only
  rw [if_neg (by simp [hone]), if_neg (by omega), if_pos hkind]
  unfold serveNectar
  rw [hring]
  exact answerRec_ok (by rw [hcry]; exact hkey) (by rw [hcry]; exact hopen) hver hpart

/-! ### BUCKET_LOOKUP_DONE -/

theorem squash_none (hra : c.ra = none) : squash s d c = s := by
  unfold squash
  rw [hra]

/-- Without a run-ahead read a lookup that fails just ends the command. -/
theorem lookupFail_none {st : Nat} (hra : c.ra = none) : lookupFail s d c st = fail s d c st := by
  have hc : { c with ra := none } = c := by
    cases c
    cases hra
    rfl
  unfold lookupFail
  rw [squash_none hra, hc]

/-- The event of a command whose bucket is looked up (R171, R197). -/
theorem exec_bucketLookupDone {ok : Bool} (hrun : running s d = true) (hc : cmdOf (s.die d) cid = some c) (hphase : c.phase = .lookup)
    (hfail : c.failed = false) : exec (.bucketLookupDone d cid ok) s = .next (if ok = false then lookupFail s d c Stat.mediaError
      else if pagesHere (s.die d) c (lookupPages (s.die d) d c) then lookupDone s d c else s) := by
  refine congrArg Host.Outcome.next ((Access.onDie_of_running hrun).trans ?_)
  rw [hc]
  dsimp only
  rw [if_pos hphase, hfail]
  cases ok <;> rfl

/-- A lookup whose entry is answered at once ends there. -/
theorem lookupDone_of_gone (hid : c.cid = cid) (hgone : cmdOf ((tryEntry ((s.die d).map.kv.length + 1) s d c).die d) cid = none) :
    lookupDone s d c = tryEntry ((s.die d).map.kv.length + 1) s d c := by
  unfold lookupDone
  dsimp only
  rw [hid, hgone]

/-- A lookup whose entry is to be read waits for the reads. -/
theorem lookupDone_of_reads {c' : Cmd} (hid : c.cid = cid)
    (hc : cmdOf ((tryEntry ((s.die d).map.kv.length + 1) s d c).die d) cid = some c') (hreads : c'.reads ≠ 0) :
    lookupDone s d c = tryEntry ((s.die d).map.kv.length + 1) s d c := by
  unfold lookupDone
  dsimp only
  rw [hid, hc]
  exact if_neg fun h => hreads h.2

/-- What a new hot-key entry changes: the Comb of its die. -/
theorem hotInsert_spec {tenant nsid version kind : Nat} {h : BitVec 128} {loc : BitVec 56} :
    (hotInsert s d tenant nsid h version kind loc).regs = s.regs ∧ AnswersAs s (hotInsert s d tenant nsid h version kind loc)
      ∧ (hotInsert s d tenant nsid h version kind loc).die d
          = { s.die d with comb := ((hotInsert s d tenant nsid h version kind loc).die d).comb } := by
  unfold hotInsert
  dsimp only
  split
  · exact ⟨rfl, .rfl s, rfl⟩
  · split
    · exact ⟨rfl, .rfl s, rfl⟩
    · rw [die_setDie_self]
      refine ⟨rfl, ?_, rfl⟩
      exact answersAs_updDie (fun x => { x with comb := _ }) fun _ => ⟨rfl, rfl, rfl, rfl⟩

/-- Without an entry the answer is NOT_FOUND (R98). -/
theorem tryEntry_none {n : Nat} (hra : c.ra = none) (hl : (htagEntries (s.die d) c (bucketPage (s.die d) c)).drop c.tried = []) :
    tryEntry (n + 1) s d c = fail s d c Stat.notFound := by
  unfold tryEntry
  rw [hl]
  exact lookupFail_none hra

/-- The key's own entry in the Nectar buffer is answered from there (R168, R194). -/
theorem tryEntry_nectar {n : Nat} {rest : List BEntry} (hra : c.ra = none)
    (hl : (htagEntries (s.die d) c (bucketPage (s.die d) c)).drop c.tried = b :: rest) (hnectar : b.nectar = true) (hown : b.key = c.key)
    (hring : ringRec (s.die d) b.loc.toNat = some (r, false)) (hkey : hasDataKey (s.die d).cry r.tenant = true)
    (hopen : openRec (s.die d).cry r = some p) (hver : c.hdr.ifVersion = false) (hpart : c.hdr.partialGet = false) :
    ∃ t, tryEntry (n + 1) s d c = complete t d { c with tried := c.tried + 1, failed := false, ra := none } Stat.ok 0 r.version
      p.2.length (answerData c p.2) ∧ AnswersAs s t := by
  obtain ⟨-, hans, hdie⟩ := hotInsert_spec (s := s) (d := d) (tenant := c.tenant) (nsid := c.hdr.nsid) (h := c.hash)
    (version := b.version) (kind := 2) (loc := b.loc)
  refine ⟨cryBlocks (hotInsert s d c.tenant c.hdr.nsid c.hash b.version 2 b.loc) d (gcmBlocks (r.keyLen + r.valueLen)), ?_,
    hans.trans answersAs_cryBlocks⟩
  unfold tryEntry
  rw [hl]
  dsimp only [List.head?_cons]
  rw [if_pos hnectar, if_neg (not_not.2 hown), squash_none (by exact hra)]
  have hcry : ((hotInsert s d c.tenant c.hdr.nsid c.hash b.version 2 b.loc).die d).cry = (s.die d).cry := by rw [hdie]
  have hrec : ringRec ((hotInsert s d c.tenant c.hdr.nsid c.hash b.version 2 b.loc).die d) b.loc.toNat = some (r, false) := by
    rw [hdie]
    exact hring
  rw [hrec]
  exact answerRec_ok (c := { c with tried := c.tried + 1, failed := false, ra := none }) (by rw [hcry]; exact hkey)
    (by rw [hcry]; exact hopen) hver hpart

/-- Which pages a record lies in is no matter of the Comb. -/
theorem wantPages_congr {es : List Extent} (hregs : t.regs = s.regs) (hgroups : (t.die d).groups = (s.die d).groups) :
    wantPages t d c es = wantPages s d c es := by
  unfold wantPages pagesOf groupOf unitLoc stripeUnits pageUnits pageCw dfld regGet
  simp only [hregs, hgroups]

/-- A command whose entry lies on flash, without a run-ahead read: it waits for the pages of the record (R122, R194). -/
def readingCmd (c : Cmd) (b : BEntry) (pages : List (BitVec 56 × Nat)) : Cmd :=
  { c with
    phase := .reading
    reads := pages.length
    released := b.key == c.key
    tried := c.tried + 1
    fixed := some { version := b.version, loc := b.loc, objLen := b.stLen - 64 - b.keyLen } }

/-- An entry on flash fixes version and location, and its pages are read (R122, R171). -/
theorem readAt_reads (hra : c.ra = none) (hfail : c.failed = false) (hc : cmdOf (s.die d) cid = some c) :
    cmdOf ((readAt s d { c with tried := c.tried + 1, failed := false } b).die d) cid
        = some (readingCmd c b (wantPages s d c (extentsAt (s.die d) b.loc)))
      ∧ ((readAt s d { c with tried := c.tried + 1, failed := false } b).die d).flash.ops.length
          = (s.die d).flash.ops.length + (wantPages s d c (extentsAt (s.die d) b.loc)).length := by
  have hstands : raMatches { c with tried := c.tried + 1, failed := false } b = false := by simp [raMatches, hra]
  unfold readAt
  dsimp only
  rw [hstands]
  simp only [Bool.false_eq_true, if_false, Bool.false_and]
  rw [squash_none (by exact hra)]
  generalize hs2 : (if b.key = c.key then hotInsert s d c.tenant c.hdr.nsid c.hash b.version 0 b.loc else s) = s2
  obtain ⟨hregs, hdie⟩ : s2.regs = s.regs ∧ s2.die d = { s.die d with comb := (s2.die d).comb } := by
    rw [← hs2]
    split
    · exact ⟨hotInsert_spec.1, hotInsert_spec.2.2⟩
    · exact ⟨rfl, rfl⟩
  have hpages : wantPages s2 d { c with tried := c.tried + 1, failed := false } (extentsAt (s2.die d) b.loc)
      = wantPages s d c (extentsAt (s.die d) b.loc) := by
    have hext : extentsAt (s2.die d) b.loc = extentsAt (s.die d) b.loc := by rw [hdie]; rfl
    rw [hext]
    exact wantPages_congr hregs (by rw [hdie])
  have hcmd : cmdOf (s2.die d) cid = some c := by
    rw [hdie]
    exact hc
  have hread : { c with
      phase := .reading, reads := (wantPages s d c (extentsAt (s.die d) b.loc)).length + 0, released := b.key == c.key, ra := none,
      failed := false, tried := c.tried + 1, fixed := some { version := b.version, loc := b.loc, objLen := b.stLen - 64 - b.keyLen } }
      = readingCmd c b (wantPages s d c (extentsAt (s.die d) b.loc)) := by
    unfold readingCmd
    rw [Nat.add_zero, ← hra, ← hfail]
  rw [hpages, hread, queueReads_spec.1, cmdOf_congr queueReads_spec.2]
  refine ⟨cmdOf_putCmd_of_cmdOf hcmd rfl, ?_⟩
  · have hops : (s2.die d).flash = (s.die d).flash := by rw [hdie]
    unfold putCmd
    rw [die_updDie_self, hops]

/-- The next entry of the chain lies on flash. -/
theorem tryEntry_flash {n : Nat} {rest : List BEntry} (hl : (htagEntries (s.die d) c (bucketPage (s.die d) c)).drop c.tried = b :: rest)
    (hflash : b.nectar = false) : tryEntry (n + 1) s d c = readAt s d { c with tried := c.tried + 1, failed := false } b := by
  unfold tryEntry
  rw [hl]
  dsimp only [List.head?_cons]
  rw [if_neg (by simp [hflash])]

/-- Settles O20: the hot-key search (`hotSearch_miss`, `hotSearch_nectar`) and the three things that the bucket's next entry can be
(`tryEntry_none`, `tryEntry_nectar`, `tryEntry_flash`). -/
theorem readers : Obligations.Readers := by
  unfold Obligations.Readers
  refine ⟨fun s d cid c hregs => ⟨fun hnone hc => ?_, fun w r p k hw hone hkind hring hkey hopen hc hver hpart hk => ?_⟩,
    fun s d cid c k l hrun hc hphase hra hver hpart hop hfail hl => ⟨fun hk => ?_, fun hhere => ⟨fun hnil hk => ?_,
      fun b rest r p v hcons hnectar hown hring hkey hopen hv hk => ?_, fun b rest pages hcons hflash hpages hsome => ?_⟩⟩⟩
  · have hcmd : cmdOf (s.die d) cid = some c := hc.elim (fun h => h.2.1) fun h => h.2.1
    refine ⟨hotSearch s d c, ?_, hotSearch_miss hregs hcmd hnone⟩
    rcases hc with hc | hc
    · rw [if_pos hc.2.2.2]
      exact congrArg Host.Outcome.next (onCmd_of_hasCmd hc)
    · rw [if_neg (by rw [hc.2.2.2]; decide)]
      exact congrArg Host.Outcome.next (onCmd_of_hasCmd hc)
  · obtain ⟨t, ht, hans, hmap⟩ := hotSearch_nectar hw hone hkind hring hkey hopen hver hpart
    have hdata : answerData c p.2 = p.2 := if_neg (by rw [hc.2.2.2]; decide)
    rw [hdata] at ht
    obtain ⟨hexec, hgone, hreply⟩ := exec_complete (i := .get d cid) rfl hc ht hans hk
    exact ⟨_, hexec, hgone, hreply, map_complete.trans hmap⟩
  · refine ⟨_, (exec_bucketLookupDone hrun hc hphase hfail).trans (congrArg Host.Outcome.next (if_pos rfl)), ?_⟩
    rw [lookupFail_none hra]
    exact complete_answers (cid_of_cmdOf hc) (.rfl s) hk
  all_goals
    have hexec := (exec_bucketLookupDone (ok := true) hrun hc hphase hfail).trans
      (congrArg Host.Outcome.next ((if_neg (by simp)).trans (if_pos hhere)))
    have hid : c.cid = cid := cid_of_cmdOf hc
  · have htry := tryEntry_none (n := (s.die d).map.kv.length) hra (hl.symm.trans hnil)
    obtain ⟨hgone, hreply⟩ := complete_answers (d := d) (st := Stat.notFound) (aux := 0) (ver := 0) (len := 0) (data := []) hid (.rfl s) hk
    have hdone := lookupDone_of_gone (s := s) (d := d) hid (by rw [htry]; exact hgone)
    rw [hdone, htry] at hexec
    exact ⟨_, hexec, hgone, hreply⟩
  · obtain ⟨t, htry, hans⟩ := tryEntry_nectar (n := (s.die d).map.kv.length) hra (hl.symm.trans hcons) hnectar hown hring hkey hopen
      hver hpart
    have hdata : answerData c p.2 = v := hv.symm
    rw [hdata] at htry
    obtain ⟨hgone, hreply⟩ := complete_answers (c := { c with tried := c.tried + 1, failed := false, ra := none }) (d := d)
      (st := Stat.ok) (aux := 0) (ver := r.version) (len := p.2.length) (data := v) hid hans
      (canReply_of_same hk rfl ⟨rfl, rfl, rfl, rfl, rfl⟩)
    have hdone := lookupDone_of_gone (s := s) (d := d) hid (by rw [htry]; exact hgone)
    rw [hdone, htry] at hexec
    exact ⟨_, hexec, hgone, hreply⟩
  · have htry := tryEntry_flash (n := (s.die d).map.kv.length) (hl.symm.trans hcons) hflash
    obtain ⟨hread, hops⟩ := readAt_reads (b := b) hra hfail hc
    rw [← hpages] at hread hops
    have hdone := lookupDone_of_reads (s := s) (d := d) hid (by rw [htry]; exact hread) (by simpa [readingCmd] using hsome)
    rw [hdone, htry] at hexec
    exact ⟨_, hexec, hread, hops⟩

end Sys2Proof.Kocel
end

section
/-! ### The front of the queue and the state after reset -/
namespace Sys2Proof.Sched
open Sys2Proof Sys2Proof.Machine Sys2Proof.Laws Sys2Proof.Safety Sys2Proof.Kocel

/-- Settles O1: both are the two cases of the queue in `step`. -/
theorem stepTakesFront : Obligations.StepTakesFront := by
  unfold Obligations.StepTakesFront
  refine ⟨fun c rest s => rfl, fun s hempty => ?_⟩
  unfold step
  rw [hempty]

/-- After reset every die is as its structure's defaults have it. -/
theorem die_reset (d : DieId) : State.reset.die d = {} := Vector.getElem_replicate d.isLt

/-- Nothing is listed in a sparse store after reset. -/
theorem canonical_reset : Canonical State.reset where
  registers := rfl
  memory d := by rw [die_reset]; rfl
  nor := rfl

/-- Settles O3: after reset no register is listed, so each reads its reset value, and a die is as `die_reset` says. -/
theorem resetState : Obligations.ResetState := by
  unfold Obligations.ResetState
  refine ⟨canonical_reset, rfl, fun a => rfl, fun d => ?_⟩
  rw [die_reset]
  refine ⟨rfl, rfl, rfl, fun k => ?_⟩
  have hlink : linkOf ({} : Die) k = {} := Vector.getElem_replicate k.isLt
  rw [hlink]
  exact ⟨rfl, rfl⟩

end Sys2Proof.Sched
end

section
/-! ### Intake and dispatch -/
namespace Sys2Proof.Sched
open Sys2Proof Sys2Proof.Machine Sys2Proof.Laws Sys2Proof.Safety Sys2Proof.Kocel
variable {s : State} {d : DieId} {x : Die} {c q : Cmd} {cls k n : Nat} {f : Bool} {r : RoundEntry} {passed : List Nat}

/-- The head of the arrivals takes its place among the commands of its die when its class and the die have room (R111, R113). -/
theorem cmdIntake_enqueues {rest : List Cmd} (hinbox : (s.die d).csq.inbox = c :: rest) (hon : (s.die d).csq.intake = true)
    (hserved : (s.die d).map.mounted = true ∨ 0x40 ≤ c.hdr.opcode) (hroom : intakeRoom s d c.cls = true) :
    cmdIntake s d = enqueue (s.updDie d fun x => { x with csq := { x.csq with inbox := rest } }) d c := by
  have hmedia : ¬(!(s.die d).map.mounted && decide (c.hdr.opcode < 0x40)) = true := by
    rcases hserved with hmounted | hadmin
    · simp [hmounted]
    · simp [Nat.not_lt.2 hadmin]
  unfold cmdIntake
  rw [hinbox]
  dsimp only
  rw [if_neg (by simp [hon]), if_neg hmedia, if_pos hroom]

/-- A tenant enters its round, and nothing else of CSQ changes that is not its rounds and debts (R119). -/
theorem enterRound_keeps (q : Csq) (cls tenant : Nat) :
    enterRound q cls tenant = { q with rounds := (enterRound q cls tenant).rounds, debts := (enterRound q cls tenant).debts } := by
  unfold enterRound
  split <;> rfl

/-! #### Dispatching one command -/

theorem sameButDie_setDie : SameButDie d s (s.setDie d x) := ⟨rfl, fun _ he => die_setDie_ne _ _ _ _ he⟩

/-- A die that runs and dispatches takes its next dispatch opportunity (R114). -/
theorem exec_csqDispatch (hrun : running s d = true) (hmay : mayDispatch s d = true) :
    exec (.csqDispatch d) s = .next (dispatchOne s d) :=
  congrArg Host.Outcome.next ((Access.onDie_of_running hrun).trans (if_pos hmay))

/-- A dispatched command is on its die as it was, with its charge, its funding and its core. -/
theorem cmdOf_dispatchCmd (hc : cmdOf x c.cid = some c) : cmdOf (dispatchCmd x c cls f) c.cid
    = some { c with phase := .dispatched, chgCls := cls, funded := f, core := freeCore x } := by
  have hkey : ((fun q : Cmd => q.cid == c.cid) ∘ fun q => if q.cid == c.cid then
      { q with phase := .dispatched, chgCls := cls, funded := f, core := freeCore x } else q) = fun q => q.cid == c.cid := by
    funext q
    simp only [Function.comp]
    split <;> rfl
  unfold cmdOf at hc ⊢
  unfold dispatchCmd
  rw [List.find?_map, hkey, hc]
  simp

/-- The other commands stay as they are. -/
theorem mem_dispatchCmd (hq : q ∈ x.csq.cmds) (hne : q.cid ≠ c.cid) : q ∈ (dispatchCmd x c cls f).csq.cmds :=
  List.mem_map.2 ⟨q, hq, if_neg (by simpa using hne)⟩

/-- Class 0's candidate is dispatched while tokens are left, or while no other class has a command to dispatch (R117). -/
theorem dispatchOne_urgent (hnext : urgentNext (s.die d) = some c)
    (hgo : decide (0 < (s.die d).csq.tokens) = true ∨ otherReady (s.die d) = false) :
    dispatchOne s d = s.setDie d { dispatchCmd (s.die d) c 0 (decide (0 < (s.die d).csq.tokens)) with
      csq := urgDebit s d (dispatchCmd (s.die d) c 0 (decide (0 < (s.die d).csq.tokens))).csq (costOf s d c) } := by
  unfold dispatchOne
  dsimp only
  rw [hnext]
  refine if_pos ?_
  rcases hgo with hfunded | hnone
  · simp [hfunded]
  · simp [hnone]

/-- Settles O17: the head of the arrivals is queued (`cmdIntake_enqueues`), class 0's candidate is dispatched
(`dispatchOne_urgent`), and the refill is the row's own update. -/
theorem intakeAndUrgency : Obligations.IntakeAndUrgency := by
  unfold Obligations.IntakeAndUrgency
  refine ⟨fun s d c rest htakes hinbox hon hserved hroom => ?_, fun s d hrun => ⟨fun c f hmay hnext hc hf hgo => ?_, ?_⟩⟩
  · obtain ⟨hrun, hwork⟩ := htakes
    have hexec : exec (.cmdIntake d) s = .next (cmdIntake s d) :=
      congrArg Host.Outcome.next ((Access.onDie_of_running hrun).trans (if_pos hwork))
    rw [cmdIntake_enqueues hinbox hon hserved hroom] at hexec
    unfold enqueue at hexec
    rw [updDie_updDie] at hexec
    refine ⟨_, hexec, ?_⟩
    rw [die_updDie_self]
    refine ⟨?_, rfl, rfl, ?_⟩
    · rw [enterRound_keeps]
    · rfl
  · subst hf
    refine ⟨_, (exec_csqDispatch hrun hmay).trans (congrArg Host.Outcome.next (dispatchOne_urgent hnext hgo)), ?_⟩
    rw [die_setDie_self]
    exact ⟨cmdOf_dispatchCmd hc, rfl, fun q hq hne => mem_dispatchCmd hq hne, rfl, rfl, sameButDie_setDie⟩
  · refine ⟨_, congrArg Host.Outcome.next (Access.onDie_of_running hrun), ?_⟩
    rw [die_updDie_self]
    exact ⟨rfl, rfl, rfl, Access.sameButDie_updDie _⟩

end Sys2Proof.Sched
end

section
/-! ### A turn of the deficit round robin -/
namespace Sys2Proof.Sched
open Sys2Proof Sys2Proof.Machine Sys2Proof.Laws Sys2Proof.Safety Sys2Proof.Kocel
variable {s : State} {d : DieId} {x : Die} {c : Cmd} {k n : Nat} {r : RoundEntry} {passed : List Nat}

/-- What a weight brings in one turn (R119). -/
def quanta (s : State) (d : DieId) (weight : Nat) : Int := (weight * dfld s d Page.csq 0x4C 15 0 : Nat)

/-- A class whose turn begins: it has gained its weight times the quantum (R119). -/
def beginTurn (s : State) (d : DieId) (k : Nat) (x : Die) : Die :=
  { x with csq := { x.csq with inTurn := true, cdef := x.csq.cdef.set k (x.csq.cdef.getD k 0 + quanta s d (classWeight s d k)) } }

/-- A tenant at the head of a round, credited with its weight times the quantum (R119). -/
def credit (s : State) (d : DieId) (x : Die) (r : RoundEntry) : RoundEntry :=
  { r with deficit := r.deficit + quanta s d (tenantWeight x r.tenant), credited := true }

/-- A die whose class k has the one tenant r in its round. -/
def aloneInRound (k : Nat) (r : RoundEntry) (x : Die) : Die :=
  { x with csq := { x.csq with rounds := x.csq.rounds.set k [r] } }

/-- A die on which a command has been dispatched for class k, which has paid, as has the tenant (R119). -/
def paidDispatch (s : State) (d : DieId) (k : Nat) (c : Cmd) (x : Die) : Die :=
  { dispatchCmd x c k false with csq := drrDebit (dispatchCmd x c k false).csq k c.tenant (costOf s d c) }

/-- The loop of a turn dispatches the only dispatchable command, whose tenant is alone in its round, when both deficits cover its
cost (R119). -/
theorem visitLoop_takes (hround : x.csq.rounds.getD k [] = [r]) (hnew : r.credited = false) (htenant : r.tenant = c.tenant)
    (hready : readyIn x k = [c]) (hdef : (costOf s d c : Int) ≤ (credit s d x r).deficit)
    (hcdef : (costOf s d c : Int) ≤ x.csq.cdef.getD k 0) :
    visitLoop s d k (n + 1) x passed
      = .took (leaveRound (paidDispatch s d k c (aloneInRound k (credit s d x r) x)) k c.tenant) := by
  have holdest : oldest ((readyIn x k).filter fun q => q.tenant == r.tenant) = some c := by
    rw [hready, htenant]
    simp [oldest, argMin]
  unfold visitLoop
  rw [hround]
  simp only [hnew, Bool.false_eq_true, if_false]
  rw [holdest]
  dsimp only
  exact (if_neg (not_lt.2 hdef)).trans (if_neg (not_lt.2 hcdef))

/-- The class whose turn it is begins it, and what its loop dispatches is the dispatch (R119). -/
theorem serve_takes {z : Die} (hcur : x.csq.cur = k) (hbegin : x.csq.inTurn = false) (hready : readyIn x k ≠ [])
    (hinherit : inherited x k = []) (htook : visitLoop s d k visitFuel (beginTurn s d k x) [] = .took z) :
    serve s d (n + 1) x = z := by
  have hnone : oldest (inherited (beginTurn s d k x) k) = none := congrArg oldest hinherit
  subst hcur
  unfold serve
  dsimp only
  rw [hbegin, if_neg (by simp [hready])]
  simp only [Bool.false_eq_true, if_false]
  split
  · next e he => exact absurd (hnone.symm.trans he) (Option.some_ne_none e).symm
  · split
    · next w hw => exact (Turn.took.inj (htook.symm.trans hw)).symm
    · next w hw => cases htook.symm.trans hw

/-- With nothing for class 0 to do, a dispatchable command of another class lets the classes be served (R117, R119). -/
theorem dispatchOne_serves (hready0 : readyIn (s.die d) 0 = []) (hinherit0 : inherited (s.die d) 0 = []) (hk : k ≠ 0)
    (hc : c ∈ readyIn (s.die d) k) : dispatchOne s d = s.setDie d (serve s d visitFuel (s.die d)) := by
  have hnext : urgentNext (s.die d) = none := by
    unfold urgentNext
    rw [hready0, hinherit0]
    rfl
  have hother : otherReady (s.die d) = true := by
    obtain ⟨hqueued, hfree⟩ := List.mem_filter.1 hc
    obtain ⟨hmem, hof⟩ := List.mem_filter.1 hqueued
    obtain ⟨hphase, hcls⟩ := (Bool.and_eq_true _ _).mp hof
    unfold otherReady
    rw [hinherit0]
    refine List.any_eq_true.2 ⟨c, hmem, ?_⟩
    have hne : c.cls ≠ 0 := by simpa [eq_of_beq hcls] using hk
    simpa [eq_of_beq hphase, hne] using hfree
  unfold dispatchOne
  dsimp only
  rw [hnext]
  exact if_pos hother

theorem getD_set_self {α : Type} {l : List α} {a b : α} (h : k < l.length) : (l.set k a).getD k b = a := by
  simp [List.getD_eq_getElem?_getD, h]

/-- A class with a tenant in its round has a round. -/
theorem lt_length_of_getD {l : List (List RoundEntry)} (h : l.getD k [] ≠ []) : k < l.length := by
  by_contra hge
  exact h (List.getD_eq_default _ _ (not_lt.1 hge))

/-- A tenant that has no more queued commands of the class leaves its round, and nothing but the rounds changes (R119). -/
theorem leaveRound_keeps {tenant : Nat} : leaveRound x k tenant
    = { x with csq := { x.csq with rounds := (leaveRound x k tenant).csq.rounds } } := by
  unfold leaveRound
  split <;> rfl

/-- The round of a class that one tenant had alone, once it has left it or stays (R119). -/
theorem leaveRound_alone {tenant : Nat} (hround : x.csq.rounds.getD k [] = [r]) (htenant : r.tenant = tenant) :
    (leaveRound x k tenant).csq.rounds.getD k [] = if (queuedIn x k).any (fun q => q.tenant == tenant) then [r] else [] := by
  have hlt : k < x.csq.rounds.length := lt_length_of_getD (by rw [hround]; exact List.cons_ne_nil r [])
  unfold leaveRound
  split
  · exact hround
  · dsimp only
    rw [getD_set_self hlt, hround]
    simp [htenant]

/-- A command that is dispatched pays from its class's deficit (R115, R119). -/
theorem paidDispatch_cdef (hk : k < x.csq.cdef.length) :
    (paidDispatch s d k c x).csq.cdef.getD k 0 = x.csq.cdef.getD k 0 - (costOf s d c : Int) := getD_set_self hk

/-- A command that is dispatched pays from the deficit of its tenant, here alone in the round (R115, R119). -/
theorem paidDispatch_round (hk : k < x.csq.rounds.length) (htenant : r.tenant = c.tenant) :
    (paidDispatch s d k c (aloneInRound k r x)).csq.rounds.getD k [] = [{ r with deficit := r.deficit - (costOf s d c : Int) }] := by
  have hround : (aloneInRound k r x).csq.rounds.getD k [] = [r] := getD_set_self hk
  have hlt : k < (aloneInRound k r x).csq.rounds.length := by simpa [aloneInRound] using hk
  refine (getD_set_self hlt).trans ?_
  show ((aloneInRound k r x).csq.rounds.getD k []).map _ = _
  rw [hround]
  simp [htenant]

/-- The die that a turn's dispatch leaves, before the tenant may leave its round (R119). -/
def turnTaken (s : State) (d : DieId) (k : Nat) (c : Cmd) (r : RoundEntry) : Die :=
  paidDispatch s d k c (aloneInRound k (credit s d (s.die d) r) (beginTurn s d k (s.die d)))

/-- The turn of class k begins on a die with nothing for class 0 to do; one tenant is in the class's round, and it has one command to
dispatch, which both deficits cover once they have gained (R119). -/
structure LoneTurn (s : State) (d : DieId) (c : Cmd) (k : Nat) (r : RoundEntry) : Prop where
  urgentReady     : readyIn (s.die d) 0 = []
  urgentInherited : inherited (s.die d) 0 = []
  other           : k ≠ 0
  cur             : (s.die d).csq.cur = k
  begins          : (s.die d).csq.inTurn = false
  inCdef          : k < (s.die d).csq.cdef.length
  noInherited     : inherited (s.die d) k = []
  ready           : readyIn (s.die d) k = [c]
  round           : (s.die d).csq.rounds.getD k [] = [r]
  tenant          : r.tenant = c.tenant
  new             : r.credited = false
  tenantPays      : (costOf s d c : Int) ≤ r.deficit + quanta s d (tenantWeight (s.die d) c.tenant)
  classPays       : (costOf s d c : Int) ≤ (s.die d).csq.cdef.getD k 0 + quanta s d (classWeight s d k)

/-- In such a turn the class has gained its weight times the quantum. -/
theorem LoneTurn.gain (h : LoneTurn s d c k r) : (beginTurn s d k (s.die d)).csq.cdef.getD k 0
    = (s.die d).csq.cdef.getD k 0 + quanta s d (classWeight s d k) := getD_set_self h.inCdef

theorem LoneTurn.inRounds (h : LoneTurn s d c k r) : k < (s.die d).csq.rounds.length :=
  lt_length_of_getD (by rw [h.round]; exact List.cons_ne_nil r [])

/-- Such a turn dispatches the command (R119). -/
theorem LoneTurn.dispatchOne (h : LoneTurn s d c k r) :
    dispatchOne s d = s.setDie d (leaveRound (turnTaken s d k c r) k c.tenant) := by
  have hpays : (costOf s d c : Int) ≤ (credit s d (s.die d) r).deficit := by
    unfold credit
    rw [h.tenant]
    exact h.tenantPays
  have htook : visitLoop s d k visitFuel (beginTurn s d k (s.die d)) []
      = .took (leaveRound (turnTaken s d k c r) k c.tenant) :=
    visitLoop_takes (x := beginTurn s d k (s.die d)) (n := 16777215) h.round h.new h.tenant h.ready hpays
      (by rw [h.gain]; exact h.classPays)
  have hserve : serve s d visitFuel (s.die d) = leaveRound (turnTaken s d k c r) k c.tenant :=
    serve_takes (n := 16777215) h.cur h.begins (by rw [h.ready]; exact List.cons_ne_nil c []) h.noInherited htook
  have hmem : c ∈ readyIn (s.die d) k := by
    rw [h.ready]
    exact List.mem_singleton_self c
  rw [dispatchOne_serves h.urgentReady h.urgentInherited h.other hmem, hserve]

/-- The class has then paid the command's cost (R115, R119). -/
theorem LoneTurn.cdef (h : LoneTurn s d c k r) : (turnTaken s d k c r).csq.cdef.getD k 0
    = (s.die d).csq.cdef.getD k 0 + quanta s d (classWeight s d k) - (costOf s d c : Int) := by
  have hlt : k < (aloneInRound k (credit s d (s.die d) r) (beginTurn s d k (s.die d))).csq.cdef.length := by
    simpa [aloneInRound, beginTurn] using h.inCdef
  exact (paidDispatch_cdef hlt).trans (congrArg (· - (costOf s d c : Int)) h.gain)

/-- Settles O18: the class's turn dispatches the command (`LoneTurn.dispatchOne`), which both deficits pay (`LoneTurn.cdef`,
`paidDispatch_round`), and the tenant stays in its round or leaves it (`leaveRound_alone`). -/
theorem deficitRound : Obligations.DeficitRound := by
  unfold Obligations.DeficitRound
  intro s d c k r hrun hmay hready0 hinherit0 hk1 hk7 hcur hbegin hlen hinherit hready hround htenant hnew hc hdef hcdef
  have h : LoneTurn s d c k r := ⟨hready0, hinherit0, by omega, hcur, hbegin, by omega, hinherit, hready, hround, htenant, hnew, hdef, hcdef⟩
  have hpaid := paidDispatch_round (s := s) (d := d) (c := c) (r := credit s d (s.die d) r) (x := beginTurn s d k (s.die d))
    h.inRounds htenant
  have hcmd : cmdOf (turnTaken s d k c r) c.cid
      = some { c with phase := .dispatched, chgCls := k, funded := false, core := freeCore (s.die d) } :=
    cmdOf_dispatchCmd (x := aloneInRound k (credit s d (s.die d) r) (beginTurn s d k (s.die d))) hc
  refine ⟨_, (exec_csqDispatch hrun hmay).trans (congrArg Host.Outcome.next h.dispatchOne), ?_⟩
  rw [die_setDie_self]
  refine ⟨?_, ?_, ?_, ?_, sameButDie_setDie⟩
  · rw [leaveRound_keeps]
    exact hcmd
  · rw [leaveRound_keeps]
    exact h.cdef
  · have hqueued : queuedIn (leaveRound (turnTaken s d k c r) k c.tenant) k = queuedIn (turnTaken s d k c r) k := by
      rw [leaveRound_keeps]
      rfl
    have hleft := leaveRound_alone hpaid htenant
    rw [hqueued]
    rw [← htenant] at hleft ⊢
    exact hleft
  · rw [leaveRound_keeps]
    rfl

end Sys2Proof.Sched
end

section
/-! ### FLUSH -/
namespace Sys2Proof.Sched
open Sys2Proof Sys2Proof.Machine Sys2Proof.Laws Sys2Proof.Safety Sys2Proof.Kocel
variable {s : State} {d e : DieId} {cid : Nat} {c : Cmd} {k : Session}

/-- A command that is stored anew changes the commands of its die alone. -/
theorem putCmd_keeps : ((putCmd s d c).die e).csq.barriers = (s.die e).csq.barriers ∧ ((putCmd s d c).die e).map = (s.die e).map
    ∧ ((putCmd s d c).die e).phase = (s.die e).phase := by
  unfold putCmd
  rw [die_updDie]
  split
  · next he => exact he ▸ ⟨rfl, rfl, rfl⟩
  · exact ⟨rfl, rfl, rfl⟩

/-- Which commands a die holds decides which one a number names. -/
theorem cmdOf_congr_cmds {x y : Die} (h : y.csq.cmds = x.csq.cmds) : cmdOf y cid = cmdOf x cid := by
  unfold cmdOf
  rw [h]

/-- The barrier of a FLUSH stands last at every die that runs, once its way is free, and the FLUSH waits for all of them (R128). -/
theorem flush_sends (hc : HasCmd s d cid Op.flush c) (hrun : running s e = true) (hway : WayFree s d e) :
    ∃ t, exec (.flush d cid) s = .next t ∧ cmdOf (t.die d) cid = some { c with phase := .barrier, waits := upDies s }
      ∧ (t.die e).csq.barriers = (s.die e).csq.barriers ++ [.flush d cid] ∧ (t.die e).map = (s.die e).map := by
  have hans : AnswersAs s (putCmd s d { c with phase := .barrier, waits := upDies s }) := answersAs_putCmd
  obtain ⟨hbar, hmap, hphase⟩ := putCmd_keeps (s := s) (d := d) (e := e) (c := { c with phase := .barrier, waits := upDies s })
  have hstores : Stores _ (sendBarrier (putCmd s d { c with phase := .barrier, waits := upDies s }) (.flush d cid)) :=
    stores_sendBarrier ..
  refine ⟨_, congrArg Host.Outcome.next (onCmd_of_hasCmd hc), ?_, ?_, (hstores.map e).trans hmap⟩
  · rw [cmdOf_congr_cmds (hstores.cmds d)]
    exact cmdOf_putCmd_of_cmdOf hc.2.1 rfl
  · rw [sendBarrier_barriers (b := .flush d cid) ((Swarm.running_congr hphase hans.part rfl).trans hrun)
      ⟨(waitsOut_congr hans.swm hans.out hans.part d e).trans hway.route, hway.entry⟩, hbar]

/-- A die that takes the barrier of a FLUSH marks the writes that are not yet durable (R128). -/
theorem exec_flushBarrier {home : DieId} {rest : List Barrier} (hrun : running s d = true)
    (hbar : (s.die d).csq.barriers = .flush home cid :: rest) : exec (.flushBarrier d) s = .next (s.updDie d fun x =>
      { x with csq := { x.csq with barriers := rest, marks := x.csq.marks ++ [(home, cid, unflushed x)] } }) := by
  refine congrArg Host.Outcome.next ((Access.onDie_of_running hrun).trans ?_)
  rw [hbar]

/-- The marks of a FLUSH that has been confirmed on a die are gone. -/
def unmarked (s : State) (d : DieId) (cid : Nat) : State :=
  s.updDie d fun x => { x with csq := { x.csq with marks := x.csq.marks.filter (fun q => q.2.1 != cid) } }

theorem answersAs_unmarked : AnswersAs s (unmarked s d cid) := answersAs_updDie _ fun _ => ⟨rfl, rfl, rfl, rfl⟩

theorem cmdOf_unmarked : cmdOf ((unmarked s d cid).die e) cid = cmdOf (s.die e) cid := by
  refine cmdOf_congr_cmds ?_
  unfold unmarked
  rw [die_updDie]
  split
  · next he => rw [he]
  · rfl

/-- A die whose marked writes are all durable confirms the FLUSH, once its message can go (R20, R129). -/
theorem exec_flushConfirm {home : DieId} {wids : List Nat} (hrun : running s d = true)
    (hmark : (s.die d).csq.marks.find? (fun m => m.2.1 == cid) = some (home, cid, wids))
    (hdurable : ∀ r ∈ (s.die d).map.ring, r.wid ∉ wids) (hroute : waitsOut s d home = false) :
    exec (.flushConfirm d cid) s = .next (flushConfirmed (unmarked s d cid) home cid d) := by
  have hflushed : flushed (s.die d) wids = true := by
    unfold flushed
    refine List.all_eq_true.2 fun w hw => ?_
    have hout : ∀ r ∈ (s.die d).map.ring, ¬(r.wid == w) = true := fun r hr heq => hdurable r hr (eq_of_beq heq ▸ hw)
    simpa using hout
  refine congrArg Host.Outcome.next ((Access.onDie_of_running hrun).trans ?_)
  rw [hmark]
  exact if_pos (by simp [hflushed, hroute])

/-- The last confirmation of a FLUSH that lost nothing completes it with OK (R129). -/
theorem flushConfirmed_last (hc : cmdOf (s.die e) cid = some c) (hwaits : c.waits = [d]) (hfail : c.failed = false)
    (hon : c.offline = false) : flushConfirmed s e cid d = fail s e { c with waits := [] } Stat.ok := by
  have hnone : (c.waits.filter (· != d)).isEmpty = true := by simp [hwaits]
  unfold flushConfirmed
  rw [hc]
  dsimp only
  rw [if_pos hnone, if_neg (by simp [hon]), if_neg (by simp [hfail])]

/-- Settles O22: the barrier goes out (`flush_sends`), each die marks its writes (`exec_flushBarrier`), and the last confirmation
(`exec_flushConfirm`) completes the FLUSH (`flushConfirmed_last`). -/
theorem flush : Obligations.Flush := by
  unfold Obligations.Flush
  refine fun s d e cid c hrun hrune hroute hentry => ⟨fun hc => flush_sends hc hrune ⟨hroute, hentry⟩, fun home rest hbar => ?_,
    fun wids k hmark hdurable hc hwaits hfail hon hk => ?_⟩
  · refine ⟨_, exec_flushBarrier hrun hbar, ?_⟩
    rw [die_updDie_self]
    exact ⟨rfl, rfl, rfl, Access.sameButDie_updDie _⟩
  · have hlast := flushConfirmed_last ((cmdOf_unmarked (s := s) (d := d)).trans hc) hwaits hfail hon
    have hid : c.cid = cid := cid_of_cmdOf hc
    obtain ⟨hgone, hreply⟩ := complete_answers (c := { c with waits := [] }) (d := e) (st := Stat.ok) (aux := 0) (ver := 0) (len := 0)
      (data := []) (cid := cid) hid (answersAs_unmarked (s := s) (d := d) (cid := cid))
      (canReply_of_same hk rfl ⟨rfl, rfl, rfl, rfl, rfl⟩)
    exact ⟨_, (exec_flushConfirm hrun hmark hdurable hroute).trans (congrArg Host.Outcome.next hlast), hgone, hreply⟩

end Sys2Proof.Sched
end

section
/-! ### Operations of a die's flash channels -/
namespace Sys2Proof.Sched
open Sys2Proof Sys2Proof.Machine Sys2Proof.Laws Sys2Proof.Safety Sys2Proof.Kocel
variable {s t : State} {d e : DieId} {x : Die} {o p : FlashOp} {op cid units : Nat} {c : Cmd} {k : Session}

theorem op_of_opOf (ho : opOf x op = some o) : o.op = op := by simpa using List.find?_some ho

/-- A changed operation stands in its place while its number stays. -/
theorem opOf_updOp' {f : FlashOp → FlashOp} {n : Nat} (hf : ∀ q, (f q).op = q.op) :
    opOf (updOp' x n f) op = (opOf x op).map fun q => if q.op == n then f q else q := by
  have hkey : ((fun q : FlashOp => q.op == op) ∘ fun q => if q.op == n then f q else q) = fun q => q.op == op := by
    funext q
    simp only [Function.comp]
    split
    · rw [hf]
    · rfl
  unfold opOf updOp' updWhere
  rw [List.find?_map, hkey]

/-- An operation that has been taken away is on its die no more. -/
theorem opOf_dropOp : opOf (dropOp x op) op = none := by
  unfold opOf dropOp
  simp

/-! #### Issue -/

/-- An operation to whose LUN nothing runs suspends nothing (R286). -/
theorem suspendLun_of_free (hfree : lunBusy (s.die d) o = none) : suspendLun s d o = s := by
  unfold suspendLun
  split
  · rfl
  · rw [hfree]

/-- A die on which an operation is issued: its tokens are spent, and its commands are sent (R262, R506). -/
def tokensTaken (o : FlashOp) (credit : Int) (l : List NandCmd) (x : Die) : Die :=
  updChan { x with flash := { x.flash with
    balance := x.flash.balance - o.cost
    spent := x.flash.spent + o.cost
    credit := credit } } o.chan fun q => { q with sent := l }

theorem sendNand_takeTokens {l : List NandCmd} :
    sendNand (takeTokens s d o) d o.chan l = s.updDie d (tokensTaken o (creditAfter s d o) l) := by
  unfold sendNand takeTokens
  exact updDie_updDie _ _

/-- An operation that goes to a free LUN runs there from now on (R506). -/
theorem issueOp_of_free (hfree : lunBusy (s.die d) o = none) : ∃ credit l, issueOp s d o = s.updDie d fun x =>
    updOp' (tokensTaken o credit l x) o.op fun q => { q with running := true, since := x.mon.devTime } := by
  refine ⟨creditAfter s d o, suspendCmds s d o ++ startCmds s d o, ?_⟩
  have hbusy : lunBusy ((s.updDie d (tokensTaken o (creditAfter s d o) (suspendCmds s d o ++ startCmds s d o))).die d) o = none := by
    rw [die_updDie_self]
    exact hfree
  unfold issueOp
  rw [sendNand_takeTokens]
  dsimp only
  rw [suspendLun_of_free hbusy, updDie_updDie]
  rfl

/-- FLASH_OP_ISSUE of an operation that is eligible and may take its tokens (R506). -/
theorem exec_flashOpIssue (hrun : running s d = true) (ho : opOf (s.die d) op = some o) (hwork : takesWork s (fchReg d o.chan 0) = true)
    (helig : eligible s d o = true) (hlate : o.late = none) (htake : mayTake s d o = true) :
    exec (.flashOpIssue d op) s = .next (issueOp s d o) := by
  have hlosing : s.guard.losing = false := by
    simp only [running, Bool.and_eq_true, Bool.not_eq_true'] at hrun
    exact hrun.1.2
  refine congrArg Host.Outcome.next ((Access.onDie_of_running hrun).trans ?_)
  rw [ho]
  dsimp only
  rw [if_pos (by simp [hwork, helig, hlosing]), hlate]
  exact if_pos htake

/-! #### The end of a read -/

theorem opOf_resumeLun (ho : opOf x op = none) : opOf (resumeLun x o) op = none := by
  unfold resumeLun
  split
  · exact ho
  · rw [opOf_updOp' fun q => by split <;> rfl, ho]
    rfl

theorem resumeLun_keeps : resumeLun x o = { x with flash := (resumeLun x o).flash } := by
  unfold resumeLun
  split <;> rfl

/-- The flash channels of a die on which an operation has ended: its commands have been sent, it is gone, what it had suspended goes
on, and its LUN's run of timeouts is broken (R286, R287). -/
def endedOn (o : FlashOp) (l : List NandCmd) (x : Die) : Flash :=
  (updChan (resumeLun (dropOp (updChan x o.chan fun q => { q with sent := l }) o.op) o) o.chan
    fun q => { q with timeouts := assocDel (o.ce * 16 + o.lun) q.timeouts }).flash

theorem opOf_endedOn {l : List NandCmd} : opOf { x with flash := endedOn o l x } o.op = none :=
  opOf_resumeLun (x := dropOp (updChan x o.chan fun q => { q with sent := l }) o.op) opOf_dropOp

/-- The end of an operation on its LUN changes the flash channels of its die alone. -/
theorem lunAnswered_opGone : ∃ l, lunAnswered (opGone s d o) d o = s.updDie d fun x => { x with flash := endedOn o l x } := by
  refine ⟨endCmds s d o ++ resumeCmds s d (dropOp (s.die d) o.op) o, ?_⟩
  unfold lunAnswered opGone sendNand
  dsimp only
  rw [updDie_updDie, updDie_updDie]
  congr 1
  funext x
  rw [resumeLun_keeps]
  rfl

/-- What the charge of a read leaves of CSQ: its commands and its controls (R115). -/
theorem chargeRead_keeps : AnswersAs s (chargeRead s d c units) ∧ ((chargeRead s d c units).die d).csq.cmds = (s.die d).csq.cmds
    ∧ ((chargeRead s d c units).die d).flash = (s.die d).flash ∧ ((chargeRead s d c units).die d).map = (s.die d).map := by
  unfold chargeRead
  extract_lets cost charge s1
  have hcharge : ∀ q : Csq, (charge q).cmds = q.cmds ∧ (charge q).controls = q.controls := by
    intro q
    show (if c.chgCls = 0 then urgDebit s d q cost else drrDebit q c.chgCls c.tenant cost).cmds = _
      ∧ (if c.chgCls = 0 then urgDebit s d q cost else drrDebit q c.chgCls c.tenant cost).controls = _
    split <;> exact ⟨rfl, rfl⟩
  have hs1 : AnswersAs s s1 := answersAs_updDie _ fun x => ⟨rfl, (hcharge x.csq).2, rfl, rfl⟩
  have hmeter : Stores s1 (meterAdd s1 c.home c.tenant fun m => { m with reads4k := m.reads4k + units }) := stores_meterAdd ..
  refine ⟨hs1.trans (answersAs_updDie _ fun _ => ⟨rfl, rfl, rfl, rfl⟩), ?_, ?_, ?_⟩
  · rw [hmeter.cmds, die_updDie_self]
    exact (hcharge _).1
  · rw [hmeter.flash, die_updDie_self]
  · rw [hmeter.map, die_updDie_self]

/-- A state in which a host read has ended on its LUN and been charged: the operation is gone, the commands, the map and what answers
need are as they were. -/
structure ReadLanded (s t : State) (d : DieId) (op : Nat) : Prop where
  answers : AnswersAs s t
  gone    : opOf (t.die d) op = none
  cmds    : (t.die d).csq.cmds = (s.die d).csq.cmds
  map     : (t.die d).map = (s.die d).map

/-- The command of a host read that yields its codewords at stage 1 goes on from there (R115, R278). -/
theorem exec_flashReadComplete (hrun : running s d = true) (ho : opOf (s.die d) op = some o) (hkind : o.kind = .read)
    (hon : o.running = true) (hsrc : o.src = .host cid) (hdrop : o.drop = false) (hc : cmdOf (s.die d) cid = some c) :
    ∃ t, exec (.flashReadComplete d op .hard) s = .next (readEnded t d cid true) ∧ ReadLanded s t d op := by
  obtain ⟨l, hl⟩ := lunAnswered_opGone (s := s) (d := d) (o := o)
  have hid : o.op = op := op_of_opOf ho
  have hgone : opOf (((s.updDie d fun x => { x with flash := endedOn o l x })).die d) o.op = none := by
    rw [die_updDie_self]
    exact opOf_endedOn
  have hans : AnswersAs s (s.updDie d fun x => { x with flash := endedOn o l x }) := answersAs_updDie _ fun _ => ⟨rfl, rfl, rfl, rfl⟩
  have hsame : ((s.updDie d fun x => { x with flash := endedOn o l x }).die d).csq = (s.die d).csq
      ∧ ((s.updDie d fun x => { x with flash := endedOn o l x }).die d).map = (s.die d).map := by
    rw [die_updDie_self]
    exact ⟨rfl, rfl⟩
  generalize (s.updDie d fun x => { x with flash := endedOn o l x }) = s1 at hl hgone hans hsame
  obtain ⟨hcharged, hcmds, hflash, hmap⟩ := chargeRead_keeps (s := s1) (d := d) (c := c) (units := o.cws)
  refine ⟨chargeRead s1 d c o.cws, ?_, hans.trans hcharged, ?_, ?_, hmap.trans hsame.2⟩
  · refine congrArg Host.Outcome.next ((Access.onDie_of_running hrun).trans ?_)
    rw [ho]
    dsimp only
    rw [if_pos ⟨hkind, hon⟩, if_neg (by decide), hl]
    unfold readDone
    rw [hsrc]
    dsimp only
    rw [hdrop, if_neg (by decide), if_neg (by decide)]
    show readResult s1 d o true = _
    unfold readResult
    rw [hsrc]
    dsimp only
    rw [cmdOf_congr hsame.1, hc]
  · unfold opOf at hgone ⊢
    rw [hflash, ← hid]
    exact hgone
  · rw [hcmds, hsame.1]

/-- A command that waits for further reads waits for one fewer (R173). -/
theorem readEnded_waits {n : Nat} (hc : cmdOf (s.die d) cid = some c) (hphase : c.phase = .reading) (hreads : c.reads = n + 2) :
    readEnded s d cid true = putCmd s d { c with reads := n + 1 } := by
  unfold readEnded
  rw [hc]
  dsimp only
  rw [if_pos hphase, hreads, if_neg (by simp)]
  simp

/-- A READ whose last read has ended is answered with its bytes (R100). -/
theorem readEnded_last (hc : cmdOf (s.die d) cid = some c) (hphase : c.phase = .reading) (hreads : c.reads = 1)
    (hop : c.hdr.opcode = Op.read) (hfail : c.failed = false) :
    readEnded s d cid true = complete s d { c with reads := 0, failed := false } Stat.ok 0 0 c.value.length c.value := by
  unfold readEnded
  rw [hc]
  dsimp only
  rw [if_pos hphase, hreads, hfail, if_pos (by rfl), if_pos hop]
  rfl

/-- Settles O33: an operation on a free LUN is issued (`issueOp_of_free`); the end of a host read (`exec_flashReadComplete`) leaves
its command one read fewer (`readEnded_waits`) or answers it (`readEnded_last`). -/
theorem flashReads : Obligations.FlashReads := by
  unfold Obligations.FlashReads
  refine fun s d op o hrun ho => ⟨fun hwork helig hfree hlate htake => ?_,
    fun cid c hkind hon hsrc hdrop hc hphase => ⟨fun n hreads => ?_, fun k hreads hop hfail hk => ?_⟩⟩
  · have hmay : mayTake s d o = true := by
      unfold mayTake
      rcases htake with hurgent | ⟨hsplit, hturn, hcost⟩
      · simp [hurgent]
      · simp [hsplit, hturn, hcost]
    obtain ⟨credit, l, hissue⟩ := issueOp_of_free hfree
    refine ⟨_, (exec_flashOpIssue hrun ho hwork helig hlate hmay).trans (congrArg Host.Outcome.next hissue), ?_⟩
    rw [die_updDie_self]
    refine ⟨?_, rfl, rfl, rfl, Access.sameButDie_updDie _⟩
    have hsame : opOf (tokensTaken o credit l (s.die d)) op = some o := ho
    rw [opOf_updOp' fun _ => by rfl, hsame, op_of_opOf ho]
    simp [op_of_opOf ho]
  all_goals
    obtain ⟨t, hexec, hans, hgone, hcmds, hmap⟩ := exec_flashReadComplete hrun ho hkind hon hsrc hdrop hc
    have hct : cmdOf (t.die d) cid = some c := (cmdOf_congr_cmds hcmds).trans hc
  · rw [readEnded_waits hct hphase hreads] at hexec
    refine ⟨_, hexec, ?_, cmdOf_putCmd_of_cmdOf hct rfl, putCmd_keeps.2.1.trans hmap⟩
    unfold putCmd
    rw [die_updDie_self]
    exact hgone
  · rw [readEnded_last hct hphase hreads hop hfail] at hexec
    have hid : c.cid = cid := cid_of_cmdOf hc
    obtain ⟨hleft, hreply⟩ := complete_answers (c := { c with reads := 0, failed := false }) (cid := cid) (d := d) (st := Stat.ok)
      (aux := 0) (ver := 0) (len := c.value.length) (data := c.value) hid hans (canReply_of_same hk rfl ⟨rfl, rfl, rfl, rfl, rfl⟩)
    refine ⟨_, hexec, ?_, hleft, ?_⟩
    · unfold opOf at hgone ⊢
      rw [(complete_stores ..).flash]
      unfold dropCmd
      rw [die_updDie_self]
      exact hgone
    · rw [← hop]
      exact hreply

end Sys2Proof.Sched
end

section
/-! ### What an ABORT and the messages that it lets go leave of the firmware -/
namespace Sys2Proof.Sched
open Sys2Proof Sys2Proof.Machine Sys2Proof.Laws Sys2Proof.Safety Sys2Proof.Kocel
variable {s t u : State} {d e : DieId} {slot gen status : Nat} {c a : Cmd} {k : Session} {m : Msg} {h1 : CmdHdr} {key inline : Bytes}

/-- The boot NOR is as it was, and so are the activation, the count of reloads and the time since which R533 counts. -/
structure FwKept (s t : State) : Prop where
  nor : t.nor = s.nor
  act : t.pkg.act = s.pkg.act
  fwReload : t.pkg.fwReload = s.pkg.fwReload
  mountedAt : t.pkg.mountedAt = s.pkg.mountedAt

protected theorem FwKept.ite {p : Prop} [Decidable p] (ht : FwKept s t) (hu : FwKept s u) : FwKept s (if p then t else u) := by
  split
  · exact ht
  · exact hu

protected theorem FwKept.foldl {α : Type} {f : State → α → State} {l : List α} (h : FwKept s t)
    (hf : ∀ u x, FwKept s u → FwKept s (f u x)) : FwKept s (l.foldl f t) :=
  List.foldlRecOn (motive := FwKept s) l f h fun u hu x _ => hf u x hu

/-- Replies and their bookkeeping leave the firmware alone. -/
protected theorem FwKept.stores (h : FwKept s t) (hst : Stores t u) : FwKept s u :=
  ⟨hst.nor.trans h.nor, (congrArg Package.act hst.pkg).trans h.act, (congrArg Package.fwReload hst.pkg).trans h.fwReload,
    (congrArg Package.mountedAt hst.pkg).trans h.mountedAt⟩

protected theorem FwKept.updDie {f : Die → Die} (h : FwKept s t) : FwKept s (t.updDie d f) := ⟨h.nor, h.act, h.fwReload, h.mountedAt⟩

protected theorem FwKept.putSess (h : FwKept s t) : FwKept s (putSess t d k) := h.updDie

protected theorem FwKept.refuse {rflags : Nat} (h : FwKept s t) : FwKept s (refuse t d k m status rflags) :=
  h.stores (stores_replyTo ..)

protected theorem FwKept.sendAck (h : FwKept s t) : FwKept s (sendAck t d slot) := by
  unfold Machine.sendAck
  split
  · exact h
  · exact (h.stores (stores_transmit ..)).stores (stores_checkNonce ..)

protected theorem FwKept.tellEdge (h : FwKept s t) : FwKept s (tellEdge t d slot) := by
  unfold Machine.tellEdge
  split
  · exact h
  · exact .ite h.sendAck h

protected theorem FwKept.openWindows (h : FwKept s t) : FwKept s (openWindows t d) := by
  unfold Machine.openWindows
  refine h.foldl fun u k hu => ?_
  split
  · exact hu
  · exact .ite hu.sendAck hu

/-! #### A held message that goes on -/

protected theorem FwKept.beginReset (h : FwKept s t) : FwKept s (beginReset t c) := by
  unfold Machine.beginReset
  split
  · exact h
  · exact h.putSess

/-- A command that is handed on takes the next number (R105, R111). -/
protected theorem FwKept.hand (h : FwKept s t) : FwKept s (hand t c) := by
  unfold Machine.hand
  extract_lets _ s1 s2
  have hs1 : FwKept s s1 := FwKept.stores (t := { t with pkg := { t.pkg with nextCid := t.pkg.nextCid + 1 } }) ⟨h.nor, h.act, h.fwReload, h.mountedAt⟩
    (stores_wakeAt ..)
  have hs2 : FwKept s s2 := hs1.updDie
  refine .ite (.ite hs2.beginReset hs2) (.ite (hs1.stores (stores_holdOut ..)) ?_)
  exact (hs1.stores (stores_wakeAt ..)).updDie

protected theorem FwKept.routeCmd {owner : DieId} {hash : BitVec 128} (h : FwKept s t) :
    FwKept s (routeCmd t d k m h1 key inline owner hash) := by
  unfold Machine.routeCmd
  extract_lets s1
  have hs1 : FwKept s s1 := .ite (h.stores (stores_regBump ..)) h
  split
  · exact hs1.refuse
  · exact .ite hs1.refuse hs1.hand
  · exact .ite hs1.refuse hs1.hand

protected theorem FwKept.checkRoute (h : FwKept s t) : FwKept s (checkRoute t d k m h1 key inline) := by
  unfold Machine.checkRoute
  split
  · exact h.refuse
  · split
    · exact h.refuse
    · exact h.routeCmd

protected theorem FwKept.checkRate (h : FwKept s t) : FwKept s (checkRate t d k m h1 key inline) := by
  unfold Machine.checkRate
  refine .ite h.checkRoute ?_
  split
  · exact h.checkRoute
  · exact .ite (FwKept.checkRoute h.updDie) (.ite h.refuse (h.putSess.stores (stores_meterAdd ..)))

protected theorem FwKept.checkMsg (h : FwKept s t) : FwKept s (checkMsg t d k m) := by
  unfold Machine.checkMsg
  refine .ite h.refuse ?_
  extract_lets
  iterate 8 refine .ite h.refuse ?_
  split
  · exact h.refuse
  · exact h.checkRate

protected theorem FwKept.redeliver (h : FwKept s t) : FwKept s (redeliver t d slot m) := by
  unfold Machine.redeliver deliver
  split
  · exact h
  · exact .ite h.putSess (.ite h.putSess h.checkMsg)

protected theorem FwKept.resumeRate (h : FwKept s t) : FwKept s (resumeRate t d slot m) := by
  unfold Machine.resumeRate
  split
  · exact h
  · exact .ite h.putSess h.checkRate

protected theorem FwKept.drainHeld (h : FwKept s t) : FwKept s (drainHeld t d slot) := by
  unfold Machine.drainHeld
  split
  · exact h
  · extract_lets s1
    refine .ite h ?_
    split
    · exact h
    · extract_lets s2
      have hs1 : FwKept s s1 := h.putSess
      have hs2 : FwKept s s2 := .ite hs1.resumeRate hs1.redeliver
      exact ((hs2.foldl fun _ _ hu => hu.redeliver).stores (stores_maybeReset ..)).stores (stores_maybeClose ..)

/-! #### An ABORT -/

protected theorem FwKept.refuseOneHeld (h : FwKept s t) : FwKept s (refuseOneHeld t d k m status) := by
  have hdrop : FwKept s (dropHeld t d k.slot k.gen m.tag) := by
    unfold dropHeld
    split
    · exact h
    · exact h.putSess
  unfold Machine.refuseOneHeld
  dsimp only
  split
  · exact hdrop.refuse
  · exact .ite hdrop.refuse hdrop.refuse.drainHeld.tellEdge

protected theorem FwKept.refuseInbox (h : FwKept s t) : FwKept s (refuseInbox t e c status) := by
  unfold Machine.refuseInbox refuseCmd
  exact (FwKept.stores h.updDie (stores_replyTo ..)).stores (stores_afterReply ..)

protected theorem FwKept.dropCmd {cid : Nat} (h : FwKept s t) : FwKept s (dropCmd t d cid) := h.updDie

protected theorem FwKept.fail (h : FwKept s t) : FwKept s (fail t d c status) := h.dropCmd.stores (complete_stores ..)

protected theorem FwKept.abortTarget (h : FwKept s t) (hu : abortTarget t d a = .caught u) : FwKept s u := by
  unfold Machine.abortTarget at hu
  dsimp only at hu
  split at hu
  · split at hu
    · exact AbortSay.caught.inj hu ▸ h.fail
    · cases hu
  · split at hu
    · exact AbortSay.caught.inj hu ▸ h.refuseInbox
    · split at hu
      · cases hu
      · unfold abortHeld at hu
        split at hu
        · cases hu
        · split at hu
          · cases hu
          · split at hu
            · cases hu
            · exact AbortSay.caught.inj hu ▸ h.refuseOneHeld

protected theorem FwKept.answerAbort {n cid : Nat} (h : FwKept s t) :
    FwKept s (afterReply (answerAbort t d a n) d slot gen cid) :=
  (h.stores (stores_answerAbort ..)).stores (stores_afterReply ..)

/-- An ABORT answers commands and may let held ones go on; the firmware stays (R105, R133). -/
protected theorem FwKept.abortNow (h : FwKept s t) : FwKept s (abortNow t d a) := by
  unfold Machine.abortNow
  split
  · next hu => exact (h.abortTarget hu).answerAbort
  · exact h.answerAbort
  · exact h.updDie

end Sys2Proof.Sched
end

section
/-! ### The end of an activation, confirmation, SVN and the journal -/
namespace Sys2Proof.Sched
open Sys2Proof Sys2Proof.Machine Sys2Proof.Laws Sys2Proof.Safety Sys2Proof.Kocel
variable {s t : State} {n cid status : Nat}

theorem setTimers_pkg {stop : Bool} : (setTimers s stop).pkg = s.pkg := by
  refine Access.overDies_keeps (P := fun t => t.pkg = s.pkg) (fun t x ht => ?_) _ rfl
  exact ht

/-- With the pause over, the held ABORTs are carried out and the windows open; the firmware stays as it is (R133, R135). -/
theorem fwKept_resumeAll : FwKept { s with pkg := { s.pkg with act := {} } } (resumeAll s) := by
  have hs1 : FwKept { s with pkg := { s.pkg with act := {} } } { setTimers s false with pkg := { s.pkg with act := {} } } :=
    ⟨setTimers_nor (s := s) (stop := false), rfl, rfl, rfl⟩
  unfold resumeAll
  dsimp only
  generalize ({ setTimers s false with pkg := { s.pkg with act := {} } } : State) = s1 at hs1 ⊢
  refine FwKept.foldl (FwKept.foldl hs1 fun u e hu => ?_) fun _ _ hu => hu.openWindows
  refine FwKept.updDie (hu.foldl fun v a hv => ?_)
  split
  · exact hv
  · exact .ite hv hv.abortNow

/-- The FW_ACTIVATE in progress is answered (R547). -/
protected theorem FwKept.answerActivation (h : FwKept s t) : FwKept s (answerActivation t cid status) := by
  unfold Machine.answerActivation
  extract_lets s1
  have hs1 : FwKept s s1 := h.stores (stores_raiseInt ..)
  split
  · exact hs1
  · exact hs1.fail

theorem appendEntry_nor {e : BootEntry} : (appendEntry s e).nor = bootAppend s.nor e := rfl

/-- A boot-control entry goes to the boot NOR (R531). -/
protected theorem FwKept.appendEntry {e : BootEntry} (h : FwKept s t) :
    FwKept { s with nor := bootAppend s.nor e } (appendEntry t e) :=
  ⟨by rw [appendEntry_nor, h.nor], h.act, h.fwReload, h.mountedAt⟩

/-- A recorded error touches registers and the event records of a die. -/
protected theorem FwKept.recordErr {base code off : Nat} (h : FwKept s t) : FwKept s (recordErr t base code off) := by
  have hevent : ∀ u d code v, FwKept s u → FwKept s (recordEvent u d code v) := by
    intro u d code v hu
    unfold recordEvent
    extract_lets m s1 s2
    have hs1 : FwKept s s1 := hu.updDie
    have hs2 : FwKept s s2 := hs1.stores (stores_regBump ..)
    exact .ite hs1 (.ite (hs2.stores (stores_raiseInt ..)) hs2)
  unfold Machine.recordErr
  extract_lets s1
  have hs1 : FwKept s s1 :=
    .ite (((h.stores (stores_reg ..)).stores (stores_reg ..)).stores (stores_raiseInt ..)) (h.stores (stores_reg ..))
  split
  · exact hevent _ _ _ _ hs1
  · exact hs1

/-- The new slot runs, the reload is counted, and the ten minutes of R533 start (R133). -/
def reloaded (s : State) : State := { s with
  nor := { s.nor with running := s.pkg.act.slot }
  pkg := { s.pkg with fwReload := s.pkg.fwReload + 1, mountedAt := some s.guard.devTime } }

/-- Drained, the activation ends with the new slot running (R133, R533). -/
theorem actDrainDone_ends (hrun : running s 0 = true) (hon : s.pkg.act.on = true)
    (hdrained : (upDies s).any (fun e => draining (s.die e) s.pkg.act.cid) = false) :
    ∃ t, exec .actDrainDone s = .next t ∧ t.nor.running = s.pkg.act.slot ∧ t.pkg.act = {} ∧ t.pkg.fwReload = s.pkg.fwReload + 1
      ∧ t.pkg.mountedAt = some s.guard.devTime := by
  have hkept := FwKept.answerActivation (cid := s.pkg.act.cid) (status := Stat.ok) (fwKept_resumeAll (s := reloaded s))
  have hgo : (s.pkg.act.on && !(upDies s).any (fun e => draining (s.die e) s.pkg.act.cid)) = true := by rw [hon, hdrained]; rfl
  have hexec : exec .actDrainDone s = .next (answerActivation (resumeAll (reloaded s)) s.pkg.act.cid Stat.ok) :=
    congrArg Host.Outcome.next ((Access.onDie_of_running hrun).trans (if_pos hgo))
  exact ⟨_, hexec, congrArg Nor.running hkept.nor, hkept.act, hkept.fwReload, hkept.mountedAt⟩

/-- At its timeout the activation ends with the old slot ACTIVE and confirmed (R134). -/
theorem actDrainTimeout_ends (hrun : running s 0 = true) (hon : s.pkg.act.on = true) :
    ∃ t, exec .actDrainTimeout s = .next t ∧ t.pkg.act = {} ∧ t.pkg.fwReload = s.pkg.fwReload
      ∧ t.nor = bootAppend (bootAppend s.nor (.active s.pkg.act.old)) (.confirm s.pkg.act.old) := by
  have hexec : exec .actDrainTimeout s = .next (answerActivation (recordErr (raiseInt
      (appendEntry (appendEntry (resumeAll s) (.active s.pkg.act.old)) (.confirm s.pkg.act.old)) (dreg 0 Page.csq 0) 2)
      (dreg 0 Page.csq 0) 0x05 0) s.pkg.act.cid Stat.busyRetry) :=
    congrArg Host.Outcome.next ((Access.onDie_of_running hrun).trans (if_pos hon))
  have hentries := ((fwKept_resumeAll (s := s)).appendEntry (e := .active s.pkg.act.old)).appendEntry (e := .confirm s.pkg.act.old)
  have hkept := FwKept.answerActivation (cid := s.pkg.act.cid) (status := Stat.busyRetry)
    (FwKept.recordErr (base := dreg 0 Page.csq 0) (code := 0x05) (off := 0)
      (hentries.stores (stores_raiseInt _ (dreg 0 Page.csq 0) 2)))
  exact ⟨_, hexec, hkept.act, hkept.fwReload, hkept.nor⟩

/-- FW_CONFIRM of a slot on trial, ten minutes after the mount and after the last fault of die 0 (R533). -/
theorem exec_fwConfirm (hrun : running s 0 = true) (hmount : s.pkg.mountedAt = some n)
    (hfault : ∀ u, s.guard.die0At = some u → u + 600000000000 ≤ s.guard.devTime) (htrial : onTrial s.nor = true)
    (hten : n + 600000000000 ≤ s.guard.devTime) :
    exec .fwConfirm s = .next (norCount { s with nor := bootAppend s.nor (.confirm s.nor.running) } 1 0) := by
  have hsince : ∀ u, u + 600000000000 ≤ s.guard.devTime → 600000000000 ≤ s.guard.devTime - u := fun u hu => by omega
  refine congrArg Host.Outcome.next ((Access.onDie_of_running hrun).trans ?_)
  rw [hmount]
  refine if_pos ?_
  rw [htrial, Bool.true_and, decide_eq_true_eq]
  refine hsince _ ?_
  split
  · exact hten
  · next u hu =>
    have := hfault u hu
    omega

/-- SVN_COMMIT of a COMMIT manifest (R368). -/
theorem exec_svnCommit (hrun : running s 0 = true) (hmount : s.pkg.mountedAt.isSome = true)
    (hcommit : (leAt (manifest s.nor s.nor.running) 7 1).testBit 0 = true) :
    exec .svnCommit s = .next { s with nor := { s.nor with
      svn := max s.nor.svn (min 64 (leAt (manifest s.nor s.nor.running) 8 1)) } } :=
  congrArg Host.Outcome.next ((Access.onDie_of_running hrun).trans (if_pos (by simp [hmount, hcommit])))

/-- The erased sector holds no record of the configuration journal (R545). -/
theorem sector_of_mem_journalCompact {m : Nor} {r : CjRec} (hr : r ∈ (journalCompact m).journal) : r.sector ≠ cjOldest m := by
  have hkept := (List.mem_filter.1 hr).2
  simpa using hkept

/-- Settles O28: the two ends of an activation (`actDrainDone_ends`, `actDrainTimeout_ends`), through which `FwKept` carries the boot
NOR and the package, and the three rows `exec_fwConfirm`, `exec_svnCommit` and JOURNAL_COMPACT. -/
theorem firmwareActivation : Obligations.FirmwareActivation := by
  unfold Obligations.FirmwareActivation
  refine ⟨fun s hrun hon => ⟨fun hdrained => actDrainDone_ends hrun hon hdrained, actDrainTimeout_ends hrun hon⟩,
    fun s hrun => ⟨fun n hmount hfault htrial hten => ⟨_, exec_fwConfirm hrun hmount hfault htrial hten, rfl, rfl, rfl⟩,
      fun hmount hcommit => exec_svnCommit hrun hmount hcommit, fun hfew hidle => ?_⟩⟩
  exact ⟨_, congrArg Host.Outcome.next ((Access.onDie_of_running hrun).trans (if_pos ⟨hfew, hidle⟩)),
    fun r hr => sector_of_mem_journalCompact hr, rfl, rfl⟩

end Sys2Proof.Sched
end

section
/-! ### What recorded errors and register writes leave alone -/
namespace Sys2Proof.CombIndex
open Sys2Proof Sys2Proof.Machine Sys2Proof.Laws Sys2Proof.Safety

theorem stores_recordEvent (s : State) (d : DieId) (code v : Nat) : Stores s (recordEvent s d code v) := by
  unfold recordEvent
  extract_lets m s1 s2
  have hs1 : Stores s s1 := Stores.upd s d _ fun _ => by simp
  have hs2 : Stores s s2 := hs1.trans (stores_regBump ..)
  split
  · exact hs1
  · split
    · exact hs2.trans (stores_raiseInt ..)
    · exact hs2

theorem stores_recordErr (s : State) (base code off : Nat) : Stores s (recordErr s base code off) := by
  unfold recordErr
  extract_lets s1
  have hs1 : Stores s s1 := by
    unfold s1
    split
    · exact ((stores_reg ..).trans (stores_reg ..)).trans (stores_raiseInt ..)
    · exact stores_reg ..
  split
  · exact hs1.trans (stores_recordEvent ..)
  · exact hs1

theorem stores_storeReg (s : State) (a : Nat) (v : Word) : Stores s (storeReg s a v) := by
  unfold storeReg
  split
  · exact .rfl' s
  · split
    · exact .rfl' s
    · unfold storeFields
      extract_lets lock old s1
      have hs1 : Stores s s1 := stores_reg ..
      split
      · exact hs1.trans (stores_recordErr ..)
      · exact hs1

end Sys2Proof.CombIndex
end

section
/-! ### Entries of the Comb -/
namespace Sys2Proof.CombIndex
open Sys2Proof Sys2Proof.Machine Sys2Proof.Laws Sys2Proof.Safety
variable {c : Comb} {e : CombEntry} {i : Nat}

/-- What an index holds is a matter of the entries listed. -/
theorem combEntry_congr {b : Comb} (h : b.entries = c.entries) (i : Nat) : combEntry b i = combEntry c i := by
  unfold combEntry
  rw [h]

/-- What an index holds names that index. -/
theorem combEntry_idx (c : Comb) (i : Nat) : (combEntry c i).idx = i := by
  unfold combEntry
  split
  · next e he => simpa using List.find?_some he
  · rfl

/-- An index that no entry names holds an invalid entry. -/
theorem combEntry_unlisted (h : ∀ f ∈ c.entries, f.idx ≠ i) : (combEntry c i).valid = false := by
  unfold combEntry
  rw [List.find?_eq_none.2 fun f hf => by simpa using h f hf]

/-- Removing entries of other indices leaves an index alone. -/
theorem combEntry_filter {b : Comb} {p : CombEntry → Bool} (hb : b.entries = c.entries.filter p)
    (hp : ∀ f : CombEntry, f.idx = i → p f = true) : combEntry b i = combEntry c i := by
  unfold combEntry
  rw [hb, List.find?_filter]
  have hsame : (fun f : CombEntry => decide (p f = true ∧ (f.idx == i) = true)) = fun f => f.idx == i := by
    funext f
    by_cases hf : f.idx = i
    · simp [hf, hp f hf]
    · simp [hf]
  simp only [hsame]

/-- An entry that is put into the array stands at its index; the others stay. -/
theorem combEntry_combPut (c : Comb) (e : CombEntry) (i : Nat) :
    combEntry (combPut c e) i = if i = e.idx then e else combEntry c i := by
  by_cases hi : i = e.idx
  · subst hi
    simp [combEntry, combPut]
  · rw [if_neg hi]
    have hcons : combEntry (combPut c e) i = combEntry { c with entries := c.entries.filter fun f => f.idx != e.idx } i := by
      unfold combEntry combPut
      rw [List.find?_cons_of_neg (by simpa using Ne.symm hi)]
    rw [hcons]
    exact combEntry_filter rfl fun f hf => by simpa [hf] using hi

/-- Freeing a slot leaves the array and the update in progress alone. -/
theorem dropSlotOf_keeps (c : Comb) (e : CombEntry) :
    (dropSlotOf c e).entries = c.entries ∧ (dropSlotOf c e).busy = c.busy := by
  unfold dropSlotOf
  split <;> exact ⟨rfl, rfl⟩

end Sys2Proof.CombIndex
end

section
/-! ### The update registers of the Comb -/
namespace Sys2Proof.CombIndex
open Sys2Proof Sys2Proof.Machine Sys2Proof.Laws Sys2Proof.Safety Sys2Proof.Access
variable {s : State} {r : Requester} {d e : DieId} {v : Word} {q : RegSpec} {op : Nat} {act : State → DieId → Word → State}

theorem blockAt_cmb (d : DieId) {off : Nat} (h : off < 0x10000) : blockAt (dreg d Page.cmb off) = some .cmb := by
  have hw : winOf (dreg d Page.cmb off) = d.val := by
    unfold winOf dreg Page.cmb
    omega
  have hp : pageOf (dreg d Page.cmb off) = Page.cmb := by
    unfold pageOf dreg Page.cmb
    omega
  unfold blockAt
  rw [hw, if_pos d.isLt, hp]
  rfl

/-- An update that finds the registers free and meets no refusal is carried out (R161, R164, R165). -/
theorem byReq_updOp (hspace : HasSpace s r) (hwork : TakesWork s d Page.cmb) (hopen : RowOpen s (updCtrl d))
    (hq : regSpec .cmb 0x80 = some q) (hv : valuesOk q v = true) (hbusy : (s.die d).comb.busy = none)
    (href : updRefused s d v = none) (hop : fld v 19 16 = op) : byReq s r (fun s => updOp s d v op act) = act s d v := by
  have hoff : offOf (updCtrl d) = 0x80 := offOf_dreg (by omega)
  have hrow : RowWrites s .cmb (updCtrl d) v :=
    ⟨hopen, blockAt_cmb d (by omega), by simp [condOk, hoff], q, by rw [hoff, hq], hv⟩
  obtain ⟨-, hwork⟩ := hwork
  rw [byReq_of_hasSpace hspace]
  unfold updOp
  rw [rowWrite_of_rowWrites hrow, if_neg (by simp [hop, hwork]), if_neg (by simp [hbusy]), href]

/-- The Comb of a die while an update of its own is begun. -/
theorem updBegin_comb_self (s : State) (d : DieId) (v : Word) :
    ((updBegin s d v).die d).comb = { (s.die d).comb with busy := some { op := fld v 19 16, idx := fld v 15 0 } } := by
  unfold updBegin
  rw [die_updDie_self, (stores_storeReg s (updCtrl d) v).comb]

theorem updBegin_comb_other (h : e ≠ d) : ((updBegin s d v).die e).comb = (s.die e).comb := by
  unfold updBegin
  rw [die_updDie_ne _ _ _ _ h, (stores_storeReg s (updCtrl d) v).comb]

theorem updBegin_wf (h : registersOk s) : registersOk (updBegin s d v) := (Frame.Kept.rfl s).updBegin.regs h

theorem updFail_comb (b : Bool) : ((updFail s d b).die e).comb = (s.die e).comb := rfl

/-- An array after INVALIDATE of an index (R159). -/
def invalidated (c : Comb) (i : Nat) : Comb :=
  { dropSlotOf c (combEntry c i) with entries := (dropSlotOf c (combEntry c i)).entries.filter fun f => f.idx != i }

theorem invalidated_spec (c : Comb) (i : Nat) :
    (invalidated c i).busy = c.busy ∧ (combEntry (invalidated c i) i).valid = false
      ∧ ∀ j, j ≠ i → combEntry (invalidated c i) j = combEntry c j := by
  obtain ⟨hentries, hbusy⟩ := dropSlotOf_keeps c (combEntry c i)
  have hlist : (invalidated c i).entries = c.entries.filter fun f => f.idx != i := by
    rw [← hentries]
    rfl
  refine ⟨hbusy, combEntry_unlisted fun f hf => ?_, fun j hj => combEntry_filter hlist fun f hf => by simpa [hf] using hj⟩
  rw [hlist] at hf
  simpa using (List.mem_filter.1 hf).2

theorem updInvalidate_comb : ((updInvalidate s d v).die d).comb = invalidated ((updBegin s d v).die d).comb (fld v 15 0) := by
  unfold updInvalidate
  rw [die_updDie_self]
  rfl

theorem updInvalidate_spec (s : State) (d : DieId) (v : Word) :
    ((updInvalidate s d v).die d).comb.busy = some { op := fld v 19 16, idx := fld v 15 0 }
      ∧ (combEntry ((updInvalidate s d v).die d).comb (fld v 15 0)).valid = false
      ∧ ∀ j, j ≠ fld v 15 0 → combEntry ((updInvalidate s d v).die d).comb j = combEntry (s.die d).comb j := by
  rw [updInvalidate_comb, updBegin_comb_self]
  exact invalidated_spec _ _

/-- Putting an entry into the array of a die that has begun an update. -/
theorem combPut_updBegin {x : CombEntry} {i : Nat} {t : State}
    (ht : (t.die d).comb = combPut ((updBegin s d v).die d).comb x) (hx : x.idx = i) :
    (t.die d).comb.busy = some { op := fld v 19 16, idx := fld v 15 0 } ∧ combEntry (t.die d).comb i = x
      ∧ ∀ j, j ≠ i → combEntry (t.die d).comb j = combEntry (s.die d).comb j := by
  rw [ht, updBegin_comb_self]
  refine ⟨rfl, ?_, fun j hj => ?_⟩
  · rw [combEntry_combPut, if_pos hx.symm]
  · rw [combEntry_combPut, if_neg (by rw [hx]; exact hj)]
    exact combEntry_congr rfl j

/-- A WRITE to an invalid entry takes effect at once, or waits at an index that a reclaim holds (R159, log 160). -/
theorem updWrite_comb (hinvalid : (combEntry (s.die d).comb (fld v 15 0)).valid = false) :
    ((updWrite s d v).die d).comb
      = if fld v 15 0 ∈ (s.die d).comb.reclaimIx then
          { ((updBegin s d v).die d).comb with late := some (updEntry s d (fld v 15 0) (fld v 31 24)) }
        else combPut ((updBegin s d v).die d).comb (updEntry s d (fld v 15 0) (fld v 31 24)) := by
  unfold updWrite
  rw [if_neg (by simp [hinvalid])]
  dsimp only
  rw [die_updDie_self, updBegin_comb_self]
  simp only [List.contains_iff_mem]
  rfl

theorem updValidate_comb (hwritten : combWritten (s.die d).comb (fld v 15 0) = true) :
    ((updValidate s d v).die d).comb
      = combPut ((updBegin s d v).die d).comb { combEntry (s.die d).comb (fld v 15 0) with valid := true } := by
  unfold updValidate
  dsimp only
  rw [if_neg (by simp [hwritten]), die_updDie_self, updBegin_comb_self]
  rfl

/-- A RESULT whose condition holds (R160). -/
theorem updResult_comb_takes (hwritten : combWritten (s.die d).comb (fld v 15 0) = true)
    (htakes : resultTakes s d (fld v 15 0) = true) :
    ((updResult s d v).die d).comb = combPut ((updBegin s d v).die d).comb
      { combEntry (s.die d).comb (fld v 15 0) with res := BitVec.ofNat 128 (regWide s d 0xB8 4) } := by
  unfold updResult
  dsimp only
  rw [if_neg (by simp [hwritten]), if_pos htakes, die_updDie_self]
  dsimp only
  rw [updFail_comb, updBegin_comb_self]
  rfl

/-- A RESULT whose condition fails sets FAIL (R160, R176). -/
theorem updResult_fails (hwritten : combWritten (s.die d).comb (fld v 15 0) = true)
    (htakes : resultTakes s d (fld v 15 0) = false) : updResult s d v = updFail (updBegin s d v) d true := by
  unfold updResult
  dsimp only
  rw [if_neg (by simp [hwritten]), if_neg (by simp [htakes])]

theorem bitAt_updFail (h : registersOk s) : bitAt (regGet (updFail s d true) (updCtrl d)) 22 = true := by
  unfold updFail
  rw [bitAt_regFld h (by omega)]
  rfl

/-- INV_MASKED of every die that runs: each die's array changes by itself (R162). -/
theorem invMasked_all {iv im : BitVec 192} (hrun : running s e = true) (u : State) :
    ((overDies (invOnDie iv im) u (upDies s)).die e).comb = invMasked (u.die e).comb iv im := by
  obtain ⟨w, hw⟩ := Kocel.overDies_updDie (s := u) (e := e) (f := fun _ _ x => { x with comb := invMasked x.comb iv im })
    (Kocel.nodup_upDies (s := s))
  rw [if_pos (Kocel.mem_upDies.2 hrun)] at hw
  exact congrArg Die.comb hw

/-- An array after INV_MASKED of a die whose array was that of the state before. -/
theorem invMasked_entries {iv im : BitVec 192} {c : Comb} (h : c.entries = (s.die e).comb.entries) :
    (invMasked c iv im).reclaimOn = true ∧ (invMasked c iv im).entries
      = (s.die e).comb.entries.map (fun q => if invPick iv im q then { q with valid := false } else q) := by
  rw [← h]
  exact ⟨rfl, rfl⟩

/-- Settles O36: each operation is carried out (`byReq_updOp`), and its own lemma says what its array then is. -/
theorem combUpdates : Obligations.CombUpdates := by
  unfold Obligations.CombUpdates
  rintro s r d v q i hspace hwork hopen hq hv rfl hbusy href
  have hrun : ∀ {op act}, fld v 19 16 = op → byReq s r (fun s => updOp s d v op act) = act s d v :=
    fun hop => byReq_updOp hspace hwork hopen hq hv hbusy href hop
  refine ⟨fun hop => ?_, fun hop hinv hheld => ?_, fun hop hinv hfree => ?_, fun hop hw => ?_, fun hop hw htakes => ?_,
    fun hop hw htakes hregs => ?_, fun hop hall => ?_, fun hop hone => ?_⟩
  · have h := updInvalidate_spec s d v
    rw [hop] at h
    exact ⟨_, congrArg Host.Outcome.next (hrun hop), h⟩
  · refine ⟨_, congrArg Host.Outcome.next (hrun hop), ?_⟩
    rw [updWrite_comb hinv, if_pos hheld, updBegin_comb_self, hop]
    exact ⟨rfl, rfl, rfl⟩
  · have h := combPut_updBegin ((updWrite_comb hinv).trans (if_neg hfree)) rfl
    rw [hop] at h
    exact ⟨_, congrArg Host.Outcome.next (hrun hop), h⟩
  · have h := combPut_updBegin (updValidate_comb hw) (combEntry_idx ..)
    rw [hop] at h
    exact ⟨_, congrArg Host.Outcome.next (hrun hop), h⟩
  · have h := combPut_updBegin (updResult_comb_takes hw htakes) (combEntry_idx ..)
    rw [hop] at h
    exact ⟨_, congrArg Host.Outcome.next (hrun hop), h⟩
  · refine ⟨_, congrArg Host.Outcome.next (hrun hop), ?_⟩
    rw [updResult_fails hw htakes, updFail_comb, updBegin_comb_self, hop]
    exact ⟨rfl, rfl, bitAt_updFail (updBegin_wf hregs)⟩
  · have hinv : updInvMasked s d v = overDies (invOnDie _ _) (updBegin s d v) (upDies s) := if_pos hall
    refine ⟨_, congrArg Host.Outcome.next ((hrun hop).trans hinv), ?_, fun e he => ?_⟩
    · rw [invMasked_all hwork.1, updBegin_comb_self, ← hop]
      rfl
    · rw [invMasked_all he]
      refine invMasked_entries ?_
      by_cases hed : e = d
      · rw [hed, updBegin_comb_self]
      · rw [updBegin_comb_other hed]
  · have hinv : updInvMasked s d v = invOnDie _ _ (updBegin s d v) d := if_neg (by simp [hone])
    refine ⟨_, congrArg Host.Outcome.next ((hrun hop).trans hinv), ?_⟩
    unfold invOnDie
    rw [die_updDie_self, updBegin_comb_self, ← hop]
    exact ⟨rfl, rfl, rfl⟩

end Sys2Proof.CombIndex
end

section
/-! ### CMB_SHIFT_DONE: a counterexample

The range of a shift in progress may be empty: `CombResults` asks nothing of its bounds. The shift then moves no entry, but the array
loses the one that lies where the first move would go, and with the bounds far apart that index lies outside of the range. -/
namespace Sys2Proof.CombIndex
open Sys2Proof Sys2Proof.Machine Sys2Proof.Safety

/-- A valid entry at index 4. -/
def fourthEntry : CombEntry := { idx := 4, val := 0, care := 0, prio := 0, res := 0, valid := true, refd := false }

/-- A shift upwards of the empty range from 5 to 3. -/
def emptyShift : CombShift := { first := 5, last := 3, down := false }

/-- Die 0 runs with the shift in progress and the entry in its array. -/
def shiftState : State :=
  { State.reset with
    dies := (Vector.replicate 8 ({} : Die)).set 0
      { phase := .up, comb := { entries := [fourthEntry], shift := some emptyShift } } }

theorem shiftState_runs : running shiftState 0 = true ∧ (shiftState.die 0).comb.shift = some emptyShift
    ∧ shiftHeld (shiftState.die 0).comb emptyShift = false ∧ combEntry (shiftState.die 0).comb 4 = fourthEntry := by decide +kernel

/-- What index 4 of die 0 holds in the state that a command answers with. -/
def fourthAfter (o : Out) : Option CombEntry :=
  match o with
  | .next t => some (combEntry (t.die 0).comb 4)
  | _ => none

/-- The end of the shift takes the entry away. -/
theorem shiftState_loses :
    fourthAfter (exec (.cmbShiftDone 0) shiftState) = some { fourthEntry with valid := false } := by decide +kernel

/-- Refutes O37: the end of a shift of an empty range takes away an entry outside of the range (`shiftState_loses`). -/
theorem not_combResults : ¬ Obligations.CombResults := by
  unfold Obligations.CombResults
  intro h
  obtain ⟨hrun, hshift, hheld, hentry⟩ := shiftState_runs
  obtain ⟨-, -, hup, -⟩ := h.1 shiftState 0 hrun
  obtain ⟨t, ht, -, -, -, houtside⟩ := hup emptyShift hshift rfl hheld
  have hkept : combEntry (t.die 0).comb 4 = fourthEntry := (houtside 4 (.inl (by decide))).trans hentry
  have hlost := shiftState_loses
  rw [ht] at hlost
  exact absurd (hkept.symm.trans (Option.some.inj hlost)) (by decide)

end Sys2Proof.CombIndex
end

section
/-! ### What the upkeep of groups, journal, map pages and roots leaves alone

A die takes groups, writes map pages and roots, and releases what they no longer name. None of it touches the entries of the map, and a
read-only die stays read-only and reports nothing more (R254). -/
namespace Sys2Proof.Reclaim
open Sys2Proof Sys2Proof.Machine Sys2Proof.Laws Sys2Proof.Safety
variable {s0 s t : State} {d : DieId} {x y z : Die}

/-- What a die's upkeep leaves of the die. -/
structure Upkept (x y : Die) : Prop where
  kv       : y.map.kv = x.map.kv
  dense    : y.map.dense = x.map.dense
  readOnly : x.map.readOnly = true → y.map.readOnly = true
  roReport : x.map.readOnly = true → y.fgr.roReport = x.fgr.roReport

protected theorem Upkept.rfl (x : Die) : Upkept x x := ⟨rfl, rfl, id, fun _ => rfl⟩

protected theorem Upkept.trans (h : Upkept x y) (k : Upkept y z) : Upkept x z :=
  ⟨k.kv.trans h.kv, k.dense.trans h.dense, fun hx => k.readOnly (h.readOnly hx),
    fun hx => (k.roReport (h.readOnly hx)).trans (h.roReport hx)⟩

protected theorem Upkept.foldl {α : Type} {f : Die → α → Die} {l : List α} (h : Upkept x y) (hf : ∀ z a, Upkept z (f z a)) :
    Upkept x (l.foldl f y) :=
  List.foldlRecOn (motive := Upkept x) l f h fun z hz a _ => hz.trans (hf z a)

protected theorem Upkept.jAppendTo {tenant nsid : Nat} {b : JBody} (h : Upkept x y) : Upkept x (jAppendTo y tenant nsid b) := by
  unfold Machine.jAppendTo
  extract_lets m w
  have hw : Upkept y w := ⟨rfl, rfl, id, fun _ => rfl⟩
  exact (h.trans hw).foldl fun _ _ => ⟨rfl, rfl, id, fun _ => rfl⟩

protected theorem Upkept.takeFree {st : GroupState} {qlc copy : Bool} {purpose n : Nat}
    (h : takeFree x st qlc copy purpose = some (n, y)) : Upkept x y := by
  unfold Machine.takeFree at h
  split at h
  · cases h
  · cases h
    exact Upkept.jAppendTo ⟨rfl, rfl, id, fun _ => rfl⟩

protected theorem Upkept.markParent {jseq : Nat} {id : PageId} (h : Upkept x y) : Upkept x (markParent d jseq id y) := by
  unfold Machine.markParent
  dsimp only
  split
  · exact h.trans ⟨rfl, rfl, fun h => h, fun _ => rfl⟩
  · exact h

protected theorem Upkept.eraseAnchor {b : Nat × Nat} : Upkept x (eraseAnchor x b) := by
  unfold Machine.eraseAnchor
  extract_lets w
  have hw : Upkept x w := (Upkept.rfl x).jAppendTo.jAppendTo
  exact hw.trans ⟨rfl, rfl, id, fun _ => rfl⟩

protected theorem Upkept.rootPlace {g c page : Nat} (h : rootPlace s d = some (g, c, page, y)) : Upkept (s.die d) y := by
  unfold Machine.rootPlace at h
  dsimp only at h
  split at h
  · next r hr =>
    cases h
    split at hr
    · cases hr
    · split at hr
      · cases hr
        exact .rfl _
      · cases hr
  · obtain ⟨b, -, h⟩ := Option.map_eq_some_iff.1 h
    cases h
    split
    · exact .eraseAnchor
    · exact .rfl _

/-- What the upkeep of dies leaves of every die. -/
structure Upkeep (s t : State) : Prop where
  die : ∀ e : DieId, Upkept (s.die e) (t.die e)

protected theorem Upkeep.rfl (s : State) : Upkeep s s := ⟨fun _ => .rfl _⟩

protected theorem Upkeep.trans (h : Upkeep s0 s) (k : Upkeep s t) : Upkeep s0 t :=
  ⟨fun e => (h.die e).trans (k.die e)⟩

protected theorem Upkeep.ite {p : Prop} [Decidable p] (hs : Upkeep s0 s) (ht : Upkeep s0 t) : Upkeep s0 (if p then s else t) := by
  split
  · exact hs
  · exact ht

protected theorem Upkeep.foldl {α : Type} {f : State → α → State} {l : List α} (h : Upkeep s0 s)
    (hf : ∀ t a, Upkeep s0 t → Upkeep s0 (f t a)) : Upkeep s0 (l.foldl f s) :=
  List.foldlRecOn l f h fun t ht a _ => hf t a ht

/-- Steps of which each may fail. -/
protected theorem Upkeep.foldl_bind {α : Type} {f : State → α → Option State} {l : List α} {o : Option State}
    (h : ∀ s, o = some s → Upkeep s0 s) (hf : ∀ t a u, Upkeep s0 t → f t a = some u → Upkeep s0 u)
    (e : l.foldl (fun o a => o.bind fun s => f s a) o = some t) : Upkeep s0 t := by
  induction l generalizing o with
  | nil => exact h t e
  | cons a l ih =>
    refine ih (fun u hu => ?_) e
    obtain ⟨w, hw, hu⟩ := Option.bind_eq_some_iff.1 hu
    exact hf w a u (h w hw) hu

protected theorem Upkeep.setDie (h : Upkeep s0 s) (hx : Upkept (s.die d) x) : Upkeep s0 (s.setDie d x) := by
  refine ⟨fun e => ?_⟩
  by_cases he : e = d
  · subst he
    rw [die_setDie_self]
    exact (h.die e).trans hx
  · rw [die_setDie_ne _ _ _ _ he]
    exact h.die e

protected theorem Upkeep.updDie {f : Die → Die} (h : Upkeep s0 s) (hf : ∀ x, Upkept x (f x)) : Upkeep s0 (s.updDie d f) :=
  h.setDie (hf _)

/-- A change of the groups alone. -/
protected theorem Upkeep.updGroups {f : Die → List Machine.Group} (h : Upkeep s0 s) :
    Upkeep s0 (s.updDie d fun x => { x with groups := f x }) := h.updDie fun _ => ⟨rfl, rfl, id, fun _ => rfl⟩

protected theorem Upkeep.raiseInt {base bit : Nat} (h : Upkeep s0 s) : Upkeep s0 (raiseInt s base bit) := ⟨h.die⟩

protected theorem Upkeep.recordErr {base code off : Nat} (h : Upkeep s0 s) : Upkeep s0 (recordErr s base code off) := by
  have hst := CombIndex.stores_recordErr s base code off
  refine h.trans ⟨fun e => ?_⟩
  have hmap := hst.map e
  exact ⟨by rw [hmap], by rw [hmap], fun hx => by rw [hmap]; exact hx, fun _ => by rw [hst.fgr e]⟩

/-! ### Groups -/

protected theorem Upkeep.refillRescue {n : Nat} (h : Upkeep s0 s) : Upkeep s0 (refillRescue s d n) := by
  induction n generalizing s with
  | zero => exact h
  | succ n ih =>
    unfold Machine.refillRescue
    dsimp only
    refine .ite ?_ h
    split
    · exact h
    · next hx => exact ih (h.setDie (.takeFree hx))

protected theorem Upkeep.setSpaceStop {on : Bool} (h : Upkeep s0 s) : Upkeep s0 (setSpaceStop s d on) := by
  unfold Machine.setSpaceStop
  refine .ite h (Upkeep.raiseInt (h.updDie fun x => ?_))
  exact ⟨rfl, rfl, id, fun _ => rfl⟩

/-- The part of the pool that a shrink takes, with its record (R252). -/
protected theorem Upkeep.shrinkBy {gb : Nat} (h : Upkeep s0 s) : Upkeep s0 (s.updDie d fun x =>
    jAppendTo { x with fgr := { x.fgr with shrinkGb := x.fgr.shrinkGb + gb } } 0 0 (.capShrink (x.fgr.shrinkGb + gb))) := by
  refine h.updDie fun x => .jAppendTo ?_
  exact ⟨rfl, rfl, id, fun _ => rfl⟩

protected theorem Upkeep.shrink (h : Upkeep s0 s) : Upkeep s0 (shrink s d) := by
  unfold Machine.shrink
  extract_lets gb s1
  have hs1 : Upkeep s0 s1 := h.shrinkBy
  exact .ite hs1.setSpaceStop.raiseInt h.setSpaceStop

/-- A die that is read-only already does not report it again (R254). -/
protected theorem Upkeep.reportReadOnly (h : Upkeep s0 s) : Upkeep s0 (reportReadOnly s d) := by
  unfold Machine.reportReadOnly
  split
  · exact h
  · next hnew =>
    refine h.setDie (.jAppendTo ⟨rfl, rfl, id, fun hro => ?_⟩)
    rw [hro] at hnew
    exact absurd rfl hnew

protected theorem Upkeep.applyPolicy (h : Upkeep s0 s) : Upkeep s0 (applyPolicy s d) := by
  unfold Machine.applyPolicy
  exact .ite h (.ite h.shrink h.reportReadOnly)

protected theorem Upkeep.fillRescue (h : Upkeep s0 s) : Upkeep s0 (fillRescue s d) := by
  unfold Machine.fillRescue
  extract_lets s1
  have hs1 : Upkeep s0 s1 := h.refillRescue
  exact .ite hs1 hs1.applyPolicy

protected theorem Upkeep.takeSys {purpose n : Nat} (h : Upkeep s0 s) (e : takeSys s d purpose = some (n, t)) : Upkeep s0 t := by
  unfold Machine.takeSys at e
  obtain ⟨⟨m, x⟩, hx, ⟨⟩⟩ := Option.map_eq_some_iff.1 e
  exact (h.fillRescue.setDie (.takeFree hx)).applyPolicy

protected theorem Upkeep.ensureJournal (h : Upkeep s0 s) : Upkeep s0 (ensureJournal s d) := by
  unfold Machine.ensureJournal
  extract_lets page next
  refine .ite h ?_
  split
  · exact h
  · next hx => exact (h.takeSys hx).updDie fun _ => ⟨rfl, rfl, id, fun _ => rfl⟩

/-! ### Map pages -/

protected theorem Upkeep.mapGroup {g : Machine.Group} (h : Upkeep s0 s) (e : mapGroup s d = some (g, t)) : Upkeep s0 t := by
  unfold Machine.mapGroup at e
  split at e
  · cases e
    exact h
  · obtain ⟨⟨n, v⟩, hv, e⟩ := Option.bind_eq_some_iff.1 e
    obtain ⟨g, -, ⟨⟩⟩ := Option.map_eq_some_iff.1 e
    exact h.takeSys hv

protected theorem Upkeep.writePage {id : PageId} {jseq : Nat} {body : MapBody} {l : BitVec 56} (h : Upkeep s0 s)
    (e : writePage s d id jseq body = some (l, t)) : Upkeep s0 t := by
  obtain ⟨⟨g, v⟩, hv, ⟨⟩⟩ := Option.map_eq_some_iff.1 e
  exact (h.mapGroup hv).updDie fun _ => ⟨rfl, rfl, fun h => h, fun _ => rfl⟩

protected theorem Upkeep.writeChain {id : PageId} {jseq : Nat} {l : List MapBody} {r : List (BitVec 56)} (h : Upkeep s0 s)
    (e : writeChain s d id jseq l = some (r, t)) : Upkeep s0 t := by
  induction l generalizing t r with
  | nil =>
    cases e
    exact h
  | cons b l ih =>
    unfold Machine.writeChain at e
    split at e
    · cases e
    · next q hq =>
      obtain ⟨p, hp, ⟨⟩⟩ := Option.map_eq_some_iff.1 e
      exact (ih hq).writePage hp

protected theorem Upkeep.writePlace {p : PageAt} (h : Upkeep s0 s) (e : writePlace s d p = some t) : Upkeep s0 t := by
  obtain ⟨r, hr, ⟨⟩⟩ := Option.map_eq_some_iff.1 e
  exact (h.writeChain hr).updDie fun _ => .markParent ⟨rfl, rfl, fun h => h, fun _ => rfl⟩

protected theorem Upkeep.writeTrees {tables : Bool} (h : Upkeep s0 s) (e : writeTrees s d tables = some t) : Upkeep s0 t := by
  refine Upkeep.foldl_bind (fun u hu => Option.some.inj hu ▸ h) (fun u level w hu hw => ?_) e
  exact Upkeep.foldl_bind (fun v hv => Option.some.inj hv ▸ hu) (fun v p w hv hw => hv.writePlace hw) hw

protected theorem Upkeep.writeMap (h : Upkeep s0 s) (e : writeMap s d = some t) : Upkeep s0 t := by
  obtain ⟨u, hu, e⟩ := Option.bind_eq_some_iff.1 e
  refine Upkeep.writeTrees (Upkeep.updDie (h.writeTrees hu) fun x => ?_) e
  exact (Upkept.rfl x).foldl fun _ _ => ⟨rfl, rfl, fun h => h, fun _ => rfl⟩

/-! ### Roots and checkpoints -/

protected theorem Upkeep.spaceChanged {was : Nat} (h : Upkeep s0 s) : Upkeep s0 (spaceChanged was s d) := by
  unfold Machine.spaceChanged
  exact .ite h h.raiseInt

/-- A root that says read-only when the die is (R216, R217). -/
protected theorem Upkeep.writeRoot {r : Root} (h : Upkeep s0 s) (hr : (s.die d).map.readOnly = true → r.readOnly = true) :
    Upkeep s0 (writeRoot s d r) := by
  unfold Machine.writeRoot
  split
  · exact h
  · next y hy =>
    have hk : Upkept (s.die d) y := .rootPlace hy
    extract_lets prev _ s1 s2
    have hs1 : Upkeep s0 s1 := h.setDie ⟨hk.kv, hk.dense, hr, hk.roReport⟩
    have hs2 : Upkeep s0 s2 := hs1.raiseInt.spaceChanged
    exact .ite hs2.recordErr hs2

/-- The root record of the present state says what the die is. -/
theorem rootOf_readOnly {j : Nat} {jhead nstab bgtab : BitVec 56} {loss : Bool} (h : (s.die d).map.readOnly = true) :
    (rootOf s d j jhead nstab bgtab loss).readOnly = true := by
  unfold rootOf
  dsimp only
  rw [h]
  rfl

protected theorem Upkeep.reRoot {loss : Bool} (h : Upkeep s0 s) : Upkeep s0 (reRoot s d loss) := by
  unfold Machine.reRoot
  split
  · exact h.writeRoot rootOf_readOnly
  · exact h.writeRoot rootOf_readOnly

protected theorem Upkeep.releaseSys {n : Nat} (h : Upkeep s0 s) : Upkeep s0 (releaseSys s d n) := h.updGroups

protected theorem Upkeep.dropPages (h : Upkeep s0 s) : Upkeep s0 (dropPages s d) := by
  unfold Machine.dropPages
  extract_lets named gone s1
  have hs1 : Upkeep s0 s1 := by
    refine h.updDie fun x => ?_
    have hgone : Upkept x (gone.foldl (fun x p => updGroup x (locGroup p.loc) fun g => { g with valid := g.valid - 64 }) x) :=
      (Upkept.rfl x).foldl fun _ _ => ⟨rfl, rfl, id, fun _ => rfl⟩
    exact hgone.trans ⟨rfl, rfl, id, fun _ => rfl⟩
  exact hs1.foldl fun _ _ hu => hu.releaseSys

protected theorem Upkeep.dropJournal {n : Nat} (h : Upkeep s0 s) : Upkeep s0 (dropJournal s d n) := by
  unfold Machine.dropJournal
  extract_lets old s1
  have hs1 : Upkeep s0 s1 := h.foldl fun _ _ hu => hu.releaseSys
  exact hs1.updDie fun _ => ⟨rfl, rfl, id, fun _ => rfl⟩

protected theorem Upkeep.checkpoint (h : Upkeep s0 s) : Upkeep s0 (checkpoint s d) := by
  unfold Machine.checkpoint
  extract_lets s0' j s1
  have hs1 : Upkeep s0 s1 := Upkeep.updDie (h.ensureJournal : Upkeep s0 s0') fun x => (Upkept.rfl x).jAppendTo
  split
  · exact h.reRoot
  · next e =>
    extract_lets x s3
    have hs3 : Upkeep s0 s3 := (hs1.writeMap e).writeRoot rootOf_readOnly
    exact hs3.dropPages.dropJournal

end Sys2Proof.Reclaim
end

section
/-! ### Operations queued, groups changed -/
namespace Sys2Proof.Reclaim
open Sys2Proof Sys2Proof.Machine Sys2Proof.Laws Sys2Proof.Safety
variable {s t u : State} {d : DieId} {x y : Die} {n m : Nat} {kind : OpKind} {src : OpFrom} {urgent parity : Bool} {stripe : Option Nat}

/-- n operations have been queued behind those of a die; its map, its groups and its reclaim are as they were. -/
structure Queued (d : DieId) (n : Nat) (s t : State) : Prop where
  ops    : ∃ l : List FlashOp, l.length = n ∧ (t.die d).flash.ops = (s.die d).flash.ops ++ l
  map    : (t.die d).map = (s.die d).map
  groups : (t.die d).groups = (s.die d).groups
  fgr    : (t.die d).fgr = (s.die d).fgr

theorem Queued.trans (h : Queued d n s t) (k : Queued d m t u) : Queued d (n + m) s u := by
  obtain ⟨l, hl, hops⟩ := h.ops
  obtain ⟨l', hl', hops'⟩ := k.ops
  exact ⟨⟨l ++ l', by rw [List.length_append, hl, hl'], by rw [hops', hops, List.append_assoc]⟩, k.map.trans h.map,
    k.groups.trans h.groups, k.fgr.trans h.fgr⟩

theorem queued_queueOp {l : BitVec 56} {cws : Nat} : Queued d 1 s (queueOp s d kind src l urgent stripe parity cws) := by
  unfold queueOp
  refine ⟨?_, ?_, ?_, ?_⟩ <;> rw [die_updDie_self]
  exact ⟨[_], rfl, rfl⟩

/-- One operation for each of a list. -/
theorem queued_foldl {α : Type} {f : State → α → State} (hf : ∀ s a, Queued d 1 s (f s a)) (l : List α) (s : State) :
    Queued d l.length s (l.foldl f s) := by
  induction l generalizing s with
  | nil => exact ⟨⟨[], rfl, (List.append_nil _).symm⟩, rfl, rfl, rfl⟩
  | cons a l ih =>
    rw [List.length_cons, Nat.add_comm]
    exact (hf s a).trans (ih (f s a))

theorem Queued.length (h : Queued d n s t) : (t.die d).flash.ops.length = (s.die d).flash.ops.length + n := by
  obtain ⟨l, hl, hops⟩ := h.ops
  rw [hops, List.length_append, hl]

theorem Queued.mem (h : Queued d n s t) : ∀ o ∈ (s.die d).flash.ops, o ∈ (t.die d).flash.ops := by
  obtain ⟨l, -, hops⟩ := h.ops
  exact fun o ho => hops ▸ List.mem_append_left l ho

/-- A group after a change of the groups of its number that keeps the number. -/
theorem groupOf_updGroup {f : Machine.Group → Machine.Group} (hf : ∀ g, (f g).num = g.num) :
    groupOf (updGroup x n f) n = (groupOf x n).map f := by
  have hkey : ((fun g : Machine.Group => g.num == n) ∘ fun g => if g.num == n then f g else g) = fun g => g.num == n := by
    funext g
    simp only [Function.comp]
    split
    · rw [hf]
    · rfl
  unfold groupOf updGroup updWhere
  rw [List.find?_map, hkey]
  cases h : x.groups.find? (fun g => g.num == n) with
  | none => rfl
  | some g => exact congrArg some (if_pos (by simpa using List.find?_some h))

theorem groupOf_congr (h : y.groups = x.groups) : groupOf y n = groupOf x n := by
  unfold groupOf
  rw [h]

/-- A journal record that changes no leaf page. -/
theorem jAppendTo_of_no_leaf {tenant nsid : Nat} {b : JBody} (h : recLeaves b = []) :
    jAppendTo x tenant nsid b = { x with map := { x.map with
      journal := x.map.journal ++ [{ jseq := x.map.jseq + 1, tenant := tenant, nsid := nsid, body := b, torn := false }]
      jseq := x.map.jseq + 1
      journalAt := x.map.journalAt + 64 } } := by
  unfold jAppendTo
  rw [h]
  rfl

end Sys2Proof.Reclaim
end

section
/-! ### The reclaim of a victim, step by step -/
namespace Sys2Proof.Reclaim
open Sys2Proof Sys2Proof.Machine Sys2Proof.Laws Sys2Proof.Safety Sys2Proof.Access
variable {s t : State} {d e : DieId} {x y : Die} {g : Machine.Group} {n : Nat} {f : Bool} {m : Move}

/-! #### The choice of a victim (R234, R235) -/

/-- The mode is evaluated again, and nothing else of the die changes. -/
theorem die_fgrReval (s : State) (d : DieId) :
    (fgrReval s d).die d = { s.die d with fgr := { (s.die d).fgr with mode := fgrModeNow s d, reclaim := reclaimNow s d } } := by
  unfold fgrReval
  dsimp only
  split
  · rw [raiseInt_die, die_updDie_self]
  · rw [die_updDie_self]

theorem fgrScore_chooses (hrun : running s d = true) (hnone : (s.die d).fgr.victim = none) (hwork : TakesWork s d Page.fgr)
    (hnext : nextVictim (fgrReval s d) d = some (g, f)) :
    ∃ t, exec (.fgrScore d) s = .next t ∧ (t.die d).fgr.victim = some g.num ∧ (t.die d).fgr.forced = f
      ∧ (t.die d).fgr.step = .chosen ∧ (t.die d).fgr.toQlc = (!g.qlc && slcOver (s.die d))
      ∧ (t.die d).groups = (s.die d).groups ∧ (t.die d).map = (s.die d).map := by
  have hstay : (((fgrReval s d).die d).fgr.victim.isSome || !takesWork s (dreg d Page.fgr 0)) = false := by
    rw [die_fgrReval]
    simp [hnone, hwork.2]
  refine ⟨_, congrArg Host.Outcome.next ((onDie_of_running hrun).trans (if_neg (by simp [hstay]))), ?_⟩
  rw [hnext]
  dsimp only
  rw [die_updDie_self, die_fgrReval]
  exact ⟨rfl, rfl, rfl, rfl, rfl, rfl⟩

/-! #### Reading and copying (R239 to R241) -/

theorem losing_of_running (h : running s d = true) : s.guard.losing = false := by
  unfold running at h
  simp only [Bool.and_eq_true, Bool.not_eq_true'] at h
  exact h.1.2

/-- A reclaim goes on from the step that its victim has reached. -/
theorem exec_fgrReclaim (hrun : running s d = true) (hvictim : (s.die d).fgr.victim = some n) (hg : groupOf (s.die d) n = some g) :
    exec (.fgrReclaim d) s = .next (
      if (s.die d).fgr.step = .chosen then readVictim s d g
      else if (s.die d).fgr.step = .reading ∧ victimReading (s.die d) = false then copyVictim s d g
      else if (s.die d).fgr.step = .copying ∧ copiesPending (s.die d) = false then commitVictim s d n
      else s) := by
  refine congrArg Host.Outcome.next ((onDie_of_running hrun).trans ?_)
  rw [hvictim]
  dsimp only
  rw [if_neg (by simp [losing_of_running hrun]), hg]

theorem readVictim_spec : ((readVictim s d g).die d).fgr.step = .reading
    ∧ ((readVictim s d g).die d).fgr.victim = (s.die d).fgr.victim ∧ ((readVictim s d g).die d).map = (s.die d).map
    ∧ (∀ o ∈ (s.die d).flash.ops, o ∈ ((readVictim s d g).die d).flash.ops)
    ∧ ((readVictim s d g).die d).flash.ops.length = (s.die d).flash.ops.length + (victimPages s d g).length := by
  have hq : Queued d (victimPages s d g).length s
      ((victimPages s d g).foldl (fun s l => queueOp s d .read .forager l false none false (pageCw s d)) s) :=
    queued_foldl (fun _ _ => queued_queueOp) _ s
  have hvictim := congrArg Fgr.victim hq.fgr
  unfold readVictim
  rw [die_updDie_self]
  exact ⟨rfl, hvictim, hq.map, hq.mem, hq.length⟩

/-- A victim without live data is copied at once: there are no moves (R239). -/
theorem copyVictim_empty (h : liveItems (s.die d) g.num = []) :
    ((copyVictim s d g).die d).fgr.step = .copying ∧ ((copyVictim s d g).die d).fgr.moves = []
      ∧ ((copyVictim s d g).die d).map = (s.die d).map ∧ ((copyVictim s d g).die d).flash = (s.die d).flash := by
  unfold copyVictim
  simp only [h, List.foldl_nil, List.mapIdx_nil, placeCopies, List.find?_nil, List.zip_nil_left, List.map_nil,
    List.filter_nil, List.isEmpty_nil, if_true]
  rw [die_fgrReval, die_updDie_self, die_setDie_self]
  exact ⟨rfl, rfl, rfl, rfl⟩

/-! #### Committing (R239 steps 4 to 6) -/

/-- The commands of a die and what stands of its reclaim are as they were. -/
def SameWork (x y : Die) : Prop := y.csq = x.csq ∧ y.fgr = x.fgr

theorem SameWork.trans {z : Die} (h : SameWork x y) (k : SameWork y z) : SameWork x z := ⟨k.1.trans h.1, k.2.trans h.2⟩

theorem sameWork_foldl {α : Type} {f : Die → α → Die} (hf : ∀ x a, SameWork x (f x a)) (l : List α) (x : Die) :
    SameWork x (l.foldl f x) :=
  List.foldlRecOn (motive := SameWork x) l f ⟨rfl, rfl⟩ fun _ hy a _ => hy.trans (hf _ a)

theorem sameWork_jAppendTo {tenant nsid : Nat} {b : JBody} : SameWork x (jAppendTo x tenant nsid b) := by
  unfold jAppendTo
  extract_lets m y
  have hy : SameWork x y := ⟨rfl, rfl⟩
  exact hy.trans (sameWork_foldl (f := markLeaf tenant nsid (x.map.jseq + 1)) (fun _ _ => ⟨rfl, rfl⟩) _ _)

theorem sameWork_release {l : BitVec 56} : SameWork x (release x l) := sameWork_foldl (f := validSub) (fun _ _ => ⟨rfl, rfl⟩) _ x

theorem sameWork_retain {l : BitVec 56} : SameWork x (retain x l) := sameWork_foldl (f := validAdd) (fun _ _ => ⟨rfl, rfl⟩) _ x

/-- The units of a copy become live in the place of the old ones. -/
theorem sameWork_moveUnits {takes : Bool} {old new : BitVec 56} :
    SameWork x (if takes then retain (release x old) new else x) := by
  split
  · exact sameWork_release.trans sameWork_retain
  · exact ⟨rfl, rfl⟩

/-- What a move's commit makes of the die's journal and groups. -/
theorem sameWork_moved {takes : Bool} {old new : BitVec 56} {tenant nsid : Nat} {b : JBody} {q : Stored} :
    SameWork x (if takes then retain (release (addStored (jAppendTo x tenant nsid b) q) old) new
      else addStored (jAppendTo x tenant nsid b) q) := by
  have hadd : SameWork x (addStored (jAppendTo x tenant nsid b) q) := sameWork_jAppendTo.trans ⟨rfl, rfl⟩
  exact hadd.trans sameWork_moveUnits

theorem sameWork_commitMove : SameWork (s.die d) ((commitMove s d m).die d) := by
  unfold commitMove
  split
  · unfold commitRecord
    extract_lets new payload takes s1
    have hs1 : SameWork (s.die d) (s1.die d) := by
      unfold s1
      rw [die_updDie_self]
      extract_lets y z c
      have hz : SameWork (s.die d) z := sameWork_moved
      exact hz
    split
    · exact hs1
    · exact hs1
  · unfold commitBlock
    extract_lets new old takes s1
    have hs1 : SameWork (s.die d) (s1.die d) := by
      unfold s1
      rw [die_updDie_self]
      extract_lets y z
      have hz : SameWork (s.die d) z := sameWork_moved
      exact hz
    split
    · exact hs1
    · exact hs1
  · exact ⟨rfl, rfl⟩

theorem sameWork_commitMoves (l : List Move) (s : State) : SameWork (s.die d) ((l.foldl (fun s m => commitMove s d m) s).die d) :=
  List.foldlRecOn (motive := fun t : State => SameWork (s.die d) (t.die d)) l _ ⟨rfl, rfl⟩
    fun _ ht _ _ => ht.trans sameWork_commitMove

theorem commitVictim_spec : ((commitVictim s d n).die d).fgr.step = .fencing ∧ ((commitVictim s d n).die d).fgr.moves = []
    ∧ ((commitVictim s d n).die d).comb.fence = raOpen (s.die d)
    ∧ ((commitVictim s d n).die d).fgr.victim = (s.die d).fgr.victim := by
  obtain ⟨hcsq, hfgr⟩ := sameWork_commitMoves (d := d) (s.die d).fgr.moves s
  have hra : raOpen (((s.die d).fgr.moves.foldl (fun s m => commitMove s d m) s).die d) = raOpen (s.die d) := by
    unfold raOpen
    rw [hcsq]
  have hvictim := congrArg Fgr.victim hfgr
  unfold commitVictim
  dsimp only
  rw [die_updDie_self]
  exact ⟨rfl, rfl, hra, hvictim⟩

/-! #### The drain fence (R174) -/

theorem drainFence_drained (hrun : running s d = true) (hvictim : (s.die d).fgr.victim = some n)
    (hstep : (s.die d).fgr.step = .fencing) (hfence : ∀ o ∈ (s.die d).comb.fence, o ∉ raOpen (s.die d)) :
    ∃ t, exec (.cmbDrainFence d) s = .next t ∧ (t.die d).fgr.step = .waiting ∧ (t.die d).comb.fence = []
      ∧ (t.die d).map = (s.die d).map ∧ SameButDie d s t := by
  have hgo : (s.die d).fgr.step = .fencing ∧ (s.die d).fgr.victim.isSome = true
      ∧ (s.die d).comb.fence.any (fun o => (raOpen (s.die d)).contains o) = false :=
    ⟨hstep, by rw [hvictim]; rfl, by simpa [List.any_eq_false] using hfence⟩
  refine ⟨_, congrArg Host.Outcome.next ((onDie_of_running hrun).trans (if_pos hgo)), ?_⟩
  rw [die_updDie_self]
  exact ⟨rfl, rfl, rfl, sameButDie_updDie _⟩

/-! #### The erase (R239 steps 8 and 9) -/

/-- A group whose erase is pending. -/
def pendErase (g : Machine.Group) : Machine.Group := { g with st := .erasePending, valid := 0 }

/-- Step 8 of R239 on a die: the intent in the journal, the group pending, and what it held gone. -/
def intendErase (n : Nat) (x : Die) : Die :=
  let y := jAppendTo x 0 0 (.eraseIntent n (((groupOf x n).map (fun g => g.good)).getD 0))
  let z := updGroup y n pendErase
  { z with map := { z.map with
      stored := z.map.stored.filter (fun q => !touches n q.extents)
      tags := z.map.tags.filter (fun t => t.group != n) } }

theorem groupOf_intendErase (hg : groupOf x n = some g) : groupOf (intendErase n x) n = some (pendErase g) := by
  unfold intendErase
  dsimp only
  rw [jAppendTo_of_no_leaf rfl]
  have hpend := groupOf_updGroup (x := x) (n := n) (f := pendErase) fun _ => rfl
  rw [hg] at hpend
  exact hpend

theorem intendErase_journal (hg : groupOf x n = some g) : ∃ q ∈ (intendErase n x).map.journal, q.body = .eraseIntent n g.good := by
  unfold intendErase
  dsimp only
  rw [jAppendTo_of_no_leaf rfl, hg]
  exact ⟨_, List.mem_append_right _ (List.mem_singleton_self _), rfl⟩

theorem queued_queueErases : Queued d (members g.good) s (queueErases s d g) :=
  queued_foldl (fun _ _ => queued_queueOp) _ s

/-- A group that a change leaves as it is stands as it was. -/
theorem updGroup_keeps {f : Machine.Group → Machine.Group} (hg : groupOf x n = some g) (hnum : ∀ q, (f q).num = q.num) (hf : f g = g) :
    groupOf (updGroup x n f) n = some g := by
  rw [groupOf_updGroup hnum, hg]
  exact congrArg some hf

/-- A victim of which no block is bad or dead: nothing of it is retired, and its erases are queued (R239 steps 8 and 9). -/
theorem eraseGroup_good (hg : groupOf (s.die d) n = some g) (hbad : g.badCh = []) (hdead : deadChans (s.die d) g = [])
    (hfour : 4 ≤ members g.good) : ∃ u, groupOf (u.die d) n = some (pendErase g) ∧ (u.die d).map = (intendErase n (s.die d)).map
      ∧ (u.die d).flash = (s.die d).flash ∧ eraseGroup s d n = queueErases u d (pendErase g) := by
  unfold eraseGroup
  extract_lets s1 s2 s3
  have hdie1 : s1.die d = intendErase n (s.die d) := die_updDie_self ..
  have hg1 : groupOf (s1.die d) n = some (pendErase g) := by
    rw [hdie1]
    exact groupOf_intendErase hg
  have hs2 : s2 = s1 := by
    unfold s2
    rw [hg1]
    change g.badCh.foldl _ s1 = s1
    rw [hbad]
    rfl
  have hdie3 : s3.die d = updGroup (s1.die d) n fun g => { g with good := g.good - ((deadChans (s1.die d) g).map (2 ^ ·)).sum } := by
    unfold s3
    rw [die_updDie_self, hs2]
  have hdead1 : deadChans (s1.die d) (pendErase g) = [] := by
    rw [hdie1]
    exact hdead
  have hg3 : groupOf (s3.die d) n = some (pendErase g) := by
    rw [hdie3]
    refine updGroup_keeps hg1 (fun _ => rfl) ?_
    rw [hdead1]
    rfl
  refine ⟨s3, hg3, ?_, ?_, ?_⟩
  · rw [hdie3, ← hdie1]
    rfl
  · rw [hdie3, hdie1]
    rfl
  · rw [hg3]
    exact (if_neg (by simp [pendErase])).trans (if_neg (by simpa [pendErase] using hfour))

theorem exec_fgrEraseStart (hrun : running s d = true) (hvictim : (s.die d).fgr.victim = some n)
    (hstep : (s.die d).fgr.step = .waiting) (hreaders : readersIn (s.die d) n = false)
    (hgone : ((groupOf ((eraseGroup s d n).die d) n).map fun g => g.st) ≠ some .retired) :
    exec (.fgrEraseStart d) s
      = .next ((eraseGroup s d n).updDie d fun x => { x with fgr := { x.fgr with step := .erasing } }) := by
  refine congrArg Host.Outcome.next ((onDie_of_running hrun).trans ?_)
  rw [hvictim]
  exact (if_pos ⟨hstep, hreaders, losing_of_running hrun⟩).trans (if_neg hgone)

/-- The erase of a victim of which no block is bad or dead begins. -/
theorem fgrEraseStart_begins (hrun : running s d = true) (hvictim : (s.die d).fgr.victim = some n)
    (hg : groupOf (s.die d) n = some g) (hstep : (s.die d).fgr.step = .waiting) (hreaders : readersIn (s.die d) n = false)
    (hbad : g.badCh = []) (hdead : deadChans (s.die d) g = []) (hfour : 4 ≤ members g.good) :
    ∃ t, exec (.fgrEraseStart d) s = .next t ∧ (t.die d).fgr.step = .erasing ∧ groupOf (t.die d) n = some (pendErase g)
      ∧ (∃ q ∈ (t.die d).map.journal, q.body = .eraseIntent n g.good)
      ∧ (t.die d).flash.ops.length = (s.die d).flash.ops.length + members g.good := by
  obtain ⟨u, hu, hmap, hflash, herase⟩ := eraseGroup_good hg hbad hdead hfour
  have hq : Queued d (members g.good) u (eraseGroup s d n) := herase ▸ queued_queueErases (g := pendErase g)
  have hpend : groupOf ((eraseGroup s d n).die d) n = some (pendErase g) := (groupOf_congr hq.groups).trans hu
  refine ⟨_, exec_fgrEraseStart hrun hvictim hstep hreaders (by simp [hpend, pendErase]), ?_⟩
  rw [die_updDie_self]
  refine ⟨rfl, hpend, ?_, ?_⟩
  · change ∃ q ∈ ((eraseGroup s d n).die d).map.journal, q.body = .eraseIntent n g.good
    rw [hq.map, hmap]
    exact intendErase_journal hg
  · change ((eraseGroup s d n).die d).flash.ops.length = _
    rw [hq.length, hflash]

/-- A victim step by step (R174, R234, R235, R239 to R241). -/
theorem victim_steps (hrun : running s d = true) (hvictim : (s.die d).fgr.victim = some g.num)
    (hg : groupOf (s.die d) g.num = some g) :
    ((s.die d).fgr.step = .chosen → exec (.fgrReclaim d) s = .next (readVictim s d g))
      ∧ ((s.die d).fgr.step = .reading → victimReading (s.die d) = false → exec (.fgrReclaim d) s = .next (copyVictim s d g))
      ∧ ((s.die d).fgr.step = .copying → copiesPending (s.die d) = false →
          exec (.fgrReclaim d) s = .next (commitVictim s d g.num)) := by
  rw [exec_fgrReclaim hrun hvictim hg]
  refine ⟨fun h => ?_, fun h hread => ?_, fun h hcopies => ?_⟩
  · rw [if_pos h]
  · rw [if_neg (by simp [h]), if_pos ⟨h, hread⟩]
  · rw [if_neg (by simp [h]), if_neg (by simp [h]), if_pos ⟨h, hcopies⟩]

end Sys2Proof.Reclaim
end

section
/-! ### The VALID recount and read-only mode -/
namespace Sys2Proof.Reclaim
open Sys2Proof Sys2Proof.Machine Sys2Proof.Laws Sys2Proof.Safety Sys2Proof.Access
variable {s t : State} {d e : DieId} {x : Die} {r : Requester}

theorem blockAt_fgr (d : DieId) {off : Nat} (h : off < 0x10000) : blockAt (dreg d Page.fgr off) = some .fgr := by
  have hw : winOf (dreg d Page.fgr off) = d.val := by
    unfold winOf dreg Page.fgr
    omega
  have hp : pageOf (dreg d Page.fgr off) = Page.fgr := by
    unfold pageOf dreg Page.fgr
    omega
  unfold blockAt
  rw [hw, if_pos d.isLt, hp]
  rfl

theorem rowWrites_recount (h : RowOpen s (dreg d Page.fgr 0x60)) : RowWrites s .fgr (dreg d Page.fgr 0x60) 1 := by
  have hoff : offOf (dreg d Page.fgr 0x60) = 0x60 := offOf_dreg (by omega)
  refine ⟨h, blockAt_fgr d (by omega), by simp [condOk, hoff], ⟨0x60, 1, [⟨0, 0, .w1s, 0, .any⟩]⟩, ?_, by decide⟩
  rw [hoff]
  rfl

/-- A die with another record of its Forager. -/
def withFgr (f : Fgr) (x : Die) : Die := { x with fgr := f }

/-- The units of what is stored counted into VALID. -/
def countUnits (x : Die) (q : Stored) : Die := q.extents.foldl validAdd x

theorem countUnits_withFgr {f : Fgr} (q : Stored) : countUnits (withFgr f x) q = withFgr f (countUnits x q) :=
  List.foldl_hom (g₁ := validAdd) (g₂ := validAdd) (withFgr f) fun _ _ => rfl

/-- A die before its recount: VALID of every group is 0. -/
def uncounted (x : Die) : Die := { x with groups := x.groups.map fun g : Machine.Group => { g with valid := 0 } }

theorem recounted_eq (x : Die) :
    recounted x = (x.map.stored.filter (liveAt (uncounted x))).foldl countUnits (uncounted x) := rfl

/-- VALID is counted from the map, whatever the Forager does. -/
theorem recounted_withFgr {f : Fgr} : recounted (withFgr f x) = withFgr f (recounted x) := by
  rw [recounted_eq, recounted_eq]
  have hstart : uncounted (withFgr f x) = withFgr f (uncounted x) := rfl
  have hlive : liveAt (withFgr f (uncounted x)) = liveAt (uncounted x) := rfl
  rw [hstart, hlive]
  exact List.foldl_hom (g₁ := countUnits) (g₂ := countUnits) (withFgr f) fun _ => countUnits_withFgr

/-- A recount touches neither the map nor the Forager's record. -/
theorem recounted_keeps : (recounted x).map = x.map ∧ (recounted x).fgr = x.fgr :=
  List.foldlRecOn (motive := fun y : Die => y.map = x.map ∧ y.fgr = x.fgr) _ _ ⟨rfl, rfl⟩ fun _ hy q _ =>
    List.foldlRecOn (motive := fun y : Die => y.map = x.map ∧ y.fgr = x.fgr) q.extents validAdd hy fun _ hz _ _ => hz

/-- The map, the groups and the Forager of a die are as they were. -/
def KeepsData (d : DieId) (s t : State) : Prop :=
  (t.die d).map = (s.die d).map ∧ (t.die d).groups = (s.die d).groups ∧ (t.die d).fgr = (s.die d).fgr

theorem KeepsData.trans {u : State} (h : KeepsData d s t) (k : KeepsData d t u) : KeepsData d s u :=
  ⟨k.1.trans h.1, k.2.1.trans h.2.1, k.2.2.trans h.2.2⟩

theorem keepsData_dropGen (s : State) (tenant gen : Nat) : KeepsData d s (dropGen s tenant gen) := by
  refine overDies_keeps (P := KeepsData d s) (fun t e ht => ht.trans ?_) allDies ⟨rfl, rfl, rfl⟩
  unfold KeepsData
  rw [die_updDie]
  split
  · next h => exact h ▸ ⟨rfl, rfl, rfl⟩
  · exact ⟨rfl, rfl, rfl⟩

theorem fgrRecountDone_spec (hrun : running s d = true) (hon : (s.die d).fgr.recount = true) :
    ∃ t, exec (.fgrRecountDone d) s = .next t ∧ (t.die d).fgr.recount = false ∧ (t.die d).groups = (recounted (s.die d)).groups
      ∧ (t.die d).map = (s.die d).map := by
  refine ⟨_, congrArg Host.Outcome.next ((onDie_of_running hrun).trans (if_pos hon)), ?_⟩
  extract_lets s1 dead
  have hdie : s1.die d = withFgr { (s.die d).fgr with recount := false } (recounted (s.die d)) :=
    (die_updDie_self ..).trans recounted_withFgr
  obtain ⟨hmap, hgroups, hfgr⟩ : KeepsData d s1 (dead.foldl (fun s k => dropGen s k.tenant k.gen) s1) :=
    List.foldlRecOn (motive := KeepsData d s1) dead _ ⟨rfl, rfl, rfl⟩ fun _ ht k _ => ht.trans (keepsData_dropGen ..)
  rw [raiseInt_die, hmap, hgroups, hfgr, hdie]
  exact ⟨rfl, rfl, recounted_keeps.1⟩

/-- A die that is read-only, its report taken. -/
def toReadOnly (x : Die) : Die := { x with fgr := { x.fgr with roReport := false }, map := { x.map with readOnly := true } }

theorem upkeep_enterReadOnly (s : State) (e : DieId) : Upkeep (s.updDie e toReadOnly) (enterReadOnly s e) := by
  unfold enterReadOnly
  split
  · next hon =>
    refine ⟨fun f => ?_⟩
    rw [die_updDie, die_updDie]
    split
    · exact ⟨rfl, rfl, fun _ => hon, fun _ => rfl⟩
    · exact .rfl _
  · exact (Upkeep.rfl _).checkpoint.raiseInt

/-- A die that has entered read-only mode. -/
def NowReadOnly (e : DieId) (t : State) : Prop := (t.die e).map.readOnly = true ∧ (t.die e).fgr.roReport = false

theorem NowReadOnly.upkeep (h : NowReadOnly e s) (k : Upkeep s t) : NowReadOnly e t :=
  ⟨(k.die e).readOnly h.1, ((k.die e).roReport h.1).trans h.2⟩

theorem nowReadOnly_updDie (f : DieId) (h : NowReadOnly e s ∨ f = e) : NowReadOnly e (s.updDie f toReadOnly) := by
  unfold NowReadOnly
  rw [die_updDie]
  split
  · exact ⟨rfl, rfl⟩
  · next hne => exact h.resolve_right fun hfe => hne hfe.symm

/-- Every die that runs is read-only then, with the entries of its map as they were (R254). -/
theorem overDies_enterReadOnly (s : State) (hrun : running s e = true) :
    NowReadOnly e (overDies enterReadOnly s (upDies s))
      ∧ ((overDies enterReadOnly s (upDies s)).die e).map.kv = (s.die e).map.kv
      ∧ ((overDies enterReadOnly s (upDies s)).die e).map.dense = (s.die e).map.dense := by
  refine ⟨overDies_brings (P := NowReadOnly e) (d := e)
    (fun t => (nowReadOnly_updDie e (.inr rfl)).upkeep (upkeep_enterReadOnly t e))
    (fun t f ht => (nowReadOnly_updDie f (.inl ht)).upkeep (upkeep_enterReadOnly t f)) (upDies s) s
    (.inl (Kocel.mem_upDies.2 hrun)), ?_⟩
  refine overDies_keeps (P := fun t : State => (t.die e).map.kv = (s.die e).map.kv ∧ (t.die e).map.dense = (s.die e).map.dense)
    (fun t f ht => ?_) (upDies s) ⟨rfl, rfl⟩
  have hkept := (upkeep_enterReadOnly t f).die e
  rw [hkept.kv, hkept.dense, die_updDie]
  split
  · next h => exact h ▸ ht
  · exact ht

/-- Settles O32: a reclaim goes from step to step as R239 to R241 say, a recount is asked for and ends with VALID counted from the
map, and a report of READ_ONLY_ENTER makes every die that runs read-only. -/
theorem foragerWork : Obligations.ForagerWork := by
  unfold Obligations.ForagerWork
  refine ⟨fun s d g hrun => ⟨fun f => fgrScore_chooses hrun, fun hvictim hg => ?_⟩, fun s d e hrun hrunE => ⟨?_, ?_, ?_⟩⟩
  · obtain ⟨hchosen, hread, hcopied⟩ := victim_steps hrun hvictim hg
    refine ⟨fun h => ⟨_, hchosen h, ?_⟩, fun h hdone hempty => ⟨_, hread h hdone, copyVictim_empty hempty⟩,
      fun h hdone => ⟨_, hcopied h hdone, ?_⟩, drainFence_drained hrun hvictim, fun h hreaders hbad hdead hfour => ?_⟩
    · exact hvictim ▸ readVictim_spec
    · exact hvictim ▸ commitVictim_spec
    · obtain ⟨t, ht, hstep, hpend, hintent, hops⟩ := fgrEraseStart_begins hrun hvictim hg h hreaders hbad hdead hfour
      exact ⟨t, _, ht, hstep, hpend, rfl, rfl, hintent, hops⟩
  · intro r hspace hopen
    exact congrArg Host.Outcome.next
      ((byReq_of_hasSpace hspace).trans (rowWrite_of_rowWrites (rowWrites_recount hopen)))
  · exact fgrRecountDone_spec hrun
  · intro hreport
    obtain ⟨hnow, hkv, hdense⟩ := overDies_enterReadOnly s hrunE
    exact ⟨_, congrArg Host.Outcome.next ((onDie_of_running hrun).trans (if_pos hreport)), hnow.1, hnow.2, hkv, hdense⟩

end Sys2Proof.Reclaim
end

section
/-! ### CORE_WDT_EXPIRY: a counterexample

The fencing of a core frees its packet buffers (R442). When the pool leaves CRIT with that, the die's windows open and an ACK goes out
on each session (R79); a session whose nonces are used up by it ends (R90), and the barrier wakes the die (R497). Cores of the die that
were idle run again, while `FaultsAndCores` has every core but the fenced one as it was. -/
namespace Sys2Proof.DieFaults
open Sys2Proof Sys2Proof.Machine Sys2Proof.Safety

/-- A pool of one packet buffer, at address 0, that is in use: the pool is in CRIT. -/
def fullPool : Machine.Pool := { pen := true, bpKtp := true, count := 1, inCrit := true }

/-- An encrypted session with one nonce before its last, and whose window is closed. -/
def lastNonces : Session :=
  { slot := 0, gen := 1, tenant := 3, enc := true, st := .established, v6 := false, peerIp := 0x0A000001, peerUdp := 40000,
    peerMac := 0x020000000001, vlan := none, pcp := 0, dscp := 0, port := 0, hostNonce := [], openReply := [], maxSeg := 4096,
    rcvNext := 0, rcvSeen := [], edge := 0, asm := [], ackCount := 0, replayTop := none, replaySet := [], sndNext := 0, sndEdge := 64,
    unacked := [], backlog := [], srtt := none, rttvar := 0, rto := 100000, backoff := 100000, txCtr := 2 ^ 64 - 2, tags := [],
    held := [], rateHold := false, resetting := none, closeAt := false, closeSent := false }

/-- A die in IDLE with its cores idle; core 2 holds the buffer, and no core has kicked for 10 s. -/
def idleDie : Die :=
  { phase := .up
    mon := { devTime := 10000000000 }
    csq := { ps := .idle }
    cores := Vector.replicate 8 { st := .idle }
    ktp := { sessions := [lastNonces] }
    cry := loadSession {} 0 (List.replicate 32 0)
    bpm := { pools := vset (Vector.replicate 16 {}) 0 fullPool, refs := [(0, (Owner.core 2).id)] } }

/-- Die 0 in that state. -/
def idleCores : State := { State.reset with dies := (Vector.replicate 8 ({} : Die)).set 0 idleDie }

theorem idleCores_expires : running idleCores 0 = true ∧ regsWf idleCores.regs = true ∧ coreOn idleCores 0 2 = true
    ∧ (coreAt idleCores 0 2).st ≠ .halted ∧ (coreAt idleCores 0 2).kickAt + wdtNs idleCores 0 ≤ (idleCores.die 0).mon.devTime
    ∧ 2 < (coresOn idleCores 0).length ∧ (coreAt idleCores 0 1).st = .idle := by decide +kernel

/-- The state of core 1 of die 0 in the state that a command answers with. -/
def coreOne (o : Out) : Option CoreState :=
  match o with
  | .next t => some (coreAt t 0 1).st
  | _ => none

/-- The expiry of core 2's watchdog leaves core 1 running. -/
theorem idleCores_wakes : coreOne (exec (.coreWdtExpiry 0 2) idleCores) = some .run := by decide +kernel

/-- Refutes O42: the fencing of a core for its watchdog can end a session and so wake the die, whose other cores then leave IDLE
(`idleCores_wakes`). -/
theorem not_faultsAndCores : ¬ Obligations.FaultsAndCores := by
  unfold Obligations.FaultsAndCores
  intro h
  obtain ⟨hrun, hregs, hon, hhalted, hkick, hmany, hidle⟩ := idleCores_expires
  obtain ⟨t, -, ht, -, -, -, hothers, -⟩ := (h.2 idleCores 0).2 2 hrun hregs hon hhalted hkick hmany
  have hkept : (coreAt t 0 1).st = .idle := (congrArg Core.st (hothers 1 (by decide)).1).trans hidle
  have hwoken := idleCores_wakes
  rw [ht] at hwoken
  exact absurd (hkept.symm.trans (Option.some.inj hwoken)) (by decide)

end Sys2Proof.DieFaults
end

section
/-! ### Views of a die

Most of what a die does to its flash changes a few parts of the die and leaves the rest. A view of a die blanks out the parts that
change, so that one equation of views says that everything else is as it was. -/
namespace Sys2Proof.Placement
open Sys2Proof Sys2Proof.Machine Sys2Proof.Laws Sys2Proof.Safety
variable {s0 s t u : State} {d : DieId} {x : Die} {β γ : Type} {ε : Die → β} {ε' : Die → γ} {ρ ρ' : Nat → Prop}

/-- The state beside its dies and its registers. -/
def outside (s : State) : State := { s with dies := Vector.replicate 8 {}, regs := [] }

/-- What a view shows of each die, the registers of a kind, and all that lies beside dies and registers are as they were. -/
structure Keeps (ε : Die → β) (ρ : Nat → Prop) (s t : State) : Prop where
  die  : ∀ e : DieId, ε (t.die e) = ε (s.die e)
  rest : outside t = outside s
  reg  : ∀ a, ρ a → regGet t a = regGet s a

protected theorem Keeps.rfl (s : State) : Keeps ε ρ s s := ⟨fun _ => rfl, rfl, fun _ _ => rfl⟩

protected theorem Keeps.trans (h : Keeps ε ρ s0 s) (k : Keeps ε ρ s t) : Keeps ε ρ s0 t :=
  ⟨fun e => (k.die e).trans (h.die e), k.rest.trans h.rest, fun a ha => (k.reg a ha).trans (h.reg a ha)⟩

/-- A view that shows less. -/
theorem Keeps.mono (h : Keeps ε ρ s t) (hε : ∀ x y, ε y = ε x → ε' y = ε' x) (hρ : ∀ a, ρ' a → ρ a) : Keeps ε' ρ' s t :=
  ⟨fun e => hε _ _ (h.die e), h.rest, fun a ha => h.reg a (hρ a ha)⟩

protected theorem Keeps.ite {p : Prop} [Decidable p] (hs : Keeps ε ρ s0 s) (ht : Keeps ε ρ s0 t) :
    Keeps ε ρ s0 (if p then s else t) := by
  split
  · exact hs
  · exact ht

protected theorem Keeps.foldl {α : Type} {f : State → α → State} {l : List α} (h : Keeps ε ρ s0 s)
    (hf : ∀ t a, Keeps ε ρ s0 t → Keeps ε ρ s0 (f t a)) : Keeps ε ρ s0 (l.foldl f s) :=
  List.foldlRecOn l f h fun t ht a _ => hf t a ht

/-- Steps of which each may fail. -/
protected theorem Keeps.foldl_bind {α : Type} {f : State → α → Option State} {l : List α} {o : Option State}
    (h : ∀ s, o = some s → Keeps ε ρ s0 s) (hf : ∀ t a u, Keeps ε ρ s0 t → f t a = some u → Keeps ε ρ s0 u)
    (e : l.foldl (fun o a => o.bind fun s => f s a) o = some t) : Keeps ε ρ s0 t := by
  induction l generalizing o with
  | nil => exact h t e
  | cons a l ih =>
    refine ih (fun u hu => ?_) e
    obtain ⟨w, hw, hu⟩ := Option.bind_eq_some_iff.1 hu
    exact hf w a u (h w hw) hu

protected theorem Keeps.setDie (h : Keeps ε ρ s0 s) (hx : ε x = ε (s.die d)) : Keeps ε ρ s0 (s.setDie d x) := by
  refine ⟨fun e => ?_, h.rest, h.reg⟩
  by_cases he : e = d
  · rw [he, die_setDie_self, hx]
    exact h.die d
  · rw [die_setDie_ne _ _ _ _ he]
    exact h.die e

protected theorem Keeps.updDie {f : Die → Die} (h : Keeps ε ρ s0 s) (hf : ∀ x, ε (f x) = ε x) : Keeps ε ρ s0 (s.updDie d f) :=
  h.setDie (hf _)

/-- A register beside those kept is set. -/
protected theorem Keeps.regSet {a : Nat} {v : Word} (h : Keeps ε ρ s0 s) (ha : ¬ ρ a) : Keeps ε ρ s0 (regSet s a v) :=
  ⟨h.die, h.rest, fun b hb => (regGet_regSet_ne _ _ _ _ fun e => ha (by rwa [e] at hb)).trans (h.reg b hb)⟩

theorem Keeps.part (h : Keeps ε ρ s t) : t.part = s.part :=
  (congrArg State.part h.rest : (outside t).part = (outside s).part)

theorem Keeps.guard (h : Keeps ε ρ s t) : t.guard = s.guard :=
  (congrArg State.guard h.rest : (outside t).guard = (outside s).guard)

theorem Keeps.pkg (h : Keeps ε ρ s t) : t.pkg = s.pkg :=
  (congrArg State.pkg h.rest : (outside t).pkg = (outside s).pkg)

/-- A fold of changes that a view does not show. -/
theorem view_foldl {α : Type} {f : Die → α → Die} (hf : ∀ x a, ε (f x a) = ε x) (l : List α) (x : Die) : ε (l.foldl f x) = ε x :=
  List.foldlRecOn (motive := fun y => ε y = ε x) l f rfl fun y hy a _ => (hf y a).trans hy

/-- No register at all. -/
def noReg : Nat → Prop := fun _ => False

/-- The registers beside INT_RAW (R52). -/
def noInt (a : Nat) : Prop := a % 0x10000 ≠ 0x10

/-- An interrupt of a page. -/
theorem Keeps.raiseInt {page bit : Nat} (h : Keeps ε noInt s0 s) : Keeps ε noInt s0 (raiseInt s (dreg d page 0) bit) :=
  h.regSet (by unfold noInt dreg; omega)

end Sys2Proof.Placement
end

section
/-! ### Groups, journal and map pages -/
namespace Sys2Proof.Placement
open Sys2Proof Sys2Proof.Machine Sys2Proof.Laws Sys2Proof.Safety
variable {s0 s t u : State} {d : DieId} {x y : Die}

/-- A die without what it changes when it takes groups, appends to its journal and writes pages of its map: the groups, the
Forager, the journal and the pages. -/
def upkept (x : Die) : Die :=
  { x with
    groups := []
    fgr := {}
    map := { x.map with
      pages := [], journal := [], jgroups := [], tags := [], places := [], jseq := 0, journalAt := 0, spaceStop := false } }

theorem upkept_fgr {f : Fgr} : upkept { x with fgr := f } = upkept x := rfl

theorem upkept_pages {l : List FlashPage} : upkept { x with map := { x.map with pages := l } } = upkept x := rfl

@[simp] theorem upkept_updGroup {n : Nat} {f : Machine.Group → Machine.Group} : upkept (updGroup x n f) = upkept x := rfl

@[simp] theorem upkept_putPlace {p : PageAt} : upkept (putPlace x p) = upkept x := rfl

@[simp] theorem upkept_jAppendTo {tenant nsid : Nat} {b : JBody} : upkept (jAppendTo x tenant nsid b) = upkept x :=
  view_foldl (ε := upkept) (f := markLeaf tenant nsid (x.map.jseq + 1)) (fun _ _ => rfl) _ _

theorem upkept_takeFree {st : GroupState} {qlc copy : Bool} {purpose n : Nat} (h : takeFree x st qlc copy purpose = some (n, y)) :
    upkept y = upkept x := by
  unfold takeFree at h
  split at h
  · cases h
  · cases h
    exact upkept_jAppendTo

@[simp] theorem upkept_markParent {jseq : Nat} {id : PageId} : upkept (markParent d jseq id x) = upkept x := by
  unfold markParent
  dsimp only
  split <;> rfl

protected theorem Keeps.refillRescue {n : Nat} (h : Keeps upkept noInt s0 s) : Keeps upkept noInt s0 (refillRescue s d n) := by
  induction n generalizing s with
  | zero => exact h
  | succ n ih =>
    unfold Machine.refillRescue
    dsimp only
    refine .ite ?_ h
    split
    · exact h
    · next hx => exact ih (h.setDie (upkept_takeFree hx))

protected theorem Keeps.setSpaceStop {on : Bool} (h : Keeps upkept noInt s0 s) : Keeps upkept noInt s0 (setSpaceStop s d on) := by
  unfold Machine.setSpaceStop
  refine .ite h (Keeps.raiseInt (h.updDie fun x => ?_))
  rfl

protected theorem Keeps.shrink (h : Keeps upkept noInt s0 s) : Keeps upkept noInt s0 (shrink s d) := by
  unfold Machine.shrink
  extract_lets gb s1
  have hs1 : Keeps upkept noInt s0 s1 := h.updDie fun _ => upkept_jAppendTo.trans upkept_fgr
  exact .ite hs1.setSpaceStop.raiseInt h.setSpaceStop

protected theorem Keeps.applyPolicy (h : Keeps upkept noInt s0 s) : Keeps upkept noInt s0 (applyPolicy s d) := by
  unfold Machine.applyPolicy
  refine .ite h (.ite h.shrink ?_)
  unfold Machine.reportReadOnly
  exact .ite h (h.updDie fun _ => upkept_jAppendTo.trans upkept_fgr)

protected theorem Keeps.fillRescue (h : Keeps upkept noInt s0 s) : Keeps upkept noInt s0 (fillRescue s d) := by
  unfold Machine.fillRescue
  extract_lets s1
  have hs1 : Keeps upkept noInt s0 s1 := h.refillRescue
  exact .ite hs1 hs1.applyPolicy

protected theorem Keeps.retryShrink (h : Keeps upkept noInt s0 s) : Keeps upkept noInt s0 (retryShrink s d) := .ite h.shrink h

protected theorem Keeps.fgrReval (h : Keeps upkept noInt s0 s) : Keeps upkept noInt s0 (fgrReval s d) := by
  unfold Machine.fgrReval
  extract_lets m s1
  have hs1 : Keeps upkept noInt s0 s1 := h.updDie fun _ => rfl
  exact .ite hs1.raiseInt hs1

protected theorem Keeps.takeSys {purpose n : Nat} (h : Keeps upkept noInt s0 s) (e : takeSys s d purpose = some (n, t)) :
    Keeps upkept noInt s0 t := by
  unfold Machine.takeSys at e
  obtain ⟨⟨m, x⟩, hx, ⟨⟩⟩ := Option.map_eq_some_iff.1 e
  exact (h.fillRescue.setDie (upkept_takeFree hx)).applyPolicy

protected theorem Keeps.openFor {qlc copy : Bool} {g : Machine.Group} (h : Keeps upkept noInt s0 s)
    (e : openFor s d qlc copy = some (g, t)) : Keeps upkept noInt s0 t := by
  rw [Machine.openFor] at e
  obtain ⟨v, hv, hd⟩ : ∃ v, Keeps upkept noInt s0 v ∧ fillRescue s d = v := ⟨_, h.fillRescue, rfl⟩
  rw [hd] at e
  split at e
  · cases e
    exact h
  · dsimp only at e
    split at e
    · cases e
    · next hx =>
      obtain ⟨_, _, ⟨⟩⟩ := Option.map_eq_some_iff.1 e
      exact hv.setDie (upkept_takeFree hx)

protected theorem Keeps.ensureJournal (h : Keeps upkept noInt s0 s) : Keeps upkept noInt s0 (ensureJournal s d) := by
  unfold Machine.ensureJournal
  extract_lets page next
  refine .ite h ?_
  split
  · exact h
  · next hx => exact (h.takeSys hx).updDie fun _ => rfl

/-! #### Map pages -/

protected theorem Keeps.mapGroup {g : Machine.Group} (h : Keeps upkept noInt s0 s) (e : mapGroup s d = some (g, t)) :
    Keeps upkept noInt s0 t := by
  unfold Machine.mapGroup at e
  split at e
  · cases e
    exact h
  · obtain ⟨⟨n, v⟩, hv, e⟩ := Option.bind_eq_some_iff.1 e
    obtain ⟨g, -, ⟨⟩⟩ := Option.map_eq_some_iff.1 e
    exact h.takeSys hv

protected theorem Keeps.writePage {id : PageId} {jseq : Nat} {body : MapBody} {l : BitVec 56} (h : Keeps upkept noInt s0 s)
    (e : writePage s d id jseq body = some (l, t)) : Keeps upkept noInt s0 t := by
  obtain ⟨⟨g, v⟩, hv, ⟨⟩⟩ := Option.map_eq_some_iff.1 e
  exact (h.mapGroup hv).updDie fun _ => rfl

protected theorem Keeps.writeChain {id : PageId} {jseq : Nat} {l : List MapBody} {r : List (BitVec 56)}
    (h : Keeps upkept noInt s0 s) (e : writeChain s d id jseq l = some (r, t)) : Keeps upkept noInt s0 t := by
  induction l generalizing t r with
  | nil =>
    cases e
    exact h
  | cons b l ih =>
    unfold Machine.writeChain at e
    split at e
    · cases e
    · next q hq =>
      obtain ⟨p, hp, ⟨⟩⟩ := Option.map_eq_some_iff.1 e
      exact (ih hq).writePage hp

protected theorem Keeps.writePlace {p : PageAt} (h : Keeps upkept noInt s0 s) (e : writePlace s d p = some t) :
    Keeps upkept noInt s0 t := by
  obtain ⟨r, hr, ⟨⟩⟩ := Option.map_eq_some_iff.1 e
  exact (h.writeChain hr).updDie fun _ => upkept_markParent

protected theorem Keeps.writeTrees {tables : Bool} (h : Keeps upkept noInt s0 s) (e : writeTrees s d tables = some t) :
    Keeps upkept noInt s0 t := by
  refine Keeps.foldl_bind (fun u hu => Option.some.inj hu ▸ h) (fun u level w hu hw => ?_) e
  exact Keeps.foldl_bind (fun v hv => Option.some.inj hv ▸ hu) (fun v p w hv hw => hv.writePlace hw) hw

protected theorem Keeps.writeMap (h : Keeps upkept noInt s0 s) (e : writeMap s d = some t) : Keeps upkept noInt s0 t := by
  obtain ⟨u, hu, e⟩ := Option.bind_eq_some_iff.1 e
  refine Keeps.writeTrees (Keeps.updDie (h.writeTrees hu) fun x => ?_) e
  refine view_foldl (ε := upkept) ?_ _ _
  exact fun _ _ => rfl

/-! #### What a root no longer names -/

protected theorem Keeps.releaseSys {n : Nat} (h : Keeps upkept noInt s0 s) : Keeps upkept noInt s0 (releaseSys s d n) :=
  h.updDie fun _ => rfl

protected theorem Keeps.dropPages (h : Keeps upkept noInt s0 s) : Keeps upkept noInt s0 (dropPages s d) := by
  unfold Machine.dropPages
  extract_lets named gone s1
  have hs1 : Keeps upkept noInt s0 s1 := by
    refine h.updDie fun x => upkept_pages.trans (view_foldl (ε := upkept) ?_ gone x)
    exact fun _ _ => rfl
  exact hs1.foldl fun _ _ hu => hu.releaseSys

protected theorem Keeps.dropJournal {n : Nat} (h : Keeps upkept noInt s0 s) : Keeps upkept noInt s0 (dropJournal s d n) := by
  unfold Machine.dropJournal
  extract_lets old s1
  have hs1 : Keeps upkept noInt s0 s1 := h.foldl fun _ _ hu => hu.releaseSys
  exact hs1.updDie fun _ => rfl

end Sys2Proof.Placement
end

section
/-! ### What the ring and the entries of the map are after a write -/
namespace Sys2Proof.Placement
open Sys2Proof Sys2Proof.Machine Sys2Proof.Laws Sys2Proof.Safety Sys2Proof.Kocel
variable {s t : State} {d : DieId} {x y : Die} {c : Cmd} {b : BEntry}

/-- The parts of a die that answering a command needs. -/
def front (x : Die) : Ktp × Csq × Vector Swm 3 × List Crossing := (x.ktp, x.csq, x.swm, x.out)

/-- A die whose sessions, commands and ways to the others are as they were answers as before. -/
theorem answersAs_setDie (h : front x = front (s.die d)) : AnswersAs s (s.setDie d x) := by
  have hdie : ∀ e, front ((s.setDie d x).die e) = front (s.die e) := by
    intro e
    by_cases he : e = d
    · rw [he, die_setDie_self, h]
    · rw [die_setDie_ne _ _ _ _ he]
  exact ⟨fun e => congrArg (fun p => p.1) (hdie e), fun e => congrArg (fun p => p.2.1.controls) (hdie e),
    fun e => congrArg (fun p => p.2.2.1) (hdie e), fun e => congrArg (fun p => p.2.2.2) (hdie e), rfl⟩

/-- A change of the dies that leaves the front of each alone. -/
theorem Keeps.answersAs {ρ : Nat → Prop} (h : Keeps front ρ s t) : AnswersAs s t :=
  ⟨fun e => congrArg (fun p => p.1) (h.die e), fun e => congrArg (fun p => p.2.1.controls) (h.die e),
    fun e => congrArg (fun p => p.2.2.1) (h.die e), fun e => congrArg (fun p => p.2.2.2) (h.die e), h.part⟩

/-- The upkeep of a die leaves its front alone. -/
theorem front_of_upkept (h : upkept y = upkept x) : front y = front x :=
  (congrArg front h : front (upkept y) = front (upkept x))

/-- It leaves the entries, the ring and the versions of the map alone. -/
theorem map_of_upkept (h : upkept y = upkept x) :
    y.map.kv = x.map.kv ∧ y.map.ring = x.map.ring ∧ y.map.wseq = x.map.wseq :=
  have hmap : (upkept y).map = (upkept x).map := congrArg Die.map h
  ⟨(congrArg MapEng.kv hmap : (upkept y).map.kv = (upkept x).map.kv),
    (congrArg MapEng.ring hmap : (upkept y).map.ring = (upkept x).map.ring),
    (congrArg MapEng.wseq hmap : (upkept y).map.wseq = (upkept x).map.wseq)⟩

/-- Taking a version raises the write sequence by one, and its bound when it must (R201). -/
theorem takeVersion_spec (x : Die) : front (takeVersion x).2 = front x ∧ (takeVersion x).2.map.kv = x.map.kv
    ∧ (takeVersion x).2.map.ring = x.map.ring ∧ (takeVersion x).2.map.wseq = x.map.wseq + 1 := by
  unfold takeVersion
  dsimp only
  split
  · generalize hy : jAppendTo x 0 0 (.wseqReserve (x.map.wbound + 2 ^ 20)) = y
    have hj : upkept y = upkept x := hy ▸ upkept_jAppendTo
    obtain ⟨hkv, hring, -⟩ := map_of_upkept hj
    have hfront : front y = front x := front_of_upkept hj
    exact ⟨hfront, hkv, hring, rfl⟩
  · exact ⟨rfl, rfl, rfl, rfl⟩

theorem release_map {l : BitVec 56} : (release x l).map = x.map :=
  view_foldl (ε := Die.map) (f := validSub) (fun _ _ => rfl) _ _

theorem release_front {l : BitVec 56} : front (release x l) = front x :=
  view_foldl (ε := front) (f := validSub) (fun _ _ => rfl) _ _

theorem kvOf_congr {tenant nsid : Nat} {key : Bytes} (h : y.map.kv = x.map.kv) : kvOf y tenant nsid key = kvOf x tenant nsid key := by
  unfold kvOf
  rw [h]

theorem kvLive_congr {tenant nsid : Nat} {key : Bytes} (h : y.map.kv = x.map.kv) :
    kvLive y tenant nsid key = kvLive x tenant nsid key := by
  unfold kvLive
  rw [kvOf_congr h]

/-- The entry of a key is the one that has been stored for it (R193). -/
theorem kvOf_kvPut (x : Die) (b : BEntry) : kvOf (kvPut x b) b.tenant b.nsid b.key = some b := by
  have hsame : ∀ q : BEntry, sameKey b q = (q.tenant == b.tenant && q.nsid == b.nsid && q.key == b.key) := by
    intro q
    simp only [sameKey, Bool.beq_comm (a := b.tenant), Bool.beq_comm (a := b.nsid), Bool.beq_comm (a := b.key)]
  have hself : (b.tenant == b.tenant && b.nsid == b.nsid && b.key == b.key) = true := by simp
  unfold kvOf kvPut
  dsimp only
  split
  · next hany =>
    have hkey : ((fun q : BEntry => q.tenant == b.tenant && q.nsid == b.nsid && q.key == b.key)
        ∘ fun q => if sameKey b q then b else q) = sameKey b := by
      funext q
      simp only [Function.comp, hsame]
      split
      · next hq => rw [hself, hq]
      · rfl
    rw [List.find?_map, hkey]
    obtain ⟨q, hq⟩ := Option.isSome_iff_exists.1 (List.find?_isSome.2 (List.any_eq_true.1 hany))
    rw [hq]
    exact congrArg some (if_pos (List.find?_some hq))
  · next hnone =>
    have hnot : x.map.kv.find? (fun q => q.tenant == b.tenant && q.nsid == b.nsid && q.key == b.key) = none := by
      simpa [hsame] using hnone
    rw [List.find?_append, hnot]
    simp

/-- A PUT's order point names its ring write (R206). -/
theorem kvLive_putEntry {bucket version addr stLen : Nat} :
    ∃ e, kvLive (putEntry x c bucket version addr stLen) c.tenant c.hdr.nsid c.key = some e ∧ e.nectar = true ∧ e.version = version := by
  unfold putEntry kvLive
  dsimp only
  exact ⟨_, by rw [kvOf_kvPut]; rfl, rfl, rfl⟩

theorem putEntry_keeps {bucket version addr stLen : Nat} : front (putEntry x c bucket version addr stLen) = front x
    ∧ (putEntry x c bucket version addr stLen).map.ring = x.map.ring
    ∧ (putEntry x c bucket version addr stLen).map.wseq = x.map.wseq := by
  unfold putEntry
  extract_lets old y
  have hy : front y = front x ∧ y.map = x.map := by
    unfold y
    cases old with
    | none => exact ⟨rfl, rfl⟩
    | some q =>
      dsimp only
      split
      · exact ⟨release_front, release_map⟩
      · exact ⟨rfl, rfl⟩
  clear_value y
  obtain ⟨hfront, hmap⟩ := hy
  exact ⟨hfront, (congrArg MapEng.ring hmap : y.map.ring = x.map.ring), (congrArg MapEng.wseq hmap : y.map.wseq = x.map.wseq)⟩

/-- A DELETE's order point leaves the key without a live entry (R166, R206). -/
theorem deleteEntry_spec {tenant nsid version : Nat} {key : Bytes} {h : BitVec 128}
    (hb : kvLive x tenant nsid key = some b) :
    front (deleteEntry x tenant nsid key h version) = front x
      ∧ kvLive (deleteEntry x tenant nsid key h version) tenant nsid key = none
      ∧ (deleteEntry x tenant nsid key h version).map.ring = x.map.ring
      ∧ (deleteEntry x tenant nsid key h version).map.wseq = x.map.wseq := by
  have hkey : b.tenant = tenant ∧ b.nsid = nsid ∧ b.key = key := by
    have hfound := List.find?_some (Option.filter_eq_some_iff.1 hb).1
    simpa [and_assoc] using hfound
  obtain ⟨rfl, rfl, rfl⟩ := hkey
  unfold deleteEntry
  rw [hb]
  dsimp only
  generalize hy : (if b.nectar then x else release x b.loc) = y
  have hy' : front y = front x ∧ y.map = x.map := by
    rw [← hy]
    split
    · exact ⟨rfl, rfl⟩
    · exact ⟨release_front, release_map⟩
  obtain ⟨hfront, hmap⟩ := hy'
  have hgone : kvLive (kvPut y { b with valid := false, version := version }) b.tenant b.nsid b.key = none := by
    unfold kvLive
    rw [kvOf_kvPut y { b with valid := false, version := version }]
    rfl
  exact ⟨hfront, hgone, (congrArg MapEng.ring hmap : y.map.ring = x.map.ring), (congrArg MapEng.wseq hmap : y.map.wseq = x.map.wseq)⟩

end Sys2Proof.Placement
end

section
/-! ### NECTAR_ADMIT -/
namespace Sys2Proof.Placement
open Sys2Proof Sys2Proof.Machine Sys2Proof.Laws Sys2Proof.Safety Sys2Proof.Kocel
variable {s t : State} {d : DieId} {c : Cmd} {n : NsEntry} {x : DataSlot} {b : BEntry}

/-- A die beside its monitors and the mark that some write waits. -/
def waitless (x : Die) : Die := { x with mon := {}, map := { x.map with waiting := false } }

theorem waitless_recordEvent {code v : Nat} : waitless ((recordEvent s d code v).die d) = waitless (s.die d) := by
  unfold recordEvent
  extract_lets m s1 s2
  have hs1 : waitless (s1.die d) = waitless (s.die d) := by
    unfold s1
    rw [die_updDie_self]
    rfl
  clear_value s1
  split
  · exact hs1
  · split <;> exact hs1

/-- The end of the wait is recorded, and of the map nothing but the mark of the wait changes (R399). -/
theorem endWait_spec (s : State) (d : DieId) :
    AnswersAs s (endWait s d) ∧ waitless ((endWait s d).die d) = waitless (s.die d) := by
  unfold endWait
  split
  · have hans : AnswersAs s (s.updDie d fun x => { x with map := { x.map with waiting := false } }) :=
      answersAs_updDie _ fun _ => ⟨rfl, rfl, rfl, rfl⟩
    have hwait : waitless ((s.updDie d fun x => { x with map := { x.map with waiting := false } }).die d) = waitless (s.die d) := by
      rw [die_updDie_self]
      rfl
    generalize s.updDie d (fun x => { x with map := { x.map with waiting := false } }) = u at hans hwait ⊢
    exact ⟨hans.trans answersAs_recordEvent, waitless_recordEvent.trans hwait⟩
  · exact ⟨.rfl s, rfl⟩

/-- The write that waits first is admitted when nothing refuses it and it fits the budget (R203, R204). -/
theorem exec_nectarAdmit (hwork : TakesWork s d Page.map) (hfirst : firstWaiting (s.die d) = some c)
    (hok : admitRefusal s d c = none) (hthrough : goesThrough s d c = false)
    (hfits : dirtySize (s.die d) c + dirtyBytes (s.die d) ≤ budgetOf s d) :
    exec (.nectarAdmit d) s = .next (admitNow (endWait s d) d c false) := by
  have hlosing : s.guard.losing = false := Reclaim.losing_of_running hwork.1
  have hadmit : nectarAdmit s d = admitNow (endWait s d) d c false := by
    unfold nectarAdmit
    rw [hfirst]
    dsimp only
    rw [hok]
    dsimp only
    rw [hthrough, if_neg Bool.false_ne_true, if_pos hfits]
  refine congrArg Host.Outcome.next ((Access.onDie_of_running hwork.1).trans ((if_pos hwork.2).trans ?_))
  dsimp only
  rw [hlosing, if_neg Bool.false_ne_true, hadmit]

/-- A PUT with a key that can encrypt it: its entry names its ring write, with the next version (R201, R206). -/
theorem admitPut_spec (s : State) (d : DieId) (c : Cmd) (n : NsEntry) (x : DataSlot) :
    ∃ u, admitPut s d c n x false = complete u d c Stat.ok 0 (s.die d).map.wseq 0 [] ∧ AnswersAs s u
      ∧ (∃ e, kvLive (u.die d) c.tenant c.hdr.nsid c.key = some e ∧ e.nectar = true ∧ e.version = (s.die d).map.wseq)
      ∧ (u.die d).map.wseq = (s.die d).map.wseq + 1 ∧ (u.die d).map.ring.length = (s.die d).map.ring.length + 1 := by
  unfold admitPut
  extract_lets s1 y v _ w y1 _ p z z2
  have hs1 : AnswersAs s s1 := answersAs_cryBlocks
  have hmap : y.map = (s.die d).map := cryBlocks_map
  obtain ⟨hvfront, -, hvring, hvseq⟩ : front v.2 = front y ∧ v.2.map.kv = y.map.kv ∧ v.2.map.ring = y.map.ring
      ∧ v.2.map.wseq = y.map.wseq + 1 := takeVersion_spec y
  have hver : v.1 = (s.die d).map.wseq := congrArg MapEng.wseq hmap
  obtain ⟨hzfront, hzring, hzseq⟩ : front z = front v.2 ∧ z.map.ring = (ringPush y1 p (dirtySize y c) none).map.ring
      ∧ z.map.wseq = v.2.map.wseq := putEntry_keeps
  obtain ⟨e, hlive, hnectar, hversion⟩ : ∃ e, kvLive z c.tenant c.hdr.nsid c.key = some e ∧ e.nectar = true ∧ e.version = v.1 :=
    kvLive_putEntry
  rw [hmap] at hvring hvseq
  refine ⟨s1.setDie d z2, by rw [if_neg Bool.false_ne_true, hver],
    hs1.trans (answersAs_setDie (hzfront.trans hvfront)), ?_⟩
  rw [die_setDie_self]
  refine ⟨⟨e, hlive, hnectar, hversion.trans hver⟩, hzseq.trans hvseq, ?_⟩
  have hring : z2.map.ring = v.2.map.ring ++ _ := hzring
  rw [hring, hvring, List.length_append, List.length_singleton]

/-- A DELETE of a live key: its entry is live no more (R206). -/
theorem admitDelete_spec (hb : kvLive (s.die d) c.tenant c.hdr.nsid c.key = some b) :
    ∃ u, admitDelete s d c false = complete u d c Stat.ok 0 (s.die d).map.wseq 0 [] ∧ AnswersAs s u
      ∧ kvLive (u.die d) c.tenant c.hdr.nsid c.key = none
      ∧ (u.die d).map.wseq = (s.die d).map.wseq + 1 ∧ (u.die d).map.ring.length = (s.die d).map.ring.length + 1 := by
  unfold admitDelete
  rw [hb]
  dsimp only
  rw [if_neg Bool.false_ne_true]
  obtain ⟨hvfront, hvkv, hvring, hvseq⟩ := takeVersion_spec (s.die d)
  generalize hp : ringPush (takeVersion (s.die d)).2
    (.erase c.tenant c.hdr.nsid c.key b.htag b.bucket (takeVersion (s.die d)).1 b.loc) 64 none = y
  have hyfront : front y = front (s.die d) := by
    rw [← hp]
    exact hvfront
  have hykv : y.map.kv = (s.die d).map.kv := by
    rw [← hp]
    exact hvkv
  have hyseq : y.map.wseq = (s.die d).map.wseq + 1 := by
    rw [← hp]
    exact hvseq
  have hyring : y.map.ring.length = (s.die d).map.ring.length + 1 := by
    rw [← hp, ← hvring]
    exact List.length_append
  obtain ⟨hzfront, hlive, hzring, hzseq⟩ := deleteEntry_spec (version := (takeVersion (s.die d)).1) (h := c.hash)
    ((kvLive_congr hykv).trans hb)
  have hkept : Keeps upkept noInt _ (retryShrink (s.setDie d (deleteEntry y c.tenant c.hdr.nsid c.key c.hash
    (takeVersion (s.die d)).1)) d) := (Keeps.rfl _).retryShrink
  obtain ⟨hkv, hring, hseq⟩ := map_of_upkept (hkept.die d)
  rw [die_setDie_self] at hkv hring hseq
  refine ⟨_, rfl, (answersAs_setDie (hzfront.trans hyfront)).trans (hkept.mono (fun _ _ => front_of_upkept) fun _ h => h).answersAs,
    (kvLive_congr hkv).trans hlive, hseq.trans (hzseq.trans hyseq), ?_⟩
  rw [hring, hzring, hyring]

/-- Settles O29: a PUT that is admitted puts its entry (`admitPut_spec`), a DELETE clears it (`admitDelete_spec`), and completing the
command changes nothing of the map. -/
theorem nectarAdmit : Obligations.NectarAdmit := by
  unfold Obligations.NectarAdmit
  intro s d c k hwork hfirst hk hok hthrough hfits
  have hexec := exec_nectarAdmit hwork hfirst hok hthrough hfits
  obtain ⟨hans, hwait⟩ := endWait_spec s d
  generalize endWait s d = w at hexec hans hwait
  have hkv : (w.die d).map.kv = (s.die d).map.kv :=
    (congrArg (fun x => x.map.kv) hwait : (waitless (w.die d)).map.kv = (waitless (s.die d)).map.kv)
  have hwseq : (w.die d).map.wseq = (s.die d).map.wseq :=
    (congrArg (fun x => x.map.wseq) hwait : (waitless (w.die d)).map.wseq = (waitless (s.die d)).map.wseq)
  have hring : (w.die d).map.ring = (s.die d).map.ring :=
    (congrArg (fun x => x.map.ring) hwait : (waitless (w.die d)).map.ring = (waitless (s.die d)).map.ring)
  refine ⟨fun n x hop hns hkey hask => ?_, fun b hop hb => ?_⟩
  · have hns' : nsOf (w.die d) c.tenant c.hdr.nsid = some n :=
      (congrArg (fun x => nsOf x c.tenant c.hdr.nsid) hwait : nsOf (waitless _) _ _ = nsOf (waitless _) _ _).trans hns
    have hkey' : hasDataKey (w.die d).cry c.tenant = true :=
      (congrArg (fun x => hasDataKey x.cry c.tenant) hwait : hasDataKey (waitless _).cry _ = hasDataKey (waitless _).cry _).trans hkey
    have hask' : askEncrypt (w.die d) c.tenant = .ready x :=
      (congrArg (fun x => askEncrypt x c.tenant) hwait : askEncrypt (waitless _) _ = askEncrypt (waitless _) _).trans hask
    have hnow : admitNow w d c false = admitPut w d c n x false := by
      unfold admitNow
      rw [hop, hns', hkey', hask']
      rfl
    obtain ⟨u, hu, hansu, ⟨e, hlive, hnectar, hversion⟩, huseq, huring⟩ := admitPut_spec w d c n x
    obtain ⟨hgone, hreply⟩ := complete_answers (d := d) (st := Stat.ok) (aux := 0) (ver := (w.die d).map.wseq) (len := 0) (data := [])
      rfl (hans.trans hansu) hk
    rw [hop, hwseq] at hreply
    rw [hwseq] at hu hgone hversion huseq
    rw [hring] at huring
    refine ⟨_, e, hexec.trans (congrArg Host.Outcome.next (hnow.trans hu)), hgone, ?_, hnectar, hversion, ?_, ?_, hreply⟩
    · rw [kvLive_congr (congrArg MapEng.kv map_complete), hlive]
    · rw [map_complete, huseq]
    · rw [map_complete, huring]
  · have hnow : admitNow w d c false = admitDelete w d c false := if_pos hop
    obtain ⟨u, hu, hansu, hlive, huseq, huring⟩ := admitDelete_spec (s := w) (b := b) ((kvLive_congr hkv).trans hb)
    obtain ⟨hgone, hreply⟩ := complete_answers (d := d) (st := Stat.ok) (aux := 0) (ver := (w.die d).map.wseq) (len := 0) (data := [])
      rfl (hans.trans hansu) hk
    rw [hop, hwseq] at hreply
    rw [hwseq] at hu hgone huseq
    rw [hring] at huring
    refine ⟨_, hexec.trans (congrArg Host.Outcome.next (hnow.trans hu)), hgone, ?_, ?_, ?_, hreply⟩
    · rw [kvLive_congr (congrArg MapEng.kv map_complete), hlive]
    · rw [map_complete, huseq]
    · rw [map_complete, huring]

end Sys2Proof.Placement
end

section
/-! ### Roots -/
namespace Sys2Proof.Placement
open Sys2Proof Sys2Proof.Machine Sys2Proof.Laws Sys2Proof.Safety
variable {s0 s t u : State} {d e : DieId} {x y : Die} {β : Type} {ε : Die → β} {ρ : Nat → Prop} {r : Root}

protected theorem Keeps.recordEvent {code v : Nat} (hmon : ∀ x m, ε { x with mon := m } = ε x) (h : Keeps ε noReg s0 s) :
    Keeps ε noReg s0 (recordEvent s e code v) := by
  unfold Machine.recordEvent
  extract_lets m s1 s2
  have hs1 : Keeps ε noReg s0 s1 := h.updDie fun x => hmon x _
  have hs2 : Keeps ε noReg s0 s2 := hs1.regSet id
  exact .ite hs1 (.ite (hs2.regSet id) hs2)

protected theorem Keeps.recordErr {base code off : Nat} (hmon : ∀ x m, ε { x with mon := m } = ε x) (h : Keeps ε noReg s0 s) :
    Keeps ε noReg s0 (recordErr s base code off) := by
  unfold Machine.recordErr
  extract_lets s1
  have hs1 : Keeps ε noReg s0 s1 := .ite (Keeps.regSet (Keeps.regSet (Keeps.regSet h id) id) id) (Keeps.regSet h id)
  split
  · exact hs1.recordEvent hmon
  · exact hs1

/-- What is left of an upkept die without what a root changes: the anchor region, the governing root, the marks that a checkpoint
clears, and the monitors. -/
def unroot (x : Die) : Die :=
  { x with
    mon := {}
    map := { x.map with roots := [], anchorWear := [], root := none, rootAt := 0, readOnly := false, ckpt := false } }

/-- A die without what it changes when it writes a root. -/
def rooted (x : Die) : Die := unroot (upkept x)

theorem rooted_of_upkept (h : upkept y = upkept x) : rooted y = rooted x := congrArg unroot h

theorem Keeps.rooted_of_upkept (h : Keeps upkept noInt s t) : Keeps rooted noReg s t :=
  h.mono (fun _ _ => Placement.rooted_of_upkept) fun _ => False.elim

theorem rooted_eraseAnchor {b : Nat × Nat} : rooted (eraseAnchor x b) = rooted x := by
  have hj : upkept (jAppendTo (jAppendTo x 0 0 (.eraseIntent b.1 (2 ^ b.2))) 0 0 (.eraseDone b.1 (2 ^ b.2))) = upkept x :=
    upkept_jAppendTo.trans upkept_jAppendTo
  exact (show _ = rooted (jAppendTo (jAppendTo x 0 0 (.eraseIntent b.1 (2 ^ b.2))) 0 0 (.eraseDone b.1 (2 ^ b.2))) from rfl).trans
    (rooted_of_upkept hj)

/-- The place of the next root: at most an anchor block is erased for it (R217). -/
theorem rooted_rootPlace {p : Nat × Nat × Nat × Die} (h : rootPlace s d = some p) : rooted p.2.2.2 = rooted (s.die d) := by
  unfold Machine.rootPlace at h
  extract_lets x cur here at h
  cases hq : here with
  | some q =>
    rw [hq] at h
    cases h
    unfold here at hq
    cases hcur : cur with
    | none =>
      rw [hcur] at hq
      cases hq
    | some p =>
      rw [hcur] at hq
      dsimp only at hq
      split at hq
      · cases hq
        rfl
      · cases hq
  | none =>
    rw [hq] at h
    obtain ⟨b, -, ⟨⟩⟩ := Option.map_eq_some_iff.1 h
    dsimp only
    split
    · exact rooted_eraseAnchor
    · rfl

protected theorem Keeps.spaceChanged {was : Nat} (h : Keeps ε noReg s0 s) : Keeps ε noReg s0 (spaceChanged was s d) :=
  .ite h (Keeps.regSet h id)

protected theorem Keeps.writeRoot (h : Keeps rooted noReg s0 s) : Keeps rooted noReg s0 (writeRoot s d r) := by
  unfold Machine.writeRoot
  split
  · exact h
  · next g c page y hy =>
    extract_lets prev m s1 s2
    have hs1 : Keeps rooted noReg s0 s1 := h.setDie (rooted_rootPlace hy)
    have hs2 : Keeps rooted noReg s0 s2 := (hs1.regSet id).spaceChanged
    exact .ite (hs2.recordErr fun _ _ => rfl) hs2

protected theorem Keeps.reRoot {loss : Bool} (h : Keeps rooted noReg s0 s) : Keeps rooted noReg s0 (reRoot s d loss) := by
  unfold Machine.reRoot
  split
  · exact h.writeRoot
  · exact h.writeRoot

/-- What is left of a root besides what writes it. -/
theorem Keeps.onUpkept (h : Keeps rooted noReg s0 s) (k : Keeps upkept noInt s t) : Keeps rooted noReg s0 t :=
  h.trans k.rooted_of_upkept

protected theorem Keeps.checkpoint (h : Keeps rooted noReg s0 s) : Keeps rooted noReg s0 (checkpoint s d) := by
  unfold Machine.checkpoint
  extract_lets w j s1
  have hs1 : Keeps upkept noInt s s1 := (Keeps.rfl s).ensureJournal.updDie fun _ => upkept_jAppendTo
  split
  · exact h.reRoot
  · next s2 hs2 =>
    extract_lets x s3
    have hs3 : Keeps rooted noReg s0 s3 := (h.onUpkept (hs1.writeMap hs2)).writeRoot
    exact hs3.onUpkept (Keeps.rfl s3).dropPages.dropJournal

/-- What is left of the map beside the tables of pages and groups, for what a root no longer names. -/
def swept (x : Die) : Die := { x with groups := [], map := { x.map with pages := [], jgroups := [] } }

theorem swept_pages {l : List FlashPage} : swept { x with map := { x.map with pages := l } } = swept x := rfl

theorem Keeps.swept_releaseSys {n : Nat} (h : Keeps swept noInt s0 s) : Keeps swept noInt s0 (releaseSys s d n) :=
  h.updDie fun _ => rfl

theorem Keeps.swept_dropPages (h : Keeps swept noInt s0 s) : Keeps swept noInt s0 (dropPages s d) := by
  unfold Machine.dropPages
  extract_lets named gone s1
  have hs1 : Keeps swept noInt s0 s1 := by
    refine h.updDie fun x => swept_pages.trans (view_foldl (ε := swept) ?_ gone x)
    exact fun _ _ => rfl
  exact hs1.foldl fun _ _ hu => hu.swept_releaseSys

theorem Keeps.swept_dropJournal {n : Nat} (h : Keeps swept noInt s0 s) : Keeps swept noInt s0 (dropJournal s d n) := by
  unfold Machine.dropJournal
  extract_lets old s1
  have hs1 : Keeps swept noInt s0 s1 := h.foldl fun _ _ hu => hu.swept_releaseSys
  exact hs1.updDie fun _ => rfl

/-- A root that has been written: it governs, it stands at the place found for it, and the marks of a checkpoint are cleared
(R217, R218, R222). -/
structure RootAt (d : DieId) (r : Root) (p : Nat × Nat × Nat × Die) (t : State) : Prop where
  root : (t.die d).map.root = some r
  last : (t.die d).map.roots.getLast? = some { group := p.1, chan := p.2.1, page := p.2.2.1, root := r }
  at0  : (t.die d).map.journalAt = 0
  ckpt : (t.die d).map.ckpt = false

theorem RootAt.of_map {p : Nat × Nat × Nat × Die} (h : RootAt d r p s)
    (hm : (t.die d).map.root = (s.die d).map.root ∧ (t.die d).map.roots = (s.die d).map.roots
      ∧ (t.die d).map.journalAt = (s.die d).map.journalAt ∧ (t.die d).map.ckpt = (s.die d).map.ckpt) : RootAt d r p t := by
  obtain ⟨hroot, hroots, hat, hckpt⟩ := hm
  exact ⟨hroot.trans h.root, (congrArg List.getLast? hroots).trans h.last, hat.trans h.at0, hckpt.trans h.ckpt⟩

theorem RootAt.of_swept {p : Nat × Nat × Nat × Die} (h : RootAt d r p s) (k : Keeps swept noInt s t) : RootAt d r p t :=
  have hmap : (swept (t.die d)).map = (swept (s.die d)).map := congrArg Die.map (k.die d)
  h.of_map ⟨(congrArg MapEng.root hmap : (swept (t.die d)).map.root = (swept (s.die d)).map.root),
    (congrArg MapEng.roots hmap : (swept (t.die d)).map.roots = (swept (s.die d)).map.roots),
    (congrArg MapEng.journalAt hmap : (swept (t.die d)).map.journalAt = (swept (s.die d)).map.journalAt),
    (congrArg MapEng.ckpt hmap : (swept (t.die d)).map.ckpt = (swept (s.die d)).map.ckpt)⟩

theorem rootAt_writeRoot {p : Nat × Nat × Nat × Die} (h : rootPlace s d = some p) : RootAt d r p (writeRoot s d r) := by
  obtain ⟨g, c, page, y⟩ := p
  unfold Machine.writeRoot
  rw [h]
  dsimp -zeta only
  extract_lets prev m s1 s2
  have hs1 : RootAt d r (g, c, page, y) s1 := by
    unfold s1
    constructor <;> rw [die_setDie_self]
    exact List.getLast?_concat
  have hs2 : RootAt d r (g, c, page, y) s2 := by
    unfold s2 Machine.spaceChanged
    split <;> exact hs1.of_map ⟨rfl, rfl, rfl, rfl⟩
  clear_value s2
  split
  · have hmap := (CombIndex.stores_recordErr s2 (dreg d Page.map 0) 0x82 c).map d
    exact hs2.of_map (by simp only [hmap, and_self])
  · exact hs2

/-- Writing a root leaves the entries, the namespaces, the ring and the versions of the map alone. -/
theorem map_of_rooted (h : rooted y = rooted x) :
    y.map.kv = x.map.kv ∧ y.map.dense = x.map.dense ∧ y.map.ring = x.map.ring ∧ y.map.nstab = x.map.nstab :=
  have hmap : (rooted y).map = (rooted x).map := congrArg Die.map h
  ⟨(congrArg MapEng.kv hmap : (rooted y).map.kv = (rooted x).map.kv),
    (congrArg MapEng.dense hmap : (rooted y).map.dense = (rooted x).map.dense),
    (congrArg MapEng.ring hmap : (rooted y).map.ring = (rooted x).map.ring),
    (congrArg MapEng.nstab hmap : (rooted y).map.nstab = (rooted x).map.nstab)⟩

/-- A checkpoint that writes its pages and has a place for its root ends with a root that names the journal at its begin (R215). -/
theorem checkpoint_root {s2 : State} {p : Nat × Nat × Nat × Die}
    (hw : writeMap ((ensureJournal s d).updDie d (fun x => jAppendTo x 0 0 (.ckptBegin ((ensureJournal s d).die d).map.jseq))) d
      = some s2) (hp : rootPlace s2 d = some p) :
    ∃ r, RootAt d r p (checkpoint s d) ∧ r.ckptJseq = ((ensureJournal s d).die d).map.jseq
      ∧ r.seq = ((s.die d).map.root.map (fun q => q.seq)).getD 0 + 1 ∧ r.wseqBound = (s.die d).map.wbound := by
  have hkept : Keeps upkept noInt s s2 := ((Keeps.rfl s).ensureJournal.updDie fun _ => upkept_jAppendTo).writeMap hw
  have hmap : (upkept (s2.die d)).map = (upkept (s.die d)).map := congrArg Die.map (hkept.die d)
  have hroot : (s2.die d).map.root = (s.die d).map.root := (congrArg MapEng.root hmap : (upkept (s2.die d)).map.root = (upkept (s.die d)).map.root)
  have hbound : (s2.die d).map.wbound = (s.die d).map.wbound :=
    (congrArg MapEng.wbound hmap : (upkept (s2.die d)).map.wbound = (upkept (s.die d)).map.wbound)
  unfold Machine.checkpoint
  extract_lets w j s1
  rw [hw]
  dsimp -zeta only
  extract_lets x s3
  have hat : RootAt d _ p s3 := rootAt_writeRoot hp
  exact ⟨_, hat.of_swept (Keeps.rfl s3).swept_dropPages.swept_dropJournal, rfl,
    congrArg (fun q => (q.map (fun o : Root => o.seq)).getD 0 + 1) hroot, hbound⟩

end Sys2Proof.Placement
end

section
/-! ### Checkpoints and the SLC target -/
namespace Sys2Proof.Placement
open Sys2Proof Sys2Proof.Machine Sys2Proof.Laws Sys2Proof.Safety Sys2Proof.Access
variable {s s2 t : State} {d : DieId} {p : Nat × Nat × Nat × Die}

theorem blockAt_map (d : DieId) {off : Nat} (h : off < 0x10000) : blockAt (dreg d Page.map off) = some .map := by
  have hw : winOf (dreg d Page.map off) = d.val := by
    unfold winOf dreg Page.map
    omega
  have hp : pageOf (dreg d Page.map off) = Page.map := by
    unfold pageOf dreg Page.map
    omega
  unfold blockAt
  rw [hw, if_pos d.isLt, hp]
  rfl

/-- CKPT_NOW of MAP_CMD takes a 1 (R222). -/
theorem rowWrites_ckptNow (h : RowOpen s (dreg d Page.map 0x54)) : RowWrites s .map (dreg d Page.map 0x54) 1 := by
  have hoff : offOf (dreg d Page.map 0x54) = 0x54 := offOf_dreg (by omega)
  refine ⟨h, blockAt_map d (by omega), by simp [condOk, hoff], ⟨0x54, 1, [⟨0, 0, .w1s, 0, .any⟩]⟩, ?_, by decide⟩
  rw [hoff]
  rfl

/-- The target is F_S × free capacity between its two bounds (R210), and nothing else of the die changes. -/
theorem exec_slcTargetRecompute (hrun : running s d = true) :
    exec (.slcTargetRecompute d) s = .next (s.updDie d (fun x => { x with map := { x.map with slcTarget := slcTargetOf s d } })) :=
  congrArg Host.Outcome.next (onDie_of_running hrun)

/-- A checkpoint that is due on a mounted die. -/
theorem exec_checkpoint (hrun : running s d = true) (hm : (s.die d).map.mounted = true) (hdue : ckptDue s d = true) :
    exec (.checkpoint d) s = .next (checkpoint s d) :=
  congrArg Host.Outcome.next ((onDie_of_running hrun).trans (if_pos (by rw [hm, hdue]; rfl)))

end Sys2Proof.Placement
end

section
/-! ### Fenced cores

Fencing a core frees its packet buffers; that can open windows, end sessions and wake dies (R79, R90, R442, R497). Of the maps, of which
cores are fenced, and of the registers of MAP and of the worker cores none of that changes anything. -/
namespace Sys2Proof.Placement
open Sys2Proof Sys2Proof.Machine Sys2Proof.Laws Sys2Proof.Safety Sys2Proof.Access
variable {s0 s t u : State} {d e : DieId} {x y : Die}

/-- The registers of MAP and of the worker cores beside those that every page has (R51 to R54). -/
def steady (a : Nat) : Prop := winOf a < 8 ∧ (pageOf a = Page.map ∨ pageOf a = Page.wrk) ∧ 0x28 ≤ offOf a

theorem not_steady_common {page off : Nat} (h : off < 0x28) : ¬ steady (dreg d page 0 + off) := by
  unfold steady offOf dreg
  omega

theorem not_steady_page {page off : Nat} (hp : page < 0x1000) (ho : off < 0x10000) (hm : page ≠ Page.map) (hw : page ≠ Page.wrk) :
    ¬ steady (dreg d page off) := by
  have hpage : pageOf (dreg d page off) = page := by
    unfold pageOf dreg
    omega
  unfold steady
  rw [hpage]
  tauto

theorem not_steady_inPage {page off : Nat} (hp : page < 0x1000) (ho : off < 0x10000) (hm : page ≠ Page.map) (hw : page ≠ Page.wrk) :
    ¬ steady (dreg d page 0 + off) := by
  have h : dreg d page 0 + off = dreg d page off := by
    unfold dreg
    omega
  rw [h]
  exact not_steady_page hp ho hm hw

/-- Which cores of a die are fenced, with its map. -/
def fences (x : Die) : MapEng × Vector Bool 8 := (x.map, x.cores.map fun c : Core => decide (c.st = .fenced))

/-- Beside this the states may differ. -/
structure Fences (s t : State) : Prop where
  die : ∀ e : DieId, fences (t.die e) = fences (s.die e)
  reg : ∀ a, steady a → regGet t a = regGet s a

protected theorem Fences.rfl (s : State) : Fences s s := ⟨fun _ => rfl, fun _ _ => rfl⟩

protected theorem Fences.ite {p : Prop} [Decidable p] (hs : Fences s0 s) (ht : Fences s0 t) : Fences s0 (if p then s else t) := by
  split
  · exact hs
  · exact ht

protected theorem Fences.foldl {α : Type} {f : State → α → State} {l : List α} (h : Fences s0 s)
    (hf : ∀ t a, Fences s0 t → Fences s0 (f t a)) : Fences s0 (l.foldl f s) :=
  List.foldlRecOn l f h fun t ht a _ => hf t a ht

protected theorem Fences.updDie {f : Die → Die} (h : Fences s0 s) (hf : ∀ x, fences (f x) = fences x := by exact fun _ => rfl) :
    Fences s0 (s.updDie d f) := by
  refine ⟨fun e => ?_, h.reg⟩
  rw [die_updDie]
  split
  · next he => rw [hf, ← he, h.die]
  · exact h.die e

protected theorem Fences.regSet {a : Nat} {v : Word} (h : Fences s0 s) (ha : ¬ steady a) : Fences s0 (regSet s a v) :=
  ⟨h.die, fun b hb => (regGet_regSet_ne _ _ _ _ fun e => ha (by rwa [e] at hb)).trans (h.reg b hb)⟩

protected theorem Fences.regBump {a k : Nat} (h : Fences s0 s) (ha : ¬ steady a) : Fences s0 (regBump s a k) := h.regSet ha

/-- The interrupt register of a page. -/
protected theorem Fences.raiseInt {page bit : Nat} (h : Fences s0 s) : Fences s0 (raiseInt s (dreg d page 0) bit) :=
  h.regSet (not_steady_common (by omega))

/-! #### Waking -/

theorem coreWake_fenced (c : Core) : decide ((coreWake c).st = .fenced) = decide (c.st = .fenced) := by
  unfold coreWake
  split
  · next h => simp [h]
  · rfl

theorem fences_coreWake (v : Vector Core 8) :
    (v.map coreWake).map (fun c : Core => decide (c.st = .fenced)) = v.map fun c : Core => decide (c.st = .fenced) := by
  rw [Vector.map_map]
  exact congrArg (fun f => v.map f) (funext coreWake_fenced)

theorem fences_wakeX : fences (wakeX x) = fences x := by
  unfold wakeX fences
  split
  · split
    · rfl
    · exact congrArg (Prod.mk _) (fences_coreWake _)
  · exact congrArg (Prod.mk _) (fences_coreWake _)

theorem fences_undoDeepX {n : Nat} : fences (undoDeepX n x) = fences x := by
  unfold undoDeepX fences
  dsimp only
  split <;> split <;> rfl

protected theorem Fences.noEntry (h : Fences s0 s) : Fences s0 (noEntry s) := ⟨h.die, h.reg⟩

protected theorem Fences.abandonDeep (h : Fences s0 s) : Fences s0 (abandonDeep s) := by
  have hundo : Fences s0 (undoDeep s s.guard.entry) := h.foldl fun t e ht => .ite (ht.updDie fun _ => fences_undoDeepX) ht
  unfold Machine.abandonDeep
  exact .ite h ((hundo.noEntry.regSet (by unfold steady winOf greg; omega)).regSet (by unfold steady winOf greg; omega))

protected theorem Fences.wakeAt (h : Fences s0 s) : Fences s0 (wakeAt s d) := by
  unfold Machine.wakeAt
  extract_lets s1
  have hs1 : Fences s0 s1 := h.abandonDeep
  have hwake : Fences s0 (s1.updDie d wakeX) := hs1.updDie fun _ => fences_wakeX
  exact .ite hwake hwake.raiseInt

/-! #### Sessions -/

protected theorem Fences.putSess {k : Session} (h : Fences s0 s) : Fences s0 (putSess s d k) := h.updDie

protected theorem Fences.cryBlocks {n : Nat} (h : Fences s0 s) : Fences s0 (cryBlocks s d n) := by
  unfold Machine.cryBlocks Machine.pipeRun drawChoice
  exact Fences.updDie ⟨h.die, h.reg⟩

protected theorem Fences.transmit {k : Session} {ptype : Nat} {psn : Word} {retx : Bool} {body : Bytes} (h : Fences s0 s) :
    Fences s0 (transmit s d k ptype psn retx body).1 := by
  unfold Machine.transmit
  extract_lets k1 k2 s1
  have hs1 : Fences s0 s1 := .ite h.cryBlocks h
  clear_value s1
  generalize (if ptype = 0x0A then 0 else 1) = n
  split
  · exact h.putSess
  · split
    · exact h.putSess
    · exact Fences.putSess (Fences.updDie hs1)

protected theorem Fences.sendBarrier {b : Barrier} (h : Fences s0 s) : Fences s0 (sendBarrier s b) :=
  h.foldl fun _ _ hu => .ite hu.updDie hu.wakeAt.updDie

protected theorem Fences.endSession {k : Session} (h : Fences s0 s) : Fences s0 (endSession s d k) := by
  unfold Machine.endSession
  extract_lets s1 s2
  have hs1 : Fences s0 s1 := h.updDie
  have hs2 : Fences s0 s2 := hs1.updDie
  exact (hs2.sendBarrier.regBump (not_steady_page (by decide) (by decide) (by decide) (by decide))).raiseInt

protected theorem Fences.checkNonce {slot : Nat} (h : Fences s0 s) : Fences s0 (checkNonce s d slot) := by
  unfold Machine.checkNonce
  split
  · exact h
  · exact .ite h.transmit.endSession h

protected theorem Fences.sendAck {slot : Nat} (h : Fences s0 s) : Fences s0 (sendAck s d slot) := by
  unfold Machine.sendAck
  split
  · exact h
  · exact h.transmit.checkNonce

/-! #### Packet buffers -/

protected theorem Fences.updPort {p : PortId} {f : EthPort → EthPort} (h : Fences s0 s) : Fences s0 (updPort s d p f) := h.updDie

protected theorem Fences.sendPfc {p : PortId} {quanta : Nat} (h : Fences s0 s) : Fences s0 (sendPfc s d p quanta) :=
  .ite h (.ite h.updPort (h.updPort.foldl fun _ _ hu => hu.updPort))

protected theorem Fences.pfcPort {p : PortId} (h : Fences s0 s) : Fences s0 (pfcPort s d p) := .ite h h.sendPfc.updPort

protected theorem Fences.openWindows (h : Fences s0 s) : Fences s0 (openWindows s d) := by
  refine h.foldl fun u k hu => ?_
  split
  · exact hu
  · exact .ite hu.sendAck hu

protected theorem Fences.settlePool {p : Fin 16} {q : Machine.Pool} (h : Fences s0 s) : Fences s0 (settlePool s d p q) := by
  unfold Machine.settlePool
  extract_lets crit s1 s2 s3
  have hs1 : Fences s0 s1 := h.updDie
  have hs2 : Fences s0 s2 := .ite hs1.raiseInt hs1
  have hs3 : Fences s0 s3 := hs2.pfcPort.pfcPort
  exact .ite hs3.openWindows hs3

theorem fences_mon {m : Monitor} : fences { x with mon := m } = fences x := rfl

protected theorem Fences.recordEvent {code v : Nat} (h : Fences s0 s) : Fences s0 (recordEvent s d code v) := by
  unfold Machine.recordEvent
  extract_lets m s1 s2
  have hs1 : Fences s0 s1 := h.updDie fun _ => fences_mon
  clear_value s1
  have hs2 : Fences s0 s2 := hs1.regBump (not_steady_page (by decide) (by decide) (by decide) (by decide))
  exact .ite hs1 (.ite hs2.raiseInt hs2)

theorem Fences.recordErr_of {base code off : Nat} (h : Fences s0 s) (h10 : ¬ steady (base + 0x10)) (h20 : ¬ steady (base + 0x20))
    (h24 : ¬ steady (base + 0x24)) : Fences s0 (recordErr s base code off) := by
  unfold Machine.recordErr
  extract_lets s1
  have hs1 : Fences s0 s1 := .ite (((h.regSet h20).regSet h24).regSet h10) (h.regSet h24)
  split
  · exact hs1.recordEvent
  · exact hs1

/-- The error registers of a page. -/
protected theorem Fences.recordErr {page code off : Nat} (h : Fences s0 s) : Fences s0 (recordErr s (dreg d page 0) code off) :=
  h.recordErr_of (not_steady_common (by omega)) (not_steady_common (by omega)) (not_steady_common (by omega))

protected theorem Fences.pushBuf {p : Fin 16} {a : Nat} (h : Fences s0 s) : Fences s0 (pushBuf s d p a) := by
  unfold Machine.pushBuf
  extract_lets q s1
  have hmem : Fences s0 (memWrite s d a (leBytes 8 (poolAt s d p).head)) := h.updDie
  have hs1 : Fences s0 s1 := hmem.updDie
  exact .ite hs1.settlePool h.recordErr

protected theorem Fences.dropRef {a owner : Nat} (h : Fences s0 s) : Fences s0 (dropRef s d a owner) := by
  unfold Machine.dropRef Machine.freeBuf
  extract_lets l s1
  have hs1 : Fences s0 s1 := h.updDie
  refine .ite ?_ hs1
  split
  · exact hs1
  · exact hs1.pushBuf

protected theorem Fences.sweepOwner {owner : Nat} (h : Fences s0 s) : Fences s0 (sweepOwner s d owner) := by
  unfold Machine.sweepOwner
  extract_lets mine s1 s2
  have hs1 : Fences s0 s1 := h.updDie
  have hs2 : Fences s0 s2 := hs1.foldl fun _ _ hu => hu.dropRef
  exact hs2.regSet (not_steady_inPage (by decide) (by decide) (by decide) (by decide))

protected theorem Fences.sweepDone (h : Fences s0 s) : Fences s0 (sweepDone s d) := by
  unfold Machine.sweepDone
  extract_lets s1
  have hs1 : Fences s0 s1 := h.updDie
  exact (hs1.regSet (not_steady_inPage (by decide) (by decide) (by decide) (by decide))).raiseInt

end Sys2Proof.Placement
end

section
/-! ### MAP_LOCK_TIMEOUT -/
namespace Sys2Proof.Placement
open Sys2Proof Sys2Proof.Machine Sys2Proof.Laws Sys2Proof.Safety Sys2Proof.Access
variable {s0 s t u : State} {d e : DieId} {x y : Die} {c : CoreId} {tenant nsid index : Nat}

theorem applyUnit_cores {r : JRec} {i : Nat} : (applyUnit s d r x i).cores = x.cores := by
  unfold applyUnit
  split
  · rfl
  · rfl
  · split <;> rfl
  · rfl

theorem applyMap_cores {r : JRec} : (applyMap s d x r).cores = x.cores := by
  unfold applyMap
  extract_lets leaves units y m z
  have hy : y.cores = x.cores := view_foldl (ε := Die.cores) (f := applyUnit s d r) (fun _ _ => applyUnit_cores) _ _
  have hz : z.cores = x.cores := by
    unfold z
    split <;> exact hy
  refine (view_foldl (ε := Die.cores) (f := markLeaf r.tenant r.nsid r.jseq) ?_ _ _).trans hz
  exact fun _ _ => rfl

theorem reloadPage_cores {id : PageId} {n m : Nat} : (reloadPage s d id n m).cores = (s.die d).cores := by
  unfold reloadPage
  extract_lets w p pages onPage inPage held heldUnits m base y
  have hy : y.cores = (s.die d).cores :=
    (view_foldl (ε := Die.cores) (f := applyMap s d) (fun _ _ => applyMap_cores) _ _).trans rfl
  have hkv : (held.foldl kvPut y).cores = y.cores := view_foldl (ε := Die.cores) (f := kvPut) (fun _ _ => rfl) _ _
  refine (view_foldl (ε := Die.cores) (f := densePut) ?_ _ _).trans (hkv.trans hy)
  intro x e
  rfl

/-- The registers beside INT_RAW and MAP_PAGE_READS. -/
def beside (a : Nat) : Prop := noInt a ∧ offOf a ≠ 0xA0

/-- Bringing a page in writes dirty pages that leave (R198). -/
theorem Keeps.pageIn_cores (h : Keeps Die.cores beside s0 s) : Keeps Die.cores beside s0 (pageIn s d tenant nsid index) := by
  unfold Machine.pageIn
  extract_lets p old new s1
  have hs1 : Keeps Die.cores beside s0 s1 := by
    refine h.foldl fun u q hu => ?_
    unfold evictPage
    extract_lets w
    refine .ite ?_ hu
    cases hw : writePlace u d w with
    | none => exact hu
    | some v =>
      exact hu.trans (((Keeps.rfl u).writePlace hw).mono
        (fun x y hxy => (congrArg Die.cores hxy : (upkept y).cores = (upkept x).cores)) fun _ ha => ha.1)
  exact hs1.updDie fun _ => rfl

/-- Rebuilding a page leaves the cores of every die alone. -/
theorem rebuildLeaf_cores : Keeps Die.cores beside s (rebuildLeaf s d tenant nsid index) := by
  unfold rebuildLeaf
  extract_lets p x m s1
  have hs1 : Keeps Die.cores beside s s1 := (Keeps.rfl s).setDie reloadPage_cores
  refine Keeps.pageIn_cores (Keeps.regSet hs1 ?_)
  exact fun h => h.2 (offOf_dreg (by omega))

theorem samePage_cacheIn {stay : MapPage → Bool} {cap : Nat} {p : MapPage} {l : List MapPage} :
    (cacheIn stay cap p l).any (samePage p) = true := by
  have hself : samePage p p = true := by simp [samePage]
  unfold cacheIn
  split
  · next h =>
    obtain ⟨q, hq, hsame⟩ := List.any_eq_true.1 h
    refine List.any_eq_true.2 ⟨p, List.mem_map.2 ⟨q, hq, if_pos hsame⟩, hself⟩
  · rw [List.any_append]
    simp [hself]

/-- A page that has been brought in is at hand (R197). -/
theorem pageHere_rebuildLeaf : pageHere ((rebuildLeaf s d tenant nsid index).die d) tenant nsid index = true := by
  unfold rebuildLeaf pageIn
  extract_lets p x s1 q old new s2
  rw [die_updDie_self]
  unfold pageHere
  dsimp only
  rw [samePage_cacheIn]
  simp

/-! #### The core that held the lock -/

/-- The core and its bit of WRK_EN just before its references are swept (R461). -/
def held (s : State) (d : DieId) (c : CoreId) : State :=
  regFld (regFld (updCore s d c (fun q => { q with st := .fenced, reason := 0 })) (wrkBase d + 0x40) c.val c.val 0)
    (wrkBase d + 0x88) c.val c.val 1

protected theorem Fences.moveRefs {a b : Nat} (h : Fences s0 s) : Fences s0 (moveRefs s d a b) := by
  unfold Machine.moveRefs setRefs
  exact h.updDie

theorem fences_fenceCore : Fences (held s d c) (fenceCore s d c) := by
  unfold fenceCore
  extract_lets s1 s2 busy s3 s4
  have hs2 : Fences (held s d c) s2 := .rfl _
  have hs3 : Fences (held s d c) s3 := by
    unfold s3
    split
    · exact hs2
    · extract_lets u
      have hu : Fences (held s d c) u := hs2.updDie
      exact .ite hu.moveRefs hu
  have hs4 : Fences (held s d c) s4 := hs3.sweepOwner.sweepDone
  exact hs4.raiseInt

theorem fenced_of_fences (h : Fences s t) : (coreAt t d c).st = .fenced ↔ (coreAt s d c).st = .fenced := by
  have hv := congrArg (fun v => v.2.get c) (h.die d)
  unfold fences at hv
  simp only [get_map] at hv
  exact decide_eq_decide.1 hv

theorem coreOn_of_fences (h : Fences s t) : coreOn t d c = coreOn s d c := by
  have hreg : regGet t (wrkBase d + 0x40) = regGet s (wrkBase d + 0x40) := by
    refine h.reg _ ?_
    have := d.isLt
    unfold steady winOf pageOf offOf wrkBase dreg Page.wrk Page.map
    omega
  unfold coreOn
  rw [hreg]
  simp only [ne_eq, fenced_of_fences h]

/-- With a core fenced the other cores are enabled as before. -/
theorem coreOn_held {k : CoreId} (hregs : registersOk s) (hk : k ≠ c) : coreOn (held s d c) d k = coreOn s d k := by
  have hne : wrkBase d + 0x40 ≠ wrkBase d + 0x88 := by omega
  have hst : (coreAt (held s d c) d k) = coreAt s d k := by
    unfold held coreAt updCore
    rw [show ∀ (u : State) a b v w x y z, (regFld (regFld u a v w x) b v y z).die d = u.die d from fun _ _ _ _ _ _ _ _ => rfl,
      die_updDie_self]
    exact (get_vset _ _ _ _).trans (if_neg hk)
  have hbit : bitAt (regGet (held s d c) (wrkBase d + 0x40)) k.val = bitAt (regGet s (wrkBase d + 0x40)) k.val := by
    have hkc : k.val ≠ c.val := fun e => hk (Fin.ext e)
    have hupd : registersOk (updCore s d c (fun q => { q with st := .fenced, reason := 0 })) := hregs
    unfold held
    rw [regGet_regFld_ne hne, bitAt_regFld hupd (by omega), if_neg hkc]
    rfl
  unfold coreOn
  rw [hbit, hst]

/-- A die with 3 enabled cores keeps 2 when one is fenced (R462). -/
theorem two_le_coresOn (hregs : registersOk s) (h : 3 ≤ (coresOn s d).length) : 2 ≤ (coresOn (fenceCore s d c) d).length := by
  have hsub : (coresOn s d).erase c ⊆ coresOn (fenceCore s d c) d := by
    intro k hk
    have hnodup : (coresOn s d).Nodup := List.Nodup.filter _ (by decide)
    obtain ⟨hne, hmem⟩ := hnodup.mem_erase_iff.1 hk
    obtain ⟨hall, hon⟩ := List.mem_filter.1 hmem
    refine List.mem_filter.2 ⟨hall, ?_⟩
    rw [coreOn_of_fences fences_fenceCore, coreOn_held hregs hne]
    exact hon
  have hnodup : ((coresOn s d).erase c).Nodup := List.Nodup.erase _ (List.Nodup.filter _ (by decide))
  have hlen := (hnodup.subperm hsub).length_le
  have hle : (coresOn s d).length - 1 ≤ ((coresOn s d).erase c).length := List.le_length_erase
  omega

theorem fenced_held : (coreAt (held s d c) d c).st = .fenced := by
  unfold held coreAt updCore
  rw [show ∀ (u : State) a b v w x y z, (regFld (regFld u a v w x) b v y z).die d = u.die d from fun _ _ _ _ _ _ _ _ => rfl,
    die_updDie_self]
  exact congrArg Core.st ((get_vset _ _ _ _).trans (if_pos rfl))

theorem pageHere_congr (h : y.map = x.map) : pageHere y tenant nsid index = pageHere x tenant nsid index := by
  have hplace : ∀ id, placeAt y id = placeAt x id := by
    intro id
    unfold placeAt
    rw [h]
  unfold pageHere
  dsimp only
  rw [h, hplace]

theorem map_of_fences (h : Fences s t) : (t.die d).map = (s.die d).map := congrArg Prod.fst (h.die d)

theorem steady_lockBreaks : steady (dreg d Page.map 0xA4) := by
  have := d.isLt
  unfold steady winOf pageOf offOf dreg Page.wrk Page.map
  omega

/-- The loss of a core on a die that keeps two: the core is fenced, and the maps and the lock breaks counted stay (R461, R462). -/
theorem loseCore_spec (hregs : registersOk s) (h : 3 ≤ (coresOn s d).length) :
    (coreAt (loseCore s d c) d c).st = .fenced ∧ ((loseCore s d c).die d).map = (s.die d).map
      ∧ regGet (loseCore s d c) (dreg d Page.map 0xA4) = regGet s (dreg d Page.map 0xA4) := by
  have hlose : loseCore s d c = fenceCore s d c := if_neg (Nat.not_lt.2 (two_le_coresOn hregs h))
  have hf : Fences (held s d c) (fenceCore s d c) := fences_fenceCore
  have hmap : ((held s d c).die d).map = (s.die d).map := by
    unfold held updCore
    rw [show ∀ (u : State) a b v w x y z, (regFld (regFld u a v w x) b v y z).die d = u.die d from fun _ _ _ _ _ _ _ _ => rfl,
      die_updDie_self]
  have hpage : ∀ off, off < 0x10000 → dreg d Page.map 0xA4 ≠ wrkBase d + off := by
    intro off hoff
    unfold wrkBase dreg Page.map Page.wrk
    omega
  have hreg : regGet (held s d c) (dreg d Page.map 0xA4) = regGet s (dreg d Page.map 0xA4) := by
    unfold held
    rw [regGet_regFld_ne (hpage _ (by omega)), regGet_regFld_ne (hpage _ (by omega))]
    rfl
  rw [hlose]
  exact ⟨(fenced_of_fences hf).2 fenced_held, (map_of_fences hf).trans hmap, (hf.reg _ steady_lockBreaks).trans hreg⟩

/-- A lock held longer than MAP_LOCK_MS by a core that runs is broken (R199, R459, R460). -/
theorem mapLockTimeout_spec {core : CoreId} {ms : Nat} (hrun : running s d = true) (hregs : registersOk s)
    (hon : coreOn s d core = true) (hhalted : (coreAt s d core).st ≠ .halted) (hlong : dfld s d Page.map 0x50 7 0 < ms)
    (hmany : 3 ≤ (coresOn s d).length) :
    ∃ t, exec (.mapLockTimeout d core tenant nsid index ms) s = .next t ∧ pageHere (t.die d) tenant nsid index = true
      ∧ regGet t (dreg d Page.map 0xA4) = satWord ((regGet s (dreg d Page.map 0xA4)).toNat + 1) ∧ (coreAt t d core).st = .fenced := by
  have hexec : exec (.mapLockTimeout d core tenant nsid index ms) s
      = .next (loseCore (recordEvent (recordErr (raiseInt (regBump (rebuildLeaf s d tenant nsid index) (dreg d Page.map 0xA4) 1)
          (dreg d Page.map 0) 3) (dreg d Page.map 0) 0x05 0) d 0x0E ms) d core) :=
    congrArg Host.Outcome.next ((onDie_of_running hrun).trans (if_pos (by simp [hon, hhalted, hlong])))
  have hkept : Frame.Kept s (rebuildLeaf s d tenant nsid index) := (Frame.Kept.rfl s).rebuildLeaf
  have hcores : Keeps Die.cores beside s (rebuildLeaf s d tenant nsid index) := rebuildLeaf_cores
  have hhere : pageHere ((rebuildLeaf s d tenant nsid index).die d) tenant nsid index = true := pageHere_rebuildLeaf
  generalize rebuildLeaf s d tenant nsid index = v at hexec hkept hcores hhere
  have hbreaks : regGet v (dreg d Page.map 0xA4) = regGet s (dreg d Page.map 0xA4) := by
    refine hcores.reg _ ⟨?_, ?_⟩
    · unfold noInt dreg
      omega
    · rw [offOf_dreg (by omega)]
      omega
  have hbump : regGet (regBump v (dreg d Page.map 0xA4) 1) (dreg d Page.map 0xA4)
      = satWord ((regGet s (dreg d Page.map 0xA4)).toNat + 1) := by
    rw [← hbreaks]
    exact regGet_regSet_self _ _ _ (hkept.regs hregs)
  have hcoreOn : ∀ k, coreOn (regBump v (dreg d Page.map 0xA4) 1) d k = coreOn s d k := by
    intro k
    have hne : wrkBase d + 0x40 ≠ dreg d Page.map 0xA4 := by
      unfold wrkBase dreg Page.map Page.wrk
      omega
    have hwrk : regGet (regBump v (dreg d Page.map 0xA4) 1) (wrkBase d + 0x40) = regGet s (wrkBase d + 0x40) := by
      refine (regGet_regSet_ne _ _ _ _ hne).trans (hcores.reg _ ⟨?_, ?_⟩)
      · unfold noInt wrkBase dreg
        omega
      · unfold offOf wrkBase dreg
        omega
    have hat : coreAt (regBump v (dreg d Page.map 0xA4) 1) d k = coreAt s d k := congrArg (fun l => l.get k) (hcores.die d)
    unfold coreOn
    rw [hwrk, hat]
  have hregs1 : registersOk (regBump v (dreg d Page.map 0xA4) 1) := hkept.regBump.regs hregs
  have hmap1 : ((regBump v (dreg d Page.map 0xA4) 1).die d).map = (v.die d).map := rfl
  generalize regBump v (dreg d Page.map 0xA4) 1 = u at hexec hbump hcoreOn hregs1 hmap1
  have hf : Fences u (recordEvent (recordErr (raiseInt u (dreg d Page.map 0) 3) (dreg d Page.map 0) 0x05 0) d 0x0E ms) :=
    (Fences.rfl u).raiseInt.recordErr.recordEvent
  have hregs2 : registersOk (recordEvent (recordErr (raiseInt u (dreg d Page.map 0) 3) (dreg d Page.map 0) 0x05 0) d 0x0E ms) :=
    (Frame.Kept.rfl u).raiseInt.recordErr.recordEvent.regs hregs1
  generalize recordEvent (recordErr (raiseInt u (dreg d Page.map 0) 3) (dreg d Page.map 0) 0x05 0) d 0x0E ms = w at hexec hf hregs2
  have hmany2 : 3 ≤ (coresOn w d).length := by
    have hall : coresOn w d = coresOn s d := List.filter_congr fun k _ => (coreOn_of_fences hf).trans (hcoreOn k)
    rw [hall]
    exact hmany
  obtain ⟨hfenced, hmap, hreg⟩ := loseCore_spec (c := core) hregs2 hmany2
  refine ⟨_, hexec, ?_, ?_, hfenced⟩
  · rw [pageHere_congr ((hmap.trans (map_of_fences hf)).trans hmap1), hhere]
  · rw [hreg, hf.reg _ steady_lockBreaks, hbump]

theorem slcTargetOf_eq (s : State) (d : DieId) : slcTargetOf s d
    = max (min ((exported s d - validBytes (s.die d)) * dfld s d Page.map 0x4C 7 0 / 256 / 4) (dfld s d Page.map 0x4C 31 16 * 1000000000))
        (dfld s d Page.map 0x4C 15 8 * 1000000000) := rfl

theorem setSlcTarget_die (v : Nat) :
    ((s.updDie d (fun x => { x with map := { x.map with slcTarget := v } })).die d).map.slcTarget = v
      ∧ ((s.updDie d (fun x => { x with map := { x.map with slcTarget := v } })).die d).map.kv = (s.die d).map.kv
      ∧ ((s.updDie d (fun x => { x with map := { x.map with slcTarget := v } })).die d).flash = (s.die d).flash := by
  rw [die_updDie_self]
  exact ⟨rfl, rfl, rfl⟩

/-- Settles O31: a checkpoint that is due ends with its root (`checkpoint_root`), and writing pages and a root leaves the map in memory
alone (`Keeps.checkpoint`); the register write and the target are single steps; a lock that times out is broken
(`mapLockTimeout_spec`). -/
theorem mapMaintenance : Obligations.MapMaintenance := by
  unfold Obligations.MapMaintenance
  refine ⟨fun s d hrun => ⟨fun s2 p hm hdue hw hp => ?_, fun r hspace hopen => ?_, ?_⟩,
    fun s d core tenant nsid index ms hrun hregs hon hhalted hlong hmany =>
      mapLockTimeout_spec hrun hregs hon hhalted hlong hmany⟩
  · obtain ⟨r, hat, hj, hseq, hbound⟩ := checkpoint_root hw hp
    have hkept : Keeps rooted noReg s (checkpoint s d) := (Keeps.rfl s).checkpoint
    obtain ⟨hkv, hdense, hring, -⟩ := map_of_rooted (hkept.die d)
    exact ⟨_, r, exec_checkpoint hrun hm hdue, hat.root, hj, hseq, hbound, hat.last, hkv, hdense, hring, hat.at0, hat.ckpt⟩
  · exact congrArg Host.Outcome.next ((byReq_of_hasSpace hspace).trans (rowWrite_of_rowWrites (rowWrites_ckptNow hopen)))
  · have hexec := exec_slcTargetRecompute hrun
    have hset := slcTargetOf_eq s d
    generalize slcTargetOf s d = v at hexec hset
    obtain ⟨htarget, hkv, hflash⟩ := setSlcTarget_die (s := s) (d := d) v
    exact ⟨_, hexec, htarget.trans hset, hkv, hflash, sameButDie_updDie _⟩

end Sys2Proof.Placement
end

section
/-! ### Draining the ring -/
namespace Sys2Proof.Placement
open Sys2Proof Sys2Proof.Machine Sys2Proof.Laws Sys2Proof.Safety
variable {s0 s t u : State} {d : DieId} {x y : Die} {e : RingEntry}

/-- A die without what it changes when a write becomes durable: its groups, the Forager, the Comb, and of the map everything but the
ring. -/
def drained (x : Die) : Die := { x with groups := [], fgr := {}, comb := {}, map := { ring := x.map.ring, mounted := x.map.mounted } }

theorem drained_of_upkept (h : upkept y = upkept x) : drained y = drained x :=
  (congrArg drained h : drained (upkept y) = drained (upkept x))

theorem drained_jAppendTo {tenant nsid : Nat} {b : JBody} : drained (jAppendTo x tenant nsid b) = drained x :=
  drained_of_upkept upkept_jAppendTo

theorem drained_addStored {q : Stored} : drained (addStored x q) = drained x := rfl

theorem drained_retain {l : BitVec 56} : drained (retain x l) = drained x :=
  view_foldl (ε := drained) (f := validAdd) (fun _ _ => rfl) _ _

theorem drained_release {l : BitVec 56} : drained (release x l) = drained x :=
  view_foldl (ε := drained) (f := validSub) (fun _ _ => rfl) _ _

theorem drained_takeVersion : drained (takeVersion x).2 = drained x := by
  unfold takeVersion
  dsimp only
  split
  · generalize hy : jAppendTo x 0 0 (.wseqReserve (x.map.wbound + 2 ^ 20)) = y
    have hj : drained y = drained x := hy ▸ drained_jAppendTo
    exact hj
  · rfl

theorem drained_kvPut {b : BEntry} : drained (kvPut x b) = drained x := rfl

theorem drained_densePut {b : DEntry} : drained (densePut x b) = drained x := rfl

theorem drained_deleteEntry {n m v : Nat} {key : Bytes} {h : BitVec 128} : drained (deleteEntry x n m key h v) = drained x := by
  unfold deleteEntry
  split
  · rfl
  · next b _ =>
    dsimp only
    have hy : drained (if b.nectar then x else release x b.loc) = drained x := by
      split
      · rfl
      · exact drained_release
    generalize (if b.nectar then x else release x b.loc) = y at hy
    exact hy

theorem drained_drainErase {n m bucket v : Nat} {key : Bytes} {htag : BitVec 64} {old : BitVec 56} :
    drained (drainErase x n m key htag bucket v old) = drained x := by
  unfold drainErase
  extract_lets loc y
  have hy : drained y = drained x := drained_jAppendTo
  clear_value y
  split
  · exact hy
  · split
    · exact drained_kvPut.trans hy
    · exact hy

theorem drained_drainTrim {n m first count : Nat} : drained (drainTrim x n m first count) = drained x := by
  refine (view_foldl (ε := drained) ?_ _ _).trans drained_jAppendTo
  exact fun _ _ => rfl

theorem drained_unmapUnits {n m first count : Nat} : drained (unmapUnits x n m first count) = drained x := by
  refine view_foldl (ε := drained) (fun y i => ?_) _ _
  dsimp only
  refine drained_densePut.trans ?_
  split
  · exact drained_release
  · rfl

/-! #### One write -/

theorem Keeps.drainRecord {r : Rec} {key : Bytes} {htag : BitVec 64} {bucket : Nat} (h : Keeps drained noInt s0 s) :
    Keeps drained noInt s0 (drainRecord s d e r key htag bucket) := by
  unfold Machine.drainRecord
  extract_lets loc len s1
  have hs1 : Keeps drained noInt s0 s1 := h.updDie fun x => drained_addStored.trans drained_jAppendTo
  refine hs1.updDie fun x => ?_
  extract_lets old isCur z y
  have hz : drained z = drained x := by
    unfold z
    cases old with
    | none => rfl
    | some q =>
      dsimp only
      split
      · exact drained_release
      · rfl
  have hy : drained y = drained x := by
    unfold y
    split
    · exact drained_retain.trans (drained_kvPut.trans hz)
    · cases old <;> rfl
  clear_value y
  exact hy

theorem Keeps.drainUnit {p : Blk × Extent} (h : Keeps drained noInt s0 s) : Keeps drained noInt s0 (drainUnit d e s p) := by
  unfold Machine.drainUnit
  extract_lets loc entry
  refine h.updDie fun x => ?_
  extract_lets z q
  have hz : drained z = drained x := rfl
  clear_value z
  split
  · refine drained_retain.trans (drained_densePut.trans ?_)
    split
    · exact drained_release.trans hz
    · exact hz
  · split
    · exact drained_retain.trans (drained_densePut.trans hz)
    · exact drained_densePut.trans hz

theorem Keeps.drainRun {run : List (Blk × Extent)} (h : Keeps drained noInt s0 s) : Keeps drained noInt s0 (drainRun d e s run) := by
  unfold Machine.drainRun
  split
  · exact h
  · exact (h.updDie fun _ => drained_jAppendTo).foldl fun _ _ hu => hu.drainUnit

/-- Draining a write leaves the ring and the operations of the flash alone (R206, R207). -/
theorem Keeps.drainWrite (h : Keeps drained noInt s0 s) : Keeps drained noInt s0 (drainWrite s d e).1 := by
  have hv : ∀ n : Nat, drained (if e.through.isSome then takeVersion (s.die d) else (n, s.die d)).2 = drained (s.die d) := by
    intro n
    split
    · exact drained_takeVersion
    · rfl
  unfold Machine.drainWrite
  split
  · exact (h.setDie (hv _)).drainRecord
  · exact h.foldl fun _ _ hu => hu.drainRun
  · extract_lets v w
    have hw : drained w = drained (s.die d) := by
      unfold w
      split
      · exact drained_deleteEntry.trans (hv _)
      · exact hv _
    exact h.setDie (drained_drainErase.trans hw)
  · dsimp only
    refine h.updDie fun x => drained_drainTrim.trans ?_
    split
    · exact drained_unmapUnits
    · rfl

end Sys2Proof.Placement
end

section
/-! ### Flushing a die -/
namespace Sys2Proof.Placement
open Sys2Proof Sys2Proof.Machine Sys2Proof.Laws Sys2Proof.Safety Sys2Proof.Access
variable {s0 s t u : State} {d : DieId} {x y : Die} {e : RingEntry} {l : List RingEntry} {n : Nat}

/-- Whether a die is up, and whether its map is mounted. -/
def footing (x : Die) : DiePhase × Bool := (x.phase, x.map.mounted)

theorem Keeps.footing_of_drained (h : Keeps drained noInt s t) : Keeps footing noReg s t :=
  h.mono (fun x y hxy => (congrArg footing hxy : footing (drained y) = footing (drained x))) fun _ => False.elim

theorem Keeps.footing_of_rooted (h : Keeps rooted noReg s t) : Keeps footing noReg s t :=
  h.mono (fun x y hxy => (congrArg footing hxy : footing (rooted y) = footing (rooted x))) fun _ => False.elim

theorem Keeps.flushWrite (h : Keeps footing noReg s0 s) : Keeps footing noReg s0 (flushWrite s d e) :=
  .ite (h.trans (Keeps.drainWrite (.rfl s)).footing_of_drained) (h.updDie fun _ => rfl)

theorem Keeps.packRescue (h : Keeps footing noReg s0 s) : Keeps footing noReg s0 (packRescue d n s l).2 := by
  induction n generalizing s l with
  | zero => exact h
  | succ n ih =>
    unfold Machine.packRescue
    split
    · exact h
    · split
      · exact h
      · next g _ =>
        extract_lets stop r s1 used
        have hs1 : Keeps footing noReg s0 s1 := by
          unfold s1 rescueTags
          exact Keeps.updDie (Keeps.foldl h fun _ _ hu => Keeps.updDie hu fun _ => rfl) fun _ => rfl
        exact ih (hs1.updDie fun _ => rfl)

theorem Keeps.haltDie (h : Keeps footing noReg s0 s) : Keeps footing noReg s0 (haltDie s d) := by
  have hstop : Keeps footing noReg s0 (stopFlash s d) := h.updDie fun _ => rfl
  exact .ite (hstop.updDie fun _ => rfl) h

theorem Keeps.flushFirst (h : Keeps footing noReg s0 s) : Keeps footing noReg s0 (flushFirst s d n) := by
  unfold Machine.flushFirst
  extract_lets ring p s1 s2
  have hp : Keeps footing noReg s0 p.2 := h.packRescue
  have hs1 : Keeps footing noReg s0 s1 := hp.foldl fun _ _ hu => hu.flushWrite
  have hs2 : Keeps footing noReg s0 s2 := hs1.foldl fun _ _ hu => hu.updDie fun _ => rfl
  exact hs2.updDie fun _ => rfl

theorem Keeps.flushRing (h : Keeps footing noReg s0 s) : Keeps footing noReg s0 (flushRing s d) :=
  .ite h.haltDie.flushFirst h

theorem Keeps.spillMeters (h : Keeps footing noReg s0 s) : Keeps footing noReg s0 (spillMeters s d) := h.updDie fun _ => rfl

/-- Flushing changes the dies and the registers alone, and no die's phase (R322). -/
theorem Keeps.flushDie (h : Keeps footing noReg s0 s) : Keeps footing noReg s0 (flushDie s d) := by
  have hspill : Keeps footing noReg s0 (Machine.spillMeters (Machine.flushRing s d) d) := h.flushRing.spillMeters
  exact .ite (hspill.trans (Keeps.reRoot (.rfl _)).footing_of_rooted) hspill

/-! #### What a flushed die holds -/

theorem spillMeters_map : ((spillMeters s d).die d).map = (s.die d).map := by
  unfold spillMeters
  rw [die_updDie_self]

theorem flushRing_ring (h : (s.die d).map.mounted = true) : ((flushRing s d).die d).map.ring = [] := by
  unfold flushRing
  rw [if_pos h]
  unfold Machine.flushFirst
  extract_lets ring p s1 s2
  rw [die_updDie_self]

/-- A die that has flushed: its ring is empty, and the root names its loss where it has a place (R322). -/
theorem reRoot_loss (h : (rootPlace s d).isSome = true) : ((reRoot s d true).die d).map.root.map (fun r => r.loss) = some true := by
  obtain ⟨p, hp⟩ := Option.isSome_iff_exists.1 h
  unfold Machine.reRoot
  split
  · rw [(rootAt_writeRoot hp).root]
    rfl
  · rw [(rootAt_writeRoot hp).root]
    rfl

end Sys2Proof.Placement
end

section
/-! ### The dirty limit -/
namespace Sys2Proof.Placement
open Sys2Proof Sys2Proof.Machine Sys2Proof.Laws Sys2Proof.Safety Sys2Proof.Access
variable {s0 s t u : State} {d e : DieId} {x y : Die} {n : Nat}

/-- What the dirty limit of a moment depends on: the verdict and the measurements of the last test, whether one runs, and the registers
of PSU beside INT_RAW (R315, R316). -/
structure Limits (s t : State) : Prop where
  verdict : t.guard.psu.verdict = s.guard.psu.verdict
  tested  : t.guard.psu.tested = s.guard.psu.tested
  cMeas   : t.guard.psu.cMeas = s.guard.psu.cMeas
  test    : t.guard.psu.test = s.guard.psu.test
  reg     : ∀ off, off ≠ 0x10 → regGet t (greg Page.psu off) = regGet s (greg Page.psu off)

theorem Limits.pfld (h : Limits s t) {off hi lo : Nat} (hoff : off ≠ 0x10) : pfld t off hi lo = pfld s off hi lo :=
  congrArg (fun w => fld w hi lo) (h.reg off hoff)

theorem Limits.limitAt (h : Limits s t) {v : Nat} : limitAt t v = limitAt s v := by
  unfold Machine.limitAt cUsed vMin
  simp only [h.verdict, h.tested, h.cMeas, h.pfld (show 0x4C ≠ 0x10 by decide), h.pfld (show 0x48 ≠ 0x10 by decide),
    h.pfld (show 0x50 ≠ 0x10 by decide), h.pfld (show 0x54 ≠ 0x10 by decide)]

theorem Limits.vAdm (h : Limits s t) {low : Nat} : vAdm t low = vAdm s low := by
  unfold Machine.vAdm vSet testDv
  simp only [h.test, h.pfld (show 0x48 ≠ 0x10 by decide), h.pfld (show 0x58 ≠ 0x10 by decide)]

/-- A change of the bank's state is noted, with an interrupt at most (R331). -/
theorem setBank_spec (s : State) (b : BankState) : Limits s (setBank s b) ∧ (setBank s b).dies = s.dies ∧ (setBank s b).part = s.part
    ∧ (setBank s b).guard = { s.guard with psu := { s.guard.psu with bank := b } } := by
  have hne : ∀ off, off ≠ 0x10 → greg Page.psu off ≠ psuBase + 0x10 := by
    intro off hoff
    unfold psuBase greg
    omega
  unfold setBank
  dsimp only
  split
  · exact ⟨⟨rfl, rfl, rfl, rfl, fun off hoff => regGet_regSet_ne _ _ _ _ (hne off hoff)⟩, rfl, rfl, rfl⟩
  · exact ⟨⟨rfl, rfl, rfl, rfl, fun _ _ => rfl⟩, rfl, rfl, rfl⟩

theorem recharged_spec (s : State) : ∃ b, Limits s (recharged s) ∧ (recharged s).dies = s.dies ∧ (recharged s).part = s.part
    ∧ (recharged s).guard = { s.guard with psu := { s.guard.psu with bank := b } } := by
  unfold recharged
  split
  · exact ⟨_, setBank_spec s _⟩
  · exact ⟨s.guard.psu.bank, ⟨rfl, rfl, rfl, rfl, fun _ _ => rfl⟩, rfl, rfl, rfl⟩

/-- A die takes its share, and fills its rescue reserve for it (R203, R209, R319). -/
def takeShare (v : Nat) (s : State) (d : DieId) : State :=
  let s1 := s.updDie d (fun x => { x with map := { x.map with limShare := v } })
  if (s1.die d).map.mounted then fillRescue s1 d else s1

theorem shareLimit_eq (s : State) (limit : Nat) :
    shareLimit s limit = overDies (takeShare (limit / max 1 (limitDies s).length)) s (limitDies s) := rfl

theorem takeShare_spec (v : Nat) (s : State) (d : DieId) : (takeShare v s d).guard = s.guard ∧ ((takeShare v s d).die d).map.limShare = v
    ∧ ∀ e, e ≠ d → ((takeShare v s d).die e).map.limShare = (s.die e).map.limShare := by
  unfold takeShare
  extract_lets s1
  have hguard : s1.guard = s.guard := rfl
  have hself : (s1.die d).map.limShare = v := by
    unfold s1
    rw [die_updDie_self]
  have hother : ∀ e, e ≠ d → (s1.die e).map.limShare = (s.die e).map.limShare := by
    intro e he
    unfold s1
    rw [die_updDie_ne _ _ _ _ he]
  clear_value s1
  have hkept : Keeps upkept noInt s1 (if (s1.die d).map.mounted then fillRescue s1 d else s1) := .ite (Keeps.rfl s1).fillRescue (.rfl s1)
  generalize (if (s1.die d).map.mounted then fillRescue s1 d else s1) = w at hkept
  have hshare : ∀ e, (w.die e).map.limShare = (s1.die e).map.limShare := by
    intro e
    have hmap : (upkept (w.die e)).map = (upkept (s1.die e)).map := congrArg Die.map (hkept.die e)
    exact (congrArg MapEng.limShare hmap : (upkept (w.die e)).map.limShare = (upkept (s1.die e)).map.limShare)
  exact ⟨hkept.guard.trans hguard, (hshare d).trans hself, fun e he => (hshare e).trans (hother e he)⟩

theorem shareLimit_guard (s : State) (limit : Nat) : (shareLimit s limit).guard = s.guard := by
  rw [shareLimit_eq]
  exact overDies_guard (fun t e => (takeShare_spec _ t e).1) _ _

theorem shareLimit_share {limit : Nat} (h : d ∈ limitDies s) :
    ((shareLimit s limit).die d).map.limShare = limit / max 1 (limitDies s).length := by
  rw [shareLimit_eq]
  generalize limit / max 1 (limitDies s).length = v
  refine overDies_brings (P := fun t => (t.die d).map.limShare = v) (fun t => (takeShare_spec v t d).2.1) (fun t e ht => ?_) _ _ (.inl h)
  by_cases he : e = d
  · rw [he]
    exact (takeShare_spec v t d).2.1
  · exact ((takeShare_spec v t e).2.2 d (Ne.symm he)).trans ht

theorem sumBy_const {α : Type} {f : α → Nat} {l : List α} (h : ∀ a ∈ l, f a = n) : sumBy f l = l.length * n := by
  induction l with
  | nil => simp [sumBy]
  | cons a l ih =>
    have htail : sumBy f (a :: l) = f a + sumBy f l := rfl
    rw [htail, h a List.mem_cons_self, ih fun b hb => h b (List.mem_cons_of_mem _ hb), List.length_cons]
    ring

/-- The limit of the moment is published and shared, the shares within it (R203, R315 to R317). -/
theorem publishLimit_spec (s : State) (v : Nat) :
    (publishLimit s v).guard = { s.guard with psu := { s.guard.psu with vadm := v, limit := limitAt s v, eUsable := usableAt s v } }
      ∧ ∀ d ∈ limitDies s, ((publishLimit s v).die d).map.limShare = limitAt s v / max 1 (limitDies s).length := by
  unfold publishLimit
  generalize limitAt s v = limit
  generalize usableAt s v = usable
  dsimp only
  have hguard := shareLimit_guard (updPsu s (fun p => { p with vadm := v, limit := limit, eUsable := usable })) limit
  have hshare : ∀ d ∈ limitDies s, ((shareLimit (updPsu s (fun p => { p with vadm := v, limit := limit, eUsable := usable })) limit).die d).map.limShare
      = limit / max 1 (limitDies s).length := fun d hd => shareLimit_share hd
  generalize shareLimit (updPsu s (fun p => { p with vadm := v, limit := limit, eUsable := usable })) limit = w at hguard hshare
  split
  · exact ⟨hguard, hshare⟩
  · exact ⟨hguard, hshare⟩

theorem limitDies_congr (hd : t.dies = s.dies) (hp : t.part = s.part) : limitDies t = limitDies s := by
  unfold limitDies present State.die
  rw [hd, hp]

/-- DIRTY_LIMIT_UPDATE (R203, R315 to R317). -/
theorem dirtyLimitUpdate_spec {vin vbank vhold low : Nat} (hoff : s.guard.off = false) :
    ∃ t, exec (.dirtyLimitUpdate vin vbank vhold low) s = .next t ∧ t.guard.psu.limit = limitAt s (vAdm s low)
      ∧ t.guard.psu.vin = vin ∧ t.guard.psu.vbank = vbank ∧ t.guard.psu.vhold = vhold
      ∧ (∀ d ∈ limitDies s, (t.die d).map.limShare = limitAt s (vAdm s low) / max 1 (limitDies s).length)
      ∧ sumBy (fun d => (t.die d).map.limShare) (limitDies s) ≤ t.guard.psu.limit := by
  have hmeas : Limits s (updPsu s (fun p => { p with vin := vin, vbank := vbank, vhold := vhold })) := ⟨rfl, rfl, rfl, rfl, fun _ _ => rfl⟩
  obtain ⟨b, hlim, hdies, hpart, hguard⟩ := recharged_spec (updPsu s (fun p => { p with vin := vin, vbank := vbank, vhold := vhold }))
  have hexec : exec (.dirtyLimitUpdate vin vbank vhold low) s
      = .next (publishLimit (recharged (updPsu s (fun p => { p with vin := vin, vbank := vbank, vhold := vhold })))
          (vAdm (recharged (updPsu s (fun p => { p with vin := vin, vbank := vbank, vhold := vhold }))) low)) :=
    congrArg Host.Outcome.next (if_neg (by simp [hoff]))
  generalize recharged (updPsu s (fun p => { p with vin := vin, vbank := vbank, vhold := vhold })) = w at hexec hlim hdies hpart hguard
  have hlimit : limitAt w (vAdm w low) = limitAt s (vAdm s low) := by
    rw [hlim.vAdm, hlim.limitAt, hmeas.vAdm, hmeas.limitAt]
  have hds : limitDies w = limitDies s := limitDies_congr hdies hpart
  obtain ⟨hpub, hshare⟩ := publishLimit_spec w (vAdm w low)
  rw [hlimit, hguard] at hpub
  rw [hlimit, hds] at hshare
  refine ⟨_, hexec, ?_⟩
  generalize publishLimit w (vAdm w low) = t at hpub hshare
  rw [hpub, sumBy_const hshare]
  refine ⟨rfl, rfl, rfl, rfl, hshare, ?_⟩
  generalize limitAt s (vAdm s low) = limit
  calc (limitDies s).length * (limit / max 1 (limitDies s).length)
      ≤ max 1 (limitDies s).length * (limit / max 1 (limitDies s).length) := Nat.mul_le_mul_right _ (Nat.le_max_right _ _)
    _ ≤ limit := Nat.mul_div_le _ _

end Sys2Proof.Placement
end

section
/-! ### POWER_LOSS -/
namespace Sys2Proof.Placement
open Sys2Proof Sys2Proof.Machine Sys2Proof.Laws Sys2Proof.Safety Sys2Proof.Access
variable {s0 s t u : State} {d e : DieId} {x y : Die} {n : Nat}

/-- Of the dies the maps, the flash and the phases are as they were. -/
structure SameFlash (s t : State) : Prop where
  part  : t.part = s.part
  map   : ∀ e : DieId, (t.die e).map = (s.die e).map
  flash : ∀ e : DieId, (t.die e).flash = (s.die e).flash
  phase : ∀ e : DieId, (t.die e).phase = (s.die e).phase

protected theorem SameFlash.rfl (s : State) : SameFlash s s := ⟨rfl, fun _ => rfl, fun _ => rfl, fun _ => rfl⟩

protected theorem SameFlash.trans (h : SameFlash s0 s) (k : SameFlash s t) : SameFlash s0 t :=
  ⟨k.part.trans h.part, fun e => (k.map e).trans (h.map e), fun e => (k.flash e).trans (h.flash e),
    fun e => (k.phase e).trans (h.phase e)⟩

theorem SameFlash.of_stores (h : Stores s t) : SameFlash s t := ⟨h.part, h.map, h.flash, h.phase⟩

theorem SameFlash.of_dies (hp : t.part = s.part) (hd : t.dies = s.dies) : SameFlash s t := by
  have hdie : ∀ e : DieId, t.die e = s.die e := fun e => congrArg (fun l => l.get e) hd
  exact ⟨hp, fun e => by rw [hdie], fun e => by rw [hdie], fun e => by rw [hdie]⟩

theorem SameFlash.flushers (h : SameFlash s t) : flushers t = flushers s := by
  unfold Machine.flushers present
  rw [h.part]
  simp only [h.phase]

theorem sameFlash_abortTest : SameFlash s (abortTest s) := by
  have hloops : SameFlash s (updPsu (testLoops s) (fun p => { p with test := .none })) := .of_dies rfl rfl
  exact hloops.trans (.of_stores ((CombIndex.stores_recordErr ..).trans (stores_raiseInt ..)))

/-- What of the guard die a power loss has set and later steps leave. -/
def cutOff (s : State) : Bool × Bool × BankState := (s.guard.losing, s.guard.psu.orOn, s.guard.psu.bank)

theorem traceTrigger_keeps {k : SlotId} : SameFlash s (traceTrigger s k) ∧ cutOff (traceTrigger s k) = cutOff s := by
  unfold traceTrigger
  extract_lets q pre
  split
  · exact ⟨.of_dies rfl rfl, rfl⟩
  · exact ⟨.rfl s, rfl⟩

theorem lossTraces_keeps : SameFlash s (lossTraces s) ∧ cutOff (lossTraces s) = cutOff s := by
  unfold lossTraces
  refine List.foldlRecOn (motive := fun t => SameFlash s t ∧ cutOff t = cutOff s) _ _ ⟨.rfl s, rfl⟩ fun t ht k _ => ?_
  obtain ⟨hflash, hcut⟩ := traceTrigger_keeps (s := t) (k := k)
  split
  · exact ⟨ht.1.trans hflash, hcut.trans ht.2⟩
  · exact ht

theorem resetDie_guard {p : DiePhase} : (resetDie s d p).guard = s.guard := rfl

theorem diesDown_guard : (diesDown s).guard = s.guard := by
  refine overDies_guard (fun t e => ?_) _ _
  split
  · exact resetDie_guard
  · rfl

/-- The end of the flush: the package waits for VIN (R322). -/
theorem lossEnd_guard : (lossEnd s).guard.lossDone = true ∧ cutOff (lossEnd s) = cutOff s := by
  have hnor : cutOff (norCut s) = cutOff s := by
    unfold norCut
    split <;> rfl
  unfold lossEnd
  extract_lets s1 s2 s3
  have hs1 : cutOff s1 = cutOff s := hnor
  have hs2 : cutOff s2 = cutOff s1 := rfl
  have hs3 : cutOff s3 = cutOff s2 := by
    have hdown : s3.guard = s2.guard := diesDown_guard
    unfold cutOff
    rw [hdown]
  clear_value s3
  exact ⟨rfl, hs3.trans (hs2.trans hs1)⟩

theorem overDies_flush_guard {f : State → DieId → State} (hf : f = flushRing ∨ f = haltDie) (l : List DieId) :
    (overDies f s l).guard = s.guard := by
  refine overDies_guard (fun t e => ?_) _ _
  rcases hf with rfl | rfl
  · exact (Keeps.rfl t).flushRing.guard
  · exact (Keeps.rfl t).haltDie.guard

/-- A die that halts: its ring keeps what is not written through, nothing is on its channels any more (R322, R323). -/
structure Halted (x y : Die) : Prop where
  ring    : y.map.ring = x.map.ring.filter (fun e => e.through.isNone)
  ops     : y.flash.ops = []
  kv      : y.map.kv = x.map.kv
  journal : y.map.journal = x.map.journal

theorem haltDie_halted (h : (s.die d).map.mounted = true) : Halted (s.die d) ((haltDie s d).die d)
    ∧ ((haltDie s d).die d).map.mounted = true := by
  unfold haltDie
  rw [if_pos h, die_updDie_self]
  unfold stopFlash
  rw [die_updDie_self]
  exact ⟨⟨rfl, rfl, rfl, rfl⟩, h⟩

theorem haltDie_other (h : e ≠ d) : (haltDie s e).die d = s.die d := by
  unfold haltDie stopFlash
  split
  · rw [die_updDie_ne _ _ _ _ (Ne.symm h), die_updDie_ne _ _ _ _ (Ne.symm h)]
  · rfl

/-- Of a list of dies each once. -/
theorem overDies_haltDie {l : List DieId} (hl : l.Nodup) (hd : d ∈ l) (hm : (s.die d).map.mounted = true) :
    Halted (s.die d) ((overDies haltDie s l).die d) := by
  have hkeep : ∀ (l : List DieId) (s : State), d ∉ l → (overDies haltDie s l).die d = s.die d := by
    intro l
    induction l with
    | nil => exact fun _ _ => rfl
    | cons e l ih =>
      intro s hd
      obtain ⟨hde, hdl⟩ := not_or.1 (mt List.mem_cons.2 hd)
      exact (ih (haltDie s e) hdl).trans (haltDie_other (Ne.symm hde))
  induction l generalizing s with
  | nil => cases hd
  | cons e l ih =>
    obtain ⟨hel, hl⟩ := List.nodup_cons.1 hl
    have hcons : overDies haltDie s (e :: l) = overDies haltDie (haltDie s e) l := rfl
    rw [hcons]
    rcases List.mem_cons.1 hd with rfl | hd
    · rw [hkeep _ _ hel]
      exact (haltDie_halted hm).1
    · have hne : e ≠ d := fun h => hel (h ▸ hd)
      have hother : (haltDie s e).die d = s.die d := haltDie_other hne
      rw [← hother]
      exact ih hl hd (by rw [hother, hm])

/-- POWER_LOSS (R321 to R323). -/
theorem powerLoss_spec : cutOff (powerLoss s) = (true, false, .loss)
    ∧ (s.guard.deep = false → ∀ d ∈ flushers s, (s.die d).map.mounted = true → Halted (s.die d) ((powerLoss s).die d)) := by
  have habandon : Stores s (abandonDeep s) := stores_abandonDeep s
  have hdeep : (abandonDeep s).guard.deep = s.guard.deep :=
    (congrArg Guard.deep habandon.guard : ({ (abandonDeep s).guard with entry := 0 } : Guard).deep = ({ s.guard with entry := 0 } : Guard).deep)
  unfold powerLoss
  extract_lets s' s0 ds kb s1 s2' g s2 s3 s4 s5
  have hs' : SameFlash s s' := .of_stores habandon
  have hs0 : SameFlash s s0 := by
    unfold s0
    split
    · exact hs'
    · exact hs'.trans sameFlash_abortTest
  have hs1 : SameFlash s0 s1 := .of_dies rfl rfl
  have hcut : SameFlash s1 s2' := by
    unfold s2' cutMinute
    split
    · exact .of_dies rfl rfl
    · exact .rfl s1
  have hset : s1.guard.psu.orOn = false ∧ s1.guard.psu.bank = .loss := ⟨rfl, rfl⟩
  have hlost : ∀ v : Guard, SameFlash s2' { s2' with guard := v } := fun _ => .of_dies rfl rfl
  have hs2 : SameFlash s s2 ∧ cutOff s2 = (true, false, .loss) := by
    obtain ⟨htrace, hcutOff⟩ := lossTraces_keeps (s := { s2' with guard := { g with losing := true, lossDone := false, shutting := false } })
    have hcut2 : cutOff { s2' with guard := { g with losing := true, lossDone := false, shutting := false } } = (true, false, .loss) := by
      unfold cutOff
      rw [hset.1, hset.2]
    exact ⟨(((hs0.trans hs1).trans hcut).trans (hlost _)).trans htrace, hcutOff.trans hcut2⟩
  clear_value s2
  have hs4 : SameFlash s s4 := hs2.1.trans (.of_dies rfl rfl)
  have hcut4 : cutOff s4 = (true, false, .loss) := hs2.2
  have hcut5 : cutOff s5 = (true, false, .loss) := by
    have hguard : s5.guard = s4.guard := overDies_flush_guard (by split <;> simp) ds
    unfold cutOff
    rw [hguard]
    exact hcut4
  refine ⟨?_, fun hnot d hd hm => ?_⟩
  · split
    · exact lossEnd_guard.2.trans hcut5
    · exact hcut5
  · have hds : ds = flushers s := hs'.flushers
    have hnodup : (flushers s).Nodup := List.Nodup.filter _ (by decide)
    have hempty : ds.isEmpty = false := by
      rw [hds]
      exact List.isEmpty_eq_false_iff.2 (List.ne_nil_of_mem hd)
    have hnd : s'.guard.deep = false := hdeep.trans hnot
    have hhalt : Halted (s4.die d) (s5.die d) := by
      unfold s5
      rw [hnd, if_neg Bool.false_ne_true, hds]
      exact overDies_haltDie hnodup hd (by rw [hs4.map, hm])
    rw [hnd, hempty, if_neg (by simp)]
    obtain ⟨hring, hops, hkv, hjournal⟩ := hhalt
    exact ⟨by rw [hring, hs4.map], hops, by rw [hkv, hs4.map], by rw [hjournal, hs4.map]⟩

/-! #### DIE_FLUSH_DONE -/

theorem exec_dieFlushDone (hl : s.guard.losing = true) (hn : s.guard.lossDone = false) (hd : d ∈ flushers s)
    (hf : d ∉ s.guard.psu.flushed) :
    exec (.dieFlushDone d) s = .next
      (if (flushers s).all (fun e => (s.guard.psu.flushed ++ [d]).contains e) then
        lossEnd (updPsu (flushDie s d) (fun p => { p with flushed := p.flushed ++ [d] }))
      else updPsu (flushDie s d) (fun p => { p with flushed := p.flushed ++ [d] })) := by
  have hkept : Keeps footing noReg s (flushDie s d) := (Keeps.rfl s).flushDie
  have hguard := hkept.guard
  have hflushers : flushers (updPsu (flushDie s d) (fun p => { p with flushed := p.flushed ++ [d] })) = flushers s := by
    have hphase : ∀ e : DieId, ((flushDie s d).die e).phase = (s.die e).phase := fun e => congrArg Prod.fst (hkept.die e)
    have hsame : flushers (updPsu (flushDie s d) (fun p => { p with flushed := p.flushed ++ [d] })) = flushers (flushDie s d) := rfl
    rw [hsame]
    unfold flushers present
    simp only [hkept.part, hphase]
  have hcond : (s.guard.losing && !s.guard.lossDone && (flushers s).contains d && !s.guard.psu.flushed.contains d) = true := by
    simp [hl, hn, hd, hf]
  have hexec : exec (.dieFlushDone d) s = execDieFlushDone d s := rfl
  rw [hexec, execDieFlushDone, if_pos hcond]
  dsimp only
  rw [hflushers]
  have hflushed : (updPsu (flushDie s d) (fun p => { p with flushed := p.flushed ++ [d] })).guard.psu.flushed
      = s.guard.psu.flushed ++ [d] := by
    unfold updPsu
    rw [hguard]
  rw [hflushed]

theorem flushDie_spec (hm : (s.die d).map.mounted = true) : ((flushDie s d).die d).map.ring = []
    ∧ ((rootPlace (spillMeters (flushRing s d) d) d).isSome = true → ((flushDie s d).die d).map.root.map (fun r => r.loss) = some true) := by
  have hmounted : ((flushRing s d).die d).map.mounted = true := (congrArg Prod.snd ((Keeps.rfl s).flushRing.die d)).trans hm
  have hroot : flushDie s d = reRoot (spillMeters (flushRing s d) d) d true := if_pos hmounted
  have hring : ((spillMeters (flushRing s d) d).die d).map.ring = [] := by
    rw [spillMeters_map]
    exact flushRing_ring hm
  rw [hroot]
  refine ⟨?_, reRoot_loss⟩
  generalize spillMeters (flushRing s d) d = w at hring
  obtain ⟨-, -, hkept, -⟩ := map_of_rooted ((Keeps.reRoot (d := d) (loss := true) (.rfl w)).die d)
  exact hkept.trans hring

theorem exec_powerLoss (hoff : s.guard.off = false) (hl : s.guard.losing = false) : exec .powerLoss s = .next (Machine.powerLoss s) := by
  have hexec : exec .powerLoss s = execPowerLoss s := rfl
  rw [hexec, execPowerLoss, guardRuns, if_neg (by simp [hoff]), if_neg (by simp [hl])]

theorem exec_flushShort (hl : s.guard.losing = true) (hn : s.guard.lossDone = false) :
    exec .flushShort s = .next (regFld s (greg Page.psu 0xAC) 1 1 1) := by
  have hexec : exec .flushShort s = execFlushShort s := rfl
  rw [hexec, execFlushShort, if_pos (by simp [hl, hn])]

theorem exec_psuLossInfoRead {r : Requester} (hspace : HasSpace s r) (hoff : s.guard.off = false) :
    exec (.psuLossInfoRead r) s = .next (lossInfoRead s) := by
  have hexec : exec (.psuLossInfoRead r) s = execPsuLossInfoRead r s := rfl
  rw [hexec, execPsuLossInfoRead, byReq_of_hasSpace hspace, guardRuns, if_neg (by simp [hoff])]

/-- The package in OFF, with its dies down and the flush that was under way cut off (R324, R325). -/
def exhausted (s : State) : State :=
  forgetSums (diesDown (norCut (overDies cutFlush s ((flushers s).filter (fun d => !s.guard.psu.flushed.contains d)))))

theorem exec_bankExhausted (h : s.guard.losing = true) : exec .bankExhausted s = .next
    { exhausted s with guard := { (exhausted s).guard with off := true, losing := false, lossDone := false } } := by
  have hexec : exec .bankExhausted s = execBankExhausted s := rfl
  rw [hexec, execBankExhausted, if_pos h, exhausted]

/-- Settles O41: the limit is published (`dirtyLimitUpdate_spec`); a power loss halts every die that flushes (`powerLoss_spec`); a die
that reports has flushed (`flushDie_spec`), and the last one ends the flush. -/
theorem powerLoss : Obligations.PowerLoss := by
  unfold Obligations.PowerLoss
  intro s
  refine ⟨fun vin vbank vhold low hoff => dirtyLimitUpdate_spec hoff, fun hoff hlosing => ?_, fun d hl hn hd hf => ⟨fun hmore => ?_, fun hlast => ?_⟩,
    fun hl hn hregs => ?_, fun hl => ?_, fun r hspace hoff hregs => ?_⟩
  · have hexec := exec_powerLoss hoff hlosing
    obtain ⟨hcut, hhalt⟩ := powerLoss_spec (s := s)
    generalize Machine.powerLoss s = t at hexec hcut hhalt
    unfold cutOff at hcut
    simp only [Prod.mk.injEq] at hcut
    obtain ⟨hlost, horOn, hbank⟩ := hcut
    refine ⟨t, hexec, hlost, horOn, hbank, fun hdeep d hd hm => ?_⟩
    obtain ⟨hring, hops, hkv, hjournal⟩ := hhalt hdeep d hd hm
    exact ⟨hring, hops, hkv, hjournal⟩
  · obtain ⟨e, he, hne, hnot⟩ := hmore
    have hall : (flushers s).all (fun e => (s.guard.psu.flushed ++ [d]).contains e) = false :=
      List.all_eq_false.2 ⟨e, he, by simp [hnot, hne]⟩
    have hguard := (Keeps.flushDie (d := d) (.rfl s)).guard
    rw [exec_dieFlushDone hl hn hd hf, hall, if_neg Bool.false_ne_true]
    refine ⟨_, rfl, ?_, ?_, fun hm => flushDie_spec hm⟩
    · exact congrArg (fun g : Guard => g.psu.flushed ++ [d]) hguard
    · exact (congrArg Guard.lossDone hguard).trans hn
  · have hall : (flushers s).all (fun e => (s.guard.psu.flushed ++ [d]).contains e) = true := by
      refine List.all_eq_true.2 fun e he => ?_
      rcases hlast e he with rfl | hin
      · simp
      · simp [hin]
    have hguard := (Keeps.flushDie (d := d) (.rfl s)).guard
    rw [exec_dieFlushDone hl hn hd hf, hall, if_pos rfl]
    have hlosing : (updPsu (flushDie s d) (fun p => { p with flushed := p.flushed ++ [d] })).guard.losing = true :=
      (congrArg Guard.losing hguard).trans hl
    generalize updPsu (flushDie s d) (fun p => { p with flushed := p.flushed ++ [d] }) = w at hlosing
    obtain ⟨hdone, hcut⟩ := lossEnd_guard (s := w)
    exact ⟨_, rfl, hdone, (congrArg (fun p => p.1) hcut : (lossEnd w).guard.losing = w.guard.losing).trans hlosing⟩
  · exact ⟨regFld s (greg Page.psu 0xAC) 1 1 1, exec_flushShort hl hn,
      regGet_regSet_self _ _ _ hregs, fun a ha => regGet_regSet_ne _ _ _ _ ha, rfl⟩
  · have hexec := exec_bankExhausted hl
    generalize exhausted s = u at hexec
    exact ⟨_, hexec, rfl, rfl⟩
  · refine ⟨lossInfoRead s, exec_psuLossInfoRead hspace hoff, rfl,
      regGet_regSet_self _ _ _ hregs, fun a ha => ?_, rfl, rfl⟩
    exact regGet_regSet_ne _ _ _ _ ha

end Sys2Proof.Placement
end

section
/-! ### PACKER_STRIPE -/
namespace Sys2Proof.Placement
open Sys2Proof Sys2Proof.Machine Sys2Proof.Laws Sys2Proof.Safety Sys2Proof.Access Sys2Proof.Reclaim
variable {s0 s t u : State} {d : DieId} {x y : Die} {e : RingEntry} {n m : Nat} {c : Cmd}

/-! #### The head of the ring -/

/-- Writes at the head of a die's ring have become durable: its flash is as it was, and its ring what is left (R207). -/
structure Drained (d : DieId) (s t : State) : Prop where
  flash : (t.die d).flash = (s.die d).flash
  ring  : (t.die d).map.ring <:+ (s.die d).map.ring

protected theorem Drained.rfl (s : State) : Drained d s s := ⟨rfl, List.suffix_refl _⟩

theorem Drained.trans (h : Drained d s t) (k : Drained d t u) : Drained d s u := ⟨k.flash.trans h.flash, k.ring.trans h.ring⟩

/-- The same flash and ring. -/
theorem Drained.of_eq (hf : (t.die d).flash = (s.die d).flash) (hr : (t.die d).map.ring = (s.die d).map.ring) : Drained d s t :=
  ⟨hf, hr ▸ List.suffix_refl _⟩

theorem drained_of_drained (h : drained (t.die d) = drained (s.die d)) : Drained d s t :=
  .of_eq (congrArg Die.flash h : (drained (t.die d)).flash = (drained (s.die d)).flash)
    (congrArg (fun x => x.map.ring) h : (drained (t.die d)).map.ring = (drained (s.die d)).map.ring)

theorem flash_complete {st aux ver len : Nat} {data : Bytes} : ((complete s d c st aux ver len data).die d).flash = (s.die d).flash := by
  rw [(complete_stores s d c st aux ver len data).flash d]
  unfold dropCmd
  rw [die_updDie_self]

theorem drained_freed {p : Payload} : Drained d s (freed s d p) := by
  have hshrink : Keeps upkept noInt s (retryShrink s d) := (Keeps.rfl s).retryShrink
  unfold freed
  split
  · exact drained_of_drained (drained_of_upkept (hshrink.die d))
  · exact drained_of_drained (drained_of_upkept (hshrink.die d))
  · exact .rfl s

/-- A write written through is acknowledged with its last record (R205). -/
theorem drained_ackThrough {v : Nat} : Drained d s (ackThrough s d e v) := by
  unfold ackThrough
  split
  · exact .rfl s
  · split
    · exact .rfl s
    · split
      · exact .rfl s
      · exact drained_freed.trans (.of_eq flash_complete (congrArg MapEng.ring Kocel.map_complete))

theorem drained_drainRing : Drained d s (drainRing n s d) := by
  induction n generalizing s with
  | zero => exact .rfl s
  | succ n ih =>
    unfold drainRing
    split
    · exact .rfl s
    · next e rest hring =>
      split
      · have hrest : Drained d s (s.updDie d (fun x => { x with map := { x.map with ring := rest } })) := by
          constructor <;> rw [die_updDie_self]
          rw [hring]
          exact List.suffix_cons e rest
        generalize s.updDie d (fun x => { x with map := { x.map with ring := rest } }) = u at hrest
        have hwrite : Drained d u (drainWrite u d e).1 := drained_of_drained ((Keeps.drainWrite (.rfl u)).die d)
        exact ((hrest.trans hwrite).trans drained_ackThrough).trans ih
      · exact .rfl s

/-! #### Staging -/

/-- n operations have been queued behind those of a die; its stripes in staging are as they were. -/
structure Programs (d : DieId) (n : Nat) (s t : State) : Prop where
  ops     : (t.die d).flash.ops.length = (s.die d).flash.ops.length + n
  stripes : (t.die d).flash.stripes = (s.die d).flash.stripes
  sid     : (t.die d).flash.nextSid = (s.die d).flash.nextSid

theorem Programs.trans (h : Programs d n s t) (k : Programs d m t u) : Programs d (n + m) s u :=
  ⟨by rw [k.ops, h.ops, Nat.add_assoc], k.stripes.trans h.stripes, k.sid.trans h.sid⟩

theorem programs_foldl {α : Type} {f : State → α → State} (hf : ∀ s a, Programs d 1 s (f s a)) (l : List α) (s : State) :
    Programs d l.length s (l.foldl f s) := by
  induction l generalizing s with
  | nil => exact ⟨rfl, rfl, rfl⟩
  | cons a l ih =>
    rw [List.length_cons, Nat.add_comm]
    exact (hf s a).trans (ih (f s a))

/-- One program for each member of a group (R265, R274). -/
theorem programs_queuePrograms {g : Machine.Group} {page run sid : Nat} {src : OpFrom} {fills : Nat → List (Nat × Nat)} :
    Programs d (members g.layout) s (queuePrograms s d g page run sid src fills) := by
  refine programs_foldl (fun u c => ?_) (chanList g.layout) s
  have hqueue : Programs d 1 u (queueOp u d .program src (locOf c g.num page 0 (!g.qlc)) false (some sid) (holdsParity g page run c) 0) := by
    constructor <;> (unfold queueOp; rw [die_updDie_self])
    exact List.length_append
  dsimp only
  generalize queueOp u d .program src (locOf c g.num page 0 (!g.qlc)) false (some sid) (holdsParity g page run c) 0 = w at hqueue
  refine Programs.trans (m := 0) hqueue ?_
  constructor <;> rw [die_updDie_self]
  exact List.length_map _

/-- The stripe of a group that goes into staging is at the group's first free place, with a program for each member to come. -/
structure StripeOf (s : State) (d : DieId) (g : Machine.Group) (st : Stripe) : Prop where
  sid     : st.sid = (s.die d).flash.nextSid
  group   : st.group = g.num
  first   : st.first = g.used
  qlc     : st.qlc = g.qlc
  left    : st.left = members g.layout
  forager : st.forager = false

theorem addStripe_spec {g : Machine.Group} {count : Nat} {l : List RingEntry} :
    ∃ st, StripeOf s d g st ∧ ((addStripe s d g g.used count l false).die d).flash.stripes = (s.die d).flash.stripes ++ [st]
      ∧ ((addStripe s d g g.used count l false).die d).flash.ops.length = (s.die d).flash.ops.length + members g.layout
      ∧ ((addStripe s d g g.used count l false).die d).flash.nextSid = (s.die d).flash.nextSid + 1 := by
  unfold addStripe
  extract_lets run sid writes tags st s1
  have hs1 : (s1.die d).flash = { (s.die d).flash with stripes := (s.die d).flash.stripes ++ [st], nextSid := sid + 1 } := by
    unfold s1
    rw [die_updDie_self]
  clear_value s1
  have hq := programs_queuePrograms (s := s1) (d := d) (g := g) (page := g.used / max 1 (stripeUnits s d g)) (run := run) (sid := sid)
    (src := if false then .forager else .packer) (fills := programFills s d g tags l)
  refine ⟨st, ⟨rfl, rfl, rfl, rfl, rfl, rfl⟩, ?_, ?_, ?_⟩
  · rw [hq.stripes, hs1]
  · rw [hq.ops, hs1]
  · rw [hq.sid, hs1]

/-- The packer puts the next stripe of an open group into staging (R207, R208). -/
theorem packStripe_spec {s1 : State} {head : RingEntry} {g : Machine.Group}
    (hhead : (s.die d).map.ring.find? (fun r => !fullyPlaced r) = some head)
    (hopen : openFor s d (wantsQlc s d head) false = some (g, s1)) :
    ∃ st, StripeOf s d g st ∧ ((packStripe s d).die d).flash.stripes = (s.die d).flash.stripes ++ [st]
      ∧ ((packStripe s d).die d).flash.ops.length = (s.die d).flash.ops.length + members g.layout
      ∧ ((packStripe s d).die d).flash.nextSid = (s.die d).flash.nextSid + 1 := by
  have hkept : Keeps upkept noInt s s1 := (Keeps.rfl s).openFor hopen
  have hflash1 : (s1.die d).flash = (s.die d).flash :=
    (congrArg Die.flash (hkept.die d) : (upkept (s1.die d)).flash = (upkept (s.die d)).flash)
  unfold packStripe
  rw [hhead]
  dsimp -zeta only
  extract_lets qlc
  rw [show openFor s d qlc false = some (g, s1) from hopen]
  dsimp -zeta only
  extract_lets sid stop ring r s2
  have hflash2 : (s2.die d).flash = (s.die d).flash := by
    unfold s2
    rw [die_updDie_self]
    exact hflash1
  clear_value s2
  obtain ⟨st, ⟨hsid, hgroup, hfirst, hqlc, hleft, hforager⟩, hstripes, hops, hnext⟩ :=
    addStripe_spec (s := s2) (d := d) (g := g) (count := r.2 - g.used) (l := r.1)
  rw [hflash2] at hsid hstripes hops hnext
  exact ⟨st, ⟨hsid, hgroup, hfirst, hqlc, hleft, hforager⟩, hstripes, hops, hnext⟩

/-- Settles O30: the packer queues the programs of one more stripe (`packStripe_spec`); draining what needs no stripe leaves the flash
alone (`drained_drainRing`). -/
theorem packerStripe : Obligations.PackerStripe := by
  unfold Obligations.PackerStripe
  intro s s1 d head g hrun hmode hhead hopen
  obtain ⟨st, ⟨hsid, hgroup, hfirst, hqlc, hleft, hforager⟩, hstripes, hops, hnext⟩ := packStripe_spec hhead hopen
  have hexec : exec (.packerStripe d) s = .next (drainRing ((s.die d).map.ring.length) (fgrReval (packStripe s d) d) d) :=
    congrArg Host.Outcome.next ((onDie_of_running hrun).trans (if_neg hmode))
  have hreval : ((fgrReval (packStripe s d) d).die d).flash = ((packStripe s d).die d).flash := by
    rw [die_fgrReval]
  have hflash : ((drainRing ((s.die d).map.ring.length) (fgrReval (packStripe s d) d) d).die d).flash = ((packStripe s d).die d).flash :=
    drained_drainRing.flash.trans hreval
  rw [← hflash] at hstripes hops hnext
  exact ⟨_, st, hexec, hstripes, hsid, hgroup, hfirst, hqlc, hleft, hforager, hops, hnext⟩

end Sys2Proof.Placement
end

section
/-! ### Stripes whose members program -/
namespace Sys2Proof.Placement
open Sys2Proof Sys2Proof.Machine Sys2Proof.Laws Sys2Proof.Safety Sys2Proof.Access Sys2Proof.Sched
variable {s0 s t u : State} {d : DieId} {x y : Die} {o : FlashOp} {op sid n : Nat} {q : Stripe}

theorem resumeLun_stripes : (resumeLun x o).flash.stripes = x.flash.stripes := by
  unfold resumeLun
  split <;> rfl

theorem endedOn_stripes {l : List NandCmd} : (endedOn o l x).stripes = x.flash.stripes :=
  resumeLun_stripes (x := dropOp (updChan x o.chan fun q => { q with sent := l }) o.op)

/-- A die beside its meters and the Forager. -/
def unmetered (x : Die) : Die := { x with mon := {}, fgr := {} }

/-- What a program has written is metered (R232, R379). -/
theorem Keeps.meterProgram (h : Keeps unmetered noInt s0 s) : Keeps unmetered noInt s0 (meterProgram s d o) := by
  unfold Machine.meterProgram
  extract_lets s1
  have hs1 : Keeps unmetered noInt s0 s1 := h.foldl fun _ _ hu => hu.updDie fun _ => rfl
  exact .ite (hs1.updDie fun _ => rfl) hs1

/-- A program has ended well on its LUN: it is gone from its die, whose stripes and map are as they were. -/
structure Programmed (s t : State) (d : DieId) (op : Nat) : Prop where
  gone    : opOf (t.die d) op = none
  stripes : (t.die d).flash.stripes = (s.die d).flash.stripes
  map     : (t.die d).map = (s.die d).map

theorem exec_programComplete (hrun : running s d = true) (ho : opOf (s.die d) op = some o) (hkind : o.kind = .program)
    (hon : o.running = true) (hpaused : o.paused = false) :
    ∃ t, exec (.flashProgramComplete d op true) s = .next (memberDone t d o) ∧ Programmed s t d op := by
  obtain ⟨l, hl⟩ := lunAnswered_opGone (s := s) (d := d) (o := o)
  have hid : o.op = op := op_of_opOf ho
  have hexec : exec (.flashProgramComplete d op true) s
      = .next (memberDone (meterProgram (lunAnswered (opGone s d o) d o) d o) d o) := by
    refine congrArg Host.Outcome.next ((onDie_of_running hrun).trans ?_)
    rw [ho]
    dsimp only
    rw [if_pos ⟨hkind, hon, hpaused⟩, if_pos rfl]
  have hland : Programmed s (s.updDie d fun x => { x with flash := endedOn o l x }) d op := by
    constructor <;> rw [die_updDie_self]
    · rw [← hid]
      exact opOf_endedOn
    · exact endedOn_stripes
  rw [hl] at hexec
  generalize (s.updDie d fun x => { x with flash := endedOn o l x }) = w at hexec hland
  have hkept : Keeps unmetered noInt w (meterProgram w d o) := (Keeps.rfl w).meterProgram
  generalize meterProgram w d o = t at hexec hkept
  have hflash : (t.die d).flash = (w.die d).flash :=
    (congrArg Die.flash (hkept.die d) : (unmetered (t.die d)).flash = (unmetered (w.die d)).flash)
  have hmap : (t.die d).map = (w.die d).map :=
    (congrArg Die.map (hkept.die d) : (unmetered (t.die d)).map = (unmetered (w.die d)).map)
  refine ⟨t, hexec, ?_, by rw [hflash, hland.stripes], by rw [hmap, hland.map]⟩
  have hgone := hland.gone
  unfold opOf at hgone ⊢
  rw [hflash]
  exact hgone

theorem sid_of_stripeOf (hq : stripeOf x sid = some q) : q.sid = sid := by simpa using List.find?_some hq

theorem memberDone_of_more (hs : o.stripe = some sid) (hq : stripeOf (s.die d) sid = some q) (hleft : q.left = n + 2) :
    memberDone s d o = s.updDie d (fun x => { x with flash := { x.flash with
      stripes := updWhere (fun p => p.sid == q.sid) (fun p => { p with left := p.left - 1 }) x.flash.stripes } }) := by
  unfold memberDone
  rw [hs, Option.bind_some, hq]
  exact if_neg (by omega)

theorem stripeOf_updWhere {f : Stripe → Stripe} (hf : ∀ p, (f p).sid = p.sid) (hq : stripeOf x sid = some q) :
    stripeOf { x with flash := { x.flash with stripes := updWhere (fun p => p.sid == sid) f x.flash.stripes } } sid = some (f q) := by
  have hkey : ((fun p : Stripe => p.sid == sid) ∘ fun p => if p.sid == sid then f p else p) = fun p => p.sid == sid := by
    funext p
    simp only [Function.comp]
    split
    · rw [hf]
    · rfl
  unfold stripeOf at hq ⊢
  unfold updWhere
  rw [List.find?_map, hkey, hq]
  exact congrArg some (if_pos (by simpa using List.find?_some hq))

/-- A die of which some groups have changed their state. -/
def ungrouped (x : Die) : Die := { x with groups := [] }

theorem Keeps.closeFull {g : Nat} (h : Keeps ungrouped noInt s0 s) : Keeps ungrouped noInt s0 (closeFull s d g) := by
  unfold Machine.closeFull
  split
  · exact h
  · exact .ite (h.updDie fun _ => rfl) h

/-- The last member of a host stripe: its staging is free, and no write of the ring waits for it (R207). -/
theorem stripeDone_spec (hforager : q.forager = false) : (∀ p ∈ ((stripeDone s d q).die d).flash.stripes, p.sid ≠ q.sid)
    ∧ ((stripeDone s d q).die d).flash.ops = (s.die d).flash.ops
    ∧ ∀ e ∈ ((stripeDone s d q).die d).map.ring, q.sid ∉ e.stripes := by
  unfold stripeDone
  extract_lets s1 s2
  have hs1 : (s1.die d).flash = { (s.die d).flash with stripes := (s.die d).flash.stripes.filter (fun p => p.sid != q.sid) }
      ∧ (s1.die d).map.ring = (s.die d).map.ring.map (fun e => if q.forager then e else { e with stripes := e.stripes.filter (· != q.sid) }) := by
    unfold s1
    rw [die_updDie_self]
    exact ⟨rfl, rfl⟩
  clear_value s1
  have hkept : Keeps ungrouped noInt s1 s2 := (Keeps.rfl s1).closeFull
  have hflash2 : (s2.die d).flash = (s1.die d).flash :=
    (congrArg Die.flash (hkept.die d) : (ungrouped (s2.die d)).flash = (ungrouped (s1.die d)).flash)
  have hmap2 : (s2.die d).map = (s1.die d).map :=
    (congrArg Die.map (hkept.die d) : (ungrouped (s2.die d)).map = (ungrouped (s1.die d)).map)
  have hdrain : Drained d s2 (drainRing ((s2.die d).map.ring.length) s2 d) := drained_drainRing
  have hflash := (hdrain.flash.trans hflash2).trans hs1.1
  refine ⟨fun p hp => ?_, by rw [hflash], fun e he => ?_⟩
  · rw [hflash] at hp
    simpa using (List.mem_filter.1 hp).2
  · have hin : e ∈ (s1.die d).map.ring := by
      rw [← hmap2]
      exact hdrain.ring.subset he
    rw [hs1.2, hforager] at hin
    obtain ⟨w, -, rfl⟩ := List.mem_map.1 hin
    simp

/-- The end of a good program of a member (R207, R274). -/
theorem programComplete_spec (hrun : running s d = true) (ho : opOf (s.die d) op = some o) (hkind : o.kind = .program)
    (hon : o.running = true) (hpaused : o.paused = false) (hs : o.stripe = some sid) (hq : stripeOf (s.die d) sid = some q) :
    (∀ n, q.left = n + 2 →
        ∃ t, exec (.flashProgramComplete d op true) s = .next t ∧ opOf (t.die d) op = none
          ∧ stripeOf (t.die d) sid = some { q with left := n + 1 } ∧ (t.die d).map = (s.die d).map)
      ∧ (q.left = 1 → q.forager = false →
        ∃ t, exec (.flashProgramComplete d op true) s = .next t ∧ opOf (t.die d) op = none ∧ stripeOf (t.die d) sid = none
          ∧ ∀ e ∈ (t.die d).map.ring, sid ∉ e.stripes) := by
  obtain ⟨w, hexec, hgone, hstripes, hmap⟩ := exec_programComplete hrun ho hkind hon hpaused
  have hqw : stripeOf (w.die d) sid = some q := by
    unfold stripeOf at hq ⊢
    rw [hstripes]
    exact hq
  have hsid : q.sid = sid := sid_of_stripeOf hq
  refine ⟨fun n hleft => ?_, fun hleft hforager => ?_⟩
  · rw [memberDone_of_more hs hqw hleft, hsid] at hexec
    refine ⟨_, hexec, ?_, ?_, ?_⟩
    all_goals rw [die_updDie_self]
    · exact hgone
    · rw [stripeOf_updWhere (f := fun p => { p with left := p.left - 1 }) (fun _ => rfl) hqw, hleft]
      rfl
    · exact hmap
  · have hdone : memberDone w d o = stripeDone w d q := by
      unfold memberDone
      rw [hs, Option.bind_some, hqw]
      exact if_pos (by omega)
    obtain ⟨hnone, hops, hring⟩ := stripeDone_spec (s := w) (d := d) hforager
    rw [hdone] at hexec
    rw [hsid] at hnone hring
    refine ⟨_, hexec, ?_, ?_, hring⟩
    · unfold opOf at hgone ⊢
      rw [hops]
      exact hgone
    · exact List.find?_eq_none.2 fun p hp => by simpa using hnone p hp

end Sys2Proof.Placement
end

section
/-! ### What an operation has still to issue -/
namespace Sys2Proof.Placement
open Sys2Proof Sys2Proof.Machine Sys2Proof.Laws Sys2Proof.Safety Sys2Proof.Access Sys2Proof.Sched
variable {s0 s t u : State} {d : DieId} {x y : Die} {o p : FlashOp} {op n k cost : Nat}

/-- Every operation older than a number runs: none of them waits for tokens (R506). -/
def olderRun (x : Die) (n : Nat) : Prop := ∀ p ∈ x.flash.ops, p.op < n → p.running = true

/-- An operation that is left on a die after another one has ended: what a suspension says of it may have changed (R286). -/
structure Resumed (p q : FlashOp) : Prop where
  op      : q.op = p.op
  kind    : q.kind = p.kind
  running : q.running = p.running
  group   : opGroup q = opGroup p

theorem mem_resumeLun {q : FlashOp} (hq : q ∈ (resumeLun x o).flash.ops) : ∃ p ∈ x.flash.ops, Resumed p q := by
  unfold resumeLun at hq
  split at hq
  · exact ⟨q, hq, rfl, rfl, rfl, rfl⟩
  · obtain ⟨p, hp, rfl⟩ := List.mem_map.1 hq
    refine ⟨p, hp, ?_⟩
    dsimp only
    split
    · split <;> exact ⟨rfl, rfl, rfl, rfl⟩
    · exact ⟨rfl, rfl, rfl, rfl⟩

/-- The operations left after one has ended. -/
theorem mem_ended {q : FlashOp} (hq : q ∈ (resumeLun (dropOp x n) o).flash.ops) : ∃ p ∈ x.flash.ops, p.op ≠ n ∧ Resumed p q := by
  obtain ⟨p, hp, hres⟩ := mem_resumeLun hq
  obtain ⟨hmem, hne⟩ := List.mem_filter.1 hp
  exact ⟨p, hmem, by simpa using hne, hres⟩

/-- Tokens are all that a die changes while an operation issues the reads that it owes (R506). -/
def unpaid (x : Die) : Die := { x with flash := { x.flash with balance := 0, spent := 0, credit := 0 } }

theorem Keeps.takeTokens (h : Keeps unpaid noInt s0 s) : Keeps unpaid noInt s0 (takeTokens s d o) := by
  unfold Machine.takeTokens
  exact h.updDie fun _ => rfl

theorem tokenTurn_of_olderRun (h : olderRun (s.die d) o.op) : tokenTurn s d o = true := by
  unfold tokenTurn
  rw [Bool.not_eq_true', List.any_eq_false]
  intro p hp
  by_cases hold : p.op < o.op
  · have hrun := h p hp hold
    simp [eligible, hrun]
  · simp [hold]

/-- A read in its turn that the balance covers takes its tokens (R242, R506). -/
theorem mayTake_read (hkind : p.kind = .read) (hturn : olderRun (s.die d) p.op) (hcost : (p.cost : Int) ≤ (s.die d).flash.balance) :
    mayTake s d p = true := by
  have hsplit : splitAllows s d p = true := if_pos hkind
  unfold mayTake
  rw [hsplit, tokenTurn_of_olderRun hturn]
  simp [hcost]

/-- The reads that an operation owes are all issued when its die affords them (R118, R506). -/
theorem takeDues_reads (h : o.urgent = true ∨ (olderRun (s.die d) o.op ∧ ((k * cost : Nat) : Int) ≤ (s.die d).flash.balance)) :
    (takeDues d o s (List.replicate k (.read, cost))).2 = []
      ∧ Keeps unpaid noInt s (takeDues d o s (List.replicate k (.read, cost))).1 := by
  induction k generalizing s with
  | zero => exact ⟨rfl, .rfl s⟩
  | succ k ih =>
    have htake : mayTake s d { o with kind := .read, cost := cost } = true := by
      rcases h with hurgent | ⟨hold, hbal⟩
      · unfold mayTake
        rw [hurgent, Bool.true_or]
      · refine mayTake_read rfl hold ?_
        dsimp only
        rw [Nat.succ_mul] at hbal
        omega
    have hnext : takeDues d o s (List.replicate (k + 1) (.read, cost))
        = takeDues d o (takeTokens s d { o with kind := .read, cost := cost }) (List.replicate k (.read, cost)) := if_pos htake
    have hpaid : Keeps unpaid noInt s (takeTokens s d { o with kind := .read, cost := cost }) := (Keeps.rfl s).takeTokens
    have hafter : o.urgent = true ∨ (olderRun ((takeTokens s d { o with kind := .read, cost := cost }).die d) o.op
        ∧ ((k * cost : Nat) : Int) ≤ ((takeTokens s d { o with kind := .read, cost := cost }).die d).flash.balance) := by
      refine h.imp id fun ⟨hold, hbal⟩ => ?_
      unfold Machine.takeTokens
      rw [die_updDie_self]
      refine ⟨hold, ?_⟩
      dsimp only
      rw [Nat.succ_mul] at hbal
      omega
    obtain ⟨hnone, hkept⟩ := ih hafter
    rw [hnext]
    exact ⟨hnone, hpaid.trans hkept⟩

/-- An operation that owes reads which its die affords ends at once. -/
theorem endLater_reads {fin : Ending}
    (h : o.urgent = true ∨ (olderRun (s.die d) o.op ∧ ((k * cost : Nat) : Int) ≤ (s.die d).flash.balance)) :
    ∃ t, endLater s d o (List.replicate k (.read, cost)) fin = endOp t d o fin ∧ Keeps unpaid noInt s t := by
  obtain ⟨hnone, hkept⟩ := takeDues_reads h
  refine ⟨_, ?_, hkept⟩
  unfold endLater
  dsimp only
  rw [hnone]
  rfl

end Sys2Proof.Placement
end

section
/-! ### Erases -/
namespace Sys2Proof.Placement
open Sys2Proof Sys2Proof.Machine Sys2Proof.Laws Sys2Proof.Safety Sys2Proof.Access Sys2Proof.Sched
variable {s0 s t u : State} {d : DieId} {x y : Die} {o p : FlashOp} {op n w : Nat} {g : Machine.Group}

theorem flash_of_upkept (h : upkept y = upkept x) : y.flash = x.flash :=
  (congrArg Die.flash h : (upkept y).flash = (upkept x).flash)

theorem jAppendTo_groups {tenant nsid : Nat} {b : JBody} : (jAppendTo x tenant nsid b).groups = x.groups :=
  view_foldl (ε := Die.groups) (f := markLeaf tenant nsid (x.map.jseq + 1)) (fun _ _ => rfl) _ _

/-- The policy of a die leaves its groups alone (R250, R251). -/
theorem Keeps.groups_applyPolicy (h : Keeps Die.groups noInt s0 s) : Keeps Die.groups noInt s0 (applyPolicy s d) := by
  have hstop : ∀ {u : State} {on : Bool}, Keeps Die.groups noInt s0 u → Keeps Die.groups noInt s0 (setSpaceStop u d on) := by
    intro u on hu
    unfold setSpaceStop
    exact .ite hu (Keeps.raiseInt (hu.updDie fun _ => rfl))
  have hshrink : Keeps Die.groups noInt s0 (shrink s d) := by
    unfold shrink
    extract_lets gb s1
    have hs1 : Keeps Die.groups noInt s0 s1 := h.updDie fun _ => jAppendTo_groups
    exact .ite (hstop hs1).raiseInt (hstop h)
  unfold applyPolicy reportReadOnly
  exact .ite h (.ite hshrink (.ite h (h.updDie fun _ => jAppendTo_groups)))

/-- A group that has been erased: FREE or taken into the rescue reserve, with a WEAR and without live data (R226). -/
def Erased (n w : Nat) (x : Die) : Prop :=
  ∃ g, groupOf x n = some g ∧ g.wear = w ∧ (g.st = .free ∨ g.st = .rescue) ∧ g.valid = 0

theorem Erased.congr (h : Erased n w x) (hg : y.groups = x.groups) : Erased n w y := by
  obtain ⟨g, hfind, hrest⟩ := h
  exact ⟨g, (Reclaim.groupOf_congr hg).trans hfind, hrest⟩

theorem groupOf_updGroup_ne {f : Machine.Group → Machine.Group} {m : Nat} (hf : ∀ g, (f g).num = g.num) (hne : n ≠ m) :
    groupOf (updGroup x m f) n = groupOf x n := by
  have hkey : ((fun g : Machine.Group => g.num == n) ∘ fun g => if g.num == m then f g else g) = fun g => g.num == n := by
    funext g
    simp only [Function.comp]
    split
    · rw [hf]
    · rfl
  unfold groupOf updGroup updWhere
  rw [List.find?_map, hkey]
  cases h : x.groups.find? (fun g => g.num == n) with
  | none => rfl
  | some g =>
    have hnum : g.num = n := by simpa using List.find?_some h
    exact congrArg some (if_neg (by simp [hnum, hne]))

theorem Erased.takeFree {m : Nat} (h : Erased n w x) (e : takeFree x .rescue false false 3 = some (m, y)) : Erased n w y := by
  unfold Machine.takeFree at e
  split at e
  · cases e
  · next g _ =>
    cases e
    refine Erased.congr ?_ jAppendTo_groups
    obtain ⟨q, hfind, hwear, hst, hvalid⟩ := h
    by_cases hn : n = g.num
    · subst hn
      exact ⟨_, (Reclaim.groupOf_updGroup fun _ => by rfl).trans (congrArg (Option.map _) hfind), hwear, .inr rfl, rfl⟩
    · exact ⟨q, (groupOf_updGroup_ne (fun _ => by rfl) hn).trans hfind, hwear, hst, hvalid⟩

theorem Erased.refillRescue {m : Nat} (h : Erased n w (s.die d)) : Erased n w ((refillRescue s d m).die d) := by
  induction m generalizing s with
  | zero => exact h
  | succ m ih =>
    unfold Machine.refillRescue
    dsimp only
    split
    · split
      · exact h
      · next hx => exact ih (by rw [die_setDie_self]; exact h.takeFree hx)
    · exact h

theorem Erased.fillRescue (h : Erased n w (s.die d)) : Erased n w ((fillRescue s d).die d) := by
  unfold Machine.fillRescue
  extract_lets s1
  have hs1 : Erased n w (s1.die d) := h.refillRescue
  clear_value s1
  split
  · exact hs1
  · exact hs1.congr ((Keeps.rfl s1).groups_applyPolicy.die d)

theorem fillRescue_flash : ((fillRescue s d).die d).flash = (s.die d).flash := flash_of_upkept ((Keeps.rfl s).fillRescue.die d)

theorem die_fgrReval : ((fgrReval s d).die d).groups = (s.die d).groups ∧ ((fgrReval s d).die d).flash = (s.die d).flash := by
  rw [Reclaim.die_fgrReval]
  exact ⟨rfl, rfl⟩

theorem die_endVictim : ((endVictim s d).die d).groups = (s.die d).groups ∧ ((endVictim s d).die d).flash = (s.die d).flash := by
  unfold endVictim
  rw [Reclaim.die_fgrReval, die_updDie_self]
  exact ⟨rfl, rfl⟩

/-- A die with a group that has been erased. -/
def eraseX (n good w : Nat) (x : Die) : Die :=
  updGroup (jAppendTo x 0 0 (.eraseDone n good)) n fun g => { g with
    st := .free
    qlc := false
    copy := false
    wear := g.wear + w
    valid := 0
    used := 0
    rebuild := false
    failed := false
    badCh := []
    purpose := 0 }

theorem erased_eraseX {good : Nat} (hg : groupOf x n = some g) : Erased n (g.wear + w) (eraseX n good w x) := by
  have hgroup : groupOf (jAppendTo x 0 0 (.eraseDone n good)) n = some g := (Reclaim.groupOf_congr jAppendTo_groups).trans hg
  exact ⟨_, (Reclaim.groupOf_updGroup fun _ => by rfl).trans (congrArg (Option.map _) hgroup), rfl, .inl rfl, rfl⟩

/-- The end of the erase of a group: the rescue reserve may take it, and the reclaim of a victim ends with it. -/
theorem eraseDone_eq : ∃ u : State, u.die d = eraseX g.num g.good (if g.qlc then dfld s d Page.fgr 0x58 7 0 else 1) (s.die d)
    ∧ eraseDone s d g = if (s.die d).fgr.victim = some g.num then endVictim (fillRescue u d) d else fgrReval (fillRescue u d) d := by
  refine ⟨_, ?_, rfl⟩
  generalize (if g.qlc then dfld s d Page.fgr 0x58 7 0 else 1) = w
  split
  · rw [raiseInt_die, die_updDie_self]
    rfl
  · rw [die_updDie_self]
    rfl

theorem eraseDone_flash : ((eraseDone s d g).die d).flash = (s.die d).flash := by
  obtain ⟨u, hu, heq⟩ := eraseDone_eq (s := s) (d := d) (g := g)
  have hflash : (u.die d).flash = (s.die d).flash := by
    rw [hu]
    exact flash_of_upkept upkept_jAppendTo
  rw [heq]
  split
  · exact die_endVictim.2.trans (fillRescue_flash.trans hflash)
  · exact die_fgrReval.2.trans (fillRescue_flash.trans hflash)

/-- The erase of a group is over (R226, R237, R239). -/
theorem eraseDone_spec (hg : groupOf (s.die d) g.num = some g) :
    Erased g.num (g.wear + (if g.qlc then dfld s d Page.fgr 0x58 7 0 else 1)) ((eraseDone s d g).die d) := by
  obtain ⟨u, hu, heq⟩ := eraseDone_eq (s := s) (d := d) (g := g)
  generalize (if g.qlc then dfld s d Page.fgr 0x58 7 0 else 1) = w at hu ⊢
  have herased : Erased g.num (g.wear + w) (u.die d) := hu ▸ erased_eraseX hg
  have hfill : Erased g.num (g.wear + w) ((fillRescue u d).die d) := herased.fillRescue
  rw [heq]
  split
  · exact hfill.congr die_endVictim.1
  · exact hfill.congr die_fgrReval.1

/-- The last good erase of a group that was to be erased (R239). -/
theorem eraseEnded_last (hg : groupOf (s.die d) (opGroup o) = some g) (hst : g.st = .erasePending)
    (hnone : ∀ p ∈ (s.die d).flash.ops, p.kind = .erase → opGroup p ≠ opGroup o) :
    eraseEnded s d o true = eraseDone (s.updDie d fun x => dropErases x (opGroup o)) d g
      ∧ dropErases (s.die d) (opGroup o) = s.die d := by
  have hdrop : dropErases (s.die d) (opGroup o) = s.die d := if_neg (by simp [hg, hst])
  have hdie : ((s.updDie d fun x => dropErases x (opGroup o)).die d) = s.die d := by
    rw [die_updDie_self, hdrop]
  refine ⟨?_, hdrop⟩
  unfold eraseEnded
  dsimp only
  rw [if_pos rfl, hdie, if_neg ?_, hg]
  · dsimp only
    rw [if_neg (by simp [hst]), if_pos hst]
  · rw [List.any_eq_true]
    rintro ⟨p, hp, hboth⟩
    simp only [Bool.and_eq_true, beq_iff_eq] at hboth
    exact hnone p hp hboth.1 hboth.2

theorem mem_endedOn {l : List NandCmd} {q : FlashOp} (hq : q ∈ (endedOn o l x).ops) : ∃ p ∈ x.flash.ops, p.op ≠ o.op ∧ Resumed p q :=
  mem_ended (x := updChan x o.chan fun q => { q with sent := l }) hq

theorem endedOn_balance {l : List NandCmd} : (endedOn o l x).balance = x.flash.balance := by
  unfold endedOn resumeLun
  split <;> rfl

theorem olderRun_endedOn {l : List NandCmd} (h : olderRun x n) : olderRun { x with flash := endedOn o l x } n := by
  intro q hq hold
  obtain ⟨p, hp, -, hres⟩ := mem_endedOn hq
  rw [hres.running]
  exact h p hp (hres.op ▸ hold)

theorem num_of_groupOf (hg : groupOf x n = some g) : g.num = n := by simpa using List.find?_some hg

/-- The last good erase of a group, with its check passed, makes the group FREE (R226, R237, R284). -/
theorem eraseComplete_spec (hrun : running s d = true) (ho : opOf (s.die d) op = some o) (hon : o.running = true)
    (hpaused : o.paused = false) (hkind : o.kind = .erase) (hg : groupOf (s.die d) (opGroup o) = some g) (hst : g.st = .erasePending)
    (hlast : ∀ p ∈ (s.die d).flash.ops, p.op ≠ op → p.kind = .erase → opGroup p ≠ opGroup o)
    (hpay : Affords (s.die d) o (2 * (if o.slc then 1 else wlPages s d) * opCost s d .read o.slc)) :
    ∃ t, exec (.flashEraseComplete d op true true true) s = .next t ∧ opOf (t.die d) op = none
      ∧ Erased (opGroup o) (g.wear + (if g.qlc then dfld s d Page.fgr 0x58 7 0 else 1)) (t.die d) := by
  obtain ⟨l, hl⟩ := lunAnswered_opGone (s := s) (d := d) (o := o)
  have hid : o.op = op := op_of_opOf ho
  have hexec : exec (.flashEraseComplete d op true true true) s
      = .next (endLater (lunAnswered (opGone s d o) d o) d o
          (List.replicate (2 * (if o.slc then 1 else wlPages s d)) (.read, opCost s d .read o.slc)) (.erase true)) := by
    refine congrArg Host.Outcome.next ((onDie_of_running hrun).trans ?_)
    rw [ho]
    dsimp only
    rw [if_pos ⟨hkind, hon, hpaused⟩]
    rfl
  generalize opCost s d .read o.slc = cost at hexec hpay
  generalize 2 * (if o.slc then 1 else wlPages s d) = k at hexec hpay
  rw [hl] at hexec
  have hops : ∀ q ∈ ((s.updDie d fun x => { x with flash := endedOn o l x }).die d).flash.ops,
      ∃ p ∈ (s.die d).flash.ops, p.op ≠ o.op ∧ Resumed p q := by
    intro q hq
    rw [die_updDie_self] at hq
    exact mem_endedOn hq
  have hgone : opOf ((s.updDie d fun x => { x with flash := endedOn o l x }).die d) op = none := by
    rw [die_updDie_self, ← hid]
    exact opOf_endedOn
  have hgroups : ((s.updDie d fun x => { x with flash := endedOn o l x }).die d).groups = (s.die d).groups := by
    rw [die_updDie_self]
  have hcan : o.urgent = true ∨ (olderRun ((s.updDie d fun x => { x with flash := endedOn o l x }).die d) o.op
      ∧ ((k * cost : Nat) : Int) ≤ ((s.updDie d fun x => { x with flash := endedOn o l x }).die d).flash.balance) := by
    rw [die_updDie_self]
    exact hpay.imp id fun ⟨hold, hbal⟩ => ⟨olderRun_endedOn hold, by rw [endedOn_balance]; exact hbal⟩
  have hregs : ∀ a, regGet (s.updDie d fun x => { x with flash := endedOn o l x }) a = regGet s a := fun _ => rfl
  generalize (s.updDie d fun x => { x with flash := endedOn o l x }) = w at hexec hops hgone hgroups hcan hregs
  obtain ⟨t, ht, hkept⟩ := endLater_reads (d := d) (fin := .erase true) hcan
  have hpaid : (t.die d).flash.ops = (w.die d).flash.ops ∧ (t.die d).groups = (w.die d).groups :=
    ⟨(congrArg (fun x => x.flash.ops) (hkept.die d) : (unpaid (t.die d)).flash.ops = (unpaid (w.die d)).flash.ops),
      (congrArg Die.groups (hkept.die d) : (unpaid (t.die d)).groups = (unpaid (w.die d)).groups)⟩
  have hgt : groupOf (t.die d) (opGroup o) = some g := (Reclaim.groupOf_congr (hpaid.2.trans hgroups)).trans hg
  have hnone : ∀ p ∈ (t.die d).flash.ops, p.kind = .erase → opGroup p ≠ opGroup o := by
    intro q hq hqk
    rw [hpaid.1] at hq
    obtain ⟨p, hp, hne, hres⟩ := hops q hq
    rw [hres.group]
    exact hlast p hp (fun h => hne (h.trans hid.symm)) (hres.kind ▸ hqk)
  obtain ⟨hended, hdrop⟩ := eraseEnded_last hgt hst hnone
  have hdie : ((t.updDie d fun x => dropErases x (opGroup o)).die d) = t.die d := by
    rw [die_updDie_self, hdrop]
  have hwear : dfld (t.updDie d fun x => dropErases x (opGroup o)) d Page.fgr 0x58 7 0 = dfld s d Page.fgr 0x58 7 0 := by
    have hreg : regGet t (dreg d Page.fgr 0x58) = regGet s (dreg d Page.fgr 0x58) :=
      (hkept.reg _ (by unfold noInt dreg; omega)).trans (hregs _)
    exact congrArg (fun v => fld v 7 0) hreg
  have hfin : endOp t d o (.erase true) = eraseDone (t.updDie d fun x => dropErases x (opGroup o)) d g := hended
  generalize (t.updDie d fun x => dropErases x (opGroup o)) = v at hfin hdie hwear
  have hnum : g.num = opGroup o := num_of_groupOf hg
  have herased := eraseDone_spec (s := v) (d := d) (g := g) (by rw [hdie, hnum]; exact hgt)
  rw [ht, hfin] at hexec
  rw [hwear, hnum] at herased
  refine ⟨_, hexec, ?_, herased⟩
  unfold opOf at hgone ⊢
  rw [eraseDone_flash, hdie, hpaid.1]
  exact hgone

end Sys2Proof.Placement
end

section
/-! ### Retirement of channels and LUNs -/
namespace Sys2Proof.Placement
open Sys2Proof Sys2Proof.Machine Sys2Proof.Laws Sys2Proof.Safety Sys2Proof.Access Sys2Proof.Sched
variable {s0 s t u : State} {d : DieId} {x y : Die} {o p q : FlashOp} {op n : Nat} {g : Machine.Group} {c : ChanId}
  {lun : Option (Nat × Nat)}

/-- An operation that is left, running only if it ran before. -/
structure Left (p q : FlashOp) : Prop where
  op      : q.op = p.op
  chan    : q.chan = p.chan
  kind    : q.kind = p.kind
  running : q.running = true → p.running = true

protected theorem Left.rfl (p : FlashOp) : Left p p := ⟨rfl, rfl, rfl, id⟩

protected theorem Left.trans (h : Left o p) (k : Left p q) : Left o q :=
  ⟨k.op.trans h.op, k.chan.trans h.chan, k.kind.trans h.kind, fun hq => h.running (k.running hq)⟩

/-- Of a die's flash some operations are gone; its channels are as they were. -/
structure FewerX (x y : Die) : Prop where
  chans : y.flash.chans = x.flash.chans
  ops   : ∀ q ∈ y.flash.ops, ∃ p ∈ x.flash.ops, Left p q

theorem FewerX.of_flash (h : y.flash = x.flash) : FewerX x y := ⟨by rw [h], fun q hq => ⟨q, h ▸ hq, .rfl q⟩⟩

theorem FewerX.trans {z : Die} (h : FewerX x y) (k : FewerX y z) : FewerX x z := by
  refine ⟨k.chans.trans h.chans, fun q hq => ?_⟩
  obtain ⟨p, hp, hpq⟩ := k.ops q hq
  obtain ⟨o, ho, hop⟩ := h.ops p hp
  exact ⟨o, ho, hop.trans hpq⟩

theorem FewerX.filter {f : FlashOp → Bool} : FewerX x { x with flash := { x.flash with ops := x.flash.ops.filter f } } :=
  ⟨rfl, fun q hq => ⟨q, (List.mem_filter.1 hq).1, .rfl q⟩⟩

theorem FewerX.map {f : FlashOp → FlashOp} (hf : ∀ q, Left q (f q)) :
    FewerX x { x with flash := { x.flash with ops := x.flash.ops.map f } } := by
  refine ⟨rfl, fun q hq => ?_⟩
  obtain ⟨p, hp, rfl⟩ := List.mem_map.1 hq
  exact ⟨p, hp, hf p⟩

/-- The same of a die in a state. -/
def Fewer (d : DieId) (s t : State) : Prop := FewerX (s.die d) (t.die d)

protected theorem Fewer.rfl (s : State) : Fewer d s s := .of_flash rfl

protected theorem Fewer.trans (h : Fewer d s t) (k : Fewer d t u) : Fewer d s u := FewerX.trans h k

theorem Fewer.of_flash (h : (t.die d).flash = (s.die d).flash) : Fewer d s t := FewerX.of_flash h

theorem Fewer.updDie {f : Die → Die} (hf : FewerX (s.die d) (f (s.die d))) : Fewer d s (s.updDie d f) := by
  unfold Fewer
  rw [die_updDie_self]
  exact hf

protected theorem Fewer.foldl {α : Type} {f : State → α → State} (hf : ∀ t a, Fewer d t (f t a)) (l : List α) (s : State) :
    Fewer d s (l.foldl f s) :=
  List.foldlRecOn l f (.rfl s) fun t ht a _ => ht.trans (hf t a)

theorem opOf_of_fewer (h : FewerX x y) (ho : opOf x op = none) : opOf y op = none := by
  refine List.find?_eq_none.2 fun q hq => ?_
  obtain ⟨p, hp, hleft⟩ := h.ops q hq
  have hne : ¬ (p.op == op) = true := List.find?_eq_none.1 ho p hp
  rw [hleft.op]
  exact hne

theorem fewer_stores (h : Stores s t) : Fewer d s t := .of_flash (h.flash d)

theorem fewer_recordErr {base code off : Nat} : Fewer d s (recordErr s base code off) := fewer_stores (CombIndex.stores_recordErr ..)

theorem fewer_recordEvent {e : DieId} {code v : Nat} : Fewer d s (recordEvent s e code v) := fewer_stores (CombIndex.stores_recordEvent ..)

theorem fewer_journalPut {b : CjBody} : Fewer d s (journalPut s b) := .of_flash (congrArg Die.flash Kocel.journalPut_die)

theorem fewer_regBump {a k : Nat} : Fewer d s (regBump s a k) := fewer_stores (stores_regBump ..)

theorem fewer_raiseInt {base bit : Nat} : Fewer d s (raiseInt s base bit) := fewer_stores (stores_raiseInt ..)

/-! #### Stripes, groups and erases -/

theorem fewer_dropStripe {sid : Nat} : FewerX x (dropStripe x sid) := by
  refine ⟨rfl, fun q hq => ?_⟩
  obtain ⟨p, hp, rfl⟩ := List.mem_map.1 hq
  refine ⟨p, (List.mem_filter.1 hp).1, ?_⟩
  split <;> exact ⟨rfl, rfl, rfl, id⟩

theorem fewer_recopy : FewerX x (recopy x) := by
  have hfold : ∀ (l : List Stripe) (x : Die), FewerX x (l.foldl (fun x t => dropStripe x t.sid) x) := fun l x =>
    List.foldlRecOn (motive := fun y => FewerX x y) l _ (.of_flash rfl) fun y hy t _ => hy.trans fewer_dropStripe
  exact (hfold _ x).trans (.of_flash rfl)

theorem fewer_loseStripe {q : Stripe} : Fewer d s (loseStripe s d q) := by
  unfold loseStripe
  refine .updDie ?_
  split
  · exact fewer_recopy
  · exact fewer_dropStripe.trans (.of_flash rfl)

theorem fewer_closeFull : Fewer d s (closeFull s d n) := by
  have hkept : Keeps ungrouped noInt s (closeFull s d n) := (Keeps.rfl s).closeFull
  exact .of_flash (congrArg Die.flash (hkept.die d) : (ungrouped ((closeFull s d n).die d)).flash = (ungrouped (s.die d)).flash)

theorem fewer_programFail : Fewer d s (programFail s d o) := by
  unfold programFail
  extract_lets s1 s2 s3
  have hs1 : Fewer d s s1 := .updDie (.of_flash rfl)
  have hs2 : Fewer d s s2 := by
    unfold s2
    cases o.stripe.bind (stripeOf (s.die d)) with
    | none => exact hs1
    | some q => exact hs1.trans fewer_loseStripe
  have hs3 : Fewer d s s3 := hs2.trans fewer_closeFull
  clear_value s3
  split
  · exact hs3
  · exact hs3

theorem fewer_applyPolicy : Fewer d s (applyPolicy s d) := .of_flash (flash_of_upkept ((Keeps.rfl s).applyPolicy.die d))

theorem fewer_retireBlock {chan : Nat} : Fewer d s (retireBlock s d n chan) := by
  unfold retireBlock
  extract_lets s1 s2 s3
  have hs1 : Fewer d s s1 := .updDie (.of_flash (flash_of_upkept (upkept_jAppendTo.trans upkept_fgr)))
  have hs2 : Fewer d s s2 := (hs1.trans fewer_regBump).trans (fewer_recordEvent.trans fewer_raiseInt)
  clear_value s2
  have hs3 : Fewer d s s3 := by
    unfold s3
    cases groupOf (s2.die d) n with
    | none => exact hs2
    | some g =>
      dsimp only
      split
      · exact (hs2.trans fewer_regBump).trans (.updDie (.of_flash (flash_of_upkept upkept_jAppendTo)))
      · exact hs2
  exact hs3.trans fewer_applyPolicy

theorem fewer_dropErases : FewerX x (dropErases x n) := by
  unfold dropErases
  split
  · exact .filter
  · exact .of_flash rfl

theorem fewer_eraseEnded {ok : Bool} : Fewer d s (eraseEnded s d o ok) := by
  unfold eraseEnded
  extract_lets n s1
  have hs1 : Fewer d s s1 := by
    have hblock : Fewer d s (if ok then s else retireBlock s d n o.chan.val) := by
      split
      · exact .rfl s
      · exact fewer_retireBlock
    exact hblock.trans (.updDie fewer_dropErases)
  clear_value s1
  split
  · exact hs1
  · split
    · exact hs1
    · split
      · split
        · exact hs1.trans (.of_flash die_endVictim.2)
        · exact hs1.trans (.of_flash die_fgrReval.2)
      · split
        · exact hs1.trans (.of_flash eraseDone_flash)
        · exact hs1

theorem fewer_narrowGroups : Fewer d s (narrowGroups s d c lun) := by
  unfold narrowGroups
  extract_lets old s1 gone
  have hs1 : Fewer d s s1 := .updDie (.of_flash rfl)
  refine hs1.trans (.foldl (fun u g => ?_) _ _)
  exact fewer_regBump.trans (.updDie (.of_flash (flash_of_upkept upkept_jAppendTo)))

theorem fewer_closeUsers : Fewer d s (closeUsers s d c lun) := .foldl (fun _ _ => fewer_closeFull) _ _

/-! #### After a retirement -/

/-- The operations that a retirement leaves: on what has been retired only reads, and none that runs (R291). -/
def afterOps (c : ChanId) (lun : Option (Nat × Nat)) (x : Die) : Die :=
  { x with flash := { x.flash with ops := (x.flash.ops.filter (fun o => !(opOn o c lun && o.kind != .read))).map (fun o =>
      if opOn o c lun then { o with running := false } else o) } }

theorem fewer_afterOps : FewerX x (afterOps c lun x) := by
  refine ⟨rfl, fun q hq => ?_⟩
  obtain ⟨p, hp, rfl⟩ := List.mem_map.1 hq
  refine ⟨p, (List.mem_filter.1 hp).1, ?_⟩
  split
  · exact ⟨rfl, rfl, rfl, fun h => by cases h⟩
  · exact .rfl p

/-- On a channel no program and no erase is left, and nothing runs. -/
def Quiet (c : ChanId) (x : Die) : Prop := ∀ o ∈ x.flash.ops, o.chan = c → o.kind = .read ∧ o.running = false

theorem quiet_afterOps : Quiet c (afterOps c none x) := by
  intro q hq hc
  obtain ⟨p, hp, rfl⟩ := List.mem_map.1 hq
  have hon : opOn p c none = true := by
    have hpc : p.chan = c := by
      split at hc <;> exact hc
    simp [opOn, hpc]
  have hkind := (List.mem_filter.1 hp).2
  rw [if_pos hon]
  exact ⟨by simpa [hon] using hkind, rfl⟩

theorem Quiet.fewer (h : Quiet c x) (k : FewerX x y) : Quiet c y := by
  intro q hq hc
  obtain ⟨p, hp, hleft⟩ := k.ops q hq
  obtain ⟨hkind, hrun⟩ := h p hp (hleft.chan ▸ hc)
  refine ⟨hleft.kind.trans hkind, ?_⟩
  cases hr : q.running with
  | false => rfl
  | true => exact absurd (hleft.running hr) (by simp [hrun])

/-- The steps of a retirement around the one that takes the operations away. -/
theorem afterRetire_steps : ∃ v, Fewer d s v ∧ Fewer d (v.updDie d (afterOps c lun)) (afterRetire s d c lun) := by
  unfold afterRetire
  extract_lets lost s1 s2 erases s3 s4
  have hs1 : Fewer d s s1 := .foldl (fun _ _ => fewer_loseStripe) _ _
  refine ⟨narrowGroups s1 d c lun, hs1.trans fewer_narrowGroups, ?_⟩
  have hs2 : Fewer d ((narrowGroups s1 d c lun).updDie d (afterOps c lun)) s2 := .rfl _
  clear_value s2
  have hs3 : Fewer d s2 s3 := .foldl (fun _ _ => fewer_eraseEnded) _ _
  have hs4 : Fewer d s3 s4 := fewer_closeUsers
  clear_value s4
  refine ((hs2.trans hs3).trans hs4).trans ?_
  split
  · exact fewer_applyPolicy.trans (.of_flash die_fgrReval.2)
  · exact .rfl _

theorem fewer_afterRetire : Fewer d s (afterRetire s d c lun) := by
  obtain ⟨v, hv, hafter⟩ := afterRetire_steps (s := s) (d := d) (c := c) (lun := lun)
  exact (hv.trans (.updDie fewer_afterOps)).trans hafter

theorem quiet_afterRetire : Quiet c ((afterRetire s d c none).die d) := by
  obtain ⟨v, hv, hafter⟩ := afterRetire_steps (s := s) (d := d) (c := c) (lun := none)
  refine Quiet.fewer ?_ hafter
  rw [die_updDie_self]
  exact quiet_afterOps

theorem get_updChan {f : Chan → Chan} : (updChan x c f).flash.chans.get c = f (x.flash.chans.get c) :=
  (get_vset _ _ _ _).trans (if_pos rfl)

/-- A channel that is retired (R288, R291). -/
theorem retireChannel_spec (h : ((s.die d).flash.chans.get c).st ≠ .retired) :
    (((retireChannel s d c).die d).flash.chans.get c).st = .retired ∧ Quiet c ((retireChannel s d c).die d) := by
  unfold retireChannel
  rw [if_neg h]
  extract_lets s1 s2
  have hs1 : ((s1.die d).flash.chans.get c).st = .retired := by
    unfold s1
    rw [die_updDie_self, get_updChan]
  have hs2 : Fewer d s1 s2 := (fewer_journalPut.trans fewer_raiseInt).trans fewer_recordEvent
  refine ⟨?_, quiet_afterRetire⟩
  rw [(hs2.trans fewer_afterRetire).chans]
  exact hs1

/-- A LUN that is retired (R287, R292): of its channel nothing else changes, and no operation comes to the die. -/
theorem retireLun_spec {ce l : Nat} : lunRetired ((retireLun s d c ce l).die d) c ce l = true
    ∧ (∃ r, ((retireLun s d c ce l).die d).flash.chans.get c
        = { (s.die d).flash.chans.get c with retired := ((s.die d).flash.chans.get c).retired ++ r })
    ∧ ∀ q ∈ ((retireLun s d c ce l).die d).flash.ops, ∃ p ∈ (s.die d).flash.ops, Left p q := by
  unfold retireLun
  split
  · next h => exact ⟨h, ⟨[], by simp⟩, fun q hq => ⟨q, hq, .rfl q⟩⟩
  · extract_lets s1 s2
    have hs1 : (s1.die d).flash.chans.get c
        = { (s.die d).flash.chans.get c with retired := ((s.die d).flash.chans.get c).retired ++ [ce * 16 + l] }
        ∧ (s1.die d).flash.ops = (s.die d).flash.ops := by
      unfold s1
      rw [die_updDie_self, get_updChan]
      exact ⟨rfl, rfl⟩
    clear_value s1
    have hs2 : Fewer d s1 s2 := (fewer_journalPut.trans fewer_raiseInt).trans fewer_recordEvent
    have hafter : Fewer d s1 (afterRetire s2 d c (some (ce, l))) := hs2.trans fewer_afterRetire
    generalize afterRetire s2 d c (some (ce, l)) = t at hafter
    refine ⟨?_, ⟨[ce * 16 + l], ?_⟩, fun q hq => ?_⟩
    · unfold lunRetired
      rw [hafter.chans, hs1.1]
      simp
    · rw [hafter.chans, hs1.1]
    · obtain ⟨p, hp, hleft⟩ := hafter.ops q hq
      exact ⟨p, hs1.2 ▸ hp, hleft⟩

end Sys2Proof.Placement
end

section
/-! ### Faults of channels and LUNs -/
namespace Sys2Proof.Placement
open Sys2Proof Sys2Proof.Machine Sys2Proof.Laws Sys2Proof.Safety Sys2Proof.Access Sys2Proof.Sched
variable {s0 s t u : State} {d : DieId} {x y : Die} {o p q : FlashOp} {op n k cid : Nat} {c : ChanId} {bad : List Nat}

/-! #### A timeout -/

/-- The flash of a die on which an operation has ended, its LUN's run of timeouts not considered (R286). -/
def goneOn (o : FlashOp) (l : List NandCmd) (x : Die) : Flash :=
  (resumeLun (dropOp (updChan x o.chan fun q => { q with sent := l }) o.op) o).flash

theorem opGone_eq : ∃ l, opGone s d o = s.updDie d fun x => { x with flash := goneOn o l x } := by
  refine ⟨endCmds s d o ++ resumeCmds s d (dropOp (s.die d) o.op) o, ?_⟩
  unfold opGone sendNand
  dsimp only
  rw [Kocel.updDie_updDie]
  congr 1
  funext x
  rw [resumeLun_keeps]
  rfl

theorem opOf_goneOn {l : List NandCmd} : opOf { x with flash := goneOn o l x } o.op = none :=
  opOf_resumeLun (x := dropOp (updChan x o.chan fun q => { q with sent := l }) o.op) opOf_dropOp

theorem resumeLun_chans : (resumeLun x o).flash.chans = x.flash.chans := by
  unfold resumeLun
  split <;> rfl

/-- Of the channels only what they have sent last changes. -/
theorem goneOn_chan {l : List NandCmd} : ∃ m, (goneOn o l x).chans.get c = { x.flash.chans.get c with sent := m } := by
  have hchans : (goneOn o l x).chans = (updChan x o.chan fun q => { q with sent := l }).flash.chans := resumeLun_chans
  rw [hchans]
  by_cases hc : c = o.chan
  · rw [hc, get_updChan]
    exact ⟨l, rfl⟩
  · refine ⟨(x.flash.chans.get c).sent, ?_⟩
    exact (get_vset _ _ _ _).trans (if_neg hc)

theorem fewer_timedOut (hkind : o.kind ≠ .read) : Fewer d s (timedOut s d o) := by
  unfold timedOut
  split
  · next h => exact absurd h hkind
  · exact fewer_programFail
  · exact fewer_eraseEnded

/-- A die on which an operation has timed out: its LUN counts the timeout (R287). -/
def timeoutX (o : FlashOp) (n : Nat) (l m : List NandCmd) (x : Die) : Die :=
  updChan (updChan { x with flash := goneOn o l x } o.chan fun q => { q with sent := m }) o.chan fun q =>
    { q with timeouts := assocSet (o.ce * 16 + o.lun) n q.timeouts }

theorem assocGet_assocSet {α β : Type} [DecidableEq α] (a : α) (b : β) (l : List (α × β)) : assocGet a (assocSet a b l) = some b := by
  induction l with
  | nil => exact if_pos rfl
  | cons q l ih =>
    obtain ⟨a', b'⟩ := q
    unfold assocSet
    split
    · exact if_pos rfl
    · next hne => exact (if_neg hne).trans ih

theorem exec_lunTimeout (hrun : running s d = true) (ho : opOf (s.die d) op = some o) (hon : o.running = true) (hkind : o.kind ≠ .read)
    (hn : n = (assocGet (o.ce * 16 + o.lun) ((s.die d).flash.chans.get o.chan).timeouts).getD 0 + 1) :
    ∃ l m v, Fewer d (s.updDie d (timeoutX o n l m)) v
      ∧ exec (.lunTimeout d op) s = .next (if 3 ≤ n then retireLun v d o.chan o.ce o.lun else v) := by
  obtain ⟨l, hl⟩ := opGone_eq (s := s) (d := d) (o := o)
  have hs1 : (sendNand (opGone s d o) d o.chan [timeoutCmd d o]).updDie d (fun x =>
      updChan x o.chan (fun c => { c with timeouts := assocSet (o.ce * 16 + o.lun) n c.timeouts }))
      = s.updDie d (timeoutX o n l [timeoutCmd d o]) := by
    rw [hl]
    unfold sendNand
    rw [Kocel.updDie_updDie, Kocel.updDie_updDie]
    rfl
  refine ⟨l, [timeoutCmd d o], timedOut (recordErr (raiseInt (regBump (s.updDie d (timeoutX o n l [timeoutCmd d o]))
    (fchReg d o.chan 0x90) 1) (fchReg d o.chan 0) 5) (fchReg d o.chan 0) 0x82 (o.ce * 16 + o.lun)) d o, ?_, ?_⟩
  · exact (fewer_regBump.trans (fewer_raiseInt.trans fewer_recordErr)).trans (fewer_timedOut hkind)
  · refine congrArg Host.Outcome.next ((onDie_of_running hrun).trans ?_)
    rw [ho]
    dsimp only
    rw [if_pos hon, ← hn, hs1]

theorem lunTimeout_spec (hrun : running s d = true) (ho : opOf (s.die d) op = some o) (hon : o.running = true) (hkind : o.kind ≠ .read)
    (hn : n = (assocGet (o.ce * 16 + o.lun) ((s.die d).flash.chans.get o.chan).timeouts).getD 0 + 1) :
    ∃ t, exec (.lunTimeout d op) s = .next t ∧ opOf (t.die d) op = none
      ∧ assocGet (o.ce * 16 + o.lun) ((t.die d).flash.chans.get o.chan).timeouts = some n
      ∧ (3 ≤ n → lunRetired (t.die d) o.chan o.ce o.lun = true) := by
  obtain ⟨l, m, v, hv, hexec⟩ := exec_lunTimeout hrun ho hon hkind hn
  have hgone : opOf (v.die d) op = none := by
    refine opOf_of_fewer hv ?_
    rw [die_updDie_self, ← op_of_opOf ho]
    exact opOf_goneOn (x := s.die d)
  have hcount : assocGet (o.ce * 16 + o.lun) ((v.die d).flash.chans.get o.chan).timeouts = some n := by
    rw [hv.chans, die_updDie_self]
    unfold timeoutX
    rw [get_updChan]
    exact assocGet_assocSet _ _ _
  refine ⟨_, hexec, ?_⟩
  by_cases h3 : 3 ≤ n
  · rw [if_pos h3]
    obtain ⟨hretired, ⟨r, hchan⟩, hops⟩ := retireLun_spec (s := v) (d := d) (c := o.chan) (ce := o.ce) (l := o.lun)
    refine ⟨List.find?_eq_none.2 fun q hq => ?_, by rw [hchan]; exact hcount, fun _ => hretired⟩
    obtain ⟨p, hp, hleft⟩ := hops q hq
    rw [hleft.op]
    exact List.find?_eq_none.1 hgone p hp
  · rw [if_neg h3]
    exact ⟨hgone, hcount, fun h => absurd h h3⟩

/-! #### A stuck R/B line -/

theorem rbStuck_spec {ce : Fin 4} (hrun : running s d = true) (hst : ((s.die d).flash.chans.get c).st ≠ .retired) :
    ∃ t, exec (.rbStuck d ⟨c, ce⟩) s = .next t ∧ ((t.die d).flash.chans.get c).st = .retired ∧ Quiet c (t.die d) := by
  have hexec : exec (.rbStuck d ⟨c, ce⟩) s = .next (retireChannel (recordErr s (fchReg d c 0) 0x81 (ce.val * 16)) d c) :=
    congrArg Host.Outcome.next ((onDie_of_running hrun).trans (if_neg hst))
  have herr : Fewer d s (recordErr s (fchReg d c 0) 0x81 (ce.val * 16)) := fewer_recordErr
  exact ⟨_, hexec, retireChannel_spec (by rw [herr.chans]; exact hst)⟩

/-! #### Retraining -/

/-- Of a channel some LUNs more are retired; nothing else of it has changed. -/
def MoreRetired (c : ChanId) (x y : Die) : Prop :=
  ∃ r, y.flash.chans.get c = { x.flash.chans.get c with retired := (x.flash.chans.get c).retired ++ r }

theorem MoreRetired.rfl (x : Die) : MoreRetired c x x := ⟨[], by simp⟩

theorem MoreRetired.trans {z : Die} (h : MoreRetired c x y) (m : MoreRetired c y z) : MoreRetired c x z := by
  obtain ⟨r, hr⟩ := h
  obtain ⟨r', hr'⟩ := m
  exact ⟨r ++ r', by rw [hr', hr, List.append_assoc]⟩

theorem MoreRetired.lun {ce l : Nat} (h : MoreRetired c x y) (hx : lunRetired x c ce l = true) : lunRetired y c ce l = true := by
  obtain ⟨r, hr⟩ := h
  unfold lunRetired at hx ⊢
  rw [hr]
  simp only [List.contains_eq_mem, decide_eq_true_eq] at hx ⊢
  exact List.mem_append_left _ hx

/-- A LUN that fails its identification is retired (R263, R292). -/
theorem refuseLun_spec (hst : ((s.die d).flash.chans.get c).st ≠ .retired) :
    MoreRetired c (s.die d) ((refuseLun s d c k).die d) ∧ lunRetired ((refuseLun s d c k).die d) c (k / 16) (k % 16) = true := by
  unfold refuseLun
  split
  · next h =>
    simp only [Bool.or_eq_true, decide_eq_true_eq] at h
    exact ⟨.rfl _, h.resolve_left hst⟩
  · have herr : Fewer d s (recordErr s (fchReg d c 0) 0x83 k) := fewer_recordErr
    generalize recordErr s (fchReg d c 0) 0x83 k = v at herr
    obtain ⟨hretired, ⟨r, hchan⟩, -⟩ := retireLun_spec (s := v) (d := d) (c := c) (ce := k / 16) (l := k % 16)
    exact ⟨⟨r, by rw [hchan, herr.chans]⟩, hretired⟩

theorem refuseAll_spec (hst : ((s.die d).flash.chans.get c).st ≠ .retired) :
    MoreRetired c (s.die d) ((bad.foldl (fun s k => refuseLun s d c k) s).die d)
      ∧ ∀ k ∈ bad, lunRetired ((bad.foldl (fun s k => refuseLun s d c k) s).die d) c (k / 16) (k % 16) = true := by
  induction bad generalizing s with
  | nil => exact ⟨.rfl _, fun _ h => by cases h⟩
  | cons k bad ih =>
    obtain ⟨hmore, hretired⟩ := refuseLun_spec (k := k) hst
    have hst' : (((refuseLun s d c k).die d).flash.chans.get c).st ≠ .retired := by
      obtain ⟨r, hr⟩ := hmore
      rw [hr]
      exact hst
    obtain ⟨hall, hrest⟩ := ih hst'
    refine ⟨hmore.trans hall, fun j hj => ?_⟩
    rcases List.mem_cons.1 hj with rfl | hj
    · exact hall.lun hretired
    · exact hrest j hj

/-- A state with the LUNs of a channel identified and the channel's training over (R263, R290). -/
def identified (s : State) (d : DieId) (c : ChanId) (bad : List Nat) : State :=
  let s0 := bad.foldl (fun s k => refuseLun s d c k) s
  raiseInt (regBump (sendNand s0 d c (trainCmds s0 d c)) (fchReg d c 0x98) 1) (fchReg d c 0) 2

theorem identified_spec (hst : ((s.die d).flash.chans.get c).st = .training) :
    ∃ r l, ((identified s d c bad).die d).flash.chans.get c
        = { (s.die d).flash.chans.get c with retired := ((s.die d).flash.chans.get c).retired ++ r, sent := l }
      ∧ ∀ k ∈ bad, lunRetired ((identified s d c bad).die d) c (k / 16) (k % 16) = true := by
  unfold identified
  obtain ⟨⟨r, hr⟩, hall⟩ := refuseAll_spec (bad := bad) (c := c) (s := s) (d := d) (by rw [hst]; decide)
  dsimp only
  generalize bad.foldl (fun s k => refuseLun s d c k) s = v at hr hall
  have hchan : (((sendNand v d c (trainCmds v d c)).die d).flash.chans.get c)
      = { (v.die d).flash.chans.get c with sent := trainCmds v d c } := by
    unfold sendNand
    rw [die_updDie_self, get_updChan]
  have hdie : (raiseInt (regBump (sendNand v d c (trainCmds v d c)) (fchReg d c 0x98) 1) (fchReg d c 0) 2).die d
      = (sendNand v d c (trainCmds v d c)).die d := rfl
  rw [hdie]
  refine ⟨r, trainCmds v d c, by rw [hchan, hr], fun k hk => ?_⟩
  have hk' := hall k hk
  unfold lunRetired at hk' ⊢
  rw [hchan]
  exact hk'

theorem exec_retrainDone {ok : Bool} (hrun : running s d = true) (hst : ((s.die d).flash.chans.get c).st = .training)
    (hbusy : ∀ i < 4, rbBusy (s.die d) c i = false) :
    exec (.channelRetrainDone d c ok bad) s = .next
      (if ok then (repeatHeld (channelTrained (identified s d c bad) d c) d c).updDie d
          (fun x => updChan x c (fun q => { q with st := .inService, failed := 0, heldOp := none }))
      else
        let s2 := recordErr ((identified s d c bad).updDie d (fun x => updChan x c (fun q => { q with failed := q.failed + 1 })))
          (fchReg d c 0) 0x80 0
        if 3 ≤ ((s.die d).flash.chans.get c).failed + 1 then retireChannel s2 d c else s2) := by
  have hidle : (List.range 4).any (rbBusy (s.die d) c) = false :=
    List.any_eq_false.2 fun i hi => by simp [hbusy i (List.mem_range.1 hi)]
  exact congrArg Host.Outcome.next ((onDie_of_running hrun).trans (if_pos ⟨hst, hidle⟩))

/-- Repeating the operation held changes of the channel only what it has sent last (R289). -/
theorem repeatHeld_chan : ∃ l, ((repeatHeld s d c).die d).flash.chans.get c = { (s.die d).flash.chans.get c with sent := l } := by
  unfold repeatHeld
  split
  · exact ⟨_, rfl⟩
  · split
    · exact ⟨_, rfl⟩
    · split
      · exact ⟨_, rfl⟩
      · next n _ _ o _ _ =>
        dsimp only
        have hs1 : ((s.updDie d (fun x => updOp' x n (fun q => { q with retries := q.retries + 1 }))).die d).flash.chans
            = (s.die d).flash.chans := by
          rw [die_updDie_self]
          rfl
        generalize s.updDie d (fun x => updOp' x n (fun q => { q with retries := q.retries + 1 })) = v at hs1
        split
        · refine ⟨startCmds v d o, ?_⟩
          rw [die_updDie_self]
          unfold sendNand takeTokens
          rw [die_updDie_self, die_updDie_self, ← hs1]
          exact (get_vset (v.die d).flash.chans c c _).trans (if_pos rfl)
        · exact ⟨((s.die d).flash.chans.get c).sent, by rw [hs1]⟩

/-- The operation held is repeated, at once when it is of a funded dispatch (R118, R289). -/
theorem repeatHeld_op (hheld : ((s.die d).flash.chans.get c).heldOp = some n) (ho : opOf (s.die d) n = some o)
    (hlun : lunRetired (s.die d) c o.ce o.lun = false) :
    ∃ o', opOf ((repeatHeld s d c).die d) n = some o' ∧ o'.retries = o.retries + 1 ∧ (o.urgent = true → o'.running = true) := by
  have hid : (o.op == n) = true := by simpa using op_of_opOf ho
  unfold repeatHeld
  rw [hheld]
  dsimp only
  rw [ho]
  dsimp only
  rw [hlun, if_neg Bool.false_ne_true]
  have hs1 : opOf ((s.updDie d (fun x => updOp' x n (fun q => { q with retries := q.retries + 1 }))).die d) n
      = some { o with retries := o.retries + 1 } := by
    rw [die_updDie_self, opOf_updOp' fun _ => by rfl, ho]
    exact congrArg some (if_pos hid)
  generalize s.updDie d (fun x => updOp' x n (fun q => { q with retries := q.retries + 1 })) = v at hs1
  split
  · refine ⟨{ o with retries := o.retries + 1, running := true, since := (v.die d).mon.devTime }, ?_, rfl, fun _ => rfl⟩
    rw [die_updDie_self]
    unfold sendNand takeTokens
    rw [die_updDie_self, die_updDie_self]
    refine (opOf_updOp' fun _ => by rfl).trans ?_
    have hsame : opOf (updChan { v.die d with flash := { (v.die d).flash with
        balance := (v.die d).flash.balance - o.cost
        spent := (v.die d).flash.spent + o.cost
        credit := creditAfter v d o } } c fun q => { q with sent := startCmds v d o }) n = opOf (v.die d) n := rfl
    rw [hsame, hs1]
    exact congrArg some (if_pos hid)
  · next hmay =>
    refine ⟨_, hs1, rfl, fun hurgent => absurd ?_ hmay⟩
    unfold mayTake
    rw [hurgent, Bool.true_or]

end Sys2Proof.Placement
end

section
/-! ### Retraining, and reads served by rebuild -/
namespace Sys2Proof.Placement
open Sys2Proof Sys2Proof.Machine Sys2Proof.Laws Sys2Proof.Safety Sys2Proof.Access Sys2Proof.Sched
variable {s t u : State} {d : DieId} {x y : Die} {o : FlashOp} {op n cid : Nat} {c : ChanId} {bad : List Nat} {k : Cmd}

/-- A trained channel runs in the mode and at the rate of FCH_IF (R261). -/
theorem channelTrained_spec : ((channelTrained s d c).die d).flash.chans.get c
      = { (s.die d).flash.chans.get c with mode := fld (regGet s (fchReg d c 0x40)) 19 16, rate := fld (regGet s (fchReg d c 0x40)) 15 0 }
    ∧ ((channelTrained s d c).die d).flash.ops = (s.die d).flash.ops := by
  unfold channelTrained
  dsimp only
  rw [die_updDie_self]
  exact ⟨get_updChan, rfl⟩

/-- The channel and the operations of a die once a training that no LUN has failed is over. -/
theorem identified_nil : (∃ l, ((identified s d c []).die d).flash.chans.get c = { (s.die d).flash.chans.get c with sent := l })
    ∧ ((identified s d c []).die d).flash.ops = (s.die d).flash.ops
    ∧ regGet (identified s d c []) (fchReg d c 0x40) = regGet s (fchReg d c 0x40) := by
  have hregs : ∀ off, off ≠ 0x40 → fchReg d c 0x40 ≠ fchReg d c off := by
    intro off hoff
    unfold fchReg dreg
    omega
  have hint : fchReg d c 0x40 ≠ fchReg d c 0 + 0x10 := by
    unfold fchReg dreg
    omega
  have hdie : (identified s d c []).die d = updChan (s.die d) c fun q => { q with sent := trainCmds s d c } := by
    have hsend : (identified s d c []).die d = (sendNand s d c (trainCmds s d c)).die d := rfl
    rw [hsend]
    unfold sendNand
    rw [die_updDie_self]
  refine ⟨⟨trainCmds s d c, by rw [hdie, get_updChan]⟩, by rw [hdie]; rfl, ?_⟩
  exact (regGet_regSet_ne _ _ _ _ hint).trans (regGet_regSet_ne _ _ _ _ (hregs 0x98 (by decide)))

/-- A training that succeeds brings the channel back, and the operation held is repeated (R260, R261, R289, R290). -/
theorem retrain_held (hrun : running s d = true) (hst : ((s.die d).flash.chans.get c).st = .training)
    (hbusy : ∀ i < 4, rbBusy (s.die d) c i = false) (hheld : ((s.die d).flash.chans.get c).heldOp = some n)
    (ho : opOf (s.die d) n = some o) (hlun : lunRetired (s.die d) c o.ce o.lun = false) :
    ∃ t o', exec (.channelRetrainDone d c true []) s = .next t ∧ ((t.die d).flash.chans.get c).st = .inService
      ∧ ((t.die d).flash.chans.get c).failed = 0
      ∧ ((t.die d).flash.chans.get c).mode = fld (regGet s (fchReg d c 0x40)) 19 16
      ∧ ((t.die d).flash.chans.get c).rate = fld (regGet s (fchReg d c 0x40)) 15 0
      ∧ opOf (t.die d) n = some o' ∧ o'.retries = o.retries + 1 ∧ (o.urgent = true → o'.running = true) := by
  have hexec := exec_retrainDone (ok := true) (bad := []) hrun hst hbusy
  rw [if_pos rfl] at hexec
  obtain ⟨⟨l, hl⟩, hops, hreg⟩ := identified_nil (s := s) (d := d) (c := c)
  generalize identified s d c [] = v at hexec hl hops hreg
  obtain ⟨hchan, hops'⟩ := channelTrained_spec (s := v) (d := d) (c := c)
  generalize channelTrained v d c = w at hexec hchan hops'
  rw [hl, hreg] at hchan
  have hheldw : ((w.die d).flash.chans.get c).heldOp = some n := by rw [hchan]; exact hheld
  have how : opOf (w.die d) n = some o := by
    unfold opOf at ho ⊢
    rw [hops', hops]
    exact ho
  have hlunw : lunRetired (w.die d) c o.ce o.lun = false := by
    unfold lunRetired at hlun ⊢
    rw [hchan]
    exact hlun
  obtain ⟨o', ho', hretries, hurgent⟩ := repeatHeld_op hheldw how hlunw
  obtain ⟨m, hm⟩ := repeatHeld_chan (s := w) (d := d) (c := c)
  generalize repeatHeld w d c = z at hexec ho' hm
  refine ⟨_, o', hexec, ?_, ?_, ?_, ?_, ?_, hretries, hurgent⟩
  all_goals rw [die_updDie_self]
  · rw [get_updChan]
  · rw [get_updChan]
  · rw [get_updChan, hm, hchan]
  · rw [get_updChan, hm, hchan]
  · exact ho'

/-- The LUNs that fail identification are retired meanwhile (R263, R290, R292). -/
theorem retrain_back (hrun : running s d = true) (hst : ((s.die d).flash.chans.get c).st = .training)
    (hbusy : ∀ i < 4, rbBusy (s.die d) c i = false) :
    ∃ t, exec (.channelRetrainDone d c true bad) s = .next t ∧ ((t.die d).flash.chans.get c).st = .inService
      ∧ ((t.die d).flash.chans.get c).heldOp = none ∧ ∀ k ∈ bad, lunRetired (t.die d) c (k / 16) (k % 16) = true := by
  have hexec := exec_retrainDone (ok := true) (bad := bad) hrun hst hbusy
  rw [if_pos rfl] at hexec
  obtain ⟨r, l, -, hbad⟩ := identified_spec (bad := bad) hst
  generalize identified s d c bad = v at hexec hbad
  obtain ⟨hchan, -⟩ := channelTrained_spec (s := v) (d := d) (c := c)
  generalize channelTrained v d c = w at hexec hchan
  obtain ⟨m, hm⟩ := repeatHeld_chan (s := w) (d := d) (c := c)
  generalize repeatHeld w d c = z at hexec hm
  refine ⟨_, hexec, ?_, ?_, fun k hk => ?_⟩
  · rw [die_updDie_self, get_updChan]
  · rw [die_updDie_self, get_updChan]
  · have hk' := hbad k hk
    unfold lunRetired at hk' ⊢
    rw [die_updDie_self, get_updChan, hm, hchan]
    exact hk'

/-- A training that fails is counted (R288, R290). -/
theorem retrain_failed (hrun : running s d = true) (hst : ((s.die d).flash.chans.get c).st = .training)
    (hbusy : ∀ i < 4, rbBusy (s.die d) c i = false) (hfew : ((s.die d).flash.chans.get c).failed < 2) :
    ∃ t, exec (.channelRetrainDone d c false bad) s = .next t ∧ ((t.die d).flash.chans.get c).st = .training
      ∧ ((t.die d).flash.chans.get c).failed = ((s.die d).flash.chans.get c).failed + 1
      ∧ ∀ k ∈ bad, lunRetired (t.die d) c (k / 16) (k % 16) = true := by
  have hexec := exec_retrainDone (ok := false) (bad := bad) hrun hst hbusy
  rw [if_neg Bool.false_ne_true] at hexec
  dsimp only at hexec
  rw [if_neg (by omega)] at hexec
  obtain ⟨r, l, hchan, hbad⟩ := identified_spec (bad := bad) hst
  generalize identified s d c bad = v at hexec hchan hbad
  have hcount : ((v.updDie d (fun x => updChan x c (fun q => { q with failed := q.failed + 1 }))).die d).flash.chans.get c
      = { (v.die d).flash.chans.get c with failed := ((v.die d).flash.chans.get c).failed + 1 } := by
    rw [die_updDie_self, get_updChan]
  generalize v.updDie d (fun x => updChan x c (fun q => { q with failed := q.failed + 1 })) = w at hexec hcount
  have herr : Fewer d w (recordErr w (fchReg d c 0) 0x80 0) := fewer_recordErr
  generalize recordErr w (fchReg d c 0) 0x80 0 = z at hexec herr
  refine ⟨z, hexec, ?_, ?_, fun k hk => ?_⟩
  · rw [herr.chans, hcount, hchan]
    exact hst
  · rw [herr.chans, hcount, hchan]
  · have hk' := hbad k hk
    unfold lunRetired at hk' ⊢
    rw [herr.chans, hcount]
    exact hk'

/-! #### A read that waits on a channel out of service -/

theorem mem_goneOn {l : List NandCmd} {q : FlashOp} (hq : q ∈ (goneOn o l x).ops) : ∃ p ∈ x.flash.ops, p.op ≠ o.op ∧ Resumed p q :=
  mem_ended (x := updChan x o.chan fun q => { q with sent := l }) hq

theorem goneOn_balance {l : List NandCmd} : (goneOn o l x).balance = x.flash.balance := by
  unfold goneOn resumeLun
  split <;> rfl

theorem inService_goneOn {l : List NandCmd} {ce m : Nat} : inService { x with flash := goneOn o l x } c ce m = inService x c ce m := by
  obtain ⟨r, hr⟩ := goneOn_chan (o := o) (l := l) (x := x) (c := c)
  unfold inService lunRetired
  dsimp only
  rw [hr]

/-- The members of a rebuild are a matter of the groups and of what is in service (R277). -/
theorem missingMembers_congr (hg : y.groups = x.groups) (hs : ∀ c ce m, inService y c ce m = inService x c ce m) :
    missingMembers y o = missingMembers x o ∧ memberReads y o = memberReads x o := by
  have hmissing : missingMembers y o = missingMembers x o := by
    unfold missingMembers otherMembers
    simp only [Reclaim.groupOf_congr hg, hs]
  refine ⟨hmissing, ?_⟩
  unfold memberReads otherMembers
  rw [hmissing, Reclaim.groupOf_congr hg]

/-- A read served by rebuild when every other member is in service and the reads go: its command waits for one read fewer (R277, R290,
R291). -/
theorem degradedRead_spec (hrun : running s d = true) (ho : opOf (s.die d) op = some o) (hkind : o.kind = .read)
    (hwaits : o.running = false) (hout : inService (s.die d) o.chan o.ce o.lun = false) (hsrc : o.src = .host cid)
    (hk : cmdOf (s.die d) cid = some k) (hphase : k.phase = .reading) (hreads : k.reads = n + 2)
    (hmissing : missingMembers (s.die d) o = 0) (hpay : Affords (s.die d) o (memberReads (s.die d) o * o.cost)) :
    ∃ t, exec (.degradedReadTimeout d op) s = .next t ∧ opOf (t.die d) op = none
      ∧ cmdOf (t.die d) cid = some { k with reads := n + 1 } ∧ t.draws = s.draws := by
  obtain ⟨l, hl⟩ := opGone_eq (s := s) (d := d) (o := o)
  have hid : o.op = op := op_of_opOf ho
  have hexec : exec (.degradedReadTimeout d op) s = .next (servedByRebuild (regBump (opGone s d o) (dreg d Page.ldc 0x90) 1) d o) := by
    refine congrArg Host.Outcome.next ((onDie_of_running hrun).trans ?_)
    rw [ho]
    dsimp only
    rw [if_pos ⟨hkind, hwaits, hout⟩]
  have hdie : (regBump (opGone s d o) (dreg d Page.ldc 0x90) 1).die d = { s.die d with flash := goneOn o l (s.die d) } := by
    have hbump : (regBump (opGone s d o) (dreg d Page.ldc 0x90) 1).die d = (opGone s d o).die d := rfl
    rw [hbump, hl, die_updDie_self]
  have hdraws : (regBump (opGone s d o) (dreg d Page.ldc 0x90) 1).draws = s.draws := by
    rw [hl]
    rfl
  generalize regBump (opGone s d o) (dreg d Page.ldc 0x90) 1 = w at hexec hdie hdraws
  obtain ⟨hmissw, hreadsw⟩ := missingMembers_congr (x := s.die d) (y := w.die d) (o := o) (by rw [hdie])
    (fun c ce m => by rw [hdie]; exact inService_goneOn)
  have hcan : o.urgent = true ∨ (olderRun (w.die d) o.op ∧ ((memberReads (w.die d) o * o.cost : Nat) : Int) ≤ (w.die d).flash.balance) := by
    rw [hreadsw, hdie]
    refine hpay.imp id fun ⟨hold, hbal⟩ => ⟨fun q hq hlt => ?_, by dsimp only; rw [goneOn_balance]; exact hbal⟩
    obtain ⟨p, hp, -, hres⟩ := mem_goneOn hq
    rw [hres.running]
    exact hold p hp (hres.op ▸ hlt)
  have hserve : servedByRebuild w d o = endLater w d o (List.replicate (memberReads (w.die d) o) (.read, o.cost)) .rebuild := by
    unfold servedByRebuild
    rw [hsrc]
  obtain ⟨t, ht, hkept⟩ := endLater_reads (d := d) (fin := .rebuild) hcan
  have hflash : (t.die d).flash.ops = (w.die d).flash.ops ∧ (t.die d).flash.chans = (w.die d).flash.chans
      ∧ (t.die d).groups = (w.die d).groups ∧ (t.die d).csq = (w.die d).csq :=
    ⟨(congrArg (fun x => x.flash.ops) (hkept.die d) : (unpaid (t.die d)).flash.ops = (unpaid (w.die d)).flash.ops),
      (congrArg (fun x => x.flash.chans) (hkept.die d) : (unpaid (t.die d)).flash.chans = (unpaid (w.die d)).flash.chans),
      (congrArg Die.groups (hkept.die d) : (unpaid (t.die d)).groups = (unpaid (w.die d)).groups),
      (congrArg Die.csq (hkept.die d) : (unpaid (t.die d)).csq = (unpaid (w.die d)).csq)⟩
  obtain ⟨hops, hchans, hgroups, hcsq⟩ := hflash
  have hmisst : missingMembers (t.die d) o = 0 := by
    refine ((missingMembers_congr (x := w.die d) (y := t.die d) (o := o) hgroups fun c ce m => ?_).1.trans hmissw).trans hmissing
    unfold inService lunRetired
    rw [hchans]
  have hdrawst : t.draws = s.draws :=
    (congrArg State.draws hkept.rest : (outside t).draws = (outside w).draws).trans hdraws
  have hkt : cmdOf (t.die d) cid = some k := by
    rw [Kocel.cmdOf_congr (hcsq.trans (by rw [hdie]))]
    exact hk
  have hgone : opOf (t.die d) op = none := by
    have hgw : opOf (w.die d) op = none := by
      rw [hdie, ← hid]
      exact opOf_goneOn
    unfold opOf at hgw ⊢
    rw [hops]
    exact hgw
  have hend : endOp t d o .rebuild = readEnded (chargeRead t d k o.cws) d cid true := by
    have hrebuild : rebuild t d o = (true, t) := by
      unfold rebuild
      rw [hmisst]
      rfl
    show rebuildEnded t d o = _
    unfold rebuildEnded readResult
    rw [hrebuild, hsrc]
    dsimp only
    rw [if_pos rfl, hkt]
  obtain ⟨-, hcmds, hcharged, -⟩ := chargeRead_keeps (s := t) (d := d) (c := k) (units := o.cws)
  have hdrawsc : (chargeRead t d k o.cws).draws = t.draws := rfl
  generalize chargeRead t d k o.cws = z at hend hcmds hcharged hdrawsc
  have hkz : cmdOf (z.die d) cid = some k := (cmdOf_congr_cmds hcmds).trans hkt
  rw [readEnded_waits hkz hphase hreads] at hend
  rw [hserve, ht, hend] at hexec
  refine ⟨_, hexec, ?_, Kocel.cmdOf_putCmd_of_cmdOf hkz rfl, hdrawsc.trans hdrawst⟩
  unfold putCmd
  rw [die_updDie_self]
  unfold opOf at hgone ⊢
  dsimp only
  rw [hcharged]
  exact hgone

/-- Settles O34: programs (`programComplete_spec`) and erases (`eraseComplete_spec`) that end well; timeouts, stuck lines, retraining and
reads served by rebuild. -/
theorem flashWrites : Obligations.FlashWrites := by
  unfold Obligations.FlashWrites
  refine ⟨fun s d op o hrun ho hon hpaused => ⟨fun sid q hkind hs hq => ?_, fun g hkind hg hst hlast hpay => ?_⟩,
    fun s d hrun => ⟨fun op o n ho hon hkind hn => ?_, fun c ce hst => ?_, fun c hst hbusy => ⟨fun n o hheld ho hlun => ?_, fun bad => ?_,
      fun hfew bad => ?_⟩, fun op o cid k n ho hkind hwaits hout hsrc hk hphase hreads hmissing hpay => ?_⟩⟩
  · exact programComplete_spec hrun ho hkind hon hpaused hs hq
  · obtain ⟨t, hexec, hgone, g', hg', hwear, hst', hvalid⟩ := eraseComplete_spec hrun ho hon hpaused hkind hg hst hlast hpay
    exact ⟨t, g', hexec, hgone, hg', hwear, hst', hvalid⟩
  · exact lunTimeout_spec hrun ho hon hkind hn
  · exact rbStuck_spec hrun hst
  · exact retrain_held hrun hst hbusy hheld ho hlun
  · exact retrain_back hrun hst hbusy
  · exact retrain_failed hrun hst hbusy hfew
  · exact degradedRead_spec hrun ho hkind hwaits hout hsrc hk hphase hreads hmissing hpay

end Sys2Proof.Placement
end

section
/-! ### What a die holds of its namespaces -/
namespace Sys2Proof.Placement
open Sys2Proof Sys2Proof.Machine Sys2Proof.Laws Sys2Proof.Safety Sys2Proof.Access Sys2Proof.Kocel
variable {s0 s t u : State} {d e : DieId} {x y : Die} {c : Cmd} {st tenant nsid : Nat}

/-- What a die holds of its namespaces: the map's entries, namespaces and ring, COMB, and the keys. -/
def listing (x : Die) : Die :=
  { ({} : Die) with
    map := { ({} : MapEng) with
      kv := x.map.kv
      dense := x.map.dense
      nstab := x.map.nstab
      ring := x.map.ring
      mounted := x.map.mounted }
    comb := x.comb
    cry := { x.cry with pipes := [] }
    hashKeys := x.hashKeys }

theorem listing_of_rooted (h : rooted y = rooted x) : listing y = listing x :=
  (congrArg listing h : listing (rooted y) = listing (rooted x))

theorem listing_of_upkept (h : upkept y = upkept x) : listing y = listing x :=
  (congrArg listing h : listing (upkept y) = listing (upkept x))

theorem front_of_rooted (h : rooted y = rooted x) : front y = front x :=
  (congrArg front h : front (rooted y) = front (rooted x))

theorem listing_of_stores (h : Stores s t) : listing (t.die e) = listing (s.die e) := by
  unfold listing
  rw [h.map, h.comb, h.keys, h.cry]

/-- A command that is answered leaves what the dies hold alone. -/
theorem listing_fail : listing ((fail s d c st).die e) = listing (s.die e) := by
  refine (listing_of_stores (complete_stores ..)).trans ?_
  unfold dropCmd
  rw [die_updDie]
  split
  · next he => exact he ▸ rfl
  · rfl

theorem pkg_fail : (fail s d c st).pkg = s.pkg := (complete_stores ..).pkg

/-- Answering commands leaves what the dies hold, and the package, alone. -/
theorem listing_failAll (l : List Cmd) (s : State) : (∀ e, listing ((l.foldl (fun s c => fail s d c st) s).die e) = listing (s.die e))
    ∧ (l.foldl (fun s c => fail s d c st) s).pkg = s.pkg :=
  List.foldlRecOn (motive := fun t : State => (∀ e, listing (t.die e) = listing (s.die e)) ∧ t.pkg = s.pkg) l _ ⟨fun _ => rfl, rfl⟩
    fun _ ht _ _ => ⟨fun e => listing_fail.trans (ht.1 e), pkg_fail.trans ht.2⟩

/-- A root on each die that runs leaves everything else of the dies alone. -/
theorem Keeps.rootsNow (h : Keeps rooted noReg s0 s) : Keeps rooted noReg s0 (rootsNow s) :=
  overDies_keeps (P := Keeps rooted noReg s0) (fun _ _ ht => .ite ht.checkpoint ht) _ h

/-! ### NS_DELETE -/

/-- Nothing of a namespace is left on a die: neither its entry nor its map nor its XTS key (R341). -/
def Forgotten (tenant nsid : Nat) (x : Die) : Prop :=
  nsOf x tenant nsid = none
    ∧ (∀ q ∈ x.map.kv, ¬(q.tenant = tenant ∧ q.nsid = nsid))
    ∧ (∀ q ∈ x.map.dense, ¬(q.tenant = tenant ∧ q.nsid = nsid)) ∧ xtsSlot x.cry tenant nsid = none

theorem Forgotten.congr (h : Forgotten tenant nsid x) (hl : listing y = listing x) : Forgotten tenant nsid y :=
  (hl ▸ (h : Forgotten tenant nsid (listing x)) : Forgotten tenant nsid (listing y))

/-- Erasing data slots brings no key back. -/
theorem Forgotten.eraseData {p : DataSlot → Bool} (h : Forgotten tenant nsid x) :
    Forgotten tenant nsid { x with cry := eraseData x.cry p } := by
  obtain ⟨hns, hkv, hdense, hxts⟩ := h
  refine ⟨hns, hkv, hdense, List.find?_eq_none.2 fun k hk => ?_⟩
  exact List.find?_eq_none.1 hxts k (List.mem_filter.1 hk).1

theorem Forgotten.updDie {f : Die → Die} (hf : ∀ x, Forgotten tenant nsid x → Forgotten tenant nsid (f x))
    (h : Forgotten tenant nsid (s.die e)) : Forgotten tenant nsid ((s.updDie d f).die e) := by
  rw [die_updDie]
  split
  · next he => exact hf _ (he ▸ h)
  · exact h

theorem forgotten_forgetNs : Forgotten tenant nsid (forgetNs x tenant nsid) := by
  refine ⟨List.find?_eq_none.2 fun q hq => ?_, fun q hq ⟨ht, hn⟩ => ?_, fun q hq ⟨ht, hn⟩ => ?_, List.find?_eq_none.2 fun k hk => ?_⟩
  · simpa only [Bool.not_eq_true, Bool.not_eq_eq_eq_not, Bool.not_true] using (List.mem_filter.1 hq).2
  · simpa [ht, hn] using (List.mem_filter.1 hq).2
  · simpa [ht, hn] using (List.mem_filter.1 hq).2
  · simpa only [Bool.not_eq_true, Bool.not_eq_eq_eq_not, Bool.not_true] using (List.mem_filter.1 hk).2

/-- The removal of a namespace leaves nothing of it on a die that runs (R341). -/
theorem forgotten_removeNs (hrun : running s e = true) : Forgotten tenant nsid ((removeNs s tenant nsid).die e) := by
  refine overDies_brings (P := fun t => Forgotten tenant nsid (t.die e)) (fun t => ?_) (fun t f ht => ?_) (upDies s) s
    (.inl (mem_upDies.2 hrun))
  · rw [die_updDie_self]
    exact forgotten_forgetNs
  · rw [die_updDie]
    split
    · exact forgotten_forgetNs
    · exact ht.congr ((listing_failAll _ t).1 e)

theorem die_journalDel {b : CjBody} : (journalDel s b).die e = s.die e :=
  congrArg (fun v : Vector Die 8 => v.get e) (rfl : (journalDel s b).dies = s.dies)

theorem forgotten_dropGen {gen n : Nat} (h : Forgotten tenant nsid (s.die e)) :
    Forgotten tenant nsid ((dropGen s n gen).die e) := by
  unfold dropGen
  rw [die_journalDel]
  refine overDies_keeps (P := fun t => Forgotten tenant nsid (t.die e)) (fun t f ht => ?_) allDies h
  exact ht.updDie fun x hx => hx.eraseData

theorem forgotten_forgetTenant {n : Nat} (h : Forgotten tenant nsid (s.die e)) :
    Forgotten tenant nsid ((forgetTenant s n).die e) := by
  unfold forgetTenant
  extract_lets s1
  have hs1 : Forgotten tenant nsid (s1.die e) := by
    refine overDies_keeps (P := fun t => Forgotten tenant nsid (t.die e)) (fun t f ht => ?_) allDies h
    exact ht.updDie fun x hx => hx
  exact List.foldlRecOn (motive := fun t : State => Forgotten tenant nsid (t.die e)) _ _ hs1 fun _ ht _ _ => forgotten_dropGen ht

/-- Deleting a namespace leaves nothing of it on a die that runs. -/
theorem forgotten_deleteNs (hrun : running s e = true) : Forgotten tenant nsid ((deleteNs s tenant nsid).die e) := by
  unfold deleteNs
  extract_lets s1
  have hs1 : Forgotten tenant nsid (s1.die e) := by
    unfold s1 dropXtsRecord
    split
    · rw [die_journalDel]
      exact forgotten_removeNs hrun
    · exact forgotten_removeNs hrun
  split
  · exact forgotten_forgetTenant hs1
  · exact hs1

theorem nsDelete_spec {cid : Nat} (hrun : running s e = true) (hc : HasCmd s d cid Op.nsDelete c)
    (hns : (nsOf (s.die 0) (c.hdr.arg % 4096) c.hdr.nsid).isSome = true) :
    ∃ t, exec (.nsDelete d cid) s = .next t ∧ cmdOf (t.die d) cid = none ∧ Forgotten (c.hdr.arg % 4096) c.hdr.nsid (t.die e) := by
  refine ⟨fail (rootsNow (deleteNs s (c.hdr.arg % 4096) c.hdr.nsid)) d c Stat.ok, ?_, cid_of_cmdOf hc.2.1 ▸ complete_gone .., ?_⟩
  · refine congrArg Host.Outcome.next ((onCmd_of_hasCmd hc).trans (if_neg ?_))
    rwa [Bool.not_eq_true, Option.isNone_eq_false_iff]
  · have hroots := (Keeps.rfl (ρ := noReg) (deleteNs s (c.hdr.arg % 4096) c.hdr.nsid)).rootsNow
    exact (forgotten_deleteNs hrun).congr (listing_fail.trans (listing_of_rooted (hroots.die e)))

end Sys2Proof.Placement
end

section
/-! ### FORMAT -/
namespace Sys2Proof.Placement
open Sys2Proof Sys2Proof.Machine Sys2Proof.Laws Sys2Proof.Safety Sys2Proof.Access Sys2Proof.Kocel
variable {s0 s t u : State} {d e : DieId} {x y : Die} {c : Cmd} {b : Bytes} {id epoch cid : Nat} {place : List Nat}
  {g : Machine.Group}

theorem Keeps.of_upkept (h : Keeps listing noReg s0 s) (k : Keeps upkept noInt s t) : Keeps listing noReg s0 t :=
  h.trans (k.mono (fun _ _ => listing_of_upkept) fun _ => False.elim)

theorem Keeps.of_rooted (h : Keeps listing noReg s0 s) (k : Keeps rooted noReg s t) : Keeps listing noReg s0 t :=
  h.trans (k.mono (fun _ _ => listing_of_rooted) fun _ h => h)

/-- The end of an erase is upkeep of the die. -/
protected theorem Keeps.eraseDone (h : Keeps upkept noInt s0 s) : Keeps upkept noInt s0 (eraseDone s d g) := by
  unfold Machine.eraseDone
  extract_lets w s1 s2 s3
  have hs1 : Keeps upkept noInt s0 s1 := h.updDie fun _ => upkept_updGroup.trans upkept_jAppendTo
  have hs2 : Keeps upkept noInt s0 s2 := .ite hs1.raiseInt hs1
  have hs3 : Keeps upkept noInt s0 s3 := hs2.fillRescue
  clear_value s3
  refine .ite ?_ hs3.fgrReval
  unfold endVictim
  exact (hs3.updDie fun _ => upkept_fgr).fgrReval

/-- So are the erases before a format's root. `fillRescue` is a variable while the recursion unfolds, so that the kernel does not
run it on its fuel. -/
theorem Keeps.eraseForRoot {n : Nat} (h : Keeps upkept noInt s0 s) : Keeps upkept noInt s0 (eraseForRoot d n s) := by
  obtain ⟨fill, hfill⟩ : ∃ fill, fill = Machine.fillRescue := ⟨_, rfl⟩
  delta Machine.eraseForRoot Machine.eraseForRoot._f
  rw [← hfill]
  induction n generalizing s with
  | zero => exact h
  | succ n ih =>
    have hfilled : Keeps upkept noInt s0 (fill s d) := hfill ▸ h.fillRescue
    refine .ite hfilled ?_
    split
    · exact hfilled
    · exact ih (Keeps.eraseDone (hfilled.updDie fun _ => upkept_jAppendTo))

theorem Keeps.queueErases (h : Keeps listing noReg s0 s) : Keeps listing noReg s0 (queueErases s d g) :=
  h.foldl fun _ _ ht => ht.updDie fun _ => rfl

theorem Keeps.queueFormatErases (h : Keeps listing noReg s0 s) : Keeps listing noReg s0 (queueFormatErases s d) :=
  h.foldl fun _ _ ht => (ht.updDie fun _ => listing_of_upkept upkept_jAppendTo).queueErases

theorem Keeps.countMarks {before : List Machine.Group} (h : Keeps listing noReg s0 s) :
    Keeps listing noReg s0 (countMarks before s d) := by
  unfold Machine.countMarks
  extract_lets n whole s1 s2
  have hs1 : Keeps listing noReg s0 s1 := Keeps.regSet (Keeps.regSet h id) id
  have hs2 : Keeps listing noReg s0 s2 :=
    Keeps.foldl (Keeps.regSet hs1 id) fun _ _ ht => ht.recordEvent fun _ _ => rfl
  exact .ite h (hs2.updDie fun _ => rfl)

/-- A die that a format has emptied: no entries, no namespaces, no ring; it is mounted, and COMB has the placement (R183). -/
structure Emptied (place : List Nat) (x : Die) : Prop where
  kv      : x.map.kv = []
  dense   : x.map.dense = []
  nstab   : x.map.nstab = []
  ring    : x.map.ring = []
  mounted : x.map.mounted = true
  comb    : x.comb.placement = place.map toCombPlace

theorem Emptied.congr (h : Emptied place x) (hl : listing y = listing x) : Emptied place y := by
  have hmap : (listing y).map = (listing x).map := congrArg Die.map hl
  have hcomb : y.comb = x.comb := (congrArg Die.comb hl : (listing y).comb = (listing x).comb)
  exact ⟨(congrArg MapEng.kv hmap : (listing y).map.kv = (listing x).map.kv).trans h.kv,
    (congrArg MapEng.dense hmap : (listing y).map.dense = (listing x).map.dense).trans h.dense,
    (congrArg MapEng.nstab hmap : (listing y).map.nstab = (listing x).map.nstab).trans h.nstab,
    (congrArg MapEng.ring hmap : (listing y).map.ring = (listing x).map.ring).trans h.ring,
    (congrArg MapEng.mounted hmap : (listing y).map.mounted = (listing x).map.mounted).trans h.mounted,
    hcomb ▸ h.comb⟩

/-- A format of a die empties it, and leaves what the other dies hold, and the package, alone. -/
theorem formatOn_spec : Emptied place ((formatOn b id place epoch s e).die e)
    ∧ (∀ f, f ≠ e → listing ((formatOn b id place epoch s e).die f) = listing (s.die f))
    ∧ (formatOn b id place epoch s e).pkg = s.pkg := by
  unfold formatOn
  extract_lets s1 s2 s3 s4
  obtain ⟨hheld, hpkg⟩ := listing_failAll (st := Stat.notFound) (d := e) ((s.die e).csq.cmds.filter waitingData) s
  have htail : Keeps listing noReg s2 (fgrReval (spaceChanged (spaceCode (s.die e)) (queueFormatErases s4 e) e) e) := by
    have hs3 : Keeps listing noReg s2 s3 := (Keeps.rfl s2).countMarks
    have hs4 : Keeps listing noReg s2 s4 :=
      (hs3.of_upkept (Keeps.rfl s3).eraseForRoot).of_rooted (Keeps.rfl _).checkpoint
    exact hs4.queueFormatErases.spaceChanged.of_upkept (Keeps.rfl _).fgrReval
  refine ⟨Emptied.congr ?_ (htail.die e), fun f hf => (htail.die f).trans ?_, htail.pkg.trans hpkg⟩
  · unfold s2
    rw [die_updDie_self]
    exact ⟨rfl, rfl, rfl, rfl, rfl, rfl⟩
  · unfold s2
    rw [die_updDie_ne _ _ _ _ hf]
    exact hheld f

/-- A format empties every die that runs and takes its placement, with a new epoch (R183). -/
theorem format_spec (hrun : running s e = true) : Emptied (placementOf s b) ((format s b).die e)
    ∧ (format s b).pkg.placement = placementOf s b ∧ (format s b).pkg.epoch = s.pkg.epoch + 1 ∧ (format s b).pkg.purged = false := by
  unfold format
  extract_lets r id place epoch s1 pkg s2
  have hpkg : (overDies (formatOn b id place epoch) s2 (upDies s)).pkg = s2.pkg :=
    overDies_keeps (P := fun t => t.pkg = s2.pkg) (fun t f ht => formatOn_spec.2.2.trans ht) _ rfl
  rw [hpkg]
  refine ⟨?_, rfl, rfl, rfl⟩
  refine overDies_brings (P := fun t => Emptied place (t.die e)) (fun t => formatOn_spec.1) (fun t f ht => ?_) (upDies s) s2
    (.inl (mem_upDies.2 hrun))
  by_cases hf : e = f
  · exact hf ▸ formatOn_spec.1
  · exact ht.congr (formatOn_spec.2.1 e hf)

/-- A FORMAT that is not refused is answered once every die has been emptied. -/
theorem exec_format (hc : HasCmd s d cid Op.format c) (hok : formatRefused s c.inline = false) (hall : allRun s = true) :
    ∃ st, exec (.format d cid) s = .next (fail (format s c.inline) d c st) := by
  have hexec : exec (.format d cid) s = .next (if (upDies (format s c.inline)).any (fun e =>
      decide (anchorBlocks ((format s c.inline).die e) = 0)) then fail (format s c.inline) d c Stat.mediaError
      else fail (format s c.inline) d c Stat.ok) := by
    refine congrArg Host.Outcome.next ((onCmd_of_hasCmd hc).trans ?_)
    rw [hok, hall, if_neg Bool.false_ne_true]
    exact if_neg Bool.false_ne_true
  split at hexec
  · exact ⟨_, hexec⟩
  · exact ⟨_, hexec⟩

theorem exec_format_waits (hc : HasCmd s d cid Op.format c) (hok : formatRefused s c.inline = false) (hall : allRun s = false) :
    exec (.format d cid) s = .next s := by
  refine congrArg Host.Outcome.next ((onCmd_of_hasCmd hc).trans ?_)
  rw [hok, hall, if_neg Bool.false_ne_true]
  exact if_pos rfl

end Sys2Proof.Placement
end

section
/-! ### NS_CREATE -/
namespace Sys2Proof.Placement
open Sys2Proof Sys2Proof.Machine Sys2Proof.Laws Sys2Proof.Safety Sys2Proof.Access Sys2Proof.Kocel
variable {s0 s t u : State} {d e : DieId} {x y : Die} {c : Cmd} {k : Session} {cid tenant nsid m : Nat} {n : NsEntry} {key : Bytes}

/-- Whether a die has a tenant's hash key. -/
def hasHashKey (tenant : Nat) (x : Die) : Prop := (assocGet tenant x.hashKeys).isSome = true

theorem isSome_assocGet_assocSet {α β : Type} [DecidableEq α] {a a' : α} {v : β} {l : List (α × β)}
    (h : (assocGet a l).isSome = true) : (assocGet a (assocSet a' v l)).isSome = true := by
  induction l with
  | nil => cases h
  | cons p l ih =>
    obtain ⟨b, w⟩ := p
    by_cases hb : b = a'
    · have hset : assocSet a' v ((b, w) :: l) = (a', v) :: l := if_pos hb
      subst hb
      rw [hset]
      unfold assocGet at h ⊢
      split
      · rfl
      · next hne => rwa [if_neg hne] at h
    · have hset : assocSet a' v ((b, w) :: l) = (b, w) :: assocSet a' v l := if_neg hb
      rw [hset]
      unfold assocGet at h ⊢
      split
      · rfl
      · next hne =>
        rw [if_neg hne] at h
        exact ih h

/-- A state that answers as another one does, in which no hash key is gone. -/
structure Steady (s t : State) : Prop where
  answers : AnswersAs s t
  keys    : ∀ e tenant, hasHashKey tenant (s.die e) → hasHashKey tenant (t.die e)

protected theorem Steady.rfl (s : State) : Steady s s := ⟨.rfl s, fun _ _ h => h⟩

protected theorem Steady.trans (h : Steady s t) (k : Steady t u) : Steady s u :=
  ⟨h.answers.trans k.answers, fun e a ha => k.keys e a (h.keys e a ha)⟩

theorem steady_of_dies (hdies : t.dies = s.dies) (hpart : t.part = s.part) : Steady s t := by
  have hdie : ∀ e, t.die e = s.die e := fun e => congrArg (fun v : Vector Die 8 => v.get e) hdies
  exact ⟨answersAs_of_dies hdies hpart, fun e a ha => by rwa [hdie]⟩

theorem steady_drawBytes : Steady s (drawBytes s m).2 := steady_of_dies rfl rfl

theorem steady_journalPut {b : CjBody} : Steady s (journalPut s b) :=
  steady_of_dies journalPut_keeps.1 journalPut_keeps.2.1

/-- A change of a die beside what answers its commands. -/
theorem steady_updDie {f : Die → Die} (hfront : ∀ x, front (f x) = front x)
    (hkeys : ∀ x tenant, hasHashKey tenant x → hasHashKey tenant (f x)) : Steady s (s.updDie d f) := by
  refine ⟨answersAs_setDie (hfront _), fun e a ha => ?_⟩
  rw [die_updDie]
  split
  · next he => exact hkeys _ a (he ▸ ha)
  · exact ha

theorem steady_updCry {f : Die → Cry} : Steady s (s.updDie d fun x => { x with cry := f x }) :=
  steady_updDie (fun _ => rfl) fun _ _ h => h

theorem steady_overDies {f : State → DieId → State} (hf : ∀ t e, Steady t (f t e)) (l : List DieId) : Steady s (overDies f s l) :=
  overDies_keeps (P := Steady s) (fun t e ht => ht.trans (hf t e)) l (.rfl s)

theorem drawHashKey_state : (drawHashKey m s).2.dies = s.dies ∧ (drawHashKey m s).2.part = s.part := by
  induction m generalizing s with
  | zero => exact ⟨rfl, rfl⟩
  | succ m ih =>
    unfold drawHashKey
    dsimp only
    split
    · exact ih
    · exact ⟨rfl, rfl⟩

/-- The first namespace of a tenant brings its hash key to each die that runs (R143, R347). -/
theorem ensureHashKey_spec (hrun : running s e = true) : Steady s (ensureHashKey s tenant)
    ∧ (nsCount (s.die 0) tenant = 0 → hasHashKey tenant ((ensureHashKey s tenant).die e)) := by
  unfold ensureHashKey
  split
  · next h => exact ⟨.rfl s, fun h0 => absurd h (by omega)⟩
  · extract_lets r
    obtain ⟨hdies, hpart⟩ := drawHashKey_state (m := 8) (s := s)
    refine ⟨(steady_of_dies hdies hpart).trans (steady_overDies (fun t f => ?_) _), fun _ => ?_⟩
    · exact steady_updDie (fun _ => rfl) fun _ _ h => isSome_assocGet_assocSet h
    · refine overDies_brings (P := fun t => hasHashKey tenant (t.die e)) (fun t => ?_) (fun t f ht => ?_) _ _
        (.inl (mem_upDies.2 hrun))
      · rw [die_updDie_self]
        exact congrArg Option.isSome (assocGet_assocSet ..)
      · rw [die_updDie]
        split
        · exact congrArg Option.isSome (assocGet_assocSet ..)
        · exact ht

theorem steady_installData : Steady s (installData s tenant key) := by
  unfold installData
  extract_lets g s1 s2
  have hs1 : Steady s s1 := by
    unfold s1
    split
    · exact .rfl s
    · exact steady_journalPut
  exact (hs1.trans steady_journalPut).trans (steady_overDies (fun _ _ => steady_updCry) _)

theorem steady_ensureGen : Steady s (ensureGen s tenant) := by
  unfold ensureGen
  split
  · exact .rfl s
  · exact steady_drawBytes.trans steady_installData

theorem steady_installXts : Steady s (installXts s tenant nsid key) :=
  steady_journalPut.trans (steady_overDies (fun _ _ => steady_updCry) _)

theorem steady_rootsNow : Steady s (rootsNow s) := by
  have hkept : Keeps rooted noReg s (rootsNow s) := (Keeps.rfl s).rootsNow
  refine ⟨(hkept.mono (fun _ _ => front_of_rooted) fun _ h => h).answersAs, fun e a ha => ?_⟩
  have hkeys : ((rootsNow s).die e).hashKeys = (s.die e).hashKeys :=
    (congrArg Die.hashKeys (hkept.die e) : (rooted ((rootsNow s).die e)).hashKeys = (rooted (s.die e)).hashKeys)
  unfold hasHashKey
  rwa [hkeys]

/-- A die has a namespace in its table. -/
def Entered (n : NsEntry) (x : Die) : Prop := ∃ i, { n with slot := i } ∈ x.map.nstab

theorem entered_addNs : Entered n (addNs x n) := ⟨_, List.mem_append_right _ (List.mem_singleton.2 rfl)⟩

theorem Entered.congr (h : Entered n x) (hl : listing y = listing x) : Entered n y :=
  (hl ▸ (h : Entered n (listing x)) : Entered n (listing y))

/-- Each die of a list enters the namespace in its table (R196). -/
theorem addNs_spec {l : List DieId} (he : e ∈ l) :
    Steady s (overDies (fun s e => s.updDie e (fun x => addNs x n)) s l)
      ∧ Entered n ((overDies (fun s e => s.updDie e (fun x => addNs x n)) s l).die e) := by
  refine ⟨steady_overDies (fun t f => ?_) _, ?_⟩
  · exact steady_updDie (fun _ => rfl) fun _ _ h => h
  · refine overDies_brings (P := fun t => Entered n (t.die e)) (fun t => ?_) (fun t f ht => ?_) _ _ (.inl he)
    · rw [die_updDie_self]
      exact entered_addNs
    · rw [die_updDie]
      split
      · exact entered_addNs
      · exact ht

/-- A new namespace stands in the table of each die that runs, where its tenant then has a hash key (R339, R143). -/
theorem createNs_spec (hrun : running s e = true) : Steady s (createNs s n none) ∧ Entered n ((createNs s n none).die e)
    ∧ (nsCount (s.die 0) n.tenant = 0 → hasHashKey n.tenant ((createNs s n none).die e)) := by
  unfold createNs
  extract_lets s1 r s2
  obtain ⟨hsteady, hkey⟩ := ensureHashKey_spec (tenant := n.tenant) hrun
  have hs1 : Steady (ensureHashKey s n.tenant) s1 := steady_ensureGen
  have hs2 : Steady s1 s2 := by
    unfold s2
    split
    · exact steady_drawBytes.trans steady_installXts
    · exact .rfl s1
  have hfirst : Steady (ensureHashKey s n.tenant) s2 := hs1.trans hs2
  obtain ⟨hadd, hentered⟩ := addNs_spec (s := s2) (n := n) (mem_upDies.2 hrun)
  have hlast := (hfirst.trans hadd).trans steady_rootsNow
  have hroots := (Keeps.rfl (ρ := noReg) (overDies (fun s e => s.updDie e (fun x => addNs x n)) s2 (upDies s))).rootsNow
  exact ⟨hsteady.trans hlast, hentered.congr (listing_of_rooted (hroots.die e)), fun h0 => hlast.keys e _ (hkey h0)⟩

/-- An NS_CREATE that draws its keys and is not refused. -/
theorem nsCreate_eq (hparse : parseNs c.hdr.nsid c.inline = n) (hok : nsOk c.hdr.nsid c.inline = true)
    (hrefused : nsRefused (s.die 0) n = false) (hspace : nsNoSpace s n = false) (hwrapped : nsWrapped c.inline = false) :
    nsCreate s d c = fail (createNs s n none) d c Stat.ok := by
  unfold nsCreate
  dsimp only
  rw [hparse, hok, hrefused, hspace, hwrapped]
  rfl

theorem nsCreate_spec (hrun : running s e = true) (hc : HasCmd s d cid Op.nsCreate c)
    (heq : nsCreate s d c = fail (createNs s n none) d c Stat.ok) (hk : CanReply s c k 0) :
    ∃ t, exec (.nsCreate d cid) s = .next t ∧ cmdOf (t.die d) cid = none
      ∧ Replied t c k (replyBytes Op.nsCreate Stat.ok 0 0 0 0 []) ∧ Entered n (t.die e)
      ∧ (nsCount (s.die 0) n.tenant = 0 → hasHashKey n.tenant (t.die e)) := by
  obtain ⟨hsteady, hentered, hkey⟩ := createNs_spec (n := n) hrun
  have hexec : exec (.nsCreate d cid) s = .next (onCmd s d cid Op.nsCreate fun s c => nsCreate s d c) := rfl
  obtain ⟨hnext, hgone, hreply⟩ := exec_fail hexec hc heq hsteady.answers hk
  refine ⟨_, hnext, hgone, hreply, hentered.congr listing_fail, fun h0 => ?_⟩
  have hkeys : ((fail (createNs s n none) d c Stat.ok).die e).hashKeys = ((createNs s n none).die e).hashKeys :=
    (congrArg Die.hashKeys listing_fail : (listing ((fail (createNs s n none) d c Stat.ok).die e)).hashKeys
      = (listing ((createNs s n none).die e)).hashKeys)
  unfold hasHashKey
  rw [hkeys]
  exact hkey h0

/-- Settles O26: NS_CREATE enters the namespace and draws a first hash key on each die in turn (`createNs_spec`), NS_DELETE leaves
nothing of it (`forgotten_deleteNs`), and FORMAT empties each die (`formatOn_spec`); roots, erases and answers to commands change
nothing of what a die holds (`listing`). -/
theorem namespaces : Obligations.Namespaces := by
  unfold Obligations.Namespaces
  intro s d e cid c hrun
  refine ⟨fun n k hc hparse hok hrefused hspace hwrapped hk => ?_, fun x hc hx hns => ?_, fun hc hok hall => ?_, exec_format_waits⟩
  · exact nsCreate_spec hrun hc (nsCreate_eq hparse hok hrefused hspace hwrapped) hk
  · subst hx
    exact nsDelete_spec hrun hc hns
  · obtain ⟨st, hexec⟩ := exec_format hc hok hall
    obtain ⟨hempty, hplace, hepoch, hpurged⟩ := format_spec (b := c.inline) hrun
    obtain ⟨hkv, hdense, hnstab, hring, hmounted, hcomb⟩ :=
      hempty.congr (listing_fail (s := format s c.inline) (d := d) (c := c) (st := st))
    have hpkg : (fail (format s c.inline) d c st).pkg = (format s c.inline).pkg := pkg_fail
    exact ⟨_, hexec, cid_of_cmdOf hc.2.1 ▸ complete_gone .., hkv, hdense, hnstab, hring, hmounted, hpkg ▸ hplace, hcomb,
      hpkg ▸ hepoch, hpkg ▸ hpurged⟩

end Sys2Proof.Placement
end
